-- ==== Sys2Proof/Word.lean ====
section
/-!
DEFINITION. The word types of the device and its sparse tables: what the manual treats as bits is a bit vector, a
table of like things under a number is a list of pairs in one canonical form (`Tab`).
-/

namespace Sys2Proof

/-- A byte. -/
abbrev W8 := BitVec 8
/-- A half word. -/
abbrev W16 := BitVec 16
/-- A register word (R305). -/
abbrev W32 := BitVec 32
/-- A 64-bit value: a key, a scalar register, a pair of registers. -/
abbrev W64 := BitVec 64
/-- A vector register (R46). -/
abbrev W512 := BitVec 512

/-- A table of values under numbers: strictly rising keys, and no entry equal to the value an unlisted key holds. -/
abbrev Tab (α : Type) := List (Nat × α)

/-- An instant or a span of show time, in units of 2^-48 ns (R17). -/
abbrev Time := Int

end Sys2Proof
end

