-- ==== Sys2Proof/Syntax.lean ====
section
/-!
DEFINITION. The commands of the device: one constructor for each row of spec/opcode_table.json, with the operands that
the row needs. A command that is an access names its requester; a command that is a happening names where it happens
and what arrives from outside.
-/

namespace Sys2Proof

/-- Who makes an access to a register (R306): the host through PCIe, or the control firmware. -/
inductive Req where
  | host
  | fw
  deriving DecidableEq, Repr

/-- A brew slot: swarm, physical firefly (16: the spare) and slot (R50, R80). -/
structure SlotId where
  s : Fin 8
  f : Fin 17
  j : Fin 8
  deriving DecidableEq, Repr

/-- Who executes an instruction: a brew slot, or a control core (R82). -/
inductive Who where
  | slot (x : SlotId)
  | core (c : Fin 4)
  deriving DecidableEq, Repr

/-- The states of a unit in a pair (R272). -/
inductive PairMode where
  | solo
  | join
  | sync
  | cozy
  | taking
  | active
  | degraded
  deriving DecidableEq, Repr

/-- A heartbeat (R291): the sender's state, PAIR_ID strap, unique ID, send stamp, last boundary and CONFIRMED. -/
structure Heartbeat where
  mode : PairMode
  unit : Bool
  uid : BitVec 128
  stamp : W64
  frame : W64
  confirmed : W64
  deriving DecidableEq, Repr

/-- What the active mirrors (R280, R283): a received frame with its port and stamp (short time and FRAC), or a push to the latched
host port with the boundary that latches it. -/
inductive Mirrored where
  | frame (p : Fin 10) (stamp : W64) (frac : W32) (data : List W8)
  | push (boundary key : W64) (slot : Fin 8) (value : W64) (cancel : Bool)
  deriving DecidableEq, Repr

/-- A message of the TIME channel: the slaved unit's exchange with the stamp t1 (R278), or what the active sends (R279): a step by
seconds, nanoseconds and FRAC, a set, or its frame-clock state. -/
inductive TimeMessage where
  | ask (t1 : Time)
  | step (sec : W64) (ns frac : W32)
  | set (sec : W64) (ns frac : W32)
  | frame (bias : W64) (holding : Bool) (sec : W64) (ns num den policy holdMax : W32)
  deriving DecidableEq, Repr

/-- An attestation (R369): the sender's certificate, the nonce it asks the partner to sign, its lifecycle state, firmware measurement and pair
key ID, and its DIK signature over the receiver's nonce, that state and that measurement. -/
structure Attestation where
  cert : List W8
  nonce : List W8
  lc : W8
  measurement : List W8
  keyId : W64
  sig : List W8
  deriving DecidableEq, Repr

/-- A message on the SCARAB channel (R369): a request for FORM with the sender's nonce, an attestation, or the sender's ephemeral public key
with its DIK signature. -/
inductive ScarabMessage where
  | request (nonce : List W8)
  | attestation (a : Attestation)
  | share (pub sig : List W8)
  deriving DecidableEq, Repr

/-- What a write of SCARAB_SESS_CMD asks for (R371): session i opened from a peer's ephemeral key and certificate, or a message sealed or
opened under it. -/
inductive SessOp where
  | establish (i : Fin 16) (key cert : List W8)
  | seal (i : Fin 16) (message : List W8)
  | unseal (i : Fin 16) (message : List W8)
  deriving DecidableEq, Repr

/-- The instructions of the TAP that change the device (R341); every other one is BYPASS, IDCODE or SAMPLE/PRELOAD to it. -/
inductive TapInstr where
  | bypass
  | idcode
  | sample
  | extest
  | extestPulse
  | extestTrain
  | clamp
  | highz
  deriving DecidableEq, Repr

/-- What a start-up slice that did not simply pass found (R338, R344): its target, a failure or a timeout, and the REPAIRS, ERRORS and DETAIL of
its record. -/
structure SliceReport where
  target : W16
  timeout : Bool
  pass : Bool
  repairs : W16
  errors : W16
  detail : W32
  deriving DecidableEq, Repr

/-- How an I2C transfer ends (R392). -/
inductive I2cEnd where
  | done
  | nack
  | arbLost
  deriving DecidableEq, Repr

/-- The commands. Each constructor is one row of the table, in its order; the docstring names the row and its rule. -/
inductive Instr where
  /-- TICK, R16. -/
  | tick
  /-- TB_INCR_COMMIT, R22. -/
  | tbIncrCommit (req : Req) (v : W32)
  /-- TB_CMD_STEP, R24. -/
  | tbCmdStep (req : Req)
  /-- TB_CMD_SET, R24. -/
  | tbCmdSet (req : Req) (alsoStep : Bool)
  /-- TB_NOW_READ, R21. -/
  | tbNowRead (req : Req)
  /-- TB_SHORT_READ, R21. -/
  | tbShortRead (req : Req)
  /-- REF_LOSS, R30. -/
  | refLoss
  /-- PLL_UNLOCK, R30. -/
  | pllUnlock
  /-- PPS_IN_EDGE, R31. -/
  | ppsInEdge (narrow : Bool)
  /-- PPS_IN_LOST, R31. -/
  | ppsInLost
  /-- TB_PPS_CAP_READ, R31. -/
  | tbPpsCapRead (req : Req)
  /-- PPS_OUT_RISE, R31. -/
  | ppsOutRise
  /-- PPS_OUT_FALL, R31. -/
  | ppsOutFall
  /-- EVT_CAP_EDGE, R32. -/
  | evtCapEdge (n : Fin 4) (rising : Bool) (narrow : Bool)
  /-- TB_EVTCAP_POP, R32. -/
  | tbEvtcapPop (req : Req) (n : Fin 4)
  /-- PER_OUT_ACTIVE_EDGE, R33. -/
  | perOutActiveEdge (n : Fin 4)
  /-- PER_OUT_INACTIVE_EDGE, R33. -/
  | perOutInactiveEdge (n : Fin 4)
  /-- FRM_ENABLE, R36. -/
  | frmEnable (req : Req)
  /-- FRM_DISABLE, R38. -/
  | frmDisable (req : Req)
  /-- FRM_APPLY, R36. -/
  | frmApply (req : Req)
  /-- BOUNDARY_EMIT, R35. -/
  | boundaryEmit
  /-- HOLD_END, R39. -/
  | holdEnd
  /-- FRM_NUMBER_READ, R44. -/
  | frmNumberRead (req : Req)
  /-- HOUSE_SYNC_EDGE, R42. -/
  | houseSyncEdge (rising : Bool) (narrow : Bool)
  /-- HSYNC_LOST, R42. -/
  | hsyncLost
  /-- ALU, R59. -/
  | alu (who : Who)
  /-- IMMEDIATE_OP, R60. -/
  | immediateOp (who : Who)
  /-- LUI, R60. -/
  | lui (who : Who)
  /-- SHIFTI, R60. -/
  | shifti (who : Who)
  /-- NOP, R61. -/
  | nop (who : Who)
  /-- MOVL, R61. -/
  | movl (x : SlotId)
  /-- MOVK, R61. -/
  | movk (x : SlotId)
  /-- MOVFL, R61. -/
  | movfl (x : SlotId)
  /-- CLRFL, R61. -/
  | clrfl (x : SlotId)
  /-- TRAP, R61. -/
  | trap (who : Who)
  /-- BRANCH, R62. -/
  | branch (who : Who)
  /-- JAL, R62. -/
  | jal (who : Who)
  /-- JALR, R62. -/
  | jalr (who : Who)
  /-- LOAD, R63. -/
  | load (who : Who)
  /-- STORE, R63. -/
  | store (who : Who)
  /-- VINT, R65. -/
  | vint (x : SlotId)
  /-- VFIX, R67. -/
  | vfix (x : SlotId)
  /-- VFP, R68. -/
  | vfp (x : SlotId)
  /-- VPRED, R69. -/
  | vpred (x : SlotId)
  /-- VMOVE, R70. -/
  | vmove (x : SlotId)
  /-- VLD, R72. -/
  | vld (x : SlotId)
  /-- VST, R72. -/
  | vst (x : SlotId)
  /-- VGATHER, R73. -/
  | vgather (x : SlotId)
  /-- VSCATTER, R73. -/
  | vscatter (x : SlotId)
  /-- ATOM, R74. -/
  | atom (who : Who)
  /-- FENCE, R75. -/
  | fence (who : Who)
  /-- GETC, R85. -/
  | getc (c : Fin 4)
  /-- SETC, R85. -/
  | setc (c : Fin 4)
  /-- RESUME, R84. -/
  | resume (c : Fin 4)
  /-- DOZE, R85. -/
  | doze (c : Fin 4)
  /-- DOZE_WAKE, R85. -/
  | dozeWake (c : Fin 4)
  /-- CALLP, R85. -/
  | callp (c : Fin 4)
  /-- CORE_INTERRUPT, R84. -/
  | coreInterrupt (c : Fin 4)
  /-- SWARM_ICACHE_INV, R81. -/
  | swarmIcacheInv (req : Req) (sw : Fin 8)
  /-- EMIT, R104. -/
  | emit (x : SlotId)
  /-- EMITV, R105. -/
  | emitv (x : SlotId)
  /-- POUR, R106. -/
  | pour (x : SlotId)
  /-- DELAY, R107. -/
  | delay (x : SlotId)
  /-- END, R108. -/
  | endBrew (x : SlotId)
  /-- CANCEL, R111. -/
  | cancel (x : SlotId)
  /-- KMAKE, R103. -/
  | kmake (x : SlotId)
  /-- KSETF, R103. -/
  | ksetf (x : SlotId)
  /-- KADDF, R103. -/
  | kaddf (x : SlotId)
  /-- KADDI, R103. -/
  | kaddi (x : SlotId)
  /-- KSETT, R103. -/
  | ksett (x : SlotId)
  /-- KGETT, R103. -/
  | kgett (x : SlotId)
  /-- KGETF, R103. -/
  | kgetf (x : SlotId)
  /-- KGETI, R103. -/
  | kgeti (x : SlotId)
  /-- LEAF_ARRIVE, R95. -/
  | leafArrive (sw : Fin 8)
  /-- WAITING_LEAF_DELIVER, R97. -/
  | waitingLeafDeliver (sw : Fin 8)
  /-- DISPATCH, R99. -/
  | dispatch (sw : Fin 8)
  /-- BREW_OVERTIME, R102. -/
  | brewOvertime (x : SlotId)
  /-- CANCEL_ARRIVE, R111. -/
  | cancelArrive (sw : Fin 8)
  /-- MARKER_EXPIRE, R111. -/
  | markerExpire (sw : Fin 8)
  /-- SCHED_TMPL_WRITE, R90. -/
  | schedTmplWrite (req : Req)
  /-- SCHED_TMPL_READ, R90. -/
  | schedTmplRead (req : Req)
  /-- SCHED_LEAF_PUSH_LEAF, R116. -/
  | schedLeafPushLeaf (req : Req) (p : Fin 2) (slot : Fin 8)
  /-- SCHED_LEAF_PUSH_CANCEL, R116. -/
  | schedLeafPushCancel (req : Req) (p : Fin 2)
  /-- HOST_PORT_RELEASE, R116. -/
  | hostPortRelease
  /-- SCHED_ROUTE_SET_WRITE, R94. -/
  | schedRouteSetWrite (req : Req) (v : W32)
  /-- POUR_RESUME, R120. -/
  | pourResume (x : SlotId)
  /-- FLOW_TOMBSTONE, R120. -/
  | flowTombstone
  /-- FLOW_RELEASE, R121. -/
  | flowRelease (f : Fin 4096)
  /-- RECORD_HAND_ON, R126. -/
  | recordHandOn (f : Option (Fin 4096))
  /-- FLOW_EXPIRY, R123. -/
  | flowExpiry (f : Fin 4096)
  /-- FLOW_ENABLE, R124. -/
  | flowEnable (req : Req) (f : Fin 4096) (v : W32)
  /-- FLOW_DISABLE, R124. -/
  | flowDisable (req : Req) (f : Fin 4096) (v : W32)
  /-- FLOW_SKIP, R124. -/
  | flowSkip (req : Req) (f : Fin 4096)
  /-- FLOW_RESET, R124. -/
  | flowReset (req : Req) (f : Fin 4096)
  /-- DELAY_TICK, R132. -/
  | delayTick
  /-- DELAY_DEFERRED_RELEASE, R132. -/
  | delayDeferredRelease (sw : Fin 8)
  /-- DELAY_FLUSH, R135. -/
  | delayFlush (req : Req) (sw : Fin 8) (lists : BitVec 4)
  /-- SAMPLE2, R146. -/
  | sample2 (x : SlotId)
  /-- SAMPLE3, R149. -/
  | sample3 (x : SlotId)
  /-- MATRIX, R150. -/
  | matrix (x : SlotId)
  /-- LUT3, R151. -/
  | lut3 (x : SlotId)
  /-- CURVE, R152. -/
  | curve (x : SlotId)
  /-- DITHER, R153. -/
  | dither (x : SlotId)
  /-- INFUSER_QUEUE_ACCEPT, R138. -/
  | infuserQueueAccept (sw : Fin 8)
  /-- INFUSER_RESULT, R138. -/
  | infuserResult (sw : Fin 8)
  /-- KETTLE_SCRUB, R160. -/
  | kettleScrub
  /-- KETTLE_WINDOW_READ, R162. -/
  | kettleWindowRead (off : BitVec 29) (len : Nat)
  /-- KETTLE_WINDOW_WRITE, R162. -/
  | kettleWindowWrite (off : BitVec 29) (data : List W8)
  /-- KET_SURF_WRITE, R167. -/
  | ketSurfWrite (req : Req)
  /-- KET_SURF_READ, R163. -/
  | ketSurfRead (req : Req)
  /-- RHEAD_ENABLE, R170. -/
  | rheadEnable (req : Req) (h : Fin 4) (v : W32)
  /-- RHEAD_DISABLE, R170. -/
  | rheadDisable (req : Req) (h : Fin 4) (v : W32)
  /-- TIMING_APPLY, R170. -/
  | timingApply (req : Req) (h : Fin 4)
  /-- VSYNC_START, R172. -/
  | vsyncStart (h : Fin 4)
  /-- ABANDONED_WAIT, R172. -/
  | abandonedWait (h : Fin 4)
  /-- LATCH_INSTANT, R181. -/
  | latchInstant (h : Fin 4)
  /-- RHEAD_COMMIT, R181. -/
  | rheadCommit (req : Req) (h : Fin 4)
  /-- SCAN_LATE, R158. -/
  | scanLate (h : Fin 4) (block : BitVec 23)
  /-- HPD, R187. -/
  | hpd (h : Fin 4) (high : Bool) (trained : Bool)
  /-- SPORT_ENABLE, R193. -/
  | sportEnable (req : Req) (p : Fin 10) (v : W32)
  /-- SPORT_DISABLE, R211. -/
  | sportDisable (req : Req) (p : Fin 10) (v : W32)
  /-- LINK_UP, R194. -/
  | linkUp (p : Fin 10) (rate : Fin 4) (half : Bool)
  /-- LINK_DOWN, R211. -/
  | linkDown (p : Fin 10)
  /-- LPORT_DUPLEX_CHANGE, R215. -/
  | lportDuplexChange (n : Fin 2)
  /-- TXQ_ENABLE, R195. -/
  | txqEnable (req : Req) (p : Fin 10) (q : Fin 9) (v : W32)
  /-- TXQ_DISABLE, R195. -/
  | txqDisable (req : Req) (p : Fin 10) (q : Fin 9) (v : W32)
  /-- TXQ_TAIL_WRITE, R195. -/
  | txqTailWrite (req : Req) (p : Fin 10) (q : Fin 9) (v : W32)
  /-- TX_DESC_READ, R197. -/
  | txDescRead (p : Fin 10) (q : Fin 9) (got : Nat)
  /-- LQ_OFFER, R201. -/
  | lqOffer (p : Fin 10)
  /-- PACKER_OFFER, R202. -/
  | packerOffer (p : Fin 10)
  /-- TIMED_LAUNCH, R204. -/
  | timedLaunch (p : Fin 10)
  /-- WINDOW_END, R203. -/
  | windowEnd (p : Fin 10)
  /-- UNTIMED_START, R206. -/
  | untimedStart (p : Fin 10)
  /-- TX_FRAME_END, R198. -/
  | txFrameEnd (p : Fin 10) (timed : Bool)
  /-- TX_UNDERRUN, R207. -/
  | txUnderrun (p : Fin 10)
  /-- PAUSE_RECEIVE, R210. -/
  | pauseReceive (p : Fin 10) (data : List W8)
  /-- PAUSE_EXPIRE, R210. -/
  | pauseExpire (p : Fin 10)
  /-- PREEMPT_VERIFY, R208. -/
  | preemptVerify (p : Fin 10) (ok : Bool)
  /-- PREEMPT_RESUME, R208. -/
  | preemptResume (p : Fin 10)
  /-- COLLISION, R214. -/
  | collision (n : Fin 2)
  /-- BACKOFF_EXPIRE, R214. -/
  | backoffExpire (n : Fin 2)
  /-- RX_SFD, R232. -/
  | rxSfd (p : Fin 10)
  /-- RX_BUFFER_NEED, R229. -/
  | rxBufferNeed (p : Fin 10) (data : List W8)
  /-- RX_FRAME_END, R228. -/
  | rxFrameEnd (p : Fin 10) (data : List W8) (err : Bool)
  /-- RXQ_ENABLE, R225. -/
  | rxqEnable (req : Req) (p : Fin 10) (q : Fin 8) (v : W32)
  /-- RXQ_DISABLE, R239. -/
  | rxqDisable (req : Req) (p : Fin 10) (q : Fin 8) (v : W32)
  /-- RXQ_TAIL_WRITE, R231. -/
  | rxqTailWrite (req : Req) (p : Fin 10) (q : Fin 8) (v : W32)
  /-- RING_WM_WRITE, R239. -/
  | ringWmWrite (req : Req) (p : Fin 10) (q : Fin 8) (v : W32)
  /-- SAUCER_POP, R234. -/
  | saucerPop (req : Req) (p : Fin 10)
  /-- PACK_UNIV_WRITE, R243. -/
  | packUnivWrite (req : Req)
  /-- PACK_UNIV_READ, R243. -/
  | packUnivRead (req : Req)
  /-- SACN_RECORD, R245. -/
  | sacnRecord
  /-- RECORD_DEADLINE, R246. -/
  | recordDeadline (u : W16)
  /-- SYNC_PACKET_BUILD, R250. -/
  | syncPacketBuild (p : Fin 8)
  /-- DISCOVERY, R251. -/
  | discovery
  /-- SACN_IN_PACKET, R253. -/
  | sacnInPacket
  /-- IN_LOSS, R254. -/
  | inLoss (e : Fin 4096)
  /-- PACK_IN_WRITE, R268. -/
  | packInWrite (req : Req)
  /-- PACK_IN_READ, R268. -/
  | packInRead (req : Req)
  /-- ST2110_PACKET, R255. -/
  | st2110Packet
  /-- TRAZH_COMPOSE, R258. -/
  | trazhCompose (h : Fin 4)
  /-- DMX_RECORD, R262. -/
  | dmxRecord (n : Fin 16)
  /-- DMX_RECORD_DEADLINE, R262. -/
  | dmxRecordDeadline (n : Fin 16)
  /-- DMX_BREAK, R262. -/
  | dmxBreak (n : Fin 16)
  /-- DMX_FRAME_END, R261. -/
  | dmxFrameEnd (n : Fin 16)
  /-- RDM_GO, R263. -/
  | rdmGo (req : Req) (n : Fin 16) (noResp : Bool)
  /-- RDM_REQUEST_SEND, R263. -/
  | rdmRequestSend (n : Fin 16)
  /-- RDM_REPLY, R263: the bytes, and how many nanoseconds ago its break began, if it has one. -/
  | rdmReply (n : Fin 16) (data : List W8 × Option Nat)
  /-- RDM_TIMEOUT, R263. -/
  | rdmTimeout (n : Fin 16)
  /-- DMX_RX_FRAME, R264. -/
  | dmxRxFrame (n : Fin 16) (breakNs : Nat) (ago : Nat) (data : List W8) (framing : Bool)
  /-- RDM_REQUEST_RX, R264: the bytes, and how many nanoseconds ago its break began. -/
  | rdmRequestRx (n : Fin 16) (data : List W8 × Nat)
  /-- RDM_LATE, R264. -/
  | rdmLate (n : Fin 16)
  /-- LTC_RX_FRAME, R265. -/
  | ltcRxFrame (tc : W32) (user : W32) (ago : Nat)
  /-- LTC_RX_POP, R265. -/
  | ltcRxPop (req : Req)
  /-- LTC_TX_FRAME, R266. -/
  | ltcTxFrame
  /-- MIDI_RX_BYTE, R267. -/
  | midiRxByte (b : W8) (ago : Nat)
  /-- MIDI_RX_POP, R267. -/
  | midiRxPop (req : Req)
  /-- MIDI_TX_WRITE, R267. -/
  | midiTxWrite (req : Req) (v : W32)
  /-- MTC_QUARTER_FRAME, R267. -/
  | mtcQuarterFrame
  /-- PAIR_ENABLE, R271. -/
  | pairEnable (req : Req) (v : W32)
  /-- CRICKET_BLOCK_RX, R275. -/
  | cricketBlockRx (block : List W8)
  /-- CRICKET_RESEND_TIMEOUT, R275. -/
  | cricketResendTimeout
  /-- CRICKET_LINK_UP, R273. -/
  | cricketLinkUp (partner : Attestation)
  /-- TIME_EXCHANGE, R278: an exchange is sent, or its answer with three stamps has come (else they name nothing). -/
  | timeExchange (answer : Bool) (t1 t2 t3 : Time)
  /-- TIME_MESSAGE, R279. -/
  | timeMessage (m : TimeMessage)
  /-- MIRROR_FRAME_RX, R280. -/
  | mirrorFrameRx (m : Mirrored)
  /-- MARK_RX, R281. -/
  | markRx (f : W64)
  /-- MIRROR_LATE, R281. -/
  | mirrorLate
  /-- HEARTBEAT_SEND, R291. -/
  | heartbeatSend
  /-- HEARTBEAT_RX, R291. -/
  | heartbeatRx (hb : Heartbeat)
  /-- LINK_LOST, R293. -/
  | linkLost
  /-- CLAIM, R294. -/
  | claim (highNs : Nat)
  /-- CLAIM_VERIFY, R294. -/
  | claimVerify (high : Bool)
  /-- DIGEST_SEND, R288. -/
  | digestSend (f : W64)
  /-- DIGEST_RX, R288. -/
  | digestRx
  /-- DIGEST_MISSING, R288. -/
  | digestMissing (f : W64)
  /-- MISMATCH_MESSAGE_RX, R289. -/
  | mismatchMessageRx (cls : Fin 4) (index : W16) (f : W64)
  /-- ADJ_RESULT, R289. -/
  | adjResult (partnerFail : Option Bool)
  /-- PAIR_WDOG_KICK, R292. -/
  | pairWdogKick (req : Req)
  /-- WDOG_EXPIRED, R292. -/
  | wdogExpired
  /-- HANDOVER, R298. -/
  | handover (req : Req)
  /-- HANDOVER_MESSAGE_RX, R298. -/
  | handoverMessageRx (f : W64)
  /-- HANDOVER_RELEASE, R298. -/
  | handoverRelease
  /-- HANDOVER_CHECK, R298. -/
  | handoverCheck (high : Bool)
  /-- REJOIN, R290. -/
  | rejoin (req : Req)
  /-- HEALTH_RX, R300. -/
  | healthRx
  /-- CSR_WRITE, R308. -/
  | csrWrite (req : Req) (a : BitVec 24) (v : W32) (whole : Bool)
  /-- PAIR_LO_WRITE, R310. -/
  | pairLoWrite (req : Req) (a : BitVec 24) (v : W32)
  /-- PAIR_HI_WRITE, R310. -/
  | pairHiWrite (req : Req) (a : BitVec 24) (v : W32)
  /-- PAIR_LO_READ, R310. -/
  | pairLoRead (req : Req) (a : BitVec 24)
  /-- IND_DATA_READ, R312. -/
  | indDataRead (req : Req)
  /-- IND_DATA_WRITE, R312. -/
  | indDataWrite (req : Req) (v : W32)
  /-- IND_ERR, R313. -/
  | indErr (req : Req) (write : Bool)
  /-- GUARD_UNLOCK_WRITE, R314. -/
  | guardUnlockWrite (req : Req) (v : W32)
  /-- UNLOCK_EXPIRE, R314. -/
  | unlockExpire (req : Req)
  /-- SEAL_PASS_END, R319. -/
  | sealPassEnd
  /-- SEAL_CAPTURE, R319. -/
  | sealCapture (req : Req)
  /-- QUE_PUSH, R323. -/
  | quePush (req : Req) (q : Fin 1024)
  /-- QUE_POP, R323. -/
  | quePop (req : Req) (q : Fin 1024)
  /-- QUE_SPILL, R322. -/
  | queSpill (q : Fin 1024)
  /-- QUE_REFILL, R322. -/
  | queRefill (q : Fin 1024)
  /-- QUEUE_PTR_MISMATCH, R324. -/
  | queuePtrMismatch (q : Fin 1024)
  /-- QUE_ENABLE, R321. -/
  | queEnable (req : Req) (q : Fin 1024) (v : W32)
  /-- QUE_DISABLE, R321. -/
  | queDisable (req : Req) (q : Fin 1024) (v : W32)
  /-- DMA_ENABLE, R327. -/
  | dmaEnable (req : Req) (c : Fin 16) (v : W32)
  /-- DMA_TAIL_WRITE, R327. -/
  | dmaTailWrite (req : Req) (c : Fin 16) (v : W32)
  /-- DMA_DESC_DONE, R328. -/
  | dmaDescDone (c : Fin 16) (hostData : List W8) (pcieErr : Option Nat)
  /-- SYS_ABORT_SPORT_TXQ, R212. -/
  | sysAbortSportTxq (req : Req) (inst : W16)
  /-- SYS_ABORT_LPORT_TXQ, R212. -/
  | sysAbortLportTxq (req : Req) (inst : W16)
  /-- SYS_ABORT_SPORT_RXQ, R240. -/
  | sysAbortSportRxq (req : Req) (inst : W16)
  /-- SYS_ABORT_LPORT_RXQ, R240. -/
  | sysAbortLportRxq (req : Req) (inst : W16)
  /-- SYS_ABORT_DMA, R331. -/
  | sysAbortDma (req : Req) (inst : W16)
  /-- SYS_ABORT_HEAD, R190. -/
  | sysAbortHead (req : Req) (inst : W16)
  /-- SYS_ABORT_SWARM, R110. -/
  | sysAbortSwarm (req : Req) (inst : W16)
  /-- SYS_ABORT_FLOW, R124. -/
  | sysAbortFlow (req : Req) (inst : W16)
  /-- SYS_ABORT_PACKER, R252. -/
  | sysAbortPacker (req : Req) (inst : W16)
  /-- SYS_ABORT_WEEVIL, R331. -/
  | sysAbortWeevil (req : Req) (inst : W16)
  /-- SYS_ABORT_CRICKET, R302. -/
  | sysAbortCricket (req : Req) (inst : W16)
  /-- ABORT_DONE, R332. -/
  | abortDone
  /-- WEEVIL_RUN, R356. -/
  | weevilRun (req : Req) (r : Fin 4) (v : W32)
  /-- SERVICE_SLICE_START, R342. -/
  | serviceSliceStart (r : Fin 4) (kind : W8) (target : W16)
  /-- ADJ_SLICE_START, R343. -/
  | adjSliceStart
  /-- SLICE_END, R338. -/
  | sliceEnd (r : Fin 4) (pass : Bool) (repairs : W16) (errors : W16) (detail : W32)
  /-- SLICE_TIMEOUT, R337. -/
  | sliceTimeout (r : Fin 4)
  /-- SWARM_SPARE_GO, R357. -/
  | swarmSpareGo (req : Req) (sw : Fin 8) (v : W32)
  /-- CAL_MEASURE, R350. -/
  | calMeasure (req : Req)
  /-- CAL_AUTO_TRIGGER, R350. -/
  | calAutoTrigger (path : Fin 26)
  /-- CAL_MEASUREMENT_END, R348. -/
  | calMeasurementEnd (path : Fin 26) (m1 : BitVec 32) (t1 : W16) (m2 : BitVec 32) (t2 : W16)
  /-- CAL_STORE, R355. -/
  | calStore (req : Req)
  /-- CAL_STORE_DONE, R355. -/
  | calStoreDone (ok : Bool)
  /-- LC_MOVE_PROVISIONED, R360. -/
  | lcMoveProvisioned (req : Req)
  /-- LC_MOVE_DEPLOYED, R360. -/
  | lcMoveDeployed (req : Req)
  /-- LC_MOVE_DIAGNOSTIC, R360. -/
  | lcMoveDiagnostic (req : Req)
  /-- LC_MOVE_RETIRED, R360. -/
  | lcMoveRetired (req : Req)
  /-- LC_CHANGE, R361. -/
  | lcChange
  /-- SVN_RAISE, R365. -/
  | svnRaise (req : Req) (v : W16)
  /-- PKG_OPEN, R367. -/
  | pkgOpen (req : Req)
  /-- PKG_OPEN_DONE, R367. -/
  | pkgOpenDone
  /-- PKG_CLOSE, R368. -/
  | pkgClose (req : Req)
  /-- WINDOW_ZERO_DONE, R368. -/
  | windowZeroDone
  /-- DRAM_WINDOW_ACCESS, R368. -/
  | dramWindowAccess (write : Bool) (off : BitVec 36) (len : Nat) (data : List W8)
  /-- PIN_WRITE, R370. -/
  | pinWrite (req : Req)
  /-- PIN_READ, R375. -/
  | pinRead (req : Req)
  /-- PAIR_FORM, R369. -/
  | pairForm (req : Req)
  /-- SCARAB_MESSAGE_RX, R369. -/
  | scarabMessageRx (m : ScarabMessage)
  /-- SESS_CMD, R371. -/
  | sessCmd (req : Req) (op : SessOp)
  /-- CHAL_NEW, R372. -/
  | chalNew (req : Req)
  /-- CHAL_EXPIRE, R372. -/
  | chalExpire
  /-- TOKEN_GO, R372. -/
  | tokenGo (req : Req)
  /-- POWER_ON, R377. -/
  | powerOn
  /-- SYS_RESET_N, R377. -/
  | sysResetN
  /-- SYS_RESET_SYSTEM, R377. -/
  | sysResetSystem (req : Req)
  /-- SYS_RESET_RECOVERY, R377. -/
  | sysResetRecovery (req : Req)
  /-- LINK_RESET, R377. -/
  | linkReset (ended : Bool)
  /-- STARTUP, R380. -/
  | startup (bootSrc : Bool) (pairId : Bool) (spiFast : Bool) (reports : List SliceReport) (primary : List W8) (secondary : List W8)
  /-- SYS_BOOT_GO, R380. -/
  | sysBootGo (req : Req) (reports : List SliceReport)
  /-- SWARM_CLK_WRITE, R383. -/
  | swarmClkWrite (req : Req) (sw : Fin 8) (v : W32)
  /-- TEMP_SAMPLE, R384. -/
  | tempSample (temps : List W16)
  /-- PMON_START_NEXT, R387. -/
  | pmonStartNext (req : Req) (v : W32)
  /-- PMON_FREEZE_NEXT, R387. -/
  | pmonFreezeNext (req : Req) (v : W32)
  /-- MSIX_ACK, R389. -/
  | msixAck (req : Req) (hi : W32)
  /-- SYS_SW_SET, R388. -/
  | sysSwSet (req : Req) (v : W32)
  /-- GPIO_EDGE, R392. -/
  | gpioEdge (pin : Fin 16) (rising : Bool)
  /-- I2C_GO, R392. -/
  | i2cGo (req : Req) (c : Fin 2) (v : W32)
  /-- I2C_DONE, R392. -/
  | i2cDone (c : Fin 2) (outcome : I2cEnd) (data : List W8)
  /-- I2C_STRETCH_TIMEOUT, R392. -/
  | i2cStretchTimeout (c : Fin 2)
  /-- I2C_ALERT, R392. -/
  | i2cAlert
  /-- SPI_GO, R392. -/
  | spiGo (req : Req)
  /-- SPI_DONE, R392. -/
  | spiDone (data : List W8)
  /-- UART_TX_WRITE, R392. -/
  | uartTxWrite (req : Req) (v : W32)
  /-- UART_RX_BYTE, R392. -/
  | uartRxByte (b : W8)
  /-- UART_RX_POP, R392. -/
  | uartRxPop (req : Req)
  /-- MDIO_GO, R392. -/
  | mdioGo (req : Req) (n : Fin 2) (v : W32)
  /-- MDIO_DONE, R392. -/
  | mdioDone (n : Fin 2) (data : W16)
  /-- PLL_RELOCK, R30. -/
  | pllRelock
  /-- LINE_START, R169. -/
  | lineStart (h : Fin 4)
  /-- TAP_INSTRUCTION, R341: the instruction with the bits of the data scan that follows, if one does. -/
  | tapInstruction (ins : TapInstr × Option (List Bool)) (held : Bool)
  /-- FABRIC_LINK_FATAL, R345. -/
  | fabricLinkFatal (n : Fin 96)
  /-- MIDI_TX_BYTE, R267. -/
  | midiTxByte
  /-- UART_TX_BYTE, R392. -/
  | uartTxByte
  /-- MSIX_UNMASK, R390. -/
  | msixUnmask (masked : Bool)
  deriving DecidableEq, Repr

end Sys2Proof
end

