-- ==== Sys2Proof/Decode.lean ====
section
/-!
DEFINITION. The command that a word of the table spells. spec/opcode_table.json gives no row of this block any bits, so no word spells one:
commands come as happenings and accesses, and the words of instructions in memory are classified in Machine/Fetch.lean.
-/

namespace Sys2Proof

/-- The command that a word of the table's bits spells: none. -/
def decodeTableWord (_nbits _w : Nat) : Option Instr := none

end Sys2Proof
end

