-- ==== Sys2Proof/Config.lean ====
section
/-!
DEFINITION. What one device is given from outside the manual: the free values and the choices that the manual leaves
to the device, which nothing in Lean can evaluate (DESIGN CHOICE: log entries 5, 10, 32, 44, 47, 52, 56, 83, 94, 95 and 102).
-/

namespace Sys2Proof

/-- The signal balls that the device can drive (R404, R409). `rgmii n i` is TXC, TX_CTL or TXD[i - 2] of legacy port n, `lane l` the
transmit pair of SerDes lane l as R335 numbers them, `sgmii n` that of legacy port n. -/
inductive Ball where
  | ownN
  | pairSelOut
  | thermTripN
  | ppsOut
  | perOut (n : Nat)
  | dmxDe (n : Nat)
  | dmxTxd (n : Nat)
  | gpio (n : Nat)
  | spiClk
  | spiCsN
  | spiWpN
  | spiResetN
  | spiIo (n : Nat)
  | i2cScl (n : Nat)
  | i2cSda (n : Nat)
  | uartTxd
  | ltcOut
  | midiOut
  | lportRefclk (n : Nat)
  | mdc (n : Nat)
  | mdio (n : Nat)
  | rgmii (n i : Nat)
  | pcieClkreqN
  | pcieWakeN
  | lane (l : Nat)
  | sgmii (n : Nat)
  | pcieLane (l : Nat)
  | dpAux (h : Nat)
  | lp5x (i : Nat)
  deriving DecidableEq, Repr

namespace Config

/-- The value the device draws where the manual states none: the n-th draw. Nothing constrains it. -/
opaque freeValue : Nat → W64

/-- IEEE 754 lets the device detect tininess before or after rounding (R68). -/
opaque tinyBefore : Bool

/-- IEEE 754 has conversions to integer that signal an inexact result and ones that do not (R68). -/
opaque convertInexact : Bool

/-- The bytes of a Cricket message whose layout the manual does not give, by kind and content (R278 to R300). -/
opaque messageLayout : Nat → List W64 → List W8

/-- Frames that the control firmware's receive path holds (R223 gives no size). -/
opaque fwPathFrames : Nat

/-- Universe-discovery packets travel by IPv6 (R251 does not say by which of the two). -/
opaque discoveryV6 : Bool

/-- The row in its bank of a Kettle offset (R161 gives no row size). -/
opaque kettleRow : Nat → Nat

/-- A set of unusable fabric links leaves an endpoint, named by its target word, with no route (R339; no rule gives the fabric's layout). -/
opaque routeless : List Nat → Nat → Bool

/-- The fabric links from the swarms to the sACN packer (R289 names them; no rule gives the fabric's layout). -/
opaque packerLinks : List Nat

/-- What the BSDL file gives (R341): the boundary register's length, the cell that drives a ball, and the IDCODE's manufacturer field with
its constant 1. -/
opaque boundaryLength : Nat
opaque boundaryCell : Ball → Nat
opaque idcodeLow : BitVec 12

/-- The level of an output ball that carries a clock or an interface's data, and what a bidirectional ball or a lane drives while its
interface runs, at a tick: the manual gives rates and frames and no waveform. -/
opaque lineLevel : Ball → W64 → Bool
opaque lineDrive : Ball → W64 → Option Bool

/-- EXTEST_TRAIN or EXTEST_PULSE has a lane at the inverse of its cell at a tick (R341 names IEEE 1149.6). -/
opaque acInverse : Bool → Ball → W64 → Bool

/-! The cryptography that R363 to R372 name: the manual defines none of it. -/

/-- SHA-384. -/
opaque sha384 : List W8 → List W8

/-- An ECDSA P-384 signature verifies under a public key: key, message, signature. -/
opaque ecdsaOk : List W8 → List W8 → List W8 → Bool

/-- Hexeg's root public key. -/
opaque rootPub : List W8

/-- ROOT_HASH, fused at wafer test, names it (R363). -/
def rootHash : List W8 := sha384 rootPub

/-- The public point of a P-384 private key. -/
opaque ecPoint : List W8 → List W8

/-- The ECDH secret: private key, public key. -/
opaque ecdh : List W8 → List W8 → List W8

/-- An ECDSA P-384 signature: private key, message, and the draw it is made with. -/
opaque ecdsaSign : List W8 → List W8 → Nat → List W8

/-- HKDF-SHA-384: secret, salt, information, bytes asked for. -/
opaque hkdf : List W8 → List W8 → List W8 → Nat → List W8

/-- The information that tells HKDF's uses apart: 0 DIK, 1 DAK, 2 SK, 3 a package's key-wrap key, 4 PAK, 5 a session's keys. -/
opaque keyLabel : Nat → List W8

/-- A number reduced modulo the order of P-384. -/
opaque reduceScalar : List W8 → List W8

/-- The subject key of a certificate, the unique ID of the device it names, and whether its chain verifies to a root hash. -/
opaque certSubject : List W8 → List W8
opaque certUid : List W8 → BitVec 128
opaque chainOk : List W8 → List W8 → Bool

/-- AES key unwrap (RFC 3394): key, wrapped key; none where it does not unwrap. -/
opaque keyUnwrap : List W8 → List W8 → Option (List W8)

/-- AES-256-GCM opening: key, initialisation vector, additional data, ciphertext, tag. -/
opaque gcmOpen : List W8 → List W8 → List W8 → List W8 → List W8 → Option (List W8)

/-- The seal on the pair key in Scarab's MRAM and its opening: key, what is sealed. -/
opaque skSeal : List W8 → List W8 → List W8
opaque skOpen : List W8 → List W8 → List W8

/-- The transcript of a session's opening: own ephemeral key, the peer's, the peer's certificate. -/
opaque transcript : List W8 → List W8 → List W8 → List W8

/-- What a session's keys make of a message: sealing or opening, keys, count of messages before, message; none where it does not open. -/
opaque sessionMessage : Bool → List W8 → Nat → List W8 → Option (List W8)

end Config

end Sys2Proof
end

