-- ==== Sys2Proof/Machine/Bits.lean ====
section
/-!
DEFINITION. Bit fields, byte orders and the sparse tables: the arithmetic every unit shares.
-/

namespace Sys2Proof.Machine

/-- Field [lo + len - 1 : lo] of a word, as a number. -/
def fld {n : Nat} (v : BitVec n) (lo len : Nat) : Nat := v.toNat / 2 ^ lo % 2 ^ len

/-- Bit i of a word. -/
def bit {n : Nat} (v : BitVec n) (i : Nat) : Bool := v.getLsbD i

/-- The word with field [lo + len - 1 : lo] replaced by x. -/
def setFld {n : Nat} (v : BitVec n) (lo len x : Nat) : BitVec n :=
  BitVec.ofNat n (v.toNat - fld v lo len * 2 ^ lo + x % 2 ^ len * 2 ^ lo)

/-- The word with bit i set to b. -/
def setBit {n : Nat} (v : BitVec n) (i : Nat) (b : Bool) : BitVec n :=
  if b then v ||| BitVec.ofNat n (2 ^ i) else v &&& ~~~ BitVec.ofNat n (2 ^ i)

/-- 1 or 0. -/
def bnat (b : Bool) : Nat := if b then 1 else 0

/-- Bit i alone, or nothing. -/
def bitIf {n : Nat} (i : Nat) (b : Bool) : BitVec n := if b then BitVec.ofNat n (2 ^ i) else 0

/-- A 64-bit value from its halves (R310). -/
def pair64 (lo hi : W32) : W64 := hi ++ lo

/-- The lower half of a 64-bit value (R310). -/
def lo32 (v : W64) : W32 := v.truncate 32

/-- The upper half of a 64-bit value (R310). -/
def hi32 (v : W64) : W32 := (v >>> 32).truncate 32

/-- A number as a register word. -/
def w32 (x : Nat) : W32 := BitVec.ofNat 32 x

/-- A number as a 64-bit value. -/
def w64 (x : Nat) : W64 := BitVec.ofNat 64 x

/-- The bytes of a number, least significant first. -/
def leBytes : Nat → Nat → List W8
  | 0, _ => []
  | k + 1, x => BitVec.ofNat 8 x :: leBytes k (x / 256)

/-- The number a list of bytes spells, least significant first. -/
def ofLe : List W8 → Nat
  | [] => 0
  | b :: r => b.toNat + 256 * ofLe r

/-- The bytes of a number, most significant first. -/
def beBytes (k x : Nat) : List W8 := (leBytes k x).reverse

/-- The number a list of bytes spells, most significant first. -/
def ofBe (l : List W8) : Nat := ofLe l.reverse

/-- Byte i of a list, zero beyond its end. -/
def byteAt (l : List W8) (i : Nat) : W8 := l.getD i 0

/-- `len` bytes of a list from byte `i` on, zero beyond its end. -/
def slice (l : List W8) (i len : Nat) : List W8 := (List.range len).map fun j => byteAt l (i + j)

/-- The list with `x` from byte `i` on. -/
def splice (l : List W8) (i : Nat) (x : List W8) : List W8 := l.take i ++ x ++ l.drop (i + x.length)

/-- The number of leading positions of a list up to its first element with property p. -/
def firstIdx {α : Type} (p : α → Bool) : List α → Nat → Option Nat
  | [], _ => none
  | x :: r, i => if p x then some i else firstIdx p r (i + 1)

/-- A table's value under a number; `d` is the value of an unlisted number. -/
def Tab.get {α : Type} (d : α) : Tab α → Nat → α
  | [], _ => d
  | (k, v) :: r, i => if i = k then v else Tab.get d r i

/-- Insert an entry before the first greater number. -/
def Tab.add {α : Type} (i : Nat) (v : α) : Tab α → Tab α
  | [] => [(i, v)]
  | (k, x) :: r => if i < k then (i, v) :: (k, x) :: r else (k, x) :: Tab.add i v r

/-- The table with `v` under number `i`, in canonical form: an unlisted number's value is not listed. -/
def Tab.put {α : Type} [DecidableEq α] (d : α) (t : Tab α) (i : Nat) (v : α) : Tab α :=
  if v = d then t.filter (fun x => x.1 != i) else Tab.add i v (t.filter fun x => x.1 != i)

/-- The canonical form of a table: strictly rising numbers from `lo` on. -/
def Tab.rising {α : Type} : Nat → Tab α → Bool
  | _, [] => true
  | lo, (k, _) :: r => decide (lo ≤ k) && Tab.rising (k + 1) r

/-- The signed value of the two's complement field of `len` bits. -/
def signExt (len x : Nat) : Int := if x % 2 ^ len < 2 ^ (len - 1) then (x % 2 ^ len : Nat) else (x % 2 ^ len : Nat) - (2 ^ len : Nat)

/-- Insert into a list kept in rising order of `key`, after the equal ones. -/
def insertBy {α : Type} (key : α → Nat) (x : α) : List α → List α
  | [] => [x]
  | y :: r => if key x < key y then x :: y :: r else y :: insertBy key x r

/-- Insertion sort by a key. -/
def sortBy {α : Type} (key : α → Nat) (l : List α) : List α := l.foldl (fun acc x => insertBy key x acc) []

/-- One bit of a reflected cyclic redundancy code. -/
def crcStep (poly : W32) (c : W32) : W32 := if c.getLsbD 0 then (c >>> 1) ^^^ poly else c >>> 1

/-- One byte of a reflected cyclic redundancy code. -/
def crcByte (poly : W32) (c : W32) (b : W8) : W32 :=
  (List.range 8).foldl (fun c _ => crcStep poly c) (c ^^^ b.setWidth 32)

/-- A reflected 32-bit cyclic redundancy code with initial value and final inversion of all ones. -/
def crc32With (poly : W32) (l : List W8) : W32 := ~~~ l.foldl (crcByte poly) 0xFFFFFFFF

/-- CRC-32C, as R274 gives its parameters. -/
def crc32c (l : List W8) : W32 := crc32With 0x82F63B78 l

/-- The CRC-32 of an Ethernet frame check sequence. -/
def crc32 (l : List W8) : W32 := crc32With 0xEDB88320 l

end Sys2Proof.Machine
end

