-- ==== Sys2Proof/Machine/Regs.lean ====
section
/-!
DEFINITION. The registers of the CSR window and of the indirect spaces, as the register tables of the chapters give
them: one name for each place, and for each block the rows with access masks and reset values.
A place is a Nat: a CSR offset below 2^24 (R304), or the number of an indirect space times 2^24 plus the address in
it (R311).
-/

namespace Sys2Proof.Machine

/-- Which half of a 64-bit pair a register is (R310). -/
inductive Half where
  | none
  | lo
  | hi
  deriving DecidableEq, Repr

/-- What a register does beyond holding a word (Machine/Csr.lean): nothing; it shows a requester's snapshot (R310); each requester has
its own copy (R306); the groups of registers that act alike; or a register by its name. -/
inductive Hook where
  | plain
  | schedTickPeriod
  | swarmSteepPeak
  | snapshot
  | own
  | tbOwned
  | frmGrid
  | frmPolicy
  | metered
  | hidden
  | cert
  | gpio
  | line
  | lportStatus
  | lportLqStatus
  | sysIdent
  | sysResetCmd
  | sysBootCmd
  | sysAbort
  | evtSummaryLo
  | sysMsixAckLo
  | sysMsixAckHi
  | sysMsixInserviceLo
  | sysSwSet
  | msixTable
  | msixPba
  | guardUnlock
  | guardStatus
  | indData
  | sealCapture
  | tbCtl
  | tbStatus
  | tbTicksLo
  | tbNowSecLo
  | tbShortLo
  | tbIncrLo
  | tbIncrHi
  | tbOffsetSecLo
  | tbCmd
  | tbPpsCapSecLo
  | tbEvtcapStat
  | tbEvtcapSecLo
  | tbPeroutCtl
  | frmCtl
  | frmStatus
  | frmCmd
  | frmNumberLo
  | frmBiasLo
  | frmHsyncCtl
  | schedStatus
  | schedRouteSet
  | schedTmplCmd
  | schedLeafPush
  | schedLeafSpace
  | schedFlowCmd
  | schedPourBlocks
  | schedPourPlaces
  | schedFlowCfg
  | schedFlowNext
  | swarmSteepStatus
  | swarmReady01
  | swarmReady23
  | swarmSlotStatus
  | swarmDlyFill01
  | swarmDlyFill23
  | swarmDlyCmd
  | swarmDlyHeadLo
  | swarmInfStatus
  | swarmSpareCmd
  | swarmClkCtl
  | swarmIcacheCmd
  | ketStatus
  | ketSurfCmd
  | rheadCtl
  | rheadStatus
  | rheadCmd
  | rheadCommit
  | rheadOutCtl
  | rheadDpStatus
  | rheadLayerCtl
  | sportCtl
  | sportStatus
  | sportLqStatus
  | sportPreemptCtl
  | sportTxqCtl
  | sportRxqCtl
  | sportRxqTail
  | sportRxqWm
  | sportRxWmLevel
  | sportSaucerSecLo
  | sportSaucerStatus
  | packCtl
  | packPortSync
  | packUnivCmd
  | packLateData
  | packInCmd
  | packSlowSummary
  | quePushCmd
  | quePopCmd
  | queCfg
  | queCount
  | dmaCtl
  | dmaHead
  | dmaStatus
  | pairCtl
  | pairStatus
  | pairCmd
  | pairWdogKick
  | pairLinkStatus
  | weevilStatus
  | weevilRun
  | weevilMarkData
  | weevilUnusableCount
  | calStatus
  | calCmd
  | calPathValue
  | calPathInfo
  | scarabLcState
  | scarabLcCmd
  | scarabSvn
  | scarabSvnCmd
  | scarabChalCmd
  | scarabTokenCmd
  | scarabTokenStatus
  | scarabPkgCmd
  | scarabPkgStatus
  | scarabPinCmd
  | scarabPairCmd
  | scarabPairStatus
  | scarabPairIdLo
  | scarabLotIdLo
  | scarabDiePos
  | scarabUid
  | scarabDikPub
  | scarabDakPub
  | pmonCtl
  | dmxCtl
  | dmxBreakTime
  | dmxStatus
  | dmxRdmCmd
  | ltcRxTc
  | ltcRxStat
  | ltcTxCtl
  | midiRx
  | midiRxStat
  | midiTx
  | midiTxStat
  | gpioIn
  | i2cXfer
  | spiCmd
  | uartTx
  | uartRx
  | uartStat
  | mdioCmd
  deriving DecidableEq, Repr

/-- One row of a register table: its name, its offset in the block, the strides and counts of its indices, its bits
by what a write does to them (`w` takes the written value, `w1c` clears on 1, `w1s` sets on 1; every other bit keeps
its value, R6 and R308), whether it is guarded (R314), write-once (R317) or a counter, its half of a pair, its hook, the
written bits outside the sealed set (R318), and its reset value by index. -/
structure RegRow where
  name : String
  off : Nat
  dims : List (Nat × Nat) := []
  w : W32 := 0
  w1c : W32 := 0
  w1s : W32 := 0
  unsealed : W32 := 0
  gk : Bool := false
  wo1 : Bool := false
  cnt : Bool := false
  half : Half := .none
  hook : Hook := .plain
  reset : Nat → W32 := fun _ => 0

/-- The indices of offset x in strides `dims` (largest first), when x lies in the array. -/
def RegRow.indices : List (Nat × Nat) → Nat → Option (List Nat)
  | [], x => if x = 0 then some [] else Option.none
  | (s, n) :: r, x =>
    if x / s < n then (RegRow.indices r (x % s)).map (x / s :: ·) else Option.none

/-- The indices with which a row covers block offset x. -/
def RegRow.covers (row : RegRow) (x : Nat) : Option (List Nat) :=
  if x < row.off then Option.none else RegRow.indices row.dims (x - row.off)

/-- The row that covers block offset x, with its indices. -/
def RegRow.find (rows : List RegRow) (x : Nat) : Option (RegRow × List Nat) :=
  rows.findSome? fun row => (row.covers x).map fun i => (row, i)

namespace Reg

/-- The rows of a group of words that lie one after the other, each with its own reserved bits: `masks` gives the bits of each word that
a write takes (R6). -/
def wordRows (row : RegRow) (masks : List W32) : List RegRow :=
  masks.zipIdx.map fun (m, w) => { row with off := row.off + 4 * w, w := m, unsealed := row.unsealed &&& m }

/-- The fields of a strainer entry's words (R221). -/
def strainMasks : List W32 := [0xFFF70000, 0xFFFE0000, 0x0FFF0FFF, 0xFFFF, 0xFFFF, 0xFFFFFFFF, 0, 0]

/-- Base of port p: SPORT[0..7], then LPORT[0..1] as 8 and 9 (R304). -/
def portBase (p : Nat) : Nat := if p < 8 then 0xA0000 + p * 0x2000 else 0xB0000 + (p - 8) * 0x2000

/-- Reset values of RHEAD_CSC[h][0..5] (R192). -/
def rheadCscReset : List W32 := [0x000012B4, 0xF06F1CCC, 0xFC9312B4, 0x04D3F771, 0x21EE12B4, 0xEDDE0000]

/-- TB_CTL, R43. -/
def TB_CTL : Nat := 0x10000
/-- TB_STATUS, R43. -/
def TB_STATUS : Nat := 0x10004
/-- TB_EVENT, R43. -/
def TB_EVENT : Nat := 0x10008
/-- TB_EVENT_EN, R43. -/
def TB_EVENT_EN : Nat := 0x1000C
/-- TB_TICKS_LO, R43. -/
def TB_TICKS_LO : Nat := 0x10010
/-- TB_TICKS_HI, R43. -/
def TB_TICKS_HI : Nat := 0x10014
/-- TB_NOW_SEC_LO, R43. -/
def TB_NOW_SEC_LO : Nat := 0x10020
/-- TB_NOW_SEC_HI, R43. -/
def TB_NOW_SEC_HI : Nat := 0x10024
/-- TB_NOW_NS, R43. -/
def TB_NOW_NS : Nat := 0x10028
/-- TB_NOW_FRAC, R43. -/
def TB_NOW_FRAC : Nat := 0x1002C
/-- TB_NOW_TICKS_LO, R43. -/
def TB_NOW_TICKS_LO : Nat := 0x10030
/-- TB_NOW_TICKS_HI, R43. -/
def TB_NOW_TICKS_HI : Nat := 0x10034
/-- TB_SHORT_LO, R43. -/
def TB_SHORT_LO : Nat := 0x10038
/-- TB_SHORT_HI, R43. -/
def TB_SHORT_HI : Nat := 0x1003C
/-- TB_INCR_LO, R43. -/
def TB_INCR_LO : Nat := 0x10040
/-- TB_INCR_HI, R43. -/
def TB_INCR_HI : Nat := 0x10044
/-- TB_OFFSET_SEC_LO, R43. -/
def TB_OFFSET_SEC_LO : Nat := 0x10048
/-- TB_OFFSET_SEC_HI, R43. -/
def TB_OFFSET_SEC_HI : Nat := 0x1004C
/-- TB_OFFSET_NS, R43. -/
def TB_OFFSET_NS : Nat := 0x10050
/-- TB_OFFSET_FRAC, R43. -/
def TB_OFFSET_FRAC : Nat := 0x10054
/-- TB_ANCHOR_LO, R43. -/
def TB_ANCHOR_LO : Nat := 0x10058
/-- TB_ANCHOR_HI, R43. -/
def TB_ANCHOR_HI : Nat := 0x1005C
/-- TB_SET_SEC_LO, R43. -/
def TB_SET_SEC_LO : Nat := 0x10060
/-- TB_SET_SEC_HI, R43. -/
def TB_SET_SEC_HI : Nat := 0x10064
/-- TB_SET_NS, R43. -/
def TB_SET_NS : Nat := 0x10068
/-- TB_STEP_LO, R43. -/
def TB_STEP_LO : Nat := 0x10070
/-- TB_STEP_HI, R43. -/
def TB_STEP_HI : Nat := 0x10074
/-- TB_CMD, R43. -/
def TB_CMD : Nat := 0x10078
/-- TB_STEP_LAST_LO, R43. -/
def TB_STEP_LAST_LO : Nat := 0x10080
/-- TB_STEP_LAST_HI, R43. -/
def TB_STEP_LAST_HI : Nat := 0x10084
/-- TB_STEP_COUNT, R43. -/
def TB_STEP_COUNT : Nat := 0x10088
/-- TB_PPS_CAP_SEC_LO, R43. -/
def TB_PPS_CAP_SEC_LO : Nat := 0x10090
/-- TB_PPS_CAP_SEC_HI, R43. -/
def TB_PPS_CAP_SEC_HI : Nat := 0x10094
/-- TB_PPS_CAP_NS, R43. -/
def TB_PPS_CAP_NS : Nat := 0x10098
/-- TB_PPS_CTL, R43. -/
def TB_PPS_CTL : Nat := 0x100A0
/-- TB_EVTCAP_CTL[n], R43. -/
def TB_EVTCAP_CTL (n : Nat) : Nat := 0x10100 + n * 0x20
/-- TB_EVTCAP_STAT[n], R43. -/
def TB_EVTCAP_STAT (n : Nat) : Nat := 0x10104 + n * 0x20
/-- TB_EVTCAP_SEC_LO[n], R43. -/
def TB_EVTCAP_SEC_LO (n : Nat) : Nat := 0x10108 + n * 0x20
/-- TB_EVTCAP_SEC_HI[n], R43. -/
def TB_EVTCAP_SEC_HI (n : Nat) : Nat := 0x1010C + n * 0x20
/-- TB_EVTCAP_NS[n], R43. -/
def TB_EVTCAP_NS (n : Nat) : Nat := 0x10110 + n * 0x20
/-- TB_PEROUT_CTL[n], R43. -/
def TB_PEROUT_CTL (n : Nat) : Nat := 0x10200 + n * 0x20
/-- TB_PEROUT_START_SEC_LO[n], R43. -/
def TB_PEROUT_START_SEC_LO (n : Nat) : Nat := 0x10204 + n * 0x20
/-- TB_PEROUT_START_SEC_HI[n], R43. -/
def TB_PEROUT_START_SEC_HI (n : Nat) : Nat := 0x10208 + n * 0x20
/-- TB_PEROUT_START_NS[n], R43. -/
def TB_PEROUT_START_NS (n : Nat) : Nat := 0x1020C + n * 0x20
/-- TB_PEROUT_PERIOD_LO[n], R43. -/
def TB_PEROUT_PERIOD_LO (n : Nat) : Nat := 0x10210 + n * 0x20
/-- TB_PEROUT_PERIOD_HI[n], R43. -/
def TB_PEROUT_PERIOD_HI (n : Nat) : Nat := 0x10214 + n * 0x20
/-- TB_PEROUT_WIDTH[n], R43. -/
def TB_PEROUT_WIDTH (n : Nat) : Nat := 0x10218 + n * 0x20
/-- TB_PEROUT_FOFS[n], R43. -/
def TB_PEROUT_FOFS (n : Nat) : Nat := 0x1021C + n * 0x20
/-- FRM_CTL, R44. -/
def FRM_CTL : Nat := 0x18000
/-- FRM_STATUS, R44. -/
def FRM_STATUS : Nat := 0x18004
/-- FRM_EVENT, R44. -/
def FRM_EVENT : Nat := 0x18008
/-- FRM_EVENT_EN, R44. -/
def FRM_EVENT_EN : Nat := 0x1800C
/-- FRM_EPOCH_SEC_LO, R44. -/
def FRM_EPOCH_SEC_LO : Nat := 0x18010
/-- FRM_EPOCH_SEC_HI, R44. -/
def FRM_EPOCH_SEC_HI : Nat := 0x18014
/-- FRM_EPOCH_NS, R44. -/
def FRM_EPOCH_NS : Nat := 0x18018
/-- FRM_RATE_NUM, R44. -/
def FRM_RATE_NUM : Nat := 0x18020
/-- FRM_RATE_DEN, R44. -/
def FRM_RATE_DEN : Nat := 0x18024
/-- FRM_CMD, R44. -/
def FRM_CMD : Nat := 0x18028
/-- FRM_STEP_POLICY, R44. -/
def FRM_STEP_POLICY : Nat := 0x1802C
/-- FRM_HOLD_MAX, R44. -/
def FRM_HOLD_MAX : Nat := 0x18030
/-- FRM_NUMBER_LO, R44. -/
def FRM_NUMBER_LO : Nat := 0x18040
/-- FRM_NUMBER_HI, R44. -/
def FRM_NUMBER_HI : Nat := 0x18044
/-- FRM_LAST_SEC_LO, R44. -/
def FRM_LAST_SEC_LO : Nat := 0x18048
/-- FRM_LAST_SEC_HI, R44. -/
def FRM_LAST_SEC_HI : Nat := 0x1804C
/-- FRM_LAST_NS, R44. -/
def FRM_LAST_NS : Nat := 0x18050
/-- FRM_LAST_FRAC, R44. -/
def FRM_LAST_FRAC : Nat := 0x18054
/-- FRM_BIAS_LO, R44. -/
def FRM_BIAS_LO : Nat := 0x18058
/-- FRM_BIAS_HI, R44. -/
def FRM_BIAS_HI : Nat := 0x1805C
/-- FRM_FRAMES_SKIPPED, R44. -/
def FRM_FRAMES_SKIPPED : Nat := 0x18060
/-- FRM_HOLD_COUNT, R44. -/
def FRM_HOLD_COUNT : Nat := 0x18064
/-- FRM_RENUMBER_COUNT, R44. -/
def FRM_RENUMBER_COUNT : Nat := 0x18068
/-- FRM_HSYNC_CTL, R44. -/
def FRM_HSYNC_CTL : Nat := 0x18070
/-- FRM_HSYNC_PHASE, R44. -/
def FRM_HSYNC_PHASE : Nat := 0x18074
/-- FRM_HSYNC_PERIOD, R44. -/
def FRM_HSYNC_PERIOD : Nat := 0x18078
/-- SWARM_FAULT_CTL[s], R81. -/
def SWARM_FAULT_CTL (s : Nat) : Nat := 0x43F00 + s * 0x4000
/-- SWARM_FAULT_COUNT[s], R81. -/
def SWARM_FAULT_COUNT (s : Nat) : Nat := 0x43F04 + s * 0x4000
/-- SWARM_ICACHE_CMD[s], R81. -/
def SWARM_ICACHE_CMD (s : Nat) : Nat := 0x43F10 + s * 0x4000
/-- SCHED_CTL, R115. -/
def SCHED_CTL : Nat := 0x20000
/-- SCHED_STATUS, R115. -/
def SCHED_STATUS : Nat := 0x20004
/-- SCHED_EVENT, R115. -/
def SCHED_EVENT : Nat := 0x20008
/-- SCHED_EVENT_EN, R115. -/
def SCHED_EVENT_EN : Nat := 0x2000C
/-- SCHED_ROUTE_SET, R115. -/
def SCHED_ROUTE_SET : Nat := 0x20010
/-- SCHED_CYCLE_LIMIT, R115. -/
def SCHED_CYCLE_LIMIT : Nat := 0x20014
/-- SCHED_STALE_CTL, R115. -/
def SCHED_STALE_CTL : Nat := 0x20018
/-- SCHED_TMPL_IDX, R115. -/
def SCHED_TMPL_IDX : Nat := 0x20040
/-- SCHED_TMPL_CMD, R115. -/
def SCHED_TMPL_CMD : Nat := 0x20044
/-- SCHED_TMPL_DATA[w], R115. -/
def SCHED_TMPL_DATA (w : Nat) : Nat := 0x20050 + w * 0x4
/-- SCHED_LEAF_KEY_LO[p], R115. -/
def SCHED_LEAF_KEY_LO (p : Nat) : Nat := 0x20100 + p * 0x20
/-- SCHED_LEAF_KEY_HI[p], R115. -/
def SCHED_LEAF_KEY_HI (p : Nat) : Nat := 0x20104 + p * 0x20
/-- SCHED_LEAF_VAL_LO[p], R115. -/
def SCHED_LEAF_VAL_LO (p : Nat) : Nat := 0x20108 + p * 0x20
/-- SCHED_LEAF_VAL_HI[p], R115. -/
def SCHED_LEAF_VAL_HI (p : Nat) : Nat := 0x2010C + p * 0x20
/-- SCHED_LEAF_PUSH[p], R115. -/
def SCHED_LEAF_PUSH (p : Nat) : Nat := 0x20110 + p * 0x20
/-- SCHED_LEAF_SPACE[p], R115. -/
def SCHED_LEAF_SPACE (p : Nat) : Nat := 0x20114 + p * 0x20
/-- SCHED_LEAF_OVF[p], R115. -/
def SCHED_LEAF_OVF (p : Nat) : Nat := 0x20118 + p * 0x20
/-- SWARM_STEEP_STATUS[s], R117. -/
def SWARM_STEEP_STATUS (s : Nat) : Nat := 0x40000 + s * 0x4000
/-- SWARM_STEEP_PEAK[s], R117. -/
def SWARM_STEEP_PEAK (s : Nat) : Nat := 0x40004 + s * 0x4000
/-- SWARM_READY01[s], R117. -/
def SWARM_READY01 (s : Nat) : Nat := 0x40008 + s * 0x4000
/-- SWARM_READY23[s], R117. -/
def SWARM_READY23 (s : Nat) : Nat := 0x4000C + s * 0x4000
/-- SWARM_SLOT_STATUS[s], R117. -/
def SWARM_SLOT_STATUS (s : Nat) : Nat := 0x40010 + s * 0x4000
/-- SWARM_DISPATCHED_LO[s], R117. -/
def SWARM_DISPATCHED_LO (s : Nat) : Nat := 0x40018 + s * 0x4000
/-- SWARM_DISPATCHED_HI[s], R117. -/
def SWARM_DISPATCHED_HI (s : Nat) : Nat := 0x4001C + s * 0x4000
/-- SWARM_INPUT_LEAF_DROP[s], R117. -/
def SWARM_INPUT_LEAF_DROP (s : Nat) : Nat := 0x40020 + s * 0x4000
/-- SWARM_LEAF_DISCARD[s], R117. -/
def SWARM_LEAF_DISCARD (s : Nat) : Nat := 0x40024 + s * 0x4000
/-- SWARM_CANCEL_COUNT[s], R117. -/
def SWARM_CANCEL_COUNT (s : Nat) : Nat := 0x40028 + s * 0x4000
/-- SWARM_STALE_COUNT[s], R117. -/
def SWARM_STALE_COUNT (s : Nat) : Nat := 0x4002C + s * 0x4000
/-- SWARM_EMIT_STALL[s], R117. -/
def SWARM_EMIT_STALL (s : Nat) : Nat := 0x40030 + s * 0x4000
/-- SCHED_FLOW_CMD, R136. -/
def SCHED_FLOW_CMD : Nat := 0x20200
/-- SCHED_FLOW_ARG, R136. -/
def SCHED_FLOW_ARG : Nat := 0x20204
/-- SCHED_REL_EVENT, R136. -/
def SCHED_REL_EVENT : Nat := 0x20208
/-- SCHED_REL_EVENT_EN, R136. -/
def SCHED_REL_EVENT_EN : Nat := 0x2020C
/-- SCHED_POUR_BLOCKS, R136. -/
def SCHED_POUR_BLOCKS : Nat := 0x20210
/-- SCHED_POUR_PLACES, R136. -/
def SCHED_POUR_PLACES : Nat := 0x20214
/-- SCHED_POUR_STALL, R136. -/
def SCHED_POUR_STALL : Nat := 0x20218
/-- SCHED_DEST_ERR, R136. -/
def SCHED_DEST_ERR : Nat := 0x2021C
/-- SCHED_TICK_PERIOD, R136. -/
def SCHED_TICK_PERIOD : Nat := 0x20220
/-- SCHED_LATE_WINDOW, R136. -/
def SCHED_LATE_WINDOW : Nat := 0x20224
/-- SCHED_FLOW_COUNTS[f], R136. -/
def SCHED_FLOW_COUNTS (f : Nat) : Nat := 0x2C000 + f * 0x4
/-- SCHED_FLOW_CFG[f], R136. -/
def SCHED_FLOW_CFG (f : Nat) : Nat := 0x30000 + f * 0x10
/-- SCHED_FLOW_LEN[f], R136. -/
def SCHED_FLOW_LEN (f : Nat) : Nat := 0x30004 + f * 0x10
/-- SCHED_FLOW_NEXT[f], R136. -/
def SCHED_FLOW_NEXT (f : Nat) : Nat := 0x30008 + f * 0x10
/-- SCHED_FLOW_STATE[f], R136. -/
def SCHED_FLOW_STATE (f : Nat) : Nat := 0x3000C + f * 0x10
/-- SWARM_DLY_FILL01[s], R137. -/
def SWARM_DLY_FILL01 (s : Nat) : Nat := 0x40040 + s * 0x4000
/-- SWARM_DLY_FILL23[s], R137. -/
def SWARM_DLY_FILL23 (s : Nat) : Nat := 0x40044 + s * 0x4000
/-- SWARM_DLY_DROP[s], R137. -/
def SWARM_DLY_DROP (s : Nat) : Nat := 0x40048 + s * 0x4000
/-- SWARM_DLY_LATE[s], R137. -/
def SWARM_DLY_LATE (s : Nat) : Nat := 0x4004C + s * 0x4000
/-- SWARM_DLY_CMD[s], R137. -/
def SWARM_DLY_CMD (s : Nat) : Nat := 0x40050 + s * 0x4000
/-- SWARM_DLY_HEAD_LO[s], R137. -/
def SWARM_DLY_HEAD_LO (s : Nat) : Nat := 0x40054 + s * 0x4000
/-- SWARM_DLY_HEAD_HI[s], R137. -/
def SWARM_DLY_HEAD_HI (s : Nat) : Nat := 0x40058 + s * 0x4000
/-- SWARM_INF_STATUS[s], R156. -/
def SWARM_INF_STATUS (s : Nat) : Nat := 0x40100 + s * 0x4000
/-- SWARM_INF_SAMPLES_LO[s], R156. -/
def SWARM_INF_SAMPLES_LO (s : Nat) : Nat := 0x40108 + s * 0x4000
/-- SWARM_INF_SAMPLES_HI[s], R156. -/
def SWARM_INF_SAMPLES_HI (s : Nat) : Nat := 0x4010C + s * 0x4000
/-- SWARM_INF_BUSY_LO[s], R156. -/
def SWARM_INF_BUSY_LO (s : Nat) : Nat := 0x40110 + s * 0x4000
/-- SWARM_INF_BUSY_HI[s], R156. -/
def SWARM_INF_BUSY_HI (s : Nat) : Nat := 0x40114 + s * 0x4000
/-- SWARM_INF_STALL[s], R156. -/
def SWARM_INF_STALL (s : Nat) : Nat := 0x40118 + s * 0x4000
/-- KET_CTL, R191. -/
def KET_CTL : Nat := 0x80000
/-- KET_STATUS, R191. -/
def KET_STATUS : Nat := 0x80004
/-- KET_EVENT, R191. -/
def KET_EVENT : Nat := 0x80008
/-- KET_EVENT_EN, R191. -/
def KET_EVENT_EN : Nat := 0x8000C
/-- KET_SCRUB_PERIOD, R191. -/
def KET_SCRUB_PERIOD : Nat := 0x80010
/-- KET_CE_COUNT, R191. -/
def KET_CE_COUNT : Nat := 0x80014
/-- KET_UE_COUNT, R191. -/
def KET_UE_COUNT : Nat := 0x80018
/-- KET_UE_ADDR, R191. -/
def KET_UE_ADDR : Nat := 0x8001C
/-- KET_SURF_IDX, R191. -/
def KET_SURF_IDX : Nat := 0x80040
/-- KET_SURF_CMD, R191. -/
def KET_SURF_CMD : Nat := 0x80044
/-- KET_SURF_STATUS, R191. -/
def KET_SURF_STATUS : Nat := 0x80048
/-- KET_SURF_DATA[w], R191. -/
def KET_SURF_DATA (w : Nat) : Nat := 0x80060 + w * 0x4
/-- RHEAD_CTL[h], R192. -/
def RHEAD_CTL (h : Nat) : Nat := 0x90000 + h * 0x1000
/-- RHEAD_STATUS[h], R192. -/
def RHEAD_STATUS (h : Nat) : Nat := 0x90004 + h * 0x1000
/-- RHEAD_EVENT[h], R192. -/
def RHEAD_EVENT (h : Nat) : Nat := 0x90008 + h * 0x1000
/-- RHEAD_EVENT_EN[h], R192. -/
def RHEAD_EVENT_EN (h : Nat) : Nat := 0x9000C + h * 0x1000
/-- RHEAD_H_ACTIVE[h], R192. -/
def RHEAD_H_ACTIVE (h : Nat) : Nat := 0x90010 + h * 0x1000
/-- RHEAD_H_BLANK[h], R192. -/
def RHEAD_H_BLANK (h : Nat) : Nat := 0x90014 + h * 0x1000
/-- RHEAD_V_ACTIVE[h], R192. -/
def RHEAD_V_ACTIVE (h : Nat) : Nat := 0x90018 + h * 0x1000
/-- RHEAD_V_BLANK[h], R192. -/
def RHEAD_V_BLANK (h : Nat) : Nat := 0x9001C + h * 0x1000
/-- RHEAD_VSYNC_OFFSET[h], R192. -/
def RHEAD_VSYNC_OFFSET (h : Nat) : Nat := 0x90020 + h * 0x1000
/-- RHEAD_CMD[h], R192. -/
def RHEAD_CMD (h : Nat) : Nat := 0x90024 + h * 0x1000
/-- RHEAD_COMMIT[h], R192. -/
def RHEAD_COMMIT (h : Nat) : Nat := 0x90028 + h * 0x1000
/-- RHEAD_COMMIT_FRAME_LO[h], R192. -/
def RHEAD_COMMIT_FRAME_LO (h : Nat) : Nat := 0x90030 + h * 0x1000
/-- RHEAD_COMMIT_FRAME_HI[h], R192. -/
def RHEAD_COMMIT_FRAME_HI (h : Nat) : Nat := 0x90034 + h * 0x1000
/-- RHEAD_PCLK[h], R192. -/
def RHEAD_PCLK (h : Nat) : Nat := 0x90038 + h * 0x1000
/-- RHEAD_LAYER_FAULT[h], R192. -/
def RHEAD_LAYER_FAULT (h : Nat) : Nat := 0x9003C + h * 0x1000
/-- RHEAD_BG[h], R192. -/
def RHEAD_BG (h : Nat) : Nat := 0x90040 + h * 0x1000
/-- RHEAD_OUT_CTL[h], R192. -/
def RHEAD_OUT_CTL (h : Nat) : Nat := 0x90044 + h * 0x1000
/-- RHEAD_DP_CTL[h], R192. -/
def RHEAD_DP_CTL (h : Nat) : Nat := 0x90048 + h * 0x1000
/-- RHEAD_DP_STATUS[h], R192. -/
def RHEAD_DP_STATUS (h : Nat) : Nat := 0x9004C + h * 0x1000
/-- RHEAD_RETIRE_CTL[h], R192. -/
def RHEAD_RETIRE_CTL (h : Nat) : Nat := 0x90050 + h * 0x1000
/-- RHEAD_RETIRE_COUNT[h], R192. -/
def RHEAD_RETIRE_COUNT (h : Nat) : Nat := 0x90054 + h * 0x1000
/-- RHEAD_TEAR_INFO[h], R192. -/
def RHEAD_TEAR_INFO (h : Nat) : Nat := 0x90058 + h * 0x1000
/-- RHEAD_TEAR_COUNT[h], R192. -/
def RHEAD_TEAR_COUNT (h : Nat) : Nat := 0x9005C + h * 0x1000
/-- RHEAD_COMMIT_REPLACED[h], R192. -/
def RHEAD_COMMIT_REPLACED (h : Nat) : Nat := 0x90060 + h * 0x1000
/-- RHEAD_SLIP_COUNT[h], R192. -/
def RHEAD_SLIP_COUNT (h : Nat) : Nat := 0x90064 + h * 0x1000
/-- RHEAD_FREE_COUNT[h], R192. -/
def RHEAD_FREE_COUNT (h : Nat) : Nat := 0x90068 + h * 0x1000
/-- RHEAD_SCAN_LATE_COUNT[h], R192. -/
def RHEAD_SCAN_LATE_COUNT (h : Nat) : Nat := 0x9006C + h * 0x1000
/-- RHEAD_LAYER_CTL[h][l], R192. -/
def RHEAD_LAYER_CTL (h l : Nat) : Nat := 0x90100 + h * 0x1000 + l * 0x20
/-- RHEAD_LAYER_SRC_POS[h][l], R192. -/
def RHEAD_LAYER_SRC_POS (h l : Nat) : Nat := 0x90104 + h * 0x1000 + l * 0x20
/-- RHEAD_LAYER_SRC_SIZE[h][l], R192. -/
def RHEAD_LAYER_SRC_SIZE (h l : Nat) : Nat := 0x90108 + h * 0x1000 + l * 0x20
/-- RHEAD_LAYER_DST_POS[h][l], R192. -/
def RHEAD_LAYER_DST_POS (h l : Nat) : Nat := 0x9010C + h * 0x1000 + l * 0x20
/-- RHEAD_LAYER_DST_SIZE[h], R192. -/
def RHEAD_LAYER_DST_SIZE (h : Nat) : Nat := 0x90110 + h * 0x1000
/-- RHEAD_CSC[h][i], R192. -/
def RHEAD_CSC (h i : Nat) : Nat := 0x90180 + h * 0x1000 + i * 0x4
/-- SPORT_CTL[p], R216. -/
def SPORT_CTL (p : Nat) : Nat := portBase p + 0x0
/-- SPORT_STATUS[p], R216. -/
def SPORT_STATUS (p : Nat) : Nat := portBase p + 0x4
/-- SPORT_TX_EVENT[p], R216. -/
def SPORT_TX_EVENT (p : Nat) : Nat := portBase p + 0x8
/-- SPORT_TX_EVENT_EN[p], R216. -/
def SPORT_TX_EVENT_EN (p : Nat) : Nat := portBase p + 0xC
/-- SPORT_LQ_CTL[p], R216. -/
def SPORT_LQ_CTL (p : Nat) : Nat := portBase p + 0x10
/-- SPORT_LQ_HORIZON[p], R216. -/
def SPORT_LQ_HORIZON (p : Nat) : Nat := portBase p + 0x14
/-- SPORT_LQ_STATUS[p], R216. -/
def SPORT_LQ_STATUS (p : Nat) : Nat := portBase p + 0x18
/-- SPORT_LQ_REFUSE[p], R216. -/
def SPORT_LQ_REFUSE (p : Nat) : Nat := portBase p + 0x1C
/-- SPORT_LQ_DISCARD[p], R216. -/
def SPORT_LQ_DISCARD (p : Nat) : Nat := portBase p + 0x20
/-- SPORT_LQ_LAUNCHED_LO[p], R216. -/
def SPORT_LQ_LAUNCHED_LO (p : Nat) : Nat := portBase p + 0x28
/-- SPORT_LQ_LAUNCHED_HI[p], R216. -/
def SPORT_LQ_LAUNCHED_HI (p : Nat) : Nat := portBase p + 0x2C
/-- SPORT_TX_THRESH[p], R216. -/
def SPORT_TX_THRESH (p : Nat) : Nat := portBase p + 0x30
/-- SPORT_TX_UNDERRUN[p], R216. -/
def SPORT_TX_UNDERRUN (p : Nat) : Nat := portBase p + 0x34
/-- SPORT_OBEY_PAUSE[p], R216. -/
def SPORT_OBEY_PAUSE (p : Nat) : Nat := portBase p + 0x38
/-- SPORT_PAUSE_COUNT[p], R216. -/
def SPORT_PAUSE_COUNT (p : Nat) : Nat := portBase p + 0x3C
/-- SPORT_PREEMPT_CTL[p], R216. -/
def SPORT_PREEMPT_CTL (p : Nat) : Nat := portBase p + 0x40
/-- SPORT_PREEMPT_COUNT[p], R216. -/
def SPORT_PREEMPT_COUNT (p : Nat) : Nat := portBase p + 0x44
/-- SPORT_TX_FRAMES_LO[p], R216. -/
def SPORT_TX_FRAMES_LO (p : Nat) : Nat := portBase p + 0x48
/-- SPORT_TX_FRAMES_HI[p], R216. -/
def SPORT_TX_FRAMES_HI (p : Nat) : Nat := portBase p + 0x4C
/-- SPORT_TXQ_BASE_LO[p][q], R216. -/
def SPORT_TXQ_BASE_LO (p q : Nat) : Nat := portBase p + 0x100 + q * 0x20
/-- SPORT_TXQ_BASE_HI[p][q], R216. -/
def SPORT_TXQ_BASE_HI (p q : Nat) : Nat := portBase p + 0x104 + q * 0x20
/-- SPORT_TXQ_CTL[p][q], R216. -/
def SPORT_TXQ_CTL (p q : Nat) : Nat := portBase p + 0x108 + q * 0x20
/-- SPORT_TXQ_TAIL[p][q], R216. -/
def SPORT_TXQ_TAIL (p q : Nat) : Nat := portBase p + 0x10C + q * 0x20
/-- SPORT_TXQ_HEAD[p][q], R216. -/
def SPORT_TXQ_HEAD (p q : Nat) : Nat := portBase p + 0x110 + q * 0x20
/-- SPORT_TXQ_TAG[p][q], R216. -/
def SPORT_TXQ_TAG (p q : Nat) : Nat := portBase p + 0x114 + q * 0x20
/-- SPORT_TXQ_OUTER[p][q], R216. -/
def SPORT_TXQ_OUTER (p q : Nat) : Nat := portBase p + 0x118 + q * 0x20
/-- LPORT_CTL[n], R217. -/
def LPORT_CTL (n : Nat) : Nat := portBase (n + 8) + 0x0
/-- LPORT_STATUS[n], R217. -/
def LPORT_STATUS (n : Nat) : Nat := portBase (n + 8) + 0x4
/-- LPORT_LQ_STATUS[n], R217. -/
def LPORT_LQ_STATUS (n : Nat) : Nat := portBase (n + 8) + 0x18
/-- LPORT_OBEY_PAUSE[n], R217. -/
def LPORT_OBEY_PAUSE (n : Nat) : Nat := portBase (n + 8) + 0x38
/-- LPORT_TX_LAT[n], R217. -/
def LPORT_TX_LAT (n : Nat) : Nat := portBase (n + 8) + 0x50
/-- LPORT_COLL_COUNT[n], R217. -/
def LPORT_COLL_COUNT (n : Nat) : Nat := portBase (n + 8) + 0x54
/-- SPORT_RX_EVENT[p], R241. -/
def SPORT_RX_EVENT (p : Nat) : Nat := portBase p + 0x800
/-- SPORT_RX_EVENT_EN[p], R241. -/
def SPORT_RX_EVENT_EN (p : Nat) : Nat := portBase p + 0x804
/-- SPORT_RX_WM_EVENT[p], R241. -/
def SPORT_RX_WM_EVENT (p : Nat) : Nat := portBase p + 0x808
/-- SPORT_RX_WM_EVENT_EN[p], R241. -/
def SPORT_RX_WM_EVENT_EN (p : Nat) : Nat := portBase p + 0x80C
/-- SPORT_RX_WM_LEVEL[p], R241. -/
def SPORT_RX_WM_LEVEL (p : Nat) : Nat := portBase p + 0x810
/-- SPORT_RX_DEFAULT[p], R241. -/
def SPORT_RX_DEFAULT (p : Nat) : Nat := portBase p + 0x814
/-- SPORT_RX_TPID[p], R241. -/
def SPORT_RX_TPID (p : Nat) : Nat := portBase p + 0x818
/-- SPORT_PTP_CTL[p], R241. -/
def SPORT_PTP_CTL (p : Nat) : Nat := portBase p + 0x81C
/-- SPORT_RX_ERR[p], R241. -/
def SPORT_RX_ERR (p : Nat) : Nat := portBase p + 0x820
/-- SPORT_RX_DROP[p], R241. -/
def SPORT_RX_DROP (p : Nat) : Nat := portBase p + 0x824
/-- SPORT_RX_MIRROR[p], R241. -/
def SPORT_RX_MIRROR (p : Nat) : Nat := portBase p + 0x828
/-- SPORT_PTP_COUNT[p], R241. -/
def SPORT_PTP_COUNT (p : Nat) : Nat := portBase p + 0x82C
/-- SPORT_RX_FRAMES_LO[p], R241. -/
def SPORT_RX_FRAMES_LO (p : Nat) : Nat := portBase p + 0x830
/-- SPORT_RX_FRAMES_HI[p], R241. -/
def SPORT_RX_FRAMES_HI (p : Nat) : Nat := portBase p + 0x834
/-- SPORT_RX_MCHASH[p][i], R241. -/
def SPORT_RX_MCHASH (p i : Nat) : Nat := portBase p + 0x840 + i * 0x4
/-- SPORT_SAUCER_SEC_LO[p], R241. -/
def SPORT_SAUCER_SEC_LO (p : Nat) : Nat := portBase p + 0x880
/-- SPORT_SAUCER_SEC_HI[p], R241. -/
def SPORT_SAUCER_SEC_HI (p : Nat) : Nat := portBase p + 0x884
/-- SPORT_SAUCER_NS[p], R241. -/
def SPORT_SAUCER_NS (p : Nat) : Nat := portBase p + 0x888
/-- SPORT_SAUCER_FRAC[p], R241. -/
def SPORT_SAUCER_FRAC (p : Nat) : Nat := portBase p + 0x88C
/-- SPORT_SAUCER_INFO[p], R241. -/
def SPORT_SAUCER_INFO (p : Nat) : Nat := portBase p + 0x890
/-- SPORT_SAUCER_STATUS[p], R241. -/
def SPORT_SAUCER_STATUS (p : Nat) : Nat := portBase p + 0x894
/-- SPORT_TS_DROP[p], R241. -/
def SPORT_TS_DROP (p : Nat) : Nat := portBase p + 0x898
/-- SPORT_RXQ_BASE_LO[p][q], R241. -/
def SPORT_RXQ_BASE_LO (p q : Nat) : Nat := portBase p + 0x900 + q * 0x40
/-- SPORT_RXQ_BASE_HI[p][q], R241. -/
def SPORT_RXQ_BASE_HI (p q : Nat) : Nat := portBase p + 0x904 + q * 0x40
/-- SPORT_RXQ_CTL[p][q], R241. -/
def SPORT_RXQ_CTL (p q : Nat) : Nat := portBase p + 0x908 + q * 0x40
/-- SPORT_RXQ_TAIL[p][q], R241. -/
def SPORT_RXQ_TAIL (p q : Nat) : Nat := portBase p + 0x90C + q * 0x40
/-- SPORT_RXQ_HEAD[p][q], R241. -/
def SPORT_RXQ_HEAD (p q : Nat) : Nat := portBase p + 0x910 + q * 0x40
/-- SPORT_RXQ_WM[p][q], R241. -/
def SPORT_RXQ_WM (p q : Nat) : Nat := portBase p + 0x914 + q * 0x40
/-- SPORT_RXQ_WM_CROSSINGS[p][q], R241. -/
def SPORT_RXQ_WM_CROSSINGS (p q : Nat) : Nat := portBase p + 0x918 + q * 0x40
/-- SPORT_RXQ_NOBUF_DROP[p][q], R241. -/
def SPORT_RXQ_NOBUF_DROP (p q : Nat) : Nat := portBase p + 0x91C + q * 0x40
/-- SPORT_STRAIN[p][e][w], R241. -/
def SPORT_STRAIN (p e w : Nat) : Nat := portBase p + 0x1000 + e * 0x20 + w * 0x4
/-- PACK_CTL, R268. -/
def PACK_CTL : Nat := 0xC0000
/-- PACK_EVENT, R268. -/
def PACK_EVENT : Nat := 0xC0008
/-- PACK_EVENT_EN, R268. -/
def PACK_EVENT_EN : Nat := 0xC000C
/-- PACK_BUF_BASE_LO, R268. -/
def PACK_BUF_BASE_LO : Nat := 0xC0010
/-- PACK_BUF_BASE_HI, R268. -/
def PACK_BUF_BASE_HI : Nat := 0xC0014
/-- PACK_UNKNOWN, R268. -/
def PACK_UNKNOWN : Nat := 0xC0018
/-- PACK_CID[w], R268. -/
def PACK_CID (w : Nat) : Nat := 0xC0020 + w * 0x4
/-- PACK_SOURCE_NAME[w], R268. -/
def PACK_SOURCE_NAME (w : Nat) : Nat := 0xC0040 + w * 0x4
/-- PACK_UNIV_IDX, R268. -/
def PACK_UNIV_IDX : Nat := 0xC0080
/-- PACK_UNIV_CMD, R268. -/
def PACK_UNIV_CMD : Nat := 0xC0084
/-- PACK_UNIV_DATA[w], R268. -/
def PACK_UNIV_DATA (w : Nat) : Nat := 0xC0090 + w * 0x4
/-- PACK_LATE_IDX, R268. -/
def PACK_LATE_IDX : Nat := 0xC00A0
/-- PACK_LATE_DATA, R268. -/
def PACK_LATE_DATA : Nat := 0xC00A4
/-- PACK_DISC_CTL, R268. -/
def PACK_DISC_CTL : Nat := 0xC00B0
/-- PACK_IN_IDX, R268. -/
def PACK_IN_IDX : Nat := 0xC00C0
/-- PACK_IN_CMD, R268. -/
def PACK_IN_CMD : Nat := 0xC00C4
/-- PACK_IN_DATA[w], R268. -/
def PACK_IN_DATA (w : Nat) : Nat := 0xC00D0 + w * 0x4
/-- PACK_IN_BUF_BASE_LO, R268. -/
def PACK_IN_BUF_BASE_LO : Nat := 0xC00E0
/-- PACK_IN_BUF_BASE_HI, R268. -/
def PACK_IN_BUF_BASE_HI : Nat := 0xC00E4
/-- PACK_IN_COUNT, R268. -/
def PACK_IN_COUNT : Nat := 0xC00E8
/-- PACK_PORT_CTL[p], R268. -/
def PACK_PORT_CTL (p : Nat) : Nat := 0xC0100 + p * 0x40
/-- PACK_PORT_BASE[p], R268. -/
def PACK_PORT_BASE (p : Nat) : Nat := 0xC0104 + p * 0x40
/-- PACK_PORT_SPACING[p], R268. -/
def PACK_PORT_SPACING (p : Nat) : Nat := 0xC0108 + p * 0x40
/-- PACK_PORT_SYNC[p], R268. -/
def PACK_PORT_SYNC (p : Nat) : Nat := 0xC010C + p * 0x40
/-- PACK_PORT_IP4[p], R268. -/
def PACK_PORT_IP4 (p : Nat) : Nat := 0xC0110 + p * 0x40
/-- PACK_PORT_IP6[p][w], R268. -/
def PACK_PORT_IP6 (p w : Nat) : Nat := 0xC0114 + p * 0x40 + w * 0x4
/-- PACK_PORT_MAC_LO[p], R268. -/
def PACK_PORT_MAC_LO (p : Nat) : Nat := 0xC0124 + p * 0x40
/-- PACK_PORT_MAC_HI[p], R268. -/
def PACK_PORT_MAC_HI (p : Nat) : Nat := 0xC0128 + p * 0x40
/-- PACK_PORT_UDP[p], R268. -/
def PACK_PORT_UDP (p : Nat) : Nat := 0xC012C + p * 0x40
/-- PACK_FRAME_LATE[p], R268. -/
def PACK_FRAME_LATE (p : Nat) : Nat := 0xC0130 + p * 0x40
/-- PACK_REFUSED[p], R268. -/
def PACK_REFUSED (p : Nat) : Nat := 0xC0134 + p * 0x40
/-- PACK_DEST[d][w], R268. -/
def PACK_DEST (d w : Nat) : Nat := 0xC0400 + d * 0x20 + w * 0x4
/-- PACK_IN_CID[c][w], R268. -/
def PACK_IN_CID (c w : Nat) : Nat := 0xC2400 + c * 0x10 + w * 0x4
/-- ST_CTL[s], R268. -/
def ST_CTL (s : Nat) : Nat := 0xC2500 + s * 0x40
/-- ST_SURF01[s], R268. -/
def ST_SURF01 (s : Nat) : Nat := 0xC2504 + s * 0x40
/-- ST_SURF23[s], R268. -/
def ST_SURF23 (s : Nat) : Nat := 0xC2508 + s * 0x40
/-- ST_KEY[s], R268. -/
def ST_KEY (s : Nat) : Nat := 0xC250C + s * 0x40
/-- ST_INST[s], R268. -/
def ST_INST (s : Nat) : Nat := 0xC2510 + s * 0x40
/-- ST_LOST[s], R268. -/
def ST_LOST (s : Nat) : Nat := 0xC2514 + s * 0x40
/-- TRAZH_CTL[h], R268. -/
def TRAZH_CTL (h : Nat) : Nat := 0xC2800 + h * 0x40
/-- TRAZH_ETYPE[h], R268. -/
def TRAZH_ETYPE (h : Nat) : Nat := 0xC2804 + h * 0x40
/-- TRAZH_DMAC_LO[h], R268. -/
def TRAZH_DMAC_LO (h : Nat) : Nat := 0xC2808 + h * 0x40
/-- TRAZH_DMAC_HI[h], R268. -/
def TRAZH_DMAC_HI (h : Nat) : Nat := 0xC280C + h * 0x40
/-- TRAZH_OFS[h], R268. -/
def TRAZH_OFS (h : Nat) : Nat := 0xC2810 + h * 0x40
/-- TRAZH_SPACING[h], R268. -/
def TRAZH_SPACING (h : Nat) : Nat := 0xC2814 + h * 0x40
/-- TRAZH_REFUSED[h], R268. -/
def TRAZH_REFUSED (h : Nat) : Nat := 0xC2818 + h * 0x40
/-- PACK_SLOW_SUMMARY, R268. -/
def PACK_SLOW_SUMMARY : Nat := 0xC2A00
/-- PACK_SLOW_SUMMARY_EN, R268. -/
def PACK_SLOW_SUMMARY_EN : Nat := 0xC2A04
/-- DMX_CTL[n], R269. -/
def DMX_CTL (n : Nat) : Nat := 0x1000000 + n * 0x800
/-- DMX_TIMING[n], R269. -/
def DMX_TIMING (n : Nat) : Nat := 0x1000004 + n * 0x800
/-- DMX_SCHED[n], R269. -/
def DMX_SCHED (n : Nat) : Nat := 0x1000008 + n * 0x800
/-- DMX_OFS[n], R269. -/
def DMX_OFS (n : Nat) : Nat := 0x100000C + n * 0x800
/-- DMX_SRC[n], R269. -/
def DMX_SRC (n : Nat) : Nat := 0x1000010 + n * 0x800
/-- DMX_LEAD[n], R269. -/
def DMX_LEAD (n : Nat) : Nat := 0x1000014 + n * 0x800
/-- DMX_STATUS[n], R269. -/
def DMX_STATUS (n : Nat) : Nat := 0x1000018 + n * 0x800
/-- DMX_EVENT[n], R269. -/
def DMX_EVENT (n : Nat) : Nat := 0x100001C + n * 0x800
/-- DMX_EVENT_EN[n], R269. -/
def DMX_EVENT_EN (n : Nat) : Nat := 0x1000020 + n * 0x800
/-- DMX_COUNT[n], R269. -/
def DMX_COUNT (n : Nat) : Nat := 0x1000024 + n * 0x800
/-- DMX_COUNT2[n], R269. -/
def DMX_COUNT2 (n : Nat) : Nat := 0x1000028 + n * 0x800
/-- DMX_BREAK_TIME_LO[n], R269. -/
def DMX_BREAK_TIME_LO (n : Nat) : Nat := 0x1000030 + n * 0x800
/-- DMX_BREAK_TIME_HI[n], R269. -/
def DMX_BREAK_TIME_HI (n : Nat) : Nat := 0x1000034 + n * 0x800
/-- DMX_UID_LO[n], R269. -/
def DMX_UID_LO (n : Nat) : Nat := 0x1000038 + n * 0x800
/-- DMX_UID_HI[n], R269. -/
def DMX_UID_HI (n : Nat) : Nat := 0x100003C + n * 0x800
/-- DMX_RDM_CMD[n], R269. -/
def DMX_RDM_CMD (n : Nat) : Nat := 0x1000040 + n * 0x800
/-- DMX_RDM_STATUS[n], R269. -/
def DMX_RDM_STATUS (n : Nat) : Nat := 0x1000044 + n * 0x800
/-- DMX_RDM_TXLEN[n], R269. -/
def DMX_RDM_TXLEN (n : Nat) : Nat := 0x1000048 + n * 0x800
/-- DMX_RDM_WAIT[n], R269. -/
def DMX_RDM_WAIT (n : Nat) : Nat := 0x100004C + n * 0x800
/-- DMX_RDM_TX[n][w], R269. -/
def DMX_RDM_TX (n w : Nat) : Nat := 0x1000100 + n * 0x800 + w * 4
/-- DMX_RDM_RX[n][w], R269. -/
def DMX_RDM_RX (n w : Nat) : Nat := 0x1000300 + n * 0x800 + w * 4
/-- DMX_RX[n][w], R269. -/
def DMX_RX (n w : Nat) : Nat := 0x1000500 + n * 0x800 + w * 4
/-- LTC_RX_CTL, R270. -/
def LTC_RX_CTL : Nat := 0x2000000
/-- LTC_RX_TC, R270. -/
def LTC_RX_TC : Nat := 0x2000004
/-- LTC_RX_USER, R270. -/
def LTC_RX_USER : Nat := 0x2000008
/-- LTC_RX_TIME_LO, R270. -/
def LTC_RX_TIME_LO : Nat := 0x200000C
/-- LTC_RX_TIME_HI, R270. -/
def LTC_RX_TIME_HI : Nat := 0x2000010
/-- LTC_RX_STAT, R270. -/
def LTC_RX_STAT : Nat := 0x2000014
/-- LTC_TX_CTL, R270. -/
def LTC_TX_CTL : Nat := 0x2000040
/-- LTC_TX_START, R270. -/
def LTC_TX_START : Nat := 0x2000044
/-- LTC_TX_OFS, R270. -/
def LTC_TX_OFS : Nat := 0x2000048
/-- LTC_TX_TOD, R270. -/
def LTC_TX_TOD : Nat := 0x200004C
/-- LTC_TX_USER, R270. -/
def LTC_TX_USER : Nat := 0x2000050
/-- LTC_EVENT, R270. -/
def LTC_EVENT : Nat := 0x2000054
/-- LTC_EVENT_EN, R270. -/
def LTC_EVENT_EN : Nat := 0x2000058
/-- MIDI_CTL, R270. -/
def MIDI_CTL : Nat := 0x2000080
/-- MIDI_RX, R270. -/
def MIDI_RX : Nat := 0x2000084
/-- MIDI_RX_TIME_LO, R270. -/
def MIDI_RX_TIME_LO : Nat := 0x2000088
/-- MIDI_RX_TIME_HI, R270. -/
def MIDI_RX_TIME_HI : Nat := 0x200008C
/-- MIDI_RX_STAT, R270. -/
def MIDI_RX_STAT : Nat := 0x2000090
/-- MIDI_TX, R270. -/
def MIDI_TX : Nat := 0x2000094
/-- MIDI_TX_STAT, R270. -/
def MIDI_TX_STAT : Nat := 0x2000098
/-- MIDI_EVENT, R270. -/
def MIDI_EVENT : Nat := 0x200009C
/-- MIDI_EVENT_EN, R270. -/
def MIDI_EVENT_EN : Nat := 0x20000A0
/-- PAIR_CTL, R303. -/
def PAIR_CTL : Nat := 0xF0000
/-- PAIR_STATUS, R303. -/
def PAIR_STATUS : Nat := 0xF0004
/-- PAIR_EVENT, R303. -/
def PAIR_EVENT : Nat := 0xF0008
/-- PAIR_EVENT_EN, R303. -/
def PAIR_EVENT_EN : Nat := 0xF000C
/-- PAIR_CMD, R303. -/
def PAIR_CMD : Nat := 0xF0010
/-- PAIR_HB_CFG, R303. -/
def PAIR_HB_CFG : Nat := 0xF0014
/-- PAIR_WDOG_CFG, R303. -/
def PAIR_WDOG_CFG : Nat := 0xF0018
/-- PAIR_WDOG_KICK, R303. -/
def PAIR_WDOG_KICK : Nat := 0xF001C
/-- PAIR_MISMATCH_LIMIT, R303. -/
def PAIR_MISMATCH_LIMIT : Nat := 0xF0020
/-- PAIR_MISMATCH, R303. -/
def PAIR_MISMATCH : Nat := 0xF0024
/-- PAIR_MISMATCH_RUN, R303. -/
def PAIR_MISMATCH_RUN : Nat := 0xF0028
/-- PAIR_MISMATCH_INFO, R303. -/
def PAIR_MISMATCH_INFO : Nat := 0xF002C
/-- PAIR_MISMATCH_FRAME_LO, R303. -/
def PAIR_MISMATCH_FRAME_LO : Nat := 0xF0030
/-- PAIR_MISMATCH_FRAME_HI, R303. -/
def PAIR_MISMATCH_FRAME_HI : Nat := 0xF0034
/-- PAIR_CONFIRMED_LO, R303. -/
def PAIR_CONFIRMED_LO : Nat := 0xF0038
/-- PAIR_CONFIRMED_HI, R303. -/
def PAIR_CONFIRMED_HI : Nat := 0xF003C
/-- PAIR_TAKEOVER_FRAME_LO, R303. -/
def PAIR_TAKEOVER_FRAME_LO : Nat := 0xF0040
/-- PAIR_TAKEOVER_FRAME_HI, R303. -/
def PAIR_TAKEOVER_FRAME_HI : Nat := 0xF0044
/-- PAIR_TT_OFFSET, R303. -/
def PAIR_TT_OFFSET : Nat := 0xF0048
/-- PAIR_TT_DELAY, R303. -/
def PAIR_TT_DELAY : Nat := 0xF004C
/-- PAIR_MIRROR_CTL, R303. -/
def PAIR_MIRROR_CTL : Nat := 0xF0050
/-- PAIR_MIRROR_LATE, R303. -/
def PAIR_MIRROR_LATE : Nat := 0xF0054
/-- PAIR_MARK_WAIT, R303. -/
def PAIR_MARK_WAIT : Nat := 0xF0058
/-- PAIR_JOIN_FRAMES, R303. -/
def PAIR_JOIN_FRAMES : Nat := 0xF005C
/-- PAIR_HEALTH_LOCAL_LO, R303. -/
def PAIR_HEALTH_LOCAL_LO : Nat := 0xF0060
/-- PAIR_HEALTH_LOCAL_HI, R303. -/
def PAIR_HEALTH_LOCAL_HI : Nat := 0xF0064
/-- PAIR_HEALTH_PARTNER_LO, R303. -/
def PAIR_HEALTH_PARTNER_LO : Nat := 0xF0068
/-- PAIR_HEALTH_PARTNER_HI, R303. -/
def PAIR_HEALTH_PARTNER_HI : Nat := 0xF006C
/-- PAIR_LINK_STATUS, R303. -/
def PAIR_LINK_STATUS : Nat := 0xF0070
/-- PAIR_LINK_RESEND, R303. -/
def PAIR_LINK_RESEND : Nat := 0xF0074
/-- PAIR_LINK_FATAL_COUNT, R303. -/
def PAIR_LINK_FATAL_COUNT : Nat := 0xF0078
/-- PAIR_ADJ_BUDGET, R303. -/
def PAIR_ADJ_BUDGET : Nat := 0xF007C
/-- GUARD_UNLOCK, R320. -/
def GUARD_UNLOCK : Nat := 0x8000
/-- GUARD_STATUS, R320. -/
def GUARD_STATUS : Nat := 0x8004
/-- GUARD_EVENT, R320. -/
def GUARD_EVENT : Nat := 0x8008
/-- GUARD_EVENT_EN, R320. -/
def GUARD_EVENT_EN : Nat := 0x800C
/-- GUARD_DENY_INFO, R320. -/
def GUARD_DENY_INFO : Nat := 0x8010
/-- GUARD_DENIED_COUNT, R320. -/
def GUARD_DENIED_COUNT : Nat := 0x8014
/-- LOCK_VIOLATION_ADDR, R320. -/
def LOCK_VIOLATION_ADDR : Nat := 0x8018
/-- GUARD_BAD_ACCESS_COUNT, R320. -/
def GUARD_BAD_ACCESS_COUNT : Nat := 0x801C
/-- IND_SEL, R320. -/
def IND_SEL : Nat := 0x8040
/-- IND_ADDR, R320. -/
def IND_ADDR : Nat := 0x8044
/-- IND_DATA, R320. -/
def IND_DATA : Nat := 0x8048
/-- IND_STATUS, R320. -/
def IND_STATUS : Nat := 0x804C
/-- SEAL_CTL, R320. -/
def SEAL_CTL : Nat := 0x8080
/-- SEAL_MASK, R320. -/
def SEAL_MASK : Nat := 0x8084
/-- SEAL_REF, R320. -/
def SEAL_REF : Nat := 0x8088
/-- SEAL_CAPTURE, R320. -/
def SEAL_CAPTURE : Nat := 0x808C
/-- SEAL_RESULT, R320. -/
def SEAL_RESULT : Nat := 0x8090
/-- SEAL_PASSES, R320. -/
def SEAL_PASSES : Nat := 0x8094
/-- SEAL_MISMATCH_COUNT, R320. -/
def SEAL_MISMATCH_COUNT : Nat := 0x8098
/-- QUE_EVENT, R326. -/
def QUE_EVENT : Nat := 0xD0000
/-- QUE_EVENT_EN, R326. -/
def QUE_EVENT_EN : Nat := 0xD0004
/-- QUE_ERR_INFO, R326. -/
def QUE_ERR_INFO : Nat := 0xD0008
/-- QUE_ERR_COUNT, R326. -/
def QUE_ERR_COUNT : Nat := 0xD000C
/-- QUE_PUSH_CMD, R326. -/
def QUE_PUSH_CMD : Nat := 0xD0010
/-- QUE_PUSH_STATUS, R326. -/
def QUE_PUSH_STATUS : Nat := 0xD0014
/-- QUE_POP_CMD, R326. -/
def QUE_POP_CMD : Nat := 0xD0018
/-- QUE_POP_STATUS, R326. -/
def QUE_POP_STATUS : Nat := 0xD001C
/-- QUE_PUSH_DATA[w], R326. -/
def QUE_PUSH_DATA (w : Nat) : Nat := 0xD0040 + w * 0x4
/-- QUE_POP_DATA[w], R326. -/
def QUE_POP_DATA (w : Nat) : Nat := 0xD0060 + w * 0x4
/-- QUE_CFG[q], R326. -/
def QUE_CFG (q : Nat) : Nat := 0xD4000 + q * 0x10
/-- QUE_BASE_LO[q], R326. -/
def QUE_BASE_LO (q : Nat) : Nat := 0xD4004 + q * 0x10
/-- QUE_BASE_HI[q], R326. -/
def QUE_BASE_HI (q : Nat) : Nat := 0xD4008 + q * 0x10
/-- QUE_COUNT[q], R326. -/
def QUE_COUNT (q : Nat) : Nat := 0xD400C + q * 0x10
/-- QUE_REFUSED[q], R326. -/
def QUE_REFUSED (q : Nat) : Nat := 0xD8000 + q * 0x4
/-- DMA_EVENT, R330. -/
def DMA_EVENT : Nat := 0xE0000
/-- DMA_EVENT_EN, R330. -/
def DMA_EVENT_EN : Nat := 0xE0004
/-- DMA_BASE_LO[c], R330. -/
def DMA_BASE_LO (c : Nat) : Nat := 0xE0100 + c * 0x40
/-- DMA_BASE_HI[c], R330. -/
def DMA_BASE_HI (c : Nat) : Nat := 0xE0104 + c * 0x40
/-- DMA_CTL[c], R330. -/
def DMA_CTL (c : Nat) : Nat := 0xE0108 + c * 0x40
/-- DMA_TAIL[c], R330. -/
def DMA_TAIL (c : Nat) : Nat := 0xE010C + c * 0x40
/-- DMA_HEAD[c], R330. -/
def DMA_HEAD (c : Nat) : Nat := 0xE0110 + c * 0x40
/-- DMA_STATUS[c], R330. -/
def DMA_STATUS (c : Nat) : Nat := 0xE0114 + c * 0x40
/-- DMA_BYTES_LO[c], R330. -/
def DMA_BYTES_LO (c : Nat) : Nat := 0xE0118 + c * 0x40
/-- DMA_BYTES_HI[c], R330. -/
def DMA_BYTES_HI (c : Nat) : Nat := 0xE011C + c * 0x40
/-- SYS_ABORT, R333. -/
def SYS_ABORT : Nat := 0x100
/-- SYS_ABORT_STATUS, R333. -/
def SYS_ABORT_STATUS : Nat := 0x104
/-- SYS_ABORT_EVENT, R333. -/
def SYS_ABORT_EVENT : Nat := 0x108
/-- SYS_ABORT_EVENT_EN, R333. -/
def SYS_ABORT_EVENT_EN : Nat := 0x10C
/-- SYS_ABORT_TIME, R333. -/
def SYS_ABORT_TIME : Nat := 0x110
/-- WEEVIL_CTL, R356. -/
def WEEVIL_CTL : Nat := 0xF8000
/-- WEEVIL_STATUS, R356. -/
def WEEVIL_STATUS : Nat := 0xF8004
/-- WEEVIL_EVENT, R356. -/
def WEEVIL_EVENT : Nat := 0xF8008
/-- WEEVIL_EVENT_EN, R356. -/
def WEEVIL_EVENT_EN : Nat := 0xF800C
/-- WEEVIL_BUDGET, R356. -/
def WEEVIL_BUDGET : Nat := 0xF8010
/-- WEEVIL_RES_SEQ, R356. -/
def WEEVIL_RES_SEQ : Nat := 0xF8014
/-- WEEVIL_RES_PTR, R356. -/
def WEEVIL_RES_PTR : Nat := 0xF8018
/-- WEEVIL_SLICE_COUNT, R356. -/
def WEEVIL_SLICE_COUNT : Nat := 0xF801C
/-- WEEVIL_RUN[r], R356. -/
def WEEVIL_RUN (r : Nat) : Nat := 0xF8040 + r * 0x10
/-- WEEVIL_RUN_BUDGET[r], R356. -/
def WEEVIL_RUN_BUDGET (r : Nat) : Nat := 0xF8044 + r * 0x10
/-- WEEVIL_RUN_STATUS[r], R356. -/
def WEEVIL_RUN_STATUS (r : Nat) : Nat := 0xF8048 + r * 0x10
/-- WEEVIL_MARK_IDX, R356. -/
def WEEVIL_MARK_IDX : Nat := 0xF8100
/-- WEEVIL_MARK_DATA, R356. -/
def WEEVIL_MARK_DATA : Nat := 0xF8104
/-- WEEVIL_UNUSABLE_COUNT, R356. -/
def WEEVIL_UNUSABLE_COUNT : Nat := 0xF8108
/-- SWARM_SPARE_STATUS[s], R357. -/
def SWARM_SPARE_STATUS (s : Nat) : Nat := 0x40200 + s * 0x4000
/-- SWARM_SPARE_CMD[s], R357. -/
def SWARM_SPARE_CMD (s : Nat) : Nat := 0x40204 + s * 0x4000
/-- CAL_CTL, R358. -/
def CAL_CTL : Nat := 0x100000
/-- CAL_STATUS, R358. -/
def CAL_STATUS : Nat := 0x100004
/-- CAL_EVENT, R358. -/
def CAL_EVENT : Nat := 0x100008
/-- CAL_EVENT_EN, R358. -/
def CAL_EVENT_EN : Nat := 0x10000C
/-- CAL_PERIOD, R358. -/
def CAL_PERIOD : Nat := 0x100010
/-- CAL_CMD, R358. -/
def CAL_CMD : Nat := 0x100014
/-- CAL_GEN, R358. -/
def CAL_GEN : Nat := 0x100018
/-- CAL_DISAGREE_COUNT, R358. -/
def CAL_DISAGREE_COUNT : Nat := 0x10001C
/-- CAL_PATH_IDX, R358. -/
def CAL_PATH_IDX : Nat := 0x100020
/-- CAL_PATH_VALUE, R358. -/
def CAL_PATH_VALUE : Nat := 0x100024
/-- CAL_PATH_INFO, R358. -/
def CAL_PATH_INFO : Nat := 0x100028
/-- SCARAB_LC_STATE, R375. -/
def SCARAB_LC_STATE : Nat := 0x108000
/-- SCARAB_LC_CMD, R375. -/
def SCARAB_LC_CMD : Nat := 0x108004
/-- SCARAB_EVENT, R375. -/
def SCARAB_EVENT : Nat := 0x108008
/-- SCARAB_EVENT_EN, R375. -/
def SCARAB_EVENT_EN : Nat := 0x10800C
/-- SCARAB_BOOT_STATUS, R375. -/
def SCARAB_BOOT_STATUS : Nat := 0x108010
/-- SCARAB_SVN, R375. -/
def SCARAB_SVN : Nat := 0x108014
/-- SCARAB_SVN_CMD, R375. -/
def SCARAB_SVN_CMD : Nat := 0x108018
/-- SCARAB_BOOT_ADDR_LO, R375. -/
def SCARAB_BOOT_ADDR_LO : Nat := 0x108020
/-- SCARAB_BOOT_ADDR_HI, R375. -/
def SCARAB_BOOT_ADDR_HI : Nat := 0x108024
/-- SCARAB_CHAL_CMD, R375. -/
def SCARAB_CHAL_CMD : Nat := 0x108030
/-- SCARAB_CHAL[w], R375. -/
def SCARAB_CHAL (w : Nat) : Nat := 0x108040 + w * 0x4
/-- SCARAB_TOKEN_SCOPE, R375. -/
def SCARAB_TOKEN_SCOPE : Nat := 0x108070
/-- SCARAB_TOKEN[w], R375. -/
def SCARAB_TOKEN (w : Nat) : Nat := 0x108080 + w * 0x4
/-- SCARAB_TOKEN_CMD, R375. -/
def SCARAB_TOKEN_CMD : Nat := 0x1080E0
/-- SCARAB_TOKEN_STATUS, R375. -/
def SCARAB_TOKEN_STATUS : Nat := 0x1080E4
/-- SCARAB_TOKEN_KEY[w], R375. -/
def SCARAB_TOKEN_KEY (w : Nat) : Nat := 0x108100 + w * 0x4
/-- SCARAB_PKG_ADDR_LO, R375. -/
def SCARAB_PKG_ADDR_LO : Nat := 0x108180
/-- SCARAB_PKG_ADDR_HI, R375. -/
def SCARAB_PKG_ADDR_HI : Nat := 0x108184
/-- SCARAB_PKG_LEN_LO, R375. -/
def SCARAB_PKG_LEN_LO : Nat := 0x108188
/-- SCARAB_PKG_LEN_HI, R375. -/
def SCARAB_PKG_LEN_HI : Nat := 0x10818C
/-- SCARAB_PROT_BASE_LO, R375. -/
def SCARAB_PROT_BASE_LO : Nat := 0x108190
/-- SCARAB_PROT_BASE_HI, R375. -/
def SCARAB_PROT_BASE_HI : Nat := 0x108194
/-- SCARAB_PROT_SIZE_LO, R375. -/
def SCARAB_PROT_SIZE_LO : Nat := 0x108198
/-- SCARAB_PROT_SIZE_HI, R375. -/
def SCARAB_PROT_SIZE_HI : Nat := 0x10819C
/-- SCARAB_PKG_CMD, R375. -/
def SCARAB_PKG_CMD : Nat := 0x1081A0
/-- SCARAB_PKG_STATUS, R375. -/
def SCARAB_PKG_STATUS : Nat := 0x1081A4
/-- SCARAB_PROT_DENY_COUNT, R375. -/
def SCARAB_PROT_DENY_COUNT : Nat := 0x1081A8
/-- SCARAB_PIN_IDX, R375. -/
def SCARAB_PIN_IDX : Nat := 0x1081C0
/-- SCARAB_PIN_CMD, R375. -/
def SCARAB_PIN_CMD : Nat := 0x1081C4
/-- SCARAB_PIN_DATA[w], R375. -/
def SCARAB_PIN_DATA (w : Nat) : Nat := 0x1081D0 + w * 0x4
/-- SCARAB_PAIR_CMD, R375. -/
def SCARAB_PAIR_CMD : Nat := 0x108200
/-- SCARAB_PAIR_STATUS, R375. -/
def SCARAB_PAIR_STATUS : Nat := 0x108204
/-- SCARAB_PAIR_ID_LO, R375. -/
def SCARAB_PAIR_ID_LO : Nat := 0x108208
/-- SCARAB_PAIR_ID_HI, R375. -/
def SCARAB_PAIR_ID_HI : Nat := 0x10820C
/-- SCARAB_SESS_CMD, R375. -/
def SCARAB_SESS_CMD : Nat := 0x108220
/-- SCARAB_LOT_ID_LO, R375. -/
def SCARAB_LOT_ID_LO : Nat := 0x108300
/-- SCARAB_LOT_ID_HI, R375. -/
def SCARAB_LOT_ID_HI : Nat := 0x108304
/-- SCARAB_DIE_POS, R375. -/
def SCARAB_DIE_POS : Nat := 0x108308
/-- SCARAB_UID[w], R375. -/
def SCARAB_UID (w : Nat) : Nat := 0x108310 + w * 0x4
/-- SCARAB_CERT_LEN, R375. -/
def SCARAB_CERT_LEN : Nat := 0x108320
/-- SCARAB_DIK_PUB[w], R375. -/
def SCARAB_DIK_PUB (w : Nat) : Nat := 0x108400 + w * 0x4
/-- SCARAB_DAK_PUB[w], R375. -/
def SCARAB_DAK_PUB (w : Nat) : Nat := 0x108480 + w * 0x4
/-- SCARAB_PAIR_PUB[w], R375. -/
def SCARAB_PAIR_PUB (w : Nat) : Nat := 0x108500 + w * 0x4
/-- SCARAB_CERT[w], R375. -/
def SCARAB_CERT (w : Nat) : Nat := 0x108800 + w * 0x4
/-- GPIO_DIR, R392. -/
def GPIO_DIR : Nat := 0x6000000
/-- GPIO_OUT, R392. -/
def GPIO_OUT : Nat := 0x6000004
/-- GPIO_IN, R392. -/
def GPIO_IN : Nat := 0x6000008
/-- GPIO_EDGE, R392. -/
def GPIO_EDGE : Nat := 0x600000C
/-- GPIO_EVENT, R392. -/
def GPIO_EVENT : Nat := 0x6000010
/-- GPIO_EVENT_EN, R392. -/
def GPIO_EVENT_EN : Nat := 0x6000014
/-- I2C_CTL[c], R392. -/
def I2C_CTL (c : Nat) : Nat := 0x6000100 + c * 0x40
/-- I2C_XFER[c], R392. -/
def I2C_XFER (c : Nat) : Nat := 0x6000104 + c * 0x40
/-- I2C_STATUS[c], R392. -/
def I2C_STATUS (c : Nat) : Nat := 0x6000108 + c * 0x40
/-- I2C_BUF[c][w], R392. -/
def I2C_BUF (c w : Nat) : Nat := 0x6000120 + c * 0x40 + w * 0x4
/-- SPI_CTL, R392. -/
def SPI_CTL : Nat := 0x6000200
/-- SPI_OP, R392. -/
def SPI_OP : Nat := 0x6000204
/-- SPI_ADDR, R392. -/
def SPI_ADDR : Nat := 0x6000208
/-- SPI_MEM_LO, R392. -/
def SPI_MEM_LO : Nat := 0x600020C
/-- SPI_MEM_HI, R392. -/
def SPI_MEM_HI : Nat := 0x6000210
/-- SPI_CMD, R392. -/
def SPI_CMD : Nat := 0x6000214
/-- SPI_STATUS, R392. -/
def SPI_STATUS : Nat := 0x6000218
/-- UART_TX, R392. -/
def UART_TX : Nat := 0x6000300
/-- UART_RX, R392. -/
def UART_RX : Nat := 0x6000304
/-- UART_STAT, R392. -/
def UART_STAT : Nat := 0x6000308
/-- MDIO_CTL[n], R392. -/
def MDIO_CTL (n : Nat) : Nat := 0x6000340 + n * 0x20
/-- MDIO_CMD[n], R392. -/
def MDIO_CMD (n : Nat) : Nat := 0x6000344 + n * 0x20
/-- MDIO_STATUS[n], R392. -/
def MDIO_STATUS (n : Nat) : Nat := 0x6000348 + n * 0x20
/-- BOARD_EVENT, R392. -/
def BOARD_EVENT : Nat := 0x6000400
/-- BOARD_EVENT_EN, R392. -/
def BOARD_EVENT_EN : Nat := 0x6000404
/-- SYS_STRAPS, R393. -/
def SYS_STRAPS : Nat := 0x4
/-- SYS_RESET_CMD, R393. -/
def SYS_RESET_CMD : Nat := 0x8
/-- SYS_RESET_CAUSE, R393. -/
def SYS_RESET_CAUSE : Nat := 0xC
/-- SYS_STARTUP_STATUS, R393. -/
def SYS_STARTUP_STATUS : Nat := 0x10
/-- SYS_BOOT_CMD, R393. -/
def SYS_BOOT_CMD : Nat := 0x14
/-- SYS_EVENT, R393. -/
def SYS_EVENT : Nat := 0x18
/-- SYS_EVENT_EN, R393. -/
def SYS_EVENT_EN : Nat := 0x1C
/-- SYS_THERM_CTL, R393. -/
def SYS_THERM_CTL : Nat := 0x20
/-- SYS_LINK_RESET_COUNT, R393. -/
def SYS_LINK_RESET_COUNT : Nat := 0x24
/-- EVT_SUMMARY_LO, R393. -/
def EVT_SUMMARY_LO : Nat := 0x40
/-- EVT_SUMMARY_HI, R393. -/
def EVT_SUMMARY_HI : Nat := 0x44
/-- SYS_MSIX_ACK_LO, R393. -/
def SYS_MSIX_ACK_LO : Nat := 0x48
/-- SYS_MSIX_ACK_HI, R393. -/
def SYS_MSIX_ACK_HI : Nat := 0x4C
/-- SYS_MSIX_INSERVICE_LO, R393. -/
def SYS_MSIX_INSERVICE_LO : Nat := 0x50
/-- SYS_MSIX_INSERVICE_HI, R393. -/
def SYS_MSIX_INSERVICE_HI : Nat := 0x54
/-- SYS_SW_SET, R393. -/
def SYS_SW_SET : Nat := 0x60
/-- SYS_SW_EVENT, R393. -/
def SYS_SW_EVENT : Nat := 0x64
/-- SYS_SW_EVENT_EN, R393. -/
def SYS_SW_EVENT_EN : Nat := 0x68
/-- SYS_TEMP[i], R393. -/
def SYS_TEMP (i : Nat) : Nat := 0x200 + i * 0x4
/-- SYS_EVT_ROUTE[n], R393. -/
def SYS_EVT_ROUTE (n : Nat) : Nat := 0x400 + n * 0x4
/-- SWARM_CLK_CTL[s], R394. -/
def SWARM_CLK_CTL (s : Nat) : Nat := 0x40300 + s * 0x4000
/-- SWARM_EVENT[s], R394. -/
def SWARM_EVENT (s : Nat) : Nat := 0x40304 + s * 0x4000
/-- SWARM_EVENT_EN[s], R394. -/
def SWARM_EVENT_EN (s : Nat) : Nat := 0x40308 + s * 0x4000
/-- PMON_CTL, R395. -/
def PMON_CTL : Nat := 0x110000
/-- PMON_SNAP_FRAME_LO, R395. -/
def PMON_SNAP_FRAME_LO : Nat := 0x110010
/-- PMON_SNAP_FRAME_HI, R395. -/
def PMON_SNAP_FRAME_HI : Nat := 0x110014
/-- PMON_SEL[i], R395. -/
def PMON_SEL (i : Nat) : Nat := 0x110100 + i * 0x4
/-- PMON_CNT_LO[i], R395. -/
def PMON_CNT_LO (i : Nat) : Nat := 0x110200 + i * 0x8
/-- PMON_SNAP_LO[i], R395. -/
def PMON_SNAP_LO (i : Nat) : Nat := 0x110400 + i * 0x8
/-- LPORT_RX_LAT[n], R242. -/
def LPORT_RX_LAT (n : Nat) : Nat := portBase (n + 8) + 0x838
/-- MSIX_TABLE[w], R393. -/
def MSIX_TABLE (w : Nat) : Nat := 0x4000 + w * 4
/-- MSIX_PBA[w], R393. -/
def MSIX_PBA (w : Nat) : Nat := 0x5000 + w * 4
/-- SYS_IDENT, R375. -/
def SYS_IDENT : Nat := 0x0
/-- PMON_CNT_HI[i], R395. -/
def PMON_CNT_HI (i : Nat) : Nat := 0x110204 + i * 0x8
/-- PMON_SNAP_HI[i], R395. -/
def PMON_SNAP_HI (i : Nat) : Nat := 0x110404 + i * 0x8

/-- Register rows of block SYS. -/
def sysRows : List RegRow := [
  { name := "SYS_ABORT", off := 0x100, w := 0xF00FFFF, w1s := 0x80000000, gk := true, hook := .sysAbort },
  { name := "SYS_ABORT_STATUS", off := 0x104 },
  { name := "SYS_ABORT_EVENT", off := 0x108, w1c := 0x3, hook := .line },
  { name := "SYS_ABORT_EVENT_EN", off := 0x10C, w := 0x3, hook := .line },
  { name := "SYS_ABORT_TIME", off := 0x110 },
  { name := "SYS_STRAPS", off := 0x4 },
  { name := "SYS_RESET_CMD", off := 0x8, w := 0x3, gk := true, hook := .sysResetCmd },
  { name := "SYS_RESET_CAUSE", off := 0xC, reset := fun _ => 0x1 },
  { name := "SYS_STARTUP_STATUS", off := 0x10 },
  { name := "SYS_BOOT_CMD", off := 0x14, w1s := 0x1, hook := .sysBootCmd },
  { name := "SYS_EVENT", off := 0x18, w1c := 0x1F, hook := .line },
  { name := "SYS_EVENT_EN", off := 0x1C, w := 0x1F, hook := .line },
  { name := "SYS_THERM_CTL", off := 0x20, w := 0x8000FFFF, reset := fun _ => 0x8000695F },
  { name := "SYS_LINK_RESET_COUNT", off := 0x24, w := 0xFFFFFFFF, unsealed := 0xFFFFFFFF, cnt := true },
  { name := "EVT_SUMMARY_LO", off := 0x40, half := .lo, hook := .evtSummaryLo },
  { name := "EVT_SUMMARY_HI", off := 0x44, half := .hi },
  { name := "SYS_MSIX_ACK_LO", off := 0x48, half := .lo, hook := .sysMsixAckLo },
  { name := "SYS_MSIX_ACK_HI", off := 0x4C, half := .hi, hook := .sysMsixAckHi },
  { name := "SYS_MSIX_INSERVICE_LO", off := 0x50, half := .lo, hook := .sysMsixInserviceLo },
  { name := "SYS_MSIX_INSERVICE_HI", off := 0x54, half := .hi },
  { name := "SYS_SW_SET", off := 0x60, hook := .sysSwSet },
  { name := "SYS_SW_EVENT", off := 0x64, w1c := 0xFFFF, hook := .line },
  { name := "SYS_SW_EVENT_EN", off := 0x68, w := 0xFFFF, hook := .line },
  { name := "SYS_TEMP", off := 0x200, dims := [(0x4, 30)] },
  { name := "SYS_EVT_ROUTE", off := 0x400, dims := [(0x4, 64)], w := 0xC000003F, reset := fun n => BitVec.ofNat 32 n },
  { name := "MSIX_TABLE", off := 0x400C, dims := [(0x10, 64)], w := 1, unsealed := 1, hook := .msixTable, reset := fun _ => 1 },
  { name := "MSIX_PBA", off := 0x5000, dims := [(0x4, 2)], hook := .msixPba },
  { name := "SYS_IDENT", off := 0x0, hook := .sysIdent, reset := fun _ => 0x9710A100 }
] ++ wordRows { name := "MSIX_TABLE", off := 0x4000, dims := [(0x10, 64)], unsealed := 0xFFFFFFFF }
    [0xFFFFFFFF, 0xFFFFFFFF, 0xFFFFFFFF]

/-- Register rows of block GUARD. -/
def guardRows : List RegRow := [
  { name := "GUARD_UNLOCK", off := 0x0, hook := .guardUnlock },
  { name := "GUARD_STATUS", off := 0x4, hook := .guardStatus },
  { name := "GUARD_EVENT", off := 0x8, w1c := 0x1F, hook := .line },
  { name := "GUARD_EVENT_EN", off := 0xC, w := 0x1F, hook := .line },
  { name := "GUARD_DENY_INFO", off := 0x10 },
  { name := "GUARD_DENIED_COUNT", off := 0x14, w := 0xFFFFFFFF, cnt := true },
  { name := "LOCK_VIOLATION_ADDR", off := 0x18 },
  { name := "GUARD_BAD_ACCESS_COUNT", off := 0x1C, w := 0xFFFFFFFF, cnt := true },
  { name := "IND_SEL", off := 0x40, w := 0x7, hook := .own },
  { name := "IND_ADDR", off := 0x44, w := 0xFFFFFC, hook := .own },
  { name := "IND_DATA", off := 0x48, hook := .indData },
  { name := "IND_STATUS", off := 0x4C, hook := .own },
  { name := "SEAL_CTL", off := 0x80, w := 0x1, gk := true },
  { name := "SEAL_MASK", off := 0x84, w := 0x1FFFF, gk := true, reset := fun _ => 0x1FFFF },
  { name := "SEAL_REF", off := 0x88, w := 0xFFFFFFFF, gk := true },
  { name := "SEAL_CAPTURE", off := 0x8C, w1s := 0x1, gk := true, hook := .sealCapture },
  { name := "SEAL_RESULT", off := 0x90 },
  { name := "SEAL_PASSES", off := 0x94, w := 0xFFFFFFFF, cnt := true },
  { name := "SEAL_MISMATCH_COUNT", off := 0x98, w := 0xFFFFFFFF, cnt := true } ]

/-- Register rows of block TB, part 1. -/
def tbRowsA : List RegRow := [
  { name := "TB_CTL", off := 0x0, w := 0x7, gk := true, hook := .tbCtl },
  { name := "TB_STATUS", off := 0x4, hook := .tbStatus },
  { name := "TB_EVENT", off := 0x8, w1c := 0x3FD, hook := .line },
  { name := "TB_EVENT_EN", off := 0xC, w := 0x3FD, hook := .line },
  { name := "TB_TICKS_LO", off := 0x10, half := .lo, hook := .tbTicksLo },
  { name := "TB_TICKS_HI", off := 0x14, half := .hi },
  { name := "TB_NOW_SEC_LO", off := 0x20, half := .lo, hook := .tbNowSecLo },
  { name := "TB_NOW_SEC_HI", off := 0x24, half := .hi, hook := .snapshot },
  { name := "TB_NOW_NS", off := 0x28, hook := .snapshot },
  { name := "TB_NOW_FRAC", off := 0x2C, hook := .snapshot },
  { name := "TB_NOW_TICKS_LO", off := 0x30, half := .lo, hook := .snapshot },
  { name := "TB_NOW_TICKS_HI", off := 0x34, half := .hi, hook := .snapshot },
  { name := "TB_SHORT_LO", off := 0x38, half := .lo, hook := .tbShortLo },
  { name := "TB_SHORT_HI", off := 0x3C, half := .hi },
  { name := "TB_INCR_LO", off := 0x40, w := 0xFFFFFFFF, unsealed := 0xFFFFFFFF, half := .lo, hook := .tbIncrLo, reset := fun _ => 0xCCCCCCCD },
  { name := "TB_INCR_HI", off := 0x44, w := 0xFFFFFF, unsealed := 0xFFFFFF, half := .hi, hook := .tbIncrHi, reset := fun _ => 0xCCCC },
  { name := "TB_OFFSET_SEC_LO", off := 0x48, half := .lo, hook := .tbOffsetSecLo },
  { name := "TB_OFFSET_SEC_HI", off := 0x4C, half := .hi, hook := .snapshot },
  { name := "TB_OFFSET_NS", off := 0x50, hook := .snapshot },
  { name := "TB_OFFSET_FRAC", off := 0x54, hook := .snapshot },
  { name := "TB_ANCHOR_LO", off := 0x58, half := .lo, hook := .snapshot },
  { name := "TB_ANCHOR_HI", off := 0x5C, half := .hi, hook := .snapshot },
  { name := "TB_SET_SEC_LO", off := 0x60, w := 0xFFFFFFFF, unsealed := 0xFFFFFFFF, half := .lo, hook := .tbOwned },
  { name := "TB_SET_SEC_HI", off := 0x64, w := 0xFFFFFFFF, unsealed := 0xFFFFFFFF, half := .hi, hook := .tbOwned },
  { name := "TB_SET_NS", off := 0x68, w := 0xFFFFFFFF, unsealed := 0xFFFFFFFF, hook := .tbOwned },
  { name := "TB_STEP_LO", off := 0x70, w := 0xFFFFFFFF, unsealed := 0xFFFFFFFF, half := .lo, hook := .tbOwned },
  { name := "TB_STEP_HI", off := 0x74, w := 0xFFFFFFFF, unsealed := 0xFFFFFFFF, half := .hi, hook := .tbOwned },
  { name := "TB_CMD", off := 0x78, w1s := 0x3, hook := .tbCmd },
  { name := "TB_STEP_LAST_LO", off := 0x80, half := .lo },
  { name := "TB_STEP_LAST_HI", off := 0x84, half := .hi } ]

/-- Register rows of block TB, part 2. -/
def tbRowsB : List RegRow := [
  { name := "TB_STEP_COUNT", off := 0x88, w := 0xFFFFFFFF, unsealed := 0xFFFFFFFF, cnt := true },
  { name := "TB_PPS_CAP_SEC_LO", off := 0x90, half := .lo, hook := .tbPpsCapSecLo },
  { name := "TB_PPS_CAP_SEC_HI", off := 0x94, half := .hi },
  { name := "TB_PPS_CAP_NS", off := 0x98, hook := .snapshot },
  { name := "TB_PPS_CTL", off := 0xA0, w := 0x3FF0001, reset := fun _ => 0x640000 },
  { name := "TB_EVTCAP_CTL", off := 0x100, dims := [(0x20, 4)], w := 0x3 },
  { name := "TB_EVTCAP_STAT", off := 0x104, dims := [(0x20, 4)], w := 0xFFFF0000, unsealed := 0xFFFF0000, hook := .tbEvtcapStat },
  { name := "TB_EVTCAP_SEC_LO", off := 0x108, dims := [(0x20, 4)], half := .lo, hook := .tbEvtcapSecLo },
  { name := "TB_EVTCAP_SEC_HI", off := 0x10C, dims := [(0x20, 4)], half := .hi },
  { name := "TB_EVTCAP_NS", off := 0x110, dims := [(0x20, 4)], hook := .snapshot },
  { name := "TB_PEROUT_CTL", off := 0x200, dims := [(0x20, 4)], w := 0xB, hook := .tbPeroutCtl },
  { name := "TB_PEROUT_START_SEC_LO", off := 0x204, dims := [(0x20, 4)], w := 0xFFFFFFFF, half := .lo },
  { name := "TB_PEROUT_START_SEC_HI", off := 0x208, dims := [(0x20, 4)], w := 0xFFFFFFFF, half := .hi },
  { name := "TB_PEROUT_START_NS", off := 0x20C, dims := [(0x20, 4)], w := 0xFFFFFFFF },
  { name := "TB_PEROUT_PERIOD_LO", off := 0x210, dims := [(0x20, 4)], w := 0xFFFFFFFF, half := .lo },
  { name := "TB_PEROUT_PERIOD_HI", off := 0x214, dims := [(0x20, 4)], w := 0xFFFF, half := .hi },
  { name := "TB_PEROUT_WIDTH", off := 0x218, dims := [(0x20, 4)], w := 0xFFFFFFFF },
  { name := "TB_PEROUT_FOFS", off := 0x21C, dims := [(0x20, 4)], w := 0xFFFFFFFF } ]

/-- Register rows of block TB. -/
def tbRows : List RegRow := tbRowsA ++ tbRowsB

/-- Register rows of block FRM. -/
def frmRows : List RegRow := [
  { name := "FRM_CTL", off := 0x0, w := 0x1, unsealed := 0x1, hook := .frmCtl },
  { name := "FRM_STATUS", off := 0x4, hook := .frmStatus },
  { name := "FRM_EVENT", off := 0x8, w1c := 0xFF, hook := .line },
  { name := "FRM_EVENT_EN", off := 0xC, w := 0xFF, hook := .line },
  { name := "FRM_EPOCH_SEC_LO", off := 0x10, w := 0xFFFFFFFF, half := .lo, hook := .frmGrid },
  { name := "FRM_EPOCH_SEC_HI", off := 0x14, w := 0xFFFFFFFF, half := .hi, hook := .frmGrid },
  { name := "FRM_EPOCH_NS", off := 0x18, w := 0xFFFFFFFF, hook := .frmGrid },
  { name := "FRM_RATE_NUM", off := 0x20, w := 0xFFFFF, hook := .frmGrid, reset := fun _ => 0x3C },
  { name := "FRM_RATE_DEN", off := 0x24, w := 0xFFFFF, hook := .frmGrid, reset := fun _ => 0x1 },
  { name := "FRM_CMD", off := 0x28, w1s := 0x1, hook := .frmCmd },
  { name := "FRM_STEP_POLICY", off := 0x2C, w := 0x1, hook := .frmPolicy },
  { name := "FRM_HOLD_MAX", off := 0x30, w := 0xFFFFFFFF, hook := .frmPolicy, reset := fun _ => 0x1E8480 },
  { name := "FRM_NUMBER_LO", off := 0x40, half := .lo, hook := .frmNumberLo },
  { name := "FRM_NUMBER_HI", off := 0x44, half := .hi },
  { name := "FRM_LAST_SEC_LO", off := 0x48, half := .lo, hook := .snapshot },
  { name := "FRM_LAST_SEC_HI", off := 0x4C, half := .hi, hook := .snapshot },
  { name := "FRM_LAST_NS", off := 0x50, hook := .snapshot },
  { name := "FRM_LAST_FRAC", off := 0x54, hook := .snapshot },
  { name := "FRM_BIAS_LO", off := 0x58, half := .lo, hook := .frmBiasLo },
  { name := "FRM_BIAS_HI", off := 0x5C, half := .hi },
  { name := "FRM_FRAMES_SKIPPED", off := 0x60, w := 0xFFFFFFFF, unsealed := 0xFFFFFFFF, cnt := true },
  { name := "FRM_HOLD_COUNT", off := 0x64, w := 0xFFFFFFFF, unsealed := 0xFFFFFFFF, cnt := true },
  { name := "FRM_RENUMBER_COUNT", off := 0x68, w := 0xFFFFFFFF, unsealed := 0xFFFFFFFF, cnt := true },
  { name := "FRM_HSYNC_CTL", off := 0x70, w := 0x3, hook := .frmHsyncCtl },
  { name := "FRM_HSYNC_PHASE", off := 0x74 },
  { name := "FRM_HSYNC_PERIOD", off := 0x78 } ]

/-- Register rows of block SCHED, part 1. -/
def schedRowsA : List RegRow := [
  { name := "SCHED_CTL", off := 0x0, w := 0x1 },
  { name := "SCHED_STATUS", off := 0x4, hook := .schedStatus, reset := fun _ => 0x2 },
  { name := "SCHED_EVENT", off := 0x8, w1c := 0x3F, hook := .line },
  { name := "SCHED_EVENT_EN", off := 0xC, w := 0x3F, hook := .line },
  { name := "SCHED_ROUTE_SET", off := 0x10, w := 0xFF, hook := .schedRouteSet, reset := fun _ => 0xFF },
  { name := "SCHED_CYCLE_LIMIT", off := 0x14, w := 0xFFFFFFFF, reset := fun _ => 0x100000 },
  { name := "SCHED_STALE_CTL", off := 0x18, w := 0xFFFF, reset := fun _ => 0x4 },
  { name := "SCHED_TMPL_IDX", off := 0x40, w := 0x3FFF, unsealed := 0x3FFF, hook := .own },
  { name := "SCHED_TMPL_CMD", off := 0x44, w1s := 0x3, hook := .schedTmplCmd }
] ++ wordRows { name := "SCHED_TMPL_DATA", off := 0x50, unsealed := 0xFFFFFFFF, hook := .own } [0, 0xFFFFFFFC, 0x00FFFFFF, 0xFFFC0FFF] ++ [
  { name := "SCHED_LEAF_KEY_LO", off := 0x100, dims := [(0x20, 2)], w := 0xFFFFFFFF, unsealed := 0xFFFFFFFF, half := .lo, hook := .own },
  { name := "SCHED_LEAF_KEY_HI", off := 0x104, dims := [(0x20, 2)], w := 0xFFFFFFFF, unsealed := 0xFFFFFFFF, half := .hi, hook := .own },
  { name := "SCHED_LEAF_VAL_LO", off := 0x108, dims := [(0x20, 2)], w := 0xFFFFFFFF, unsealed := 0xFFFFFFFF, half := .lo, hook := .own },
  { name := "SCHED_LEAF_VAL_HI", off := 0x10C, dims := [(0x20, 2)], w := 0xFFFFFFFF, unsealed := 0xFFFFFFFF, half := .hi, hook := .own },
  { name := "SCHED_LEAF_PUSH", off := 0x110, dims := [(0x20, 2)], hook := .schedLeafPush },
  { name := "SCHED_LEAF_SPACE", off := 0x114, dims := [(0x20, 2)], hook := .schedLeafSpace, reset := fun p => if p = 0 then 4096 else 64 },
  { name := "SCHED_LEAF_OVF", off := 0x118, dims := [(0x20, 2)], w := 0xFFFFFFFF, unsealed := 0xFFFFFFFF, cnt := true },
  { name := "SCHED_FLOW_CMD", off := 0x200, hook := .schedFlowCmd },
  { name := "SCHED_FLOW_ARG", off := 0x204, w := 0xFFFFFFFF, unsealed := 0xFFFFFFFF },
  { name := "SCHED_REL_EVENT", off := 0x208, w1c := 0x3FF, hook := .line },
  { name := "SCHED_REL_EVENT_EN", off := 0x20C, w := 0x3FF, hook := .line },
  { name := "SCHED_POUR_BLOCKS", off := 0x210, hook := .schedPourBlocks },
  { name := "SCHED_POUR_PLACES", off := 0x214, hook := .schedPourPlaces },
  { name := "SCHED_POUR_STALL", off := 0x218, w := 0xFFFFFFFF, unsealed := 0xFFFFFFFF, cnt := true, hook := .metered },
  { name := "SCHED_DEST_ERR", off := 0x21C, w := 0xFFFFFFFF, unsealed := 0xFFFFFFFF, cnt := true },
  { name := "SCHED_TICK_PERIOD", off := 0x220, w := 0xFFFFFFFF, hook := .schedTickPeriod, reset := fun _ => 0x3E8 },
  { name := "SCHED_LATE_WINDOW", off := 0x224, w := 0xFFFFFFFF },
  { name := "SCHED_FLOW_COUNTS", off := 0xC000, dims := [(0x4, 4096)], w := 0xFFFFFFFF, unsealed := 0xFFFFFFFF, cnt := true },
  { name := "SCHED_FLOW_CFG", off := 0x10000, dims := [(0x10, 4096)], w := 0xC00000FF, unsealed := 0x80000000, hook := .schedFlowCfg, reset := fun _ => 0x2 },
  { name := "SCHED_FLOW_LEN", off := 0x10004, dims := [(0x10, 4096)], w := 0xFFFFFFFF } ]

/-- Register rows of block SCHED, part 2. -/
def schedRowsB : List RegRow := [
  { name := "SCHED_FLOW_NEXT", off := 0x10008, dims := [(0x10, 4096)], hook := .schedFlowNext },
  { name := "SCHED_FLOW_STATE", off := 0x1000C, dims := [(0x10, 4096)], hook := .snapshot } ]

/-- Register rows of block SCHED. -/
def schedRows : List RegRow := schedRowsA ++ schedRowsB

/-- Register rows of block SWARM, part 1. -/
def swarmRowsA : List RegRow := [
  { name := "SWARM_FAULT_CTL", off := 0x3F00, w := 0x7FF },
  { name := "SWARM_FAULT_COUNT", off := 0x3F04, w := 0xFFFFFFFF, unsealed := 0xFFFFFFFF, cnt := true },
  { name := "SWARM_ICACHE_CMD", off := 0x3F10, w1s := 0x1, hook := .swarmIcacheCmd },
  { name := "SWARM_STEEP_STATUS", off := 0x0, hook := .swarmSteepStatus },
  { name := "SWARM_STEEP_PEAK", off := 0x4, w := 0x3FFF, unsealed := 0x3FFF, hook := .swarmSteepPeak },
  { name := "SWARM_READY01", off := 0x8, hook := .swarmReady01 },
  { name := "SWARM_READY23", off := 0xC, hook := .swarmReady23 },
  { name := "SWARM_SLOT_STATUS", off := 0x10, hook := .swarmSlotStatus },
  { name := "SWARM_DISPATCHED_LO", off := 0x18, w := 0xFFFFFFFF, unsealed := 0xFFFFFFFF, cnt := true, half := .lo },
  { name := "SWARM_DISPATCHED_HI", off := 0x1C, w := 0xFFFFFFFF, unsealed := 0xFFFFFFFF, cnt := true, half := .hi },
  { name := "SWARM_INPUT_LEAF_DROP", off := 0x20, w := 0xFFFFFFFF, unsealed := 0xFFFFFFFF, cnt := true },
  { name := "SWARM_LEAF_DISCARD", off := 0x24, w := 0xFFFFFFFF, unsealed := 0xFFFFFFFF, cnt := true },
  { name := "SWARM_CANCEL_COUNT", off := 0x28, w := 0xFFFFFFFF, unsealed := 0xFFFFFFFF, cnt := true },
  { name := "SWARM_STALE_COUNT", off := 0x2C, w := 0xFFFFFFFF, unsealed := 0xFFFFFFFF, cnt := true },
  { name := "SWARM_EMIT_STALL", off := 0x30, w := 0xFFFFFFFF, unsealed := 0xFFFFFFFF, cnt := true, hook := .metered },
  { name := "SWARM_DLY_FILL01", off := 0x40, hook := .swarmDlyFill01 },
  { name := "SWARM_DLY_FILL23", off := 0x44, hook := .swarmDlyFill23 },
  { name := "SWARM_DLY_DROP", off := 0x48, w := 0xFFFFFFFF, unsealed := 0xFFFFFFFF, cnt := true },
  { name := "SWARM_DLY_LATE", off := 0x4C, w := 0xFFFFFFFF, unsealed := 0xFFFFFFFF, cnt := true },
  { name := "SWARM_DLY_CMD", off := 0x50, w1s := 0xF, hook := .swarmDlyCmd },
  { name := "SWARM_DLY_HEAD_LO", off := 0x54, half := .lo, hook := .swarmDlyHeadLo, reset := fun _ => 0xFFFFFFFF },
  { name := "SWARM_DLY_HEAD_HI", off := 0x58, half := .hi, reset := fun _ => 0xFFFFFFFF },
  { name := "SWARM_INF_STATUS", off := 0x100, hook := .swarmInfStatus },
  { name := "SWARM_INF_SAMPLES_LO", off := 0x108, w := 0xFFFFFFFF, unsealed := 0xFFFFFFFF, cnt := true, half := .lo },
  { name := "SWARM_INF_SAMPLES_HI", off := 0x10C, w := 0xFFFFFFFF, unsealed := 0xFFFFFFFF, cnt := true, half := .hi },
  { name := "SWARM_INF_BUSY_LO", off := 0x110, w := 0xFFFFFFFF, unsealed := 0xFFFFFFFF, cnt := true, half := .lo, hook := .metered },
  { name := "SWARM_INF_BUSY_HI", off := 0x114, w := 0xFFFFFFFF, unsealed := 0xFFFFFFFF, cnt := true, half := .hi, hook := .metered },
  { name := "SWARM_INF_STALL", off := 0x118, w := 0xFFFFFFFF, unsealed := 0xFFFFFFFF, cnt := true, hook := .metered },
  { name := "SWARM_SPARE_STATUS", off := 0x200 },
  { name := "SWARM_SPARE_CMD", off := 0x204, w := 0x1F, w1s := 0x80000000, gk := true, hook := .swarmSpareCmd } ]

/-- Register rows of block SWARM, part 2. -/
def swarmRowsB : List RegRow := [
  { name := "SWARM_CLK_CTL", off := 0x300, w := 0x7, gk := true, unsealed := 0x7, hook := .swarmClkCtl },
  { name := "SWARM_EVENT", off := 0x304, w1c := 0x1, hook := .line },
  { name := "SWARM_EVENT_EN", off := 0x308, w := 0x1, hook := .line } ]

/-- Register rows of block SWARM. -/
def swarmRows : List RegRow := swarmRowsA ++ swarmRowsB

/-- Register rows of block KET. -/
def ketRows : List RegRow := [
  { name := "KET_CTL", off := 0x0, w := 0x1, reset := fun _ => 0x1 },
  { name := "KET_STATUS", off := 0x4, hook := .ketStatus },
  { name := "KET_EVENT", off := 0x8, w1c := 0x1F, hook := .line },
  { name := "KET_EVENT_EN", off := 0xC, w := 0x1F, hook := .line },
  { name := "KET_SCRUB_PERIOD", off := 0x10, w := 0xFFFFFFFF, reset := fun _ => 0x3E8 },
  { name := "KET_CE_COUNT", off := 0x14, w := 0xFFFFFFFF, unsealed := 0xFFFFFFFF, cnt := true },
  { name := "KET_UE_COUNT", off := 0x18, w := 0xFFFFFFFF, unsealed := 0xFFFFFFFF, cnt := true },
  { name := "KET_UE_ADDR", off := 0x1C },
  { name := "KET_SURF_IDX", off := 0x40, w := 0x3FF, unsealed := 0x3FF, hook := .own },
  { name := "KET_SURF_CMD", off := 0x44, w1s := 0x3, hook := .ketSurfCmd },
  { name := "KET_SURF_STATUS", off := 0x48 },
  { name := "KET_SURF_DATA", off := 0x60, dims := [(0x4, 8)], w := 0xFFFFFFFF, unsealed := 0xFFFFFFFF, hook := .own } ]

/-- Register rows of block RHEAD, part 1. -/
def rheadRowsA : List RegRow := [
  { name := "RHEAD_CTL", off := 0x0, w := 0x7, hook := .rheadCtl, reset := fun _ => 0x2 },
  { name := "RHEAD_STATUS", off := 0x4, hook := .rheadStatus },
  { name := "RHEAD_EVENT", off := 0x8, w1c := 0xFF, hook := .line },
  { name := "RHEAD_EVENT_EN", off := 0xC, w := 0xFF, hook := .line },
  { name := "RHEAD_H_ACTIVE", off := 0x10, w := 0x7FFF, reset := fun _ => 0xF00 },
  { name := "RHEAD_H_BLANK", off := 0x14, w := 0xFFFFFFFF, reset := fun _ => 0x8B016128 },
  { name := "RHEAD_V_ACTIVE", off := 0x18, w := 0x3FFF, reset := fun _ => 0x870 },
  { name := "RHEAD_V_BLANK", off := 0x1C, w := 0xFFFFFFFF, reset := fun _ => 0x80802848 },
  { name := "RHEAD_VSYNC_OFFSET", off := 0x20, w := 0xFFFFFFFF },
  { name := "RHEAD_CMD", off := 0x24, w1s := 0x1, hook := .rheadCmd },
  { name := "RHEAD_COMMIT", off := 0x28, hook := .rheadCommit },
  { name := "RHEAD_COMMIT_FRAME_LO", off := 0x30, half := .lo },
  { name := "RHEAD_COMMIT_FRAME_HI", off := 0x34, half := .hi },
  { name := "RHEAD_PCLK", off := 0x38 },
  { name := "RHEAD_LAYER_FAULT", off := 0x3C },
  { name := "RHEAD_BG", off := 0x40, w := 0x3FFFFFFF },
  { name := "RHEAD_OUT_CTL", off := 0x44, w := 0x33, hook := .rheadOutCtl, reset := fun _ => 0x10 },
  { name := "RHEAD_DP_CTL", off := 0x48, w := 0x8F, reset := fun _ => 0xE },
  { name := "RHEAD_DP_STATUS", off := 0x4C, hook := .rheadDpStatus },
  { name := "RHEAD_RETIRE_CTL", off := 0x50, w := 0x7FF },
  { name := "RHEAD_RETIRE_COUNT", off := 0x54, w := 0xFFFFFFFF, unsealed := 0xFFFFFFFF, cnt := true },
  { name := "RHEAD_TEAR_INFO", off := 0x58 },
  { name := "RHEAD_TEAR_COUNT", off := 0x5C, w := 0xFFFFFFFF, unsealed := 0xFFFFFFFF, cnt := true },
  { name := "RHEAD_COMMIT_REPLACED", off := 0x60, w := 0xFFFFFFFF, unsealed := 0xFFFFFFFF, cnt := true },
  { name := "RHEAD_SLIP_COUNT", off := 0x64, w := 0xFFFFFFFF, unsealed := 0xFFFFFFFF, cnt := true },
  { name := "RHEAD_FREE_COUNT", off := 0x68, w := 0xFFFFFFFF, unsealed := 0xFFFFFFFF, cnt := true },
  { name := "RHEAD_SCAN_LATE_COUNT", off := 0x6C, w := 0xFFFFFFFF, unsealed := 0xFFFFFFFF, cnt := true },
  { name := "RHEAD_LAYER_CTL", off := 0x100, dims := [(0x20, 4)], w := 0xC3FFFFFF, unsealed := 0xC3FFFFFF, hook := .rheadLayerCtl, reset := fun _ => 0xFFFF },
  { name := "RHEAD_LAYER_SRC_POS", off := 0x104, dims := [(0x20, 4)], w := 0x7FFF3FFF, unsealed := 0x7FFF3FFF },
  { name := "RHEAD_LAYER_SRC_SIZE", off := 0x108, dims := [(0x20, 4)], w := 0x7FFF3FFF, unsealed := 0x7FFF3FFF } ]

/-- Register rows of block RHEAD, part 2. -/
def rheadRowsB : List RegRow := [
  { name := "RHEAD_LAYER_DST_POS", off := 0x10C, dims := [(0x20, 4)], w := 0x7FFF3FFF, unsealed := 0x7FFF3FFF },
  { name := "RHEAD_LAYER_DST_SIZE", off := 0x110, w := 0x7FFF3FFF, unsealed := 0x7FFF3FFF },
  { name := "RHEAD_CSC", off := 0x180, dims := [(0x4, 6)], w := 0xFFFFFFFF, reset := fun i => rheadCscReset.getD i 0 } ]

/-- Register rows of block RHEAD. -/
def rheadRows : List RegRow := rheadRowsA ++ rheadRowsB

/-- Register rows of block SPORT, part 1. -/
def sportRowsA : List RegRow := [
  { name := "SPORT_CTL", off := 0x0, w := 0x37, hook := .sportCtl, reset := fun _ => 0x20 },
  { name := "SPORT_STATUS", off := 0x4, hook := .sportStatus },
  { name := "SPORT_TX_EVENT", off := 0x8, w1c := 0x3F, hook := .line },
  { name := "SPORT_TX_EVENT_EN", off := 0xC, w := 0x3F, hook := .line },
  { name := "SPORT_LQ_CTL", off := 0x10, w := 0x3FF03FF, reset := fun _ => 0x640014 },
  { name := "SPORT_LQ_HORIZON", off := 0x14, w := 0xFFFFFFFF, reset := fun _ => 0xF4240 },
  { name := "SPORT_LQ_STATUS", off := 0x18, hook := .sportLqStatus },
  { name := "SPORT_LQ_REFUSE", off := 0x1C, w := 0xFFFFFFFF, unsealed := 0xFFFFFFFF, cnt := true },
  { name := "SPORT_LQ_DISCARD", off := 0x20, w := 0xFFFFFFFF, unsealed := 0xFFFFFFFF, cnt := true },
  { name := "SPORT_LQ_LAUNCHED_LO", off := 0x28, w := 0xFFFFFFFF, unsealed := 0xFFFFFFFF, cnt := true, half := .lo },
  { name := "SPORT_LQ_LAUNCHED_HI", off := 0x2C, w := 0xFFFFFFFF, unsealed := 0xFFFFFFFF, cnt := true, half := .hi },
  { name := "SPORT_TX_THRESH", off := 0x30, w := 0x3FFF, unsealed := 0x3FFF, reset := fun _ => 0x100 },
  { name := "SPORT_TX_UNDERRUN", off := 0x34, w := 0xFFFFFFFF, unsealed := 0xFFFFFFFF, cnt := true },
  { name := "SPORT_OBEY_PAUSE", off := 0x38, w := 0x3 },
  { name := "SPORT_PAUSE_COUNT", off := 0x3C, w := 0xFFFFFFFF, unsealed := 0xFFFFFFFF, cnt := true },
  { name := "SPORT_PREEMPT_CTL", off := 0x40, w := 0xF, hook := .sportPreemptCtl },
  { name := "SPORT_PREEMPT_COUNT", off := 0x44, w := 0xFFFFFFFF, unsealed := 0xFFFFFFFF, cnt := true },
  { name := "SPORT_TX_FRAMES_LO", off := 0x48, w := 0xFFFFFFFF, unsealed := 0xFFFFFFFF, cnt := true, half := .lo },
  { name := "SPORT_TX_FRAMES_HI", off := 0x4C, w := 0xFFFFFFFF, unsealed := 0xFFFFFFFF, cnt := true, half := .hi },
  { name := "SPORT_TXQ_BASE_LO", off := 0x100, dims := [(0x20, 9)], w := 0xFFFFFFC0, half := .lo },
  { name := "SPORT_TXQ_BASE_HI", off := 0x104, dims := [(0x20, 9)], w := 0xFFFF, half := .hi },
  { name := "SPORT_TXQ_CTL", off := 0x108, dims := [(0x20, 9)], w := 0x8000171F, unsealed := 0x80000000, hook := .sportTxqCtl, reset := fun q => if q < 8 then BitVec.ofNat 32 (q * 0x100 + 4) else 4 },
  { name := "SPORT_TXQ_TAIL", off := 0x10C, dims := [(0x20, 9)], w := 0xFFFF, unsealed := 0xFFFF },
  { name := "SPORT_TXQ_HEAD", off := 0x110, dims := [(0x20, 9)] },
  { name := "SPORT_TXQ_TAG", off := 0x114, dims := [(0x20, 9)], w := 0xC000FFFF },
  { name := "SPORT_TXQ_OUTER", off := 0x118, dims := [(0x20, 9)], w := 0xFFFFFFFF, reset := fun _ => 0x88A80000 },
  { name := "SPORT_RX_EVENT", off := 0x800, w1c := 0x7F, hook := .line },
  { name := "SPORT_RX_EVENT_EN", off := 0x804, w := 0x7F, hook := .line },
  { name := "SPORT_RX_WM_EVENT", off := 0x808, w1c := 0xFF, hook := .line },
  { name := "SPORT_RX_WM_EVENT_EN", off := 0x80C, w := 0xFF, hook := .line } ]

/-- Register rows of block SPORT, part 2. -/
def sportRowsB : List RegRow := [
  { name := "SPORT_RX_WM_LEVEL", off := 0x810, hook := .sportRxWmLevel },
  { name := "SPORT_RX_DEFAULT", off := 0x814, w := 0x7FF70000, reset := fun _ => 0x30000000 },
  { name := "SPORT_RX_TPID", off := 0x818, w := 0xFFFF },
  { name := "SPORT_PTP_CTL", off := 0x81C, w := 0x1FF },
  { name := "SPORT_RX_ERR", off := 0x820, w := 0xFFFFFFFF, unsealed := 0xFFFFFFFF, cnt := true },
  { name := "SPORT_RX_DROP", off := 0x824, w := 0xFFFFFFFF, unsealed := 0xFFFFFFFF, cnt := true },
  { name := "SPORT_RX_MIRROR", off := 0x828, w := 0xFFFFFFFF, unsealed := 0xFFFFFFFF, cnt := true },
  { name := "SPORT_PTP_COUNT", off := 0x82C, w := 0xFFFFFFFF, unsealed := 0xFFFFFFFF, cnt := true },
  { name := "SPORT_RX_FRAMES_LO", off := 0x830, w := 0xFFFFFFFF, unsealed := 0xFFFFFFFF, cnt := true, half := .lo },
  { name := "SPORT_RX_FRAMES_HI", off := 0x834, w := 0xFFFFFFFF, unsealed := 0xFFFFFFFF, cnt := true, half := .hi },
  { name := "SPORT_RX_MCHASH", off := 0x840, dims := [(0x4, 8)], w := 0xFFFFFFFF },
  { name := "SPORT_SAUCER_SEC_LO", off := 0x880, half := .lo, hook := .sportSaucerSecLo },
  { name := "SPORT_SAUCER_SEC_HI", off := 0x884, half := .hi, hook := .snapshot },
  { name := "SPORT_SAUCER_NS", off := 0x888, hook := .snapshot },
  { name := "SPORT_SAUCER_FRAC", off := 0x88C, hook := .snapshot },
  { name := "SPORT_SAUCER_INFO", off := 0x890, hook := .snapshot },
  { name := "SPORT_SAUCER_STATUS", off := 0x894, hook := .sportSaucerStatus },
  { name := "SPORT_TS_DROP", off := 0x898, w := 0xFFFFFFFF, unsealed := 0xFFFFFFFF, cnt := true },
  { name := "SPORT_RXQ_BASE_LO", off := 0x900, dims := [(0x40, 8)], w := 0xFFFFFFC0, half := .lo },
  { name := "SPORT_RXQ_BASE_HI", off := 0x904, dims := [(0x40, 8)], w := 0xFFFF, half := .hi },
  { name := "SPORT_RXQ_CTL", off := 0x908, dims := [(0x40, 8)], w := 0x802CFF1F, unsealed := 0x80000000, hook := .sportRxqCtl, reset := fun _ => 0x2004 },
  { name := "SPORT_RXQ_TAIL", off := 0x90C, dims := [(0x40, 8)], w := 0xFFFF, unsealed := 0xFFFF, hook := .sportRxqTail },
  { name := "SPORT_RXQ_HEAD", off := 0x910, dims := [(0x40, 8)] },
  { name := "SPORT_RXQ_WM", off := 0x914, dims := [(0x40, 8)], w := 0xFFFF, hook := .sportRxqWm },
  { name := "SPORT_RXQ_WM_CROSSINGS", off := 0x918, dims := [(0x40, 8)], w := 0xFFFFFFFF, unsealed := 0xFFFFFFFF, cnt := true },
  { name := "SPORT_RXQ_NOBUF_DROP", off := 0x91C, dims := [(0x40, 8)], w := 0xFFFFFFFF, unsealed := 0xFFFFFFFF, cnt := true }
  ] ++ wordRows { name := "SPORT_STRAIN", off := 0x1000, dims := [(0x20, 64)] } strainMasks

/-- Register rows of block SPORT. -/
def sportRows : List RegRow := sportRowsA ++ sportRowsB

/-- Register rows of block LPORT, part 1. -/
def lportRowsA : List RegRow := [
  { name := "LPORT_CTL", off := 0x0, w := 0xF9, hook := .sportCtl, reset := fun _ => 0x68 },
  { name := "LPORT_STATUS", off := 0x4, hook := .lportStatus },
  { name := "LPORT_LQ_STATUS", off := 0x18, hook := .lportLqStatus },
  { name := "LPORT_OBEY_PAUSE", off := 0x38, w := 0x1 },
  { name := "LPORT_TX_LAT", off := 0x50, w := 0xFFFF },
  { name := "LPORT_COLL_COUNT", off := 0x54, w := 0xFFFFFFFF, unsealed := 0xFFFFFFFF, cnt := true },
  { name := "LPORT_TX_EVENT", off := 0x8, w1c := 0x1F, hook := .line },
  { name := "LPORT_TX_EVENT_EN", off := 0xC, w := 0x1F, hook := .line },
  { name := "LPORT_LQ_CTL", off := 0x10, w := 0x3FF03FF, reset := fun _ => 0x640014 },
  { name := "LPORT_LQ_HORIZON", off := 0x14, w := 0xFFFFFFFF, reset := fun _ => 0xF4240 },
  { name := "LPORT_LQ_REFUSE", off := 0x1C, w := 0xFFFFFFFF, unsealed := 0xFFFFFFFF, cnt := true },
  { name := "LPORT_LQ_DISCARD", off := 0x20, w := 0xFFFFFFFF, unsealed := 0xFFFFFFFF, cnt := true },
  { name := "LPORT_LQ_LAUNCHED_LO", off := 0x28, w := 0xFFFFFFFF, unsealed := 0xFFFFFFFF, cnt := true, half := .lo },
  { name := "LPORT_LQ_LAUNCHED_HI", off := 0x2C, w := 0xFFFFFFFF, unsealed := 0xFFFFFFFF, cnt := true, half := .hi },
  { name := "LPORT_TX_THRESH", off := 0x30, w := 0x3FFF, unsealed := 0x3FFF, reset := fun _ => 0x100 },
  { name := "LPORT_TX_UNDERRUN", off := 0x34, w := 0xFFFFFFFF, unsealed := 0xFFFFFFFF, cnt := true },
  { name := "LPORT_PAUSE_COUNT", off := 0x3C, w := 0xFFFFFFFF, unsealed := 0xFFFFFFFF, cnt := true },
  { name := "LPORT_TX_FRAMES_LO", off := 0x48, w := 0xFFFFFFFF, unsealed := 0xFFFFFFFF, cnt := true, half := .lo },
  { name := "LPORT_TX_FRAMES_HI", off := 0x4C, w := 0xFFFFFFFF, unsealed := 0xFFFFFFFF, cnt := true, half := .hi },
  { name := "LPORT_TXQ_BASE_LO", off := 0x100, dims := [(0x20, 9)], w := 0xFFFFFFC0, half := .lo },
  { name := "LPORT_TXQ_BASE_HI", off := 0x104, dims := [(0x20, 9)], w := 0xFFFF, half := .hi },
  { name := "LPORT_TXQ_CTL", off := 0x108, dims := [(0x20, 9)], w := 0x8000001F, unsealed := 0x80000000, hook := .sportTxqCtl, reset := fun _ => 0x4 },
  { name := "LPORT_TXQ_TAIL", off := 0x10C, dims := [(0x20, 9)], w := 0xFFFF, unsealed := 0xFFFF },
  { name := "LPORT_TXQ_HEAD", off := 0x110, dims := [(0x20, 9)] },
  { name := "LPORT_TXQ_TAG", off := 0x114, dims := [(0x20, 9)], w := 0xC000FFFF },
  { name := "LPORT_TXQ_OUTER", off := 0x118, dims := [(0x20, 9)], w := 0xFFFFFFFF, reset := fun _ => 0x88A80000 },
  { name := "LPORT_RX_EVENT", off := 0x800, w1c := 0x7F, hook := .line },
  { name := "LPORT_RX_EVENT_EN", off := 0x804, w := 0x7F, hook := .line },
  { name := "LPORT_RX_WM_EVENT", off := 0x808, w1c := 0xFF, hook := .line },
  { name := "LPORT_RX_WM_EVENT_EN", off := 0x80C, w := 0xFF, hook := .line } ]

/-- Register rows of block LPORT, part 2. -/
def lportRowsB : List RegRow := [
  { name := "LPORT_RX_WM_LEVEL", off := 0x810, hook := .sportRxWmLevel },
  { name := "LPORT_RX_DEFAULT", off := 0x814, w := 0x7FF70000, reset := fun _ => 0x30000000 },
  { name := "LPORT_RX_TPID", off := 0x818, w := 0xFFFF },
  { name := "LPORT_PTP_CTL", off := 0x81C, w := 0x10F },
  { name := "LPORT_RX_ERR", off := 0x820, w := 0xFFFFFFFF, unsealed := 0xFFFFFFFF, cnt := true },
  { name := "LPORT_RX_DROP", off := 0x824, w := 0xFFFFFFFF, unsealed := 0xFFFFFFFF, cnt := true },
  { name := "LPORT_RX_MIRROR", off := 0x828, w := 0xFFFFFFFF, unsealed := 0xFFFFFFFF, cnt := true },
  { name := "LPORT_PTP_COUNT", off := 0x82C, w := 0xFFFFFFFF, unsealed := 0xFFFFFFFF, cnt := true },
  { name := "LPORT_RX_FRAMES_LO", off := 0x830, w := 0xFFFFFFFF, unsealed := 0xFFFFFFFF, cnt := true, half := .lo },
  { name := "LPORT_RX_FRAMES_HI", off := 0x834, w := 0xFFFFFFFF, unsealed := 0xFFFFFFFF, cnt := true, half := .hi },
  { name := "LPORT_RX_MCHASH", off := 0x840, dims := [(0x4, 8)], w := 0xFFFFFFFF },
  { name := "LPORT_SAUCER_SEC_LO", off := 0x880, half := .lo, hook := .sportSaucerSecLo },
  { name := "LPORT_SAUCER_SEC_HI", off := 0x884, half := .hi, hook := .snapshot },
  { name := "LPORT_SAUCER_NS", off := 0x888, hook := .snapshot },
  { name := "LPORT_SAUCER_FRAC", off := 0x88C, hook := .snapshot },
  { name := "LPORT_SAUCER_INFO", off := 0x890, hook := .snapshot },
  { name := "LPORT_SAUCER_STATUS", off := 0x894, hook := .sportSaucerStatus },
  { name := "LPORT_TS_DROP", off := 0x898, w := 0xFFFFFFFF, unsealed := 0xFFFFFFFF, cnt := true },
  { name := "LPORT_RXQ_BASE_LO", off := 0x900, dims := [(0x40, 8)], w := 0xFFFFFFC0, half := .lo },
  { name := "LPORT_RXQ_BASE_HI", off := 0x904, dims := [(0x40, 8)], w := 0xFFFF, half := .hi },
  { name := "LPORT_RXQ_CTL", off := 0x908, dims := [(0x40, 8)], w := 0x802CFF1F, unsealed := 0x80000000, hook := .sportRxqCtl, reset := fun _ => 0x2004 },
  { name := "LPORT_RXQ_TAIL", off := 0x90C, dims := [(0x40, 8)], w := 0xFFFF, unsealed := 0xFFFF, hook := .sportRxqTail },
  { name := "LPORT_RXQ_HEAD", off := 0x910, dims := [(0x40, 8)] },
  { name := "LPORT_RXQ_WM", off := 0x914, dims := [(0x40, 8)], w := 0xFFFF, hook := .sportRxqWm },
  { name := "LPORT_RXQ_WM_CROSSINGS", off := 0x918, dims := [(0x40, 8)], w := 0xFFFFFFFF, unsealed := 0xFFFFFFFF, cnt := true },
  { name := "LPORT_RXQ_NOBUF_DROP", off := 0x91C, dims := [(0x40, 8)], w := 0xFFFFFFFF, unsealed := 0xFFFFFFFF, cnt := true },
  { name := "LPORT_RX_LAT", off := 0x838, w := 0xFFFF } ]
  ++ wordRows { name := "LPORT_STRAIN", off := 0x1000, dims := [(0x20, 64)] } strainMasks

/-- Register rows of block LPORT. -/
def lportRows : List RegRow := lportRowsA ++ lportRowsB

/-- Register rows of block PACK, part 1. -/
def packRowsA : List RegRow := [
  { name := "PACK_CTL", off := 0x0, w := 0x7, unsealed := 0x1, hook := .packCtl },
  { name := "PACK_EVENT", off := 0x8, w1c := 0x7F, hook := .line },
  { name := "PACK_EVENT_EN", off := 0xC, w := 0x7F, hook := .line },
  { name := "PACK_BUF_BASE_LO", off := 0x10, w := 0xFFF00000, half := .lo },
  { name := "PACK_BUF_BASE_HI", off := 0x14, w := 0xFFFFFFFF, half := .hi },
  { name := "PACK_UNKNOWN", off := 0x18, w := 0xFFFFFFFF, unsealed := 0xFFFFFFFF, cnt := true },
  { name := "PACK_CID", off := 0x20, dims := [(0x4, 4)], w := 0xFFFFFFFF, reset := fun w => [0, 0x8000, 0x80000000, 0].getD w 0 },
  { name := "PACK_SOURCE_NAME", off := 0x40, dims := [(0x4, 16)], w := 0xFFFFFFFF },
  { name := "PACK_UNIV_IDX", off := 0x80, w := 0xFFFF, unsealed := 0xFFFF, hook := .own },
  { name := "PACK_UNIV_CMD", off := 0x84, w1s := 0x3, hook := .packUnivCmd }
] ++ wordRows { name := "PACK_UNIV_DATA", off := 0x90, unsealed := 0xFFFFFFFF, hook := .own } [0xFF, 0xFFFF0FFF, 0xFFFF03FF, 0xFFFF3FFF] ++ [
  { name := "PACK_LATE_IDX", off := 0xA0, w := 0xFFF, unsealed := 0xFFF, hook := .own },
  { name := "PACK_LATE_DATA", off := 0xA4, cnt := true, hook := .packLateData },
  { name := "PACK_DISC_CTL", off := 0xB0, w := 0x80000007 },
  { name := "PACK_IN_IDX", off := 0xC0, w := 0xFFF, unsealed := 0xFFF, hook := .own },
  { name := "PACK_IN_CMD", off := 0xC4, w1s := 0x3, hook := .packInCmd }
] ++ wordRows { name := "PACK_IN_DATA", off := 0xD0, unsealed := 0xFFFFFFFF, hook := .own } [0, 0xFFFFFFFF, 0x3FFF, 0xF80FFFFF] ++ [
  { name := "PACK_IN_BUF_BASE_LO", off := 0xE0, w := 0xFFFF0000, half := .lo },
  { name := "PACK_IN_BUF_BASE_HI", off := 0xE4, w := 0xFFFFFFFF, half := .hi },
  { name := "PACK_IN_COUNT", off := 0xE8, w := 0xFFFFFFFF, unsealed := 0xFFFFFFFF, cnt := true },
  { name := "PACK_PORT_CTL", off := 0x100, dims := [(0x40, 8)], w := 0x3F00FF, reset := fun _ => 0x40 },
  { name := "PACK_PORT_BASE", off := 0x104, dims := [(0x40, 8)], w := 0xFFFFFFFF },
  { name := "PACK_PORT_SPACING", off := 0x108, dims := [(0x40, 8)], w := 0xFFFFFFFF, reset := fun _ => 0x37000 },
  { name := "PACK_PORT_SYNC", off := 0x10C, dims := [(0x40, 8)], w := 0x80003FFF, hook := .packPortSync },
  { name := "PACK_PORT_IP4", off := 0x110, dims := [(0x40, 8)], w := 0xFFFFFFFF },
  { name := "PACK_PORT_IP6", off := 0x114, dims := [(0x40, 8), (0x4, 4)], w := 0xFFFFFFFF },
  { name := "PACK_PORT_MAC_LO", off := 0x124, dims := [(0x40, 8)], w := 0xFFFFFFFF, half := .lo },
  { name := "PACK_PORT_MAC_HI", off := 0x128, dims := [(0x40, 8)], w := 0xFFFF, half := .hi },
  { name := "PACK_PORT_UDP", off := 0x12C, dims := [(0x40, 8)], w := 0xFFFF, reset := fun _ => 0x15C0 },
  { name := "PACK_FRAME_LATE", off := 0x130, dims := [(0x40, 8)], w := 0xFFFFFFFF, unsealed := 0xFFFFFFFF, cnt := true } ]

/-- Register rows of block PACK, part 2. -/
def packRowsB : List RegRow := [
  { name := "PACK_REFUSED", off := 0x134, dims := [(0x40, 8)], w := 0xFFFFFFFF, unsealed := 0xFFFFFFFF, cnt := true }
] ++ wordRows { name := "PACK_DEST", off := 0x400, dims := [(0x20, 256)] }
    [0xFFFFFFFF, 0xFFFFFFFF, 0xFFFFFFFF, 0xFFFFFFFF, 0xFFFFFFFF, 0xFFFF, 0xC0000000, 0] ++ [
  { name := "PACK_IN_CID", off := 0x2410, dims := [(0x10, 15), (0x4, 4)], w := 0xFFFFFFFF },
  { name := "ST_CTL", off := 0x2500, dims := [(0x40, 8)], w := 0xF0C03FFF },
  { name := "ST_SURF01", off := 0x2504, dims := [(0x40, 8)], w := 0x3FF03FF },
  { name := "ST_SURF23", off := 0x2508, dims := [(0x40, 8)], w := 0x3FF03FF },
  { name := "ST_KEY", off := 0x250C, dims := [(0x40, 8)], w := 0x73FFF },
  { name := "ST_INST", off := 0x2510, dims := [(0x40, 8)], w := 0xFFFFFFFF },
  { name := "ST_LOST", off := 0x2514, dims := [(0x40, 8)], w := 0xFFFFFFFF, unsealed := 0xFFFFFFFF, cnt := true },
  { name := "TRAZH_CTL", off := 0x2800, dims := [(0x40, 4)], w := 0x7FFF3FFF },
  { name := "TRAZH_ETYPE", off := 0x2804, dims := [(0x40, 4)], w := 0xFFFF, reset := fun _ => 0x88B5 },
  { name := "TRAZH_DMAC_LO", off := 0x2808, dims := [(0x40, 4)], w := 0xFFFFFFFF, half := .lo },
  { name := "TRAZH_DMAC_HI", off := 0x280C, dims := [(0x40, 4)], w := 0xFFFF, half := .hi },
  { name := "TRAZH_OFS", off := 0x2810, dims := [(0x40, 4)], w := 0xFFFFFFFF },
  { name := "TRAZH_SPACING", off := 0x2814, dims := [(0x40, 4)], w := 0xFFFFFFFF },
  { name := "TRAZH_REFUSED", off := 0x2818, dims := [(0x40, 4)], w := 0xFFFFFFFF, unsealed := 0xFFFFFFFF, cnt := true },
  { name := "PACK_SLOW_SUMMARY", off := 0x2A00, hook := .packSlowSummary },
  { name := "PACK_SLOW_SUMMARY_EN", off := 0x2A04, w := 0x7FFFF, hook := .line } ]

/-- Register rows of block PACK. -/
def packRows : List RegRow := packRowsA ++ packRowsB

/-- Register rows of block QUE. -/
def queRows : List RegRow := [
  { name := "QUE_EVENT", off := 0x0, w1c := 0x7, hook := .line },
  { name := "QUE_EVENT_EN", off := 0x4, w := 0x7, hook := .line },
  { name := "QUE_ERR_INFO", off := 0x8 },
  { name := "QUE_ERR_COUNT", off := 0xC, w := 0xFFFFFFFF, unsealed := 0xFFFFFFFF, cnt := true },
  { name := "QUE_PUSH_CMD", off := 0x10, hook := .quePushCmd },
  { name := "QUE_PUSH_STATUS", off := 0x14, hook := .own },
  { name := "QUE_POP_CMD", off := 0x18, hook := .quePopCmd },
  { name := "QUE_POP_STATUS", off := 0x1C, hook := .own },
  { name := "QUE_PUSH_DATA", off := 0x40, dims := [(0x4, 8)], w := 0xFFFFFFFF, unsealed := 0xFFFFFFFF, hook := .own },
  { name := "QUE_POP_DATA", off := 0x60, dims := [(0x4, 8)], hook := .own },
  { name := "QUE_CFG", off := 0x4000, dims := [(0x10, 1024)], w := 0x8000001F, unsealed := 0x80000000, hook := .queCfg },
  { name := "QUE_BASE_LO", off := 0x4004, dims := [(0x10, 1024)], w := 0xFFFFF000, half := .lo },
  { name := "QUE_BASE_HI", off := 0x4008, dims := [(0x10, 1024)], w := 0xFFFF, half := .hi },
  { name := "QUE_COUNT", off := 0x400C, dims := [(0x10, 1024)], hook := .queCount },
  { name := "QUE_REFUSED", off := 0x8000, dims := [(0x4, 1024)], w := 0xFFFFFFFF, unsealed := 0xFFFFFFFF, cnt := true } ]

/-- Register rows of block DMA. -/
def dmaRows : List RegRow := [
  { name := "DMA_EVENT", off := 0x0, w1c := 0xFFFFFFFF, hook := .line },
  { name := "DMA_EVENT_EN", off := 0x4, w := 0xFFFFFFFF, hook := .line },
  { name := "DMA_BASE_LO", off := 0x100, dims := [(0x40, 16)], w := 0xFFFFFFC0, half := .lo },
  { name := "DMA_BASE_HI", off := 0x104, dims := [(0x40, 16)], w := 0xFFFF, half := .hi },
  { name := "DMA_CTL", off := 0x108, dims := [(0x40, 16)], w := 0x8000001F, unsealed := 0x80000000, hook := .dmaCtl, reset := fun _ => 0x4 },
  { name := "DMA_TAIL", off := 0x10C, dims := [(0x40, 16)], w := 0xFFFF, unsealed := 0xFFFF },
  { name := "DMA_HEAD", off := 0x110, dims := [(0x40, 16)], w := 0xFFFF, unsealed := 0xFFFF, hook := .dmaHead },
  { name := "DMA_STATUS", off := 0x114, dims := [(0x40, 16)], hook := .dmaStatus },
  { name := "DMA_BYTES_LO", off := 0x118, dims := [(0x40, 16)], w := 0xFFFFFFFF, unsealed := 0xFFFFFFFF, cnt := true, half := .lo },
  { name := "DMA_BYTES_HI", off := 0x11C, dims := [(0x40, 16)], w := 0xFFFFFFFF, unsealed := 0xFFFFFFFF, cnt := true, half := .hi } ]

/-- Register rows of block PAIR, part 1. -/
def pairRowsA : List RegRow := [
  { name := "PAIR_CTL", off := 0x0, w := 0x1, wo1 := true, hook := .pairCtl },
  { name := "PAIR_STATUS", off := 0x4, hook := .pairStatus },
  { name := "PAIR_EVENT", off := 0x8, w1c := 0x7FFFF, hook := .line },
  { name := "PAIR_EVENT_EN", off := 0xC, w := 0x7FFFF, hook := .line },
  { name := "PAIR_CMD", off := 0x10, w1s := 0x5, gk := true, hook := .pairCmd },
  { name := "PAIR_HB_CFG", off := 0x14, w := 0xFFFFFFFF, reset := fun _ => 0xFA0032 },
  { name := "PAIR_WDOG_CFG", off := 0x18, w := 0x7FF, reset := fun _ => 0x3E8 },
  { name := "PAIR_WDOG_KICK", off := 0x1C, hook := .pairWdogKick },
  { name := "PAIR_MISMATCH_LIMIT", off := 0x20, w := 0xFF, reset := fun _ => 0x3 },
  { name := "PAIR_MISMATCH", off := 0x24, w := 0xFFFFFFFF, unsealed := 0xFFFFFFFF, cnt := true },
  { name := "PAIR_MISMATCH_RUN", off := 0x28 },
  { name := "PAIR_MISMATCH_INFO", off := 0x2C },
  { name := "PAIR_MISMATCH_FRAME_LO", off := 0x30, half := .lo },
  { name := "PAIR_MISMATCH_FRAME_HI", off := 0x34, half := .hi },
  { name := "PAIR_CONFIRMED_LO", off := 0x38, half := .lo },
  { name := "PAIR_CONFIRMED_HI", off := 0x3C, half := .hi },
  { name := "PAIR_TAKEOVER_FRAME_LO", off := 0x40, half := .lo },
  { name := "PAIR_TAKEOVER_FRAME_HI", off := 0x44, half := .hi },
  { name := "PAIR_TT_OFFSET", off := 0x48 },
  { name := "PAIR_TT_DELAY", off := 0x4C },
  { name := "PAIR_MIRROR_CTL", off := 0x50, w := 0x8000007F, reset := fun _ => 0x50 },
  { name := "PAIR_MIRROR_LATE", off := 0x54, w := 0xFFFFFFFF, unsealed := 0xFFFFFFFF, cnt := true },
  { name := "PAIR_MARK_WAIT", off := 0x58, w := 0x3FF, reset := fun _ => 0x64 },
  { name := "PAIR_JOIN_FRAMES", off := 0x5C, w := 0xFFFF, reset := fun _ => 0x3C },
  { name := "PAIR_HEALTH_LOCAL_LO", off := 0x60, half := .lo },
  { name := "PAIR_HEALTH_LOCAL_HI", off := 0x64, half := .hi },
  { name := "PAIR_HEALTH_PARTNER_LO", off := 0x68, half := .lo },
  { name := "PAIR_HEALTH_PARTNER_HI", off := 0x6C, half := .hi },
  { name := "PAIR_LINK_STATUS", off := 0x70, hook := .pairLinkStatus },
  { name := "PAIR_LINK_RESEND", off := 0x74, w := 0xFFFFFFFF, unsealed := 0xFFFFFFFF, cnt := true } ]

/-- Register rows of block PAIR, part 2. -/
def pairRowsB : List RegRow := [
  { name := "PAIR_LINK_FATAL_COUNT", off := 0x78, w := 0xFFFFFFFF, unsealed := 0xFFFFFFFF, cnt := true },
  { name := "PAIR_ADJ_BUDGET", off := 0x7C, w := 0x3FFF, reset := fun _ => 0xC8 } ]

/-- Register rows of block PAIR. -/
def pairRows : List RegRow := pairRowsA ++ pairRowsB

/-- Register rows of block WEEVIL. -/
def weevilRows : List RegRow := [
  { name := "WEEVIL_CTL", off := 0x0, w := 0x1, gk := true, reset := fun _ => 0x1 },
  { name := "WEEVIL_STATUS", off := 0x4, hook := .weevilStatus },
  { name := "WEEVIL_EVENT", off := 0x8, w1c := 0x3F, hook := .line },
  { name := "WEEVIL_EVENT_EN", off := 0xC, w := 0x3F, hook := .line },
  { name := "WEEVIL_BUDGET", off := 0x10, w := 0x3FFF, reset := fun _ => 0xC8 },
  { name := "WEEVIL_RES_SEQ", off := 0x14 },
  { name := "WEEVIL_RES_PTR", off := 0x18 },
  { name := "WEEVIL_SLICE_COUNT", off := 0x1C, w := 0xFFFFFFFF, unsealed := 0xFFFFFFFF, cnt := true },
  { name := "WEEVIL_RUN", off := 0x40, dims := [(0x10, 4)], w := 0xFFFFFF, w1s := 0x80000000, gk := true, hook := .weevilRun },
  { name := "WEEVIL_RUN_BUDGET", off := 0x44, dims := [(0x10, 4)], w := 0x3FFF },
  { name := "WEEVIL_RUN_STATUS", off := 0x48, dims := [(0x10, 4)] },
  { name := "WEEVIL_MARK_IDX", off := 0x100, w := 0xFFFF },
  { name := "WEEVIL_MARK_DATA", off := 0x104, hook := .weevilMarkData },
  { name := "WEEVIL_UNUSABLE_COUNT", off := 0x108, hook := .weevilUnusableCount } ]

/-- Register rows of block CAL. -/
def calRows : List RegRow := [
  { name := "CAL_CTL", off := 0x0, w := 0xC00000FF, reset := fun _ => 0xC0000005 },
  { name := "CAL_STATUS", off := 0x4, hook := .calStatus },
  { name := "CAL_EVENT", off := 0x8, w1c := 0x3F, hook := .line },
  { name := "CAL_EVENT_EN", off := 0xC, w := 0x3F, hook := .line },
  { name := "CAL_PERIOD", off := 0x10, w := 0xFFFF, reset := fun _ => 0x258 },
  { name := "CAL_CMD", off := 0x14, w1s := 0x3, hook := .calCmd },
  { name := "CAL_GEN", off := 0x18 },
  { name := "CAL_DISAGREE_COUNT", off := 0x1C, w := 0xFFFFFFFF, unsealed := 0xFFFFFFFF, cnt := true },
  { name := "CAL_PATH_IDX", off := 0x20, w := 0x1F },
  { name := "CAL_PATH_VALUE", off := 0x24, hook := .calPathValue },
  { name := "CAL_PATH_INFO", off := 0x28, hook := .calPathInfo } ]

/-- Register rows of block SCARAB, part 1. -/
def scarabRowsA : List RegRow := [
  { name := "SCARAB_LC_STATE", off := 0x0, hook := .scarabLcState },
  { name := "SCARAB_LC_CMD", off := 0x4, w := 0x7, w1s := 0x80000000, gk := true, hook := .scarabLcCmd },
  { name := "SCARAB_EVENT", off := 0x8, w1c := 0xFF, hook := .line },
  { name := "SCARAB_EVENT_EN", off := 0xC, w := 0xFF, hook := .line },
  { name := "SCARAB_BOOT_STATUS", off := 0x10 },
  { name := "SCARAB_SVN", off := 0x14, hook := .scarabSvn },
  { name := "SCARAB_SVN_CMD", off := 0x18, w := 0xFFFF, gk := true, hook := .scarabSvnCmd },
  { name := "SCARAB_BOOT_ADDR_LO", off := 0x20, w := 0xFFFFFFFF, half := .lo },
  { name := "SCARAB_BOOT_ADDR_HI", off := 0x24, w := 0xFFFFFFFF, half := .hi },
  { name := "SCARAB_CHAL_CMD", off := 0x30, w1s := 0x1, hook := .scarabChalCmd },
  { name := "SCARAB_CHAL", off := 0x40, dims := [(0x4, 12)] },
  { name := "SCARAB_TOKEN_SCOPE", off := 0x70, w := 0x37 },
  { name := "SCARAB_TOKEN", off := 0x80, dims := [(0x4, 24)], hook := .hidden },
  { name := "SCARAB_TOKEN_CMD", off := 0xE0, w1s := 0x1, gk := true, hook := .scarabTokenCmd },
  { name := "SCARAB_TOKEN_STATUS", off := 0xE4, hook := .scarabTokenStatus },
  { name := "SCARAB_TOKEN_KEY", off := 0x100, dims := [(0x4, 25)], hook := .hidden },
  { name := "SCARAB_PKG_ADDR_LO", off := 0x180, w := 0xFFFFFFFF, half := .lo },
  { name := "SCARAB_PKG_ADDR_HI", off := 0x184, w := 0xFFFFFFFF, half := .hi },
  { name := "SCARAB_PKG_LEN_LO", off := 0x188, w := 0xFFFFFFFF, half := .lo },
  { name := "SCARAB_PKG_LEN_HI", off := 0x18C, w := 0xFFFFFFFF, half := .hi },
  { name := "SCARAB_PROT_BASE_LO", off := 0x190, w := 0xFFFF0000, half := .lo },
  { name := "SCARAB_PROT_BASE_HI", off := 0x194, w := 0xFFFFFFFF, half := .hi },
  { name := "SCARAB_PROT_SIZE_LO", off := 0x198, w := 0xFFFF0000, half := .lo },
  { name := "SCARAB_PROT_SIZE_HI", off := 0x19C, w := 0xFFFFFFFF, half := .hi },
  { name := "SCARAB_PKG_CMD", off := 0x1A0, w1s := 0x3, gk := true, hook := .scarabPkgCmd },
  { name := "SCARAB_PKG_STATUS", off := 0x1A4, hook := .scarabPkgStatus },
  { name := "SCARAB_PROT_DENY_COUNT", off := 0x1A8, w := 0xFFFFFFFF, unsealed := 0xFFFFFFFF, cnt := true },
  { name := "SCARAB_PIN_IDX", off := 0x1C0, w := 0xF },
  { name := "SCARAB_PIN_CMD", off := 0x1C4, w1s := 0x3, gk := true, hook := .scarabPinCmd },
  { name := "SCARAB_PIN_DATA", off := 0x1D0, dims := [(0x4, 12)], w := 0xFFFFFFFF } ]

/-- Register rows of block SCARAB, part 2. -/
def scarabRowsB : List RegRow := [
  { name := "SCARAB_PAIR_CMD", off := 0x200, w1s := 0x1, gk := true, hook := .scarabPairCmd },
  { name := "SCARAB_PAIR_STATUS", off := 0x204, hook := .scarabPairStatus },
  { name := "SCARAB_PAIR_ID_LO", off := 0x208, half := .lo, hook := .scarabPairIdLo },
  { name := "SCARAB_PAIR_ID_HI", off := 0x20C, half := .hi },
  { name := "SCARAB_SESS_CMD", off := 0x220, w := 0xFFFFFFFF, gk := true },
  { name := "SCARAB_LOT_ID_LO", off := 0x300, half := .lo, hook := .scarabLotIdLo },
  { name := "SCARAB_LOT_ID_HI", off := 0x304, half := .hi },
  { name := "SCARAB_DIE_POS", off := 0x308, hook := .scarabDiePos },
  { name := "SCARAB_UID", off := 0x310, dims := [(0x4, 4)], hook := .scarabUid },
  { name := "SCARAB_CERT_LEN", off := 0x320, w := 0x1FFF, hook := .cert },
  { name := "SCARAB_DIK_PUB", off := 0x400, dims := [(0x4, 25)], hook := .scarabDikPub },
  { name := "SCARAB_DAK_PUB", off := 0x480, dims := [(0x4, 25)], hook := .scarabDakPub },
  { name := "SCARAB_PAIR_PUB", off := 0x500, dims := [(0x4, 25)] },
  { name := "SCARAB_CERT", off := 0x800, dims := [(0x4, 1024)], w := 0xFFFFFFFF, hook := .cert } ]

/-- Register rows of block SCARAB. -/
def scarabRows : List RegRow := scarabRowsA ++ scarabRowsB

/-- Register rows of block PMON. -/
def pmonRows : List RegRow := [
  { name := "PMON_CTL", off := 0x0, w := 0x9, w1s := 0x6, unsealed := 0x1, hook := .pmonCtl },
  { name := "PMON_SNAP_FRAME_LO", off := 0x10, half := .lo },
  { name := "PMON_SNAP_FRAME_HI", off := 0x14, half := .hi },
  { name := "PMON_SEL", off := 0x100, dims := [(0x4, 32)], w := 0x3FF, hook := .metered },
  { name := "PMON_CNT_LO", off := 0x200, dims := [(0x8, 32)], w := 0xFFFFFFFF, unsealed := 0xFFFFFFFF, cnt := true, half := .lo, hook := .metered },
  { name := "PMON_SNAP_LO", off := 0x400, dims := [(0x8, 32)], half := .lo },
  { name := "PMON_CNT_HI", off := 0x204, dims := [(0x8, 32)], w := 0xFFFFFFFF, unsealed := 0xFFFFFFFF, cnt := true, half := .hi, hook := .metered },
  { name := "PMON_SNAP_HI", off := 0x404, dims := [(0x8, 32)], half := .hi } ]

/-- Register rows of block DMX. -/
def dmxRows : List RegRow := [
  { name := "DMX_CTL", off := 0x0, w := 0xE00003FF, hook := .dmxCtl },
  { name := "DMX_TIMING", off := 0x4, w := 0xFFFFFFFF, reset := fun _ => 0xC00B0 },
  { name := "DMX_SCHED", off := 0x8, w := 0xFF0000FF, reset := fun _ => 0x10000000 },
  { name := "DMX_OFS", off := 0xC, w := 0xFFFFFFFF },
  { name := "DMX_SRC", off := 0x10, w := 0xFFFF00FF },
  { name := "DMX_LEAD", off := 0x14, w := 0x3FF, reset := fun _ => 0x14 },
  { name := "DMX_STATUS", off := 0x18, hook := .dmxStatus },
  { name := "DMX_EVENT", off := 0x1C, w1c := 0x7F, hook := .line },
  { name := "DMX_EVENT_EN", off := 0x20, w := 0x7F, hook := .line },
  { name := "DMX_COUNT", off := 0x24, w := 0xFFFFFFFF, cnt := true },
  { name := "DMX_COUNT2", off := 0x28, w := 0xFFFFFFFF, cnt := true },
  { name := "DMX_BREAK_TIME_LO", off := 0x30, half := .lo, hook := .dmxBreakTime },
  { name := "DMX_BREAK_TIME_HI", off := 0x34, half := .hi },
  { name := "DMX_UID_LO", off := 0x38, w := 0xFFFFFFFF, half := .lo },
  { name := "DMX_UID_HI", off := 0x3C, w := 0xFFFF, half := .hi },
  { name := "DMX_RDM_CMD", off := 0x40, w1s := 0x3, hook := .dmxRdmCmd },
  { name := "DMX_RDM_STATUS", off := 0x44 },
  { name := "DMX_RDM_TXLEN", off := 0x48, w := 0x1FF },
  { name := "DMX_RDM_WAIT", off := 0x4C, w := 0xFFFFFFFF, reset := fun _ => 0xAF0 },
  { name := "DMX_RDM_TX", off := 0x100, dims := [(0x4, 65)], w := 0xFFFFFFFF },
  { name := "DMX_RDM_RX", off := 0x300, dims := [(0x4, 65)] },
  { name := "DMX_RX", off := 0x500, dims := [(0x4, 129)] } ]

/-- Register rows of block LTC. -/
def ltcRows : List RegRow := [
  { name := "LTC_RX_CTL", off := 0x0, w := 0x1 },
  { name := "LTC_RX_TC", off := 0x4, hook := .ltcRxTc },
  { name := "LTC_RX_USER", off := 0x8, hook := .snapshot },
  { name := "LTC_RX_TIME_LO", off := 0xC, half := .lo, hook := .snapshot },
  { name := "LTC_RX_TIME_HI", off := 0x10, half := .hi, hook := .snapshot },
  { name := "LTC_RX_STAT", off := 0x14, w := 0xFFFF0000, hook := .ltcRxStat },
  { name := "LTC_TX_CTL", off := 0x40, w := 0xFF800000, hook := .ltcTxCtl, reset := fun _ => 0x1000000 },
  { name := "LTC_TX_START", off := 0x44, w := 0x7F3F3F3F },
  { name := "LTC_TX_OFS", off := 0x48, w := 0xFFFFFFFF },
  { name := "LTC_TX_TOD", off := 0x4C, w := 0xFFFFFFFF },
  { name := "LTC_TX_USER", off := 0x50, w := 0xFFFFFFFF },
  { name := "LTC_EVENT", off := 0x54, w1c := 0x7, hook := .line },
  { name := "LTC_EVENT_EN", off := 0x58, w := 0x7, hook := .line },
  { name := "MIDI_CTL", off := 0x80, w := 0x3 },
  { name := "MIDI_RX", off := 0x84, hook := .midiRx },
  { name := "MIDI_RX_TIME_LO", off := 0x88, half := .lo, hook := .snapshot },
  { name := "MIDI_RX_TIME_HI", off := 0x8C, half := .hi, hook := .snapshot },
  { name := "MIDI_RX_STAT", off := 0x90, w := 0xFFFF0000, hook := .midiRxStat },
  { name := "MIDI_TX", off := 0x94, hook := .midiTx },
  { name := "MIDI_TX_STAT", off := 0x98, w := 0xFFFF0000, hook := .midiTxStat },
  { name := "MIDI_EVENT", off := 0x9C, w1c := 0x7, hook := .line },
  { name := "MIDI_EVENT_EN", off := 0xA0, w := 0x7, hook := .line } ]

/-- Register rows of block BOARD. -/
def boardRows : List RegRow := [
  { name := "GPIO_DIR", off := 0x0, w := 0xFFFF, hook := .gpio },
  { name := "GPIO_OUT", off := 0x4, w := 0xFFFF, hook := .gpio },
  { name := "GPIO_IN", off := 0x8, hook := .gpioIn },
  { name := "GPIO_EDGE", off := 0xC, w := 0xFFFFFFFF, hook := .gpio },
  { name := "GPIO_EVENT", off := 0x10, w1c := 0xFFFF, hook := .gpio },
  { name := "GPIO_EVENT_EN", off := 0x14, w := 0xFFFF, hook := .gpio },
  { name := "I2C_CTL", off := 0x100, dims := [(0x40, 2)], w := 0x80000001 },
  { name := "I2C_XFER", off := 0x104, dims := [(0x40, 2)], w := 0x7F3F3F00, w1s := 0x1, hook := .i2cXfer },
  { name := "I2C_STATUS", off := 0x108, dims := [(0x40, 2)] },
  { name := "I2C_BUF", off := 0x120, dims := [(0x40, 2), (0x4, 8)], w := 0xFFFFFFFF },
  { name := "SPI_CTL", off := 0x200, w := 0x6 },
  { name := "SPI_OP", off := 0x204, w := 0xFFFF9FFF },
  { name := "SPI_ADDR", off := 0x208, w := 0xFFFFFFFF },
  { name := "SPI_MEM_LO", off := 0x20C, w := 0xFFFFFFFF, half := .lo },
  { name := "SPI_MEM_HI", off := 0x210, w := 0xFFFFFFFF, half := .hi },
  { name := "SPI_CMD", off := 0x214, w1s := 0x1, hook := .spiCmd },
  { name := "SPI_STATUS", off := 0x218 },
  { name := "UART_TX", off := 0x300, hook := .uartTx },
  { name := "UART_RX", off := 0x304, hook := .uartRx, reset := fun _ => 0x80000000 },
  { name := "UART_STAT", off := 0x308, w := 0xFF000000, hook := .uartStat },
  { name := "MDIO_CTL", off := 0x340, dims := [(0x20, 2)], w := 0x800000FF, reset := fun _ => 0x13 },
  { name := "MDIO_CMD", off := 0x344, dims := [(0x20, 2)], w := 0x73FFFFFF, w1s := 0x80000000, hook := .mdioCmd },
  { name := "MDIO_STATUS", off := 0x348, dims := [(0x20, 2)] },
  { name := "BOARD_EVENT", off := 0x400, w1c := 0xFF, hook := .line },
  { name := "BOARD_EVENT_EN", off := 0x404, w := 0xFF, hook := .line } ]

/-- A block or a run of equal blocks: its first place, the size of one, how many (R304, R311), its rows, and its bit
of SEAL_MASK (R320). -/
structure Block where
  base : Nat
  size : Nat
  count : Nat
  rows : List RegRow
  sealBit : Option Nat

/-- Every block of the CSR window (R304) and of the indirect spaces with registers (R311). -/
def blocks : List Block := [
  ⟨0x0, 0x8000, 1, sysRows, some 0⟩,
  ⟨0x8000, 0x8000, 1, guardRows, Option.none⟩,
  ⟨0x10000, 0x8000, 1, tbRows, some 1⟩,
  ⟨0x18000, 0x8000, 1, frmRows, some 2⟩,
  ⟨0x20000, 0x20000, 1, schedRows, some 3⟩,
  ⟨0x40000, 0x4000, 8, swarmRows, some 4⟩,
  ⟨0x80000, 0x10000, 1, ketRows, some 5⟩,
  ⟨0x90000, 0x1000, 4, rheadRows, some 6⟩,
  ⟨0xA0000, 0x2000, 8, sportRows, some 7⟩,
  ⟨0xB0000, 0x2000, 2, lportRows, some 8⟩,
  ⟨0xC0000, 0x10000, 1, packRows, some 9⟩,
  ⟨0xD0000, 0x10000, 1, queRows, some 10⟩,
  ⟨0xE0000, 0x10000, 1, dmaRows, some 11⟩,
  ⟨0xF0000, 0x8000, 1, pairRows, some 12⟩,
  ⟨0xF8000, 0x8000, 1, weevilRows, some 13⟩,
  ⟨0x100000, 0x8000, 1, calRows, some 14⟩,
  ⟨0x108000, 0x8000, 1, scarabRows, some 15⟩,
  ⟨0x110000, 0x10000, 1, pmonRows, some 16⟩,
  ⟨0x1000000, 0x800, 16, dmxRows, Option.none⟩,
  ⟨0x2000000, 0x100, 1, ltcRows, Option.none⟩,
  ⟨0x6000000, 0x800, 1, boardRows, Option.none⟩ ]

/-- The block that holds a place, and the place's offset in it. -/
def blockAt (a : Nat) : Option (Block × Nat) :=
  blocks.findSome? fun b =>
    if b.base ≤ a ∧ a < b.base + b.size * b.count then some (b, (a - b.base) % b.size) else Option.none

/-- The register row at a place, with its indices; none where the place holds no register (R305), as the
places of a legacy port's rings 4 to 7 do (R217). -/
def rowAt (a : Nat) : Option (RegRow × List Nat) :=
  if a % 4 = 0 ∧ ¬(0xB0000 ≤ a ∧ a < 0xB4000 ∧ 0x180 ≤ a % 0x2000 ∧ a % 0x2000 < 0x200) then
    (blockAt a).bind fun (b, x) => RegRow.find b.rows x
  else Option.none

/-- The number of the instance that a place belongs to: of the ports, LPORT[n] is 8 + n. -/
def unitAt (a : Nat) : Nat :=
  match blockAt a with
  | some (b, _) => (a - b.base) / b.size + if b.base = 0xB0000 then 8 else 0
  | Option.none => 0

/-- The place a key of the register table copies: the CSR place of a snapshot or of the control firmware's own copy
(R306, R310), and the key itself otherwise. -/
def origin (a : Nat) : Nat := if 0x8000000 ≤ a then a % 0x1000000 else a

/-- The reset value of a register; zero where the tables name none. A snapshot resets to zero. -/
def resetOf (a : Nat) : W32 :=
  if 0x9000000 ≤ a then 0
  else match rowAt (origin a) with
    | some (row, i) => row.reset (i.headD 0)
    | Option.none => 0

end Reg

end Sys2Proof.Machine
end

