-- ==== Sys2Proof/Machine/State.lean ====
section
/-!
DEFINITION. The state of one Zebel 9710: the clock that every instant is read from, and the rest of the device in
groups, one for each chapter. Registers are words of one table, keyed by their place (Machine/Regs.lean); a register
that only shows another piece of state has no second home. Every array is a table in canonical form: an entry at its
reset value is not listed.
-/

namespace Sys2Proof.Machine

/-- The timebase state that survives every reset but POWER_ON (R19), with TB_CTL, which is a register. -/
structure Timebase where
  /-- TB_OFFSET: show time at the anchor, exact (R17). -/
  offset : Time
  /-- The tick at which the offset was last set (R17). -/
  anchor : W64
  /-- TB_INCR, 8.48 fixed point (R17, R22). -/
  incr : BitVec 56
  /-- TIME_VALID (R19). -/
  timeValid : Bool
  /-- Show time at the tick of the last step or set: at that tick, earlier instants were passed over (R27). -/
  floor : Time
  deriving DecidableEq, Repr

/-- The clock: the tick counter (R16) and the timebase. -/
structure Clk where
  ticks : W64
  tb : Timebase
  deriving DecidableEq, Repr

/-- One event-capture input (R32, R407): the stamps queued, each with its edge (true: rising), and the tick of the
last edge stamped. -/
structure EvtCap where
  queue : List (Time × Bool) := []
  last : Option W64 := none
  deriving DecidableEq, Repr

/-- One periodic output (R33): whether it is at its active level, the instant at which it returns to the inactive one
(none: it stays), and the boundaries not yet emitted whose edge it has produced since show time last stepped back (R27). -/
structure PerOut where
  active : Bool := false
  offAt : Option Time := none
  served : List Time := []
  deriving DecidableEq, Repr

/-- The timebase's units around the clock: references, PPS, captures, periodic outputs, house sync (R29 to R33, R42). -/
structure Pins where
  /-- TB_STATUS.REF_ACTIVE: the reference in use is REF10M_IN (R30). -/
  refActive : Bool := false
  /-- TB_STATUS.PLL_LOCK (R30). -/
  pllLock : Bool := false
  /-- TB_STATUS.PAIR_SLAVED (R29). -/
  pairSlaved : Bool := false
  /-- The level of PPS_OUT, and the tick it last rose at (R31). -/
  ppsOut : Bool := false
  ppsRose : W64 := 0
  /-- The tick of the last PPS_IN edge stamped, until its loss is declared (R31, R407). -/
  ppsLast : Option W64 := none
  evtCap : Tab EvtCap := []
  perOut : Tab PerOut := []
  /-- The stamp and tick of the last house-sync edge measured (R42, R407). -/
  hsyncLast : Option (Time × W64) := none
  /-- The tick from which the 1 s of HSYNC_LOST counts; none once it is declared or while the input is off (R42). -/
  hsyncSince : Option W64 := none
  deriving DecidableEq, Repr

/-- A frame grid (R34): epoch in seconds and nanoseconds, rate numerator and denominator. -/
structure Grid where
  sec : W64
  ns : W32
  num : W32
  den : W32
  deriving DecidableEq, Repr

/-- The frame clock (R34 to R41, R414). -/
structure Frm where
  /-- The grid in use: a run is in progress (R414). -/
  run : Option Grid := none
  /-- The run has emitted its first boundary (R414). -/
  firstDone : Bool := false
  /-- The grid index of the next boundary, once the run has emitted its first (R35, R38, R39, R41). -/
  next : Nat := 0
  /-- The exact instant of the last boundary emitted, B(g) (R38, R44). -/
  lastB : Time := 0
  /-- A boundary was emitted since the last reset (R37). -/
  everEmitted : Bool := false
  /-- The number of the last boundary emitted (R35, R44). -/
  lastFrame : W64 := 0
  /-- FRM_BIAS (R35). -/
  bias : W64 := 0
  /-- FRM_STATUS.HOLDING (R39). -/
  holding : Bool := false
  /-- A skip suppressed the frame leaf of the next boundary's outputs (R41). -/
  skipped : Bool := false
  /-- The instants of the boundaries emitted in this run, which a frame-mode output follows (R27, R33). -/
  emitted : List Time := []
  /-- The current frame C (R87). -/
  cur : BitVec 18 := 0
  /-- A boundary emitted whose inputs are not all here: its number and instant. A frame stamped before it is still being received (R9). -/
  latching : Option (W64 × Time) := none
  /-- Frame leaves were issued since the last reset (R87, R124). -/
  leavesIssued : Bool := false
  /-- Frames that no frame leaf named, as first frame and count (R41, R123). -/
  gaps : List (BitVec 18 × Nat) := []
  deriving DecidableEq, Repr

/-- One requester's write of a _LO register that no write of _HI has followed (R310). -/
structure Staged where
  req : Req
  place : Nat
  word : W32
  deriving DecidableEq, Repr

/-- The configuration seal's pass (R316, R319): a capture is pending, the pass now running began after it, and the registers as they
were when that pass began. -/
structure Seal where
  capture : Bool := false
  fresh : Bool := false
  start : Tab W32 := []
  /-- Values that sealed registers held during the pass and that a write has replaced, oldest first (R316). -/
  seen : Tab (List W32) := []
  deriving DecidableEq, Repr

/-- The register bus: what is between a requester and the registers (R306 to R319). -/
structure Bus where
  /-- The word the last register read returned to its requester. -/
  data : W32 := 0
  /-- The bytes the last read through the Kettle or DRAM window returned, and whether its completion was poisoned
  (R159, R162). -/
  win : List W8 := []
  poisoned : Bool := false
  /-- _LO halves waiting for their _HI (R310). -/
  staged : List Staged := []
  /-- The unlocks armed, host and control firmware, and the ticks of their arming (R314). -/
  hostArmed : Bool := false
  fwArmed : Bool := false
  hostTick : W64 := 0
  fwTick : W64 := 0
  /-- The configuration seal (R319). -/
  sealRun : Seal := {}
  /-- The ticks at which software last cleared LOCK_VIOLATION and GUARD_DENIED (R316). -/
  lockClear : Option W64 := none
  denyClear : Option W64 := none
  deriving DecidableEq, Repr

/-- MSI-X (R389, R390): the function mask, vectors in service, pending bits, and messages sent by vector. -/
structure Msix where
  masked : Bool := false
  inService : W64 := 0
  pba : W64 := 0
  sent : Tab Nat := []
  /-- PCIe configuration space, the BARs with it, by word (R378): no command of the opcode table writes it. -/
  config : Tab W32 := []
  deriving DecidableEq, Repr

/-- An output record (R106, R125): the key of the brew that poured it, its destination word and its bytes. -/
structure Rec where
  key : W64
  dest : W64
  data : List W8
  deriving DecidableEq, Repr

/-- What a brew waits for: nothing; the leaves or the cancel it sent (R97, R104, R105); pour memory or its window
position for a record (R120, R128); its window position to close (R120); the infuser's result, or a place in its queue
(R138). -/
inductive Wait where
  | none
  | leaves
  | pour (r : Rec)
  | ending
  | infuser
  | infuserPlace
  deriving DecidableEq, Repr

/-- A running brew (R45, R46, R101, R102): its registers, and what the scheduler keeps of it. -/
structure Brew where
  key : W64
  pc : W64
  g : Tab W64 := []
  v : Tab W512 := []
  p : Tab W32 := []
  l : Tab W64 := []
  fl : W32 := 0
  /-- The flow it is a member of (R118). -/
  flow : Option Nat
  /-- The POURs it issued (R106) and the records the pour unit holds for it. -/
  pours : Nat := 0
  recs : List Rec := []
  cancelled : Bool := false
  wait : Wait := .none
  /-- Its first instruction has issued; array cycles since then up to the tick `cycTick` (R102). -/
  issued : Bool := false
  cycles : Nat := 0
  cycTick : W64
  deriving DecidableEq, Repr

/-- An entry of a steeping table (R89, R95): a slot for each leaf of the count, and the template fields captured. -/
structure Entry where
  key : W64
  leaves : List (Option W64)
  prio : Nat
  persist : Bool
  flow : Option Nat
  deriving DecidableEq, Repr

/-- A marker, and the boundaries until it expires (R111). -/
structure Marker where
  key : W64
  left : Nat := 2
  deriving DecidableEq, Repr

/-- The steeping table of a swarm (R95, R98, R99): the ready entries' keys in the order in which they became ready, the compute source that
the table port considers next, and whether the last boundary's sweep is still to come. -/
structure Steep where
  entries : List Entry := []
  markers : List Marker := []
  ready : List W64 := []
  turn : Nat := 0
  sweepDue : Bool := false
  deriving DecidableEq, Repr

/-- A leaf or cancel that a brew sent and no table has accepted yet: the slot that waits for it (none: its brew ended),
and whether a table refused it a place (R97). -/
structure Sent where
  slotId : Option Nat
  key : W64
  slot : Nat
  value : W64
  cancel : Bool
  waits : Bool := false
  deriving DecidableEq, Repr

/-- A leaf or cancel with its class decided by where it stands: a push on a host port (R116), or an input that a boundary
released (R91); and the tick at which a host port accepted it (R9). -/
structure Push where
  key : W64
  slot : Nat
  value : W64
  cancel : Bool := false
  tick : W64 := 0
  deriving DecidableEq, Repr

/-- A closure of a flow's sequence position: its frame and number, and the member's records, or none for a tombstone
(R118, R121). -/
structure Closure where
  frame : BitVec 18
  inst : W32
  recs : Option (List Rec)
  deriving DecidableEq, Repr

/-- A flow (R119, R124): what was captured, F (none: it waits for the first frame leaves), NEXT, the closures recorded, and
the released records that wait for their destinations. -/
structure Flow where
  enabled : Bool := false
  stream : Bool := false
  expire : Nat := 0
  len : W32 := 0
  frame : Option (BitVec 18) := none
  next : W32 := 0
  closed : List Closure := []
  out : List Rec := []
  deriving DecidableEq, Repr

/-- A delay entry (R130, R133): late at its insertion, judged ready at a tick, and counted as deferred. -/
structure DelayEntry where
  key : W64
  slot : Nat
  value : W64
  due : W64
  policy : Nat
  wasLate : Bool
  ready : Bool := false
  deferred : Bool := false
  deriving DecidableEq, Repr

/-- An instruction that the infuser has accepted (R138): the slot that issued it, its prefix and its word. -/
structure Infusion where
  slotId : Nat
  pre : Option W32
  word : W32
  deriving DecidableEq, Repr

/-- The array: fireflies, scheduler, pour unit, delay lists and infusers (chapters 3 to 6). A brew slot's number is
(17 s + f) × 8 + j. -/
structure ArrayState where
  /-- The words of the template table, four for each template (R88). -/
  tmpl : Tab W32 := []
  slots : Tab (Option Brew) := []
  steep : Tab Steep := []
  sends : List Sent := []
  /-- Frame leaves not yet accepted: template and value (R91, R97). -/
  frameLeaves : List (Nat × W64) := []
  /-- Input-class leaves that the last boundary released and no table has taken yet. -/
  inputs : List Push := []
  /-- The queues of the host ports, 0 latched and 1 immediate (R116). -/
  latched : List Push := []
  immediate : List Push := []
  flows : Tab Flow := []
  /-- Tombstones on their way to the pour unit: flow and key. -/
  tombs : List (Nat × W64) := []
  /-- Released records of brews that belong to no flow (R127). -/
  loose : List Rec := []
  /-- The tick period that SCHED_TICK_PERIOD replaced, and the instant from which the new one applies (R131). -/
  tickOld : Option (Nat × Time) := none
  /-- Delay lists, list j of swarm s under 4 s + j (R130). -/
  delays : Tab (List DelayEntry) := []
  infuser : Tab (List Infusion) := []
  /-- Slots stalled on a full infuser queue, in order, with their instructions. -/
  infuserStalled : List Infusion := []
  /-- Words that the instruction caches hold, firefly 17 s + f under 2^48 times it plus the address (R54). -/
  icache : Tab (Option W32) := []
  /-- Stalls and work that last: the tick from which their cycles count (R97, R128, R156). -/
  meters : Tab (Option W64) := []
  deriving DecidableEq, Repr

/-- A control core (R82 to R85). -/
structure Core where
  g : Tab W64 := []
  pc : W64 := 0
  st : W64 := 2
  savedSt : W64 := 0
  savedPc : W64 := 0
  trapBase : W64 := 0
  cause : W64 := 0
  faultAddr : W64 := 0
  irqEn : W64 := 0
  areaBase : Tab W64 := []
  areaLimit : Tab W64 := []
  running : Bool := false
  dozing : Bool := false
  deriving DecidableEq, Repr

/-- An error in a 64-bit memory word (R159). -/
inductive WordErr where
  | none
  | single
  | multi
  deriving DecidableEq, Repr

/-- A head's timing set (R169, R170, R179), as captured: the registers of the head, and the output controls of the odd
head of a split pair. -/
structure Timing where
  hActive : Nat
  hFp : Nat
  hSync : Nat
  hBp : Nat
  hsPol : Bool
  vActive : Nat
  vFp : Nat
  vSync : Nat
  vBp : Nat
  vsPol : Bool
  /-- RHEAD_VSYNC_OFFSET in nanoseconds. -/
  offset : Nat
  split : Bool
  outCtl : W32
  dpCtl : W32
  oddOut : W32
  oddDp : W32
  /-- The Trazh registers of the head and of the odd head of a split pair, as captured (R259): TRAZH_CTL, TRAZH_ETYPE, TRAZH_DMAC_LO,
  TRAZH_DMAC_HI, TRAZH_OFS and TRAZH_SPACING. -/
  trazh : List W32 := []
  oddTrazh : List W32 := []
  deriving DecidableEq, Repr

/-- One layer's registers (R192). -/
structure LayerRegs where
  ctl : W32
  srcPos : W32
  srcSize : W32
  dstPos : W32
  dstSize : W32
  deriving DecidableEq, Repr

/-- A commit: a copy of every shadow register (R181). -/
structure LayerSet where
  layers : List LayerRegs
  csc : List W32
  bg : W32
  deriving DecidableEq, Repr

/-- A layer of the active set: its registers, the descriptor copied at the take, and whether it failed its check
(R168, R174). -/
structure ActiveLayer where
  regs : LayerRegs
  desc : List W32
  failed : Bool
  deriving DecidableEq, Repr

/-- The active set (R181). -/
structure ActiveSet where
  layers : List ActiveLayer
  csc : List W32
  bg : W32
  deriving DecidableEq, Repr

/-- A head at the end of its front porch waits for V: the boundary's number, V, and the tick at which the wait began (R172). -/
structure LockWait where
  frame : W64
  v : Time
  tick : W64
  deriving DecidableEq, Repr

/-- A raster head (R169 to R190). -/
structure Head where
  /-- RHEAD_STATUS.RUNNING. -/
  running : Bool := false
  /-- The timing set in use, and the one that the next vertical sync takes (R170). -/
  timing : Option Timing := none
  next : Option Timing := none
  /-- The pending set (R181). -/
  pending : Option LayerSet := none
  /-- The active set (R181). -/
  active : Option ActiveSet := none
  /-- The line being output. -/
  line : Nat := 0
  /-- The front porch has ended, and the head waits for V (R172). -/
  wait : Option LockWait := none
  /-- This frame's latch instant has passed. -/
  latched : Bool := false
  locked : Bool := false
  free : Bool := false
  /-- The frame's number, and the instant and tick of its vertical sync (R173). -/
  number : W64 := 0
  vsync : Time := 0
  vsyncTick : W64 := 0
  /-- The boundaries used or slipped as lock candidates, newest first: the last few (R172). -/
  consumed : List W64 := []
  /-- The head runs free until its next accepted capture (R171). -/
  forced : Bool := false
  /-- A taken set has not yet been shown (R182). -/
  fresh : Bool := false
  /-- The frame shows a set taken for it; else it repeats its predecessor's (R257). -/
  renewed : Bool := false
  /-- The DisplayPort sink's hot-plug detect, and link trained (R187). -/
  hpd : Bool := false
  trained : Bool := false
  /-- The pixels that this head sends in the line being output, each a red, green and blue level quantised to the output
  depth (R175 to R180). -/
  pixels : List (Nat × Nat × Nat) := []
  /-- The digest of the active lines sent so far in this frame (R287). -/
  crc : W32 := 0xFFFFFFFF
  /-- Surface blocks whose scan-out read missed its deadline, by Kettle offset / 64, in this frame (R158). -/
  lateBlocks : List Nat := []
  deriving DecidableEq, Repr

/-- The Kettle (R157 to R167, R191). -/
structure Kettle where
  /-- KET_STATUS.INIT_DONE and DERATED. -/
  initDone : Bool := false
  derated : Bool := false
  /-- The words of the 1,024 surface descriptors, eight each (R163). -/
  surf : Tab W32 := []
  heads : Tab Head := []
  /-- The next Kettle word that scrub reads (R160). -/
  scrub : Nat := 0
  /-- The tick at which scrub's last pass began, and that pass's period in ms; 0 before the first (R160, R191). -/
  passTick : W64 := 0
  passMs : Nat := 0
  /-- Errors that scrub has corrected in each row since it was last mapped (R336). -/
  tally : Tab Nat := []
  deriving DecidableEq, Repr

/-- Where a frame to be sent comes from: descriptor `desc` of ring q, or a packer: kind 0 a sACN data packet of universe
id, 1 a synchronisation packet of address id, 2 a Trazh packet of head id, 3 a discovery packet; with its output frame. -/
inductive Origin where
  | ring (q desc : Nat)
  | packer (kind id : Nat) (frame : W64)
  deriving DecidableEq, Repr

/-- A built frame, from destination address to the end of its padding (R197). -/
structure TxFrame where
  origin : Origin
  bytes : List W8
  /-- The launch time of a timed frame, and what it has beyond it in units of 2^-48 ns / 125; of one from the LQ ring, its short time until
  the offer (R202). -/
  launch : Time := 0
  frac : Nat := 0
  /-- A stamp is asked for, under this tag (R234). -/
  tsReq : Bool := false
  tag : W16 := 0
  /-- Bytes of inserted tags (R209). -/
  tags : Nat := 0
  /-- Bytes before the first uncorrectable word read (R198). -/
  bad : Option Nat := none
  /-- Collisions met (R196). -/
  coll : Nat := 0
  deriving DecidableEq, Repr

/-- What an admitted frame became (R203). -/
inductive Fate where
  | waiting
  | sent
  | lost
  deriving DecidableEq, Repr

/-- An admitted frame and its window, in units of 2^-48 ns / 125 (R200). -/
structure Admitted where
  frame : TxFrame
  ws : Int
  we : Int
  fate : Fate := .waiting
  deriving DecidableEq, Repr

/-- A frame on the wire: the instant of its SFD, the tick at which its preamble began, and the frame bytes that earlier
fragments sent, with the instant at which the start delimiter of the fragment on the wire left, where it is not the first (R208). -/
structure Flight where
  frame : TxFrame
  sfd : Time
  tick : W64
  sent : Nat := 0
  frag : Option Time := none
  deriving DecidableEq, Repr

/-- A descriptor of a TXQ ring that awaits its write-back, with its outcome once known: STATUS and COLL (R198). -/
structure TxDone where
  desc : Nat
  outcome : Option (Nat × Nat) := none
  deriving DecidableEq, Repr

/-- A transmit ring (R195): the captured base and size, descriptors to write back, frames read and unsent, and the bytes
that have arrived of the frame being read. -/
structure TxRing where
  enabled : Bool := false
  base : Nat := 0
  log2 : Nat := 4
  done : List TxDone := []
  frames : List TxFrame := []
  filling : Option Nat := none
  deriving DecidableEq, Repr

/-- A stop of a TXQ: its quanta, and the tick it began at; none while the frame in progress runs on (R210). -/
structure Pause where
  quanta : Nat
  began : Option W64
  deriving DecidableEq, Repr

/-- A transmit stamp (R234). -/
structure Stamp where
  time : Time
  tag : W16
  ring : Nat
  deriving DecidableEq, Repr

/-- A receive ring (R225): what was captured. -/
structure RxRing where
  enabled : Bool := false
  base : Nat := 0
  log2 : Nat := 4
  bufsz : Nat := 2048
  strip : Nat := 0
  keepFcs : Bool := false
  /-- LEVEL_ABOVE (R231). -/
  above : Bool := false
  deriving DecidableEq, Repr

/-- What the strainer judged (R220 to R223): the entry, or none for the default, and the word 0 it applies. -/
structure Judged where
  entry : Option Nat
  word : W32
  /-- The tags that the strainer recognised (R219). -/
  tags : Nat := 0
  deriving DecidableEq, Repr

/-- A frame being received: its stamp, its bytes so far, the judgment, and for a receive ring the buffers taken (by
descriptor address and buffer address), the bytes stored, and whether it was dropped or abandoned (R218 to R230). -/
structure RxFrame where
  stamp : Time
  bytes : List W8 := []
  judged : Option Judged := none
  buffers : List (Nat × Nat) := []
  stored : Nat := 0
  dropped : Bool := false
  deriving DecidableEq, Repr

/-- A port: SPORT[p], and LPORT[n] as port 8 + n (chapters 8 and 9). -/
structure Port where
  enabled : Bool := false
  /-- SPORT_CTL as captured (R193). -/
  ctl : W32 := 0
  link : Bool := false
  /-- A legacy link's rate and half duplex (R213). -/
  rate : Nat := 0
  half : Bool := false
  /-- What a legacy port's interface reports: a link, and its rate and half duplex (R213). -/
  phy : Bool := false
  inRate : Nat := 0
  inHalf : Bool := false
  /-- TXQ 0 to 7, and the LQ ring as 8 (R195). -/
  rings : Tab TxRing := []
  /-- Frames of the LQ ring, staged and not yet offered (R201). -/
  staged : List TxFrame := []
  /-- Frames that the packers offer (R202). -/
  offers : List TxFrame := []
  cal : List Admitted := []
  timed : Option Flight := none
  untimed : Option Flight := none
  /-- A preemptable frame that was cut (R208). -/
  cut : Option Flight := none
  /-- A frame in back-off: the tick the wait began at and its ticks (R214). -/
  backoff : Option (TxFrame × W64 × Nat) := none
  pause : Tab (Option Pause) := []
  /-- SPORT_STATUS.PREEMPT_ACTIVE, and verification attempts that failed (R208). -/
  preempt : Bool := false
  verifyFails : Nat := 0
  /-- The tick of the last verification attempt that failed (R208). -/
  verifyTick : W64 := 0
  /-- The tick at which the wire last fell idle: an inter-frame gap follows (R197, R214). -/
  idle : Option W64 := none
  /-- Transmit stamps that software has not yet read (R234). -/
  saucer : List Stamp := []
  /-- Stamps that wait for the outcome of a cut frame whose SFD left earlier (R234). -/
  stampWait : List Stamp := []
  /-- The last frame that left the port, FCS included, truncated where it was cut. -/
  wire : List W8 := []
  rx : Option RxFrame := none
  rxRings : Tab RxRing := []
  deriving DecidableEq, Repr

/-- A received frame handed on: the port, the stamp and the frame from destination address through FCS; for an input
engine, the stream (R223, R233). -/
structure Received where
  port : Nat
  stamp : Time
  bytes : List W8
  stream : Nat := 0
  /-- It came across Cricket (R280). -/
  mirrored : Bool := false
  deriving DecidableEq, Repr

/-- How a universe or a DMX line is assembled (R245, R246, R262): its assembling frame A (none: one above the first boundary of
the run), whether the hold at the run's first boundary is still to come, records counted, and whether the frame has begun. -/
structure Assembly where
  frame : Option W64 := none
  first : Bool := false
  count : Nat := 0
  begun : Bool := false
  deriving DecidableEq, Repr

/-- A universe (R243 to R250): its assembly, sequence counter, and packets with Stream_Terminated still to send. -/
structure Universe where
  asm : Assembly := {}
  seq : Nat := 0
  term : Nat := 0
  deriving DecidableEq, Repr

/-- The sequence counter of a synchronisation address: the next value, and those given to recent frames (R249). -/
structure SyncSeq where
  next : Nat := 0
  recent : List (W64 × Nat) := []
  deriving DecidableEq, Repr

/-- A port's next synchronisation packet: its frame (none: the first boundary of the run) and its place (R250). -/
structure SyncPort where
  frame : Option W64 := none
  index : Nat := 0
  /-- Frames before the present one whose launch times are still to come: number, instant of the boundary, next index. -/
  older : List (W64 × Time × Nat) := []
  deriving DecidableEq, Repr

/-- A packet kept for an input entry (R254). -/
structure KeptPacket where
  stamp : Time
  prio : Nat
  seq : Nat
  count : Nat
  cid : List W8
  slots : List W8
  deriving DecidableEq, Repr

/-- An sACN input entry's state (R253, R254): the packet kept for the next boundary, the last accepted sequence number, the half
of the latest image (none: no image yet), the tick at which a packet was last kept, LOSS, and whether the packet came as a
mirrored copy. -/
structure InEntry where
  kept : Option KeptPacket := none
  seq : Option Nat := none
  half : Option Nat := none
  keptTick : W64 := 0
  loss : Bool := false
  mirrored : Bool := false
  deriving DecidableEq, Repr

/-- An ST 2110-20 stream's state (R255, R256): current buffer, next extended sequence number, the row groups in which a gap
fell, groups completed in this frame, the last row written, and leaves that wait for their boundary: stamp and value with
the group. -/
structure StStream where
  buf : Nat := 0
  seq : Option Nat := none
  damaged : List Nat := []
  groups : List Nat := []
  row : Option Nat := none
  leaves : List (Time × Nat × W64) := []
  mirrored : Bool := false
  deriving DecidableEq, Repr

/-- A Trazh stream's state (R257 to R259): the head frame being packed with its vertical sync's tick, the next group and packet, the
launch time of the packet before, SEQ, and the digest so far. -/
structure Trazh where
  tick : Option W64 := none
  group : Nat := 0
  packet : Nat := 0
  prev : Int := 0
  seq : W16 := 0
  crc : W32 := 0xFFFFFFFF
  deriving DecidableEq, Repr

/-- The packers and input engines on the main die (R243 to R260). -/
structure Pack where
  /-- Words of the universe table, four each (R243). -/
  table : Tab W32 := []
  univ : Tab Universe := []
  sync : Tab SyncPort := []
  syncSeq : Tab SyncSeq := []
  /-- Records handed on that the sACN packer has not yet taken. -/
  inbox : List Rec := []
  /-- FRAME_LATE counts by flow (R246). -/
  late : Tab W32 := []
  /-- The tick of the last discovery (R251). -/
  discTick : Option W64 := none
  /-- Words of the input entries, four each, and their state (R254, R268). -/
  inTable : Tab W32 := []
  inputs : Tab InEntry := []
  streams : Tab StStream := []
  trazh : Tab Trazh := []
  deriving DecidableEq, Repr

/-- A DMX port (R261 to R264): its assembly and sent image, frames staged for their breaks, the frame of its last break, the bytes on the
line with their output frame (none: RDM), and the tick at which the line is free; RDM and responder state. -/
structure Dmx where
  asm : Assembly := {}
  sent : List W8 := []
  building : List W8 := []
  staged : List (W64 × List W8) := []
  launched : Option W64 := none
  line : Option (Option W64 × List W8) := none
  /-- When what is on the line begins and when its last stop bit ends, and when the frame or RDM transaction is over. -/
  startTick : W64 := 0
  endTick : W64 := 0
  freeTick : W64 := 0
  /-- The break of a reply that has been scheduled: its tick and its short time (R264, R269). -/
  replyBreak : Option (W64 × W64) := none
  /-- Records handed on that the port has not yet taken. -/
  inbox : List Rec := []
  pending : Bool := false
  noResp : Bool := false
  /-- The tick at which the request ended whose reply is awaited. -/
  waitTick : Option W64 := none
  /-- Responder: muted, and the tick at which the request ended that firmware is to answer. -/
  mute : Bool := false
  askTick : Option W64 := none
  deriving DecidableEq, Repr

/-- An entry of the LTC or the MIDI receive queue: what was received, user bits, and the stamp (R265, R267). -/
structure Timed where
  value : W32
  user : W32 := 0
  stamp : Time
  deriving DecidableEq, Repr

/-- Timecode and MIDI (R265 to R267). -/
structure Slow where
  ltcRx : List Timed := []
  /-- LTC generator: F0, the frame last begun with its tick, time address and user bits, and stopped by TX_REJECT (R266, R270). -/
  ltcFirst : Option W64 := none
  ltcFrame : Option W64 := none
  ltcTick : Option W64 := none
  ltcWord : W32 := 0
  ltcUser : W32 := 0
  ltcInstant : Time := 0
  ltcStopped : Bool := false
  /-- Boundaries with F mod DIV = 0 emitted since the enable, each with its instant, whose LTC frame has not begun (R266). -/
  ltcBounds : List (W64 × Time) := []
  /-- MIDI bytes received and bytes to be sent (R267). -/
  midiRx : List Timed := []
  midiTx : List W8 := []
  /-- Quarter-frame bytes that go ahead of the queue, quarters sent of this LTC frame, the next piece and the time address being spelt. -/
  mtc : List W8 := []
  quarter : Nat := 0
  piece : Nat := 0
  mtcWord : W32 := 0
  /-- The last byte sent and the tick at which it began. -/
  midiLast : Option (W8 × W64) := none
  deriving DecidableEq, Repr

/-- A block kept for replay: its SEQ, its payload with channel and FIRST and LAST, and how often it was sent
(R274, R275, R277). -/
structure Cell where
  seq : Nat := 0
  chan : Nat
  first : Bool
  last : Bool
  data : List W8
  sends : Nat := 0
  deriving DecidableEq, Repr

/-- A digest set (R287, R288): CLASS, INDEX and digest of each stream, in the order in which the streams completed. -/
structure DigestSet where
  frame : W64
  recs : List (Nat × Nat × W32)
  deriving DecidableEq, Repr

/-- An adjudication (R289): the stream, the tick of its MISMATCH message, this unit's slices that have not ended, and whether one failed. -/
structure Adjudication where
  cls : Nat
  index : Nat
  tick : W64
  left : Nat
  failed : Bool := false
  deriving DecidableEq, Repr

/-- The Cricket link and the pair (chapter 11). -/
structure Pair where
  /-- PAIR_CTL has been written since the last reset (R271, R317). -/
  written : Bool := false
  mode : PairMode := .solo
  /-- The state before TAKING (R272). -/
  back : PairMode := .join
  /-- The link is trained, and the pair key established (R273). -/
  trained : Bool := false
  keyed : Bool := false
  /-- Link layer (R275): the next SEQ to send, the oldest unacknowledged one, the next one expected, NAK to be sent, blocks sent and
  not acknowledged, blocks that wait for room, partly received messages by channel, and messages received whole. -/
  seq : Nat := 0
  expect : Nat := 0
  nak : Bool := false
  replay : List Cell := []
  outbox : List Cell := []
  partials : Tab (List W8) := []
  inbox : List (Nat × List W8) := []
  /-- The block sent last, and the arrival stamps of the TIME messages in `inbox` (R274, R278). -/
  tx : List W8 := []
  stamps : List Time := []
  /-- The tick at which ACK last advanced (R275). -/
  ackTick : W64 := 0
  /-- OWN_N (R292, R294): this unit drives it low; its level when last read. -/
  ownDrive : Bool := false
  ownHigh : Bool := false
  /-- The last heartbeat received (R291, R293), loss declared, the short time of the entry into JOIN, and the tick of the last heartbeat
  sent. -/
  hb : Option Heartbeat := none
  lost : Bool := false
  joinAt : W64 := 0
  hbTick : W64 := 0
  /-- Silenced by the watchdog until the next kick (R292). -/
  silent : Bool := false
  kickTick : W64 := 0
  wdogExpired : Bool := false
  idClash : Bool := false
  /-- The role that R295 gives when the straps are equal: true for unit 1. -/
  role : Option Bool := none
  /-- A claim: its tick, and once verified (R294); it follows a handover. -/
  claimTick : Option W64 := none
  verified : Bool := false
  byHandover : Bool := false
  /-- From this instant the new active sends packets of frames later than the last CONFIRMED received, if any (R296). -/
  takeover : Option (Time × Option W64) := none
  /-- This unit's handover: boundary b's frame number and instant, and whether OWN_N has been released (R298). -/
  handover : Option (W64 × Time) := none
  released : Bool := false
  /-- The boundary that a HANDOVER message named (R298). -/
  offered : Option W64 := none
  /-- This unit goes to DEGRADED after its handover (R289). -/
  yielding : Bool := false
  /-- CONFIRMED of this unit (R291). -/
  confirmed : W64 := 0
  /-- TT_LOCK, and consecutive exchanges beyond 1 ns (R278). -/
  ttLock : Bool := false
  ttOver : Nat := 0
  ttTick : W64 := 0
  /-- The stamp t1 of the exchange that awaits its answer (R278). -/
  ttAsk : Option Time := none
  /-- Mirror budget: bytes × 1,000 of burst left at a tick (R282). -/
  tokens : Nat := 262144000
  tokenTick : W64 := 0
  /-- Mirrored pushes received and not yet released, with the boundary that latches each (R283). -/
  pushes : List (W64 × Push) := []
  /-- The last boundary for which MARK has arrived, and the one whose wait runs with its tick (R281). -/
  marked : Option W64 := none
  markDue : Option (W64 × W64) := none
  /-- This unit sends the MARK of the boundary that waits for a reception: it was active up to that boundary (R281). -/
  markOwed : Bool := false
  /-- Digest sets of this unit, and consecutive matching frames (R288). -/
  digests : List DigestSet := []
  matched : Nat := 0
  adj : Option Adjudication := none
  /-- The frame that the last MISMATCH message received on the active named (R289). -/
  named : Option W64 := none
  /-- Slices since the last HEALTH word: completed, failed, timed out (R300). -/
  slices : Nat := 0
  sliceFail : Bool := false
  sliceSuspect : Bool := false
  deriving DecidableEq, Repr

/-- A caddy queue (R321 to R324). Entries are lists of 32 bytes. -/
structure Queue where
  enabled : Bool := false
  /-- S: entries of the caddy, and its base, as captured. -/
  spill : Nat := 0
  base : Nat := 0
  head : List (List W8) := []
  /-- Entries in the caddy, and the index of the oldest. -/
  held : Nat := 0
  first : Nat := 0
  tail : List (List W8) := []
  /-- Pops that wait for a refill (R323). -/
  popWait : List Req := []
  deriving DecidableEq, Repr

/-- A host DMA channel (R327): enabled, ring base and LOG2SIZE as captured, the descriptor in flight when EN was cleared, and the bytes
that its last descriptor wrote to the host. -/
structure DmaChan where
  enabled : Bool := false
  base : Nat := 0
  log2 : Nat := 4
  flight : Option Nat := none
  wrote : List W8 := []
  deriving DecidableEq, Repr

/-- The abort that runs (R332): its FUNC and INSTANCE, and the tick of its acceptance. -/
structure Abort where
  func : Nat
  inst : Nat
  tick : W64
  deriving DecidableEq, Repr

/-- What started a slice (R344). -/
inductive SliceOrigin where
  | host
  | startup
  | service
  /-- For an adjudication, by the tick of its MISMATCH message. -/
  | adjudication (request : W64)
  deriving DecidableEq, Repr

/-- A slice that runs (R334 to R337): TYPE, TARGET, its budget in µs, its origin and the tick it started at. -/
structure Slice where
  kind : Nat
  target : Nat
  budget : Nat
  origin : SliceOrigin
  tick : W64
  /-- It waits for the end of another runner's slice on its target (R345). -/
  waits : Bool := false
  deriving DecidableEq, Repr

/-- A target's mark (R338, R356): 0 OK, 1 SUSPECT, 2 UNUSABLE, with its TIMEOUTS and REPAIRS. -/
structure TargetMark where
  mark : Nat := 0
  timeouts : Nat := 0
  repairs : Nat := 0
  deriving DecidableEq, Repr

/-- Weevil (R334 to R345): the runners, the marks by target word, the words of the result memory, adjudication slices that wait (type,
target and the adjudication's tick), the spare rows used by bank, the rows that a spare row stands for, and the spare lanes used by bond group (R336). -/
structure Weevil where
  runners : Tab (Option Slice) := []
  marks : Tab TargetMark := []
  results : Tab W32 := []
  adj : List (Nat × Nat × W64) := []
  rowsUsed : Tab Nat := []
  mapped : List Nat := []
  bondUsed : Tab Nat := []
  deriving DecidableEq, Repr

/-- An accepted calibration value (R348, R351): rate mode, M in 1/16 ps, TM in 1/16 °C, and the short time of acceptance. -/
structure CalValue where
  mode : Nat
  value : Int
  temp : Int
  time : W64
  deriving DecidableEq, Repr

/-- A calibrated path (R346 to R352): the rate mode in force, its accepted values by rate mode, those that come into force at the next
boundary, a round that measures it, a calibration of it since a RECOVERY reset, a measurement that a slice on its lane has spoiled, and whether
it has run on its factory value since the last boundary. -/
structure CalPath where
  mode : Nat := 0
  inForce : List CalValue := []
  next : List CalValue := []
  measuring : Bool := false
  trusted : Bool := true
  spoiled : Bool := false
  factory : Bool := true
  deriving DecidableEq, Repr

/-- The calibration engine (R346 to R355): the 64 KiB store, the slot in force (0 none, 1 A, 2 B), the paths, a store that runs, a value
accepted in the round that runs, the tick at which the last round of every path began, a CAL_CMD.MEASURE that is not done, and a start-up
whose round runs (R380). -/
structure Calib where
  mram : Tab W8 := []
  slot : Nat := 0
  paths : Tab CalPath := []
  storing : Bool := false
  fresh : Bool := false
  roundTick : W64 := 0
  asked : Bool := false
  starting : Bool := false
  deriving DecidableEq, Repr

/-- The lifecycle states (R359). -/
inductive Lifecycle where
  | blank
  | provisioned
  | deployed
  | diagnostic
  | retired
  deriving DecidableEq, Repr

/-- The protected window and the package (R367, R368, R374): no package; an open that has failed a check before step 7, with its RESULT to
come; an open from step 7 on; an open package; the protected window being zeroed, with the RESULT to write at its end; an open stopped before
step 7, likewise, its window unprotected and to be zeroed if it has passed step 3. -/
inductive PkgPhase where
  | closed
  | failing (result : Nat)
  | opening
  | opened
  | zeroing (result : Option Nat)
  | stopping (zero : Bool) (result : Option Nat)
  deriving DecidableEq, Repr

/-- A control session (R371): its keys, and the messages sealed and opened under them. -/
structure Session where
  keys : List W8 := []
  sent : Nat := 0
  received : Nat := 0
  deriving DecidableEq, Repr

/-- Scarab (R359 to R375). -/
structure Scarab where
  lc : Lifecycle := .blank
  /-- A move in progress (R360). -/
  move : Option Lifecycle := none
  /-- Fused at wafer test (R363, R375): ORDER, unique ID, lot, die position. -/
  orderE : Bool := false
  uid : BitVec 128 := 0
  lot : W64 := 0
  diePos : W32 := 0xA1000000
  /-- HUK, the secret that every device key is derived from: never read (R363). -/
  huk : BitVec 256 := 0
  /-- The fused security version, and the version of the running image (R364, R365). -/
  svn : W16 := 0
  runningSvn : W16 := 0
  /-- SHA-384 of the running image's header (R364). -/
  measurement : List W8 := []
  /-- The words of pins 0 to 8, twelve each; pin 8 is fused once DEPLOYED was entered with it (R370). -/
  pins : Tab W32 := []
  ownerFused : Bool := false
  /-- The tick of the challenge that is valid, and the scope word of the token held (R372). -/
  chal : Option W64 := none
  held : Option W32 := none
  /-- Debug scopes granted (R373): CORE, ARRAY, SCAN. -/
  scopes : Nat := 0
  /-- Scopes to be granted once the package is closed (R373). -/
  granting : Nat := 0
  /-- The package and the protected window as captured at OPEN (R367, R368). -/
  phase : PkgPhase := .closed
  base : Nat := 0
  size : Nat := 0
  pkgAddr : Nat := 0
  pkgLen : Nat := 0
  /-- SCARAB_PKG_CMD.CLOSE reads 1 (R375): a CLOSE is in progress. -/
  closing : Bool := false
  /-- The pair key (R369): valid, attested with the partner, its ID, that the device holds one, and the message that a formation awaits (0
  none, 1 an attestation, 2 a share of the key agreement). -/
  keyValid : Bool := false
  attested : Bool := false
  keyId : W64 := 0
  keyHeld : Bool := false
  forming : Nat := 0
  /-- PAK as Scarab's MRAM holds it, sealed under SK, and this unit's DIK signature over its public key (R363, R369). -/
  pakSealed : List W8 := []
  pairSig : List W8 := []
  /-- Of a formation: the nonce that the partner's attestation signs, the partner's certificate and the ephemeral private key (R369). -/
  nonce : List W8 := []
  partnerCert : List W8 := []
  eph : List W8 := []
  sessions : Tab (Option Session) := []
  deriving DecidableEq, Repr

/-- An I2C transfer (R392): the target, the bytes it writes, and the count to read. -/
structure I2cRun where
  addr : Nat
  out : List W8
  rlen : Nat
  deriving DecidableEq, Repr

/-- A SPI transfer (R392): SPI_OP, the flash address, the memory address, and the bytes sent to the flash. -/
structure SpiRun where
  op : W32
  addr : W32
  mem : Nat
  out : List W8
  deriving DecidableEq, Repr

/-- What is around the device (chapters 15 and 16): sensors above their limits at the last sample, THERM_TRIP_N driven low, the board's
interfaces with the levels that the board drives at the GPIO balls, and the TAP. -/
structure Sys where
  warnAbove : Bool := false
  critAbove : Bool := false
  tripped : Bool := false
  /-- PMON: the tick from which cycle sources count. -/
  pmonTick : W64 := 0
  gpioIn : W16 := 0
  i2c : Tab (Option I2cRun) := []
  spi : Option SpiRun := none
  uartTx : List W8 := []
  uartRx : List W8 := []
  mdio : Tab (Option W32) := []
  /-- The instruction shifted into the TAP, the boundary register's cells in the BSDL file's order, and what the last data scan returned
  (R341). -/
  tap : TapInstr := .bypass
  boundary : List Bool := []
  tdo : List Bool := []
  /-- TRST_N is high and an external controller holds the TAP (R341). -/
  tapHeld : Bool := false
  /-- A LINK reset holds the PCIe endpoint (R377). -/
  pcieDown : Bool := false
  /-- Start-up has come to step 9, whose slices are still to run: what they will find (R380). -/
  startReports : Option (List SliceReport) := none
  deriving DecidableEq, Repr

/-- Everything but the clock and the queue of waiting commands. -/
structure Dev where
  /-- The registers, by place (Machine/Regs.lean); an unlisted one holds its reset value. -/
  regs : Tab W32 := []
  /-- Memory by device address (R49); an unlisted byte reads 0 (DESIGN CHOICE, log entry 2). -/
  mem : Tab W8 := []
  /-- The words of memory in error, by address / 8 (R159). -/
  ecc : Tab WordErr := []
  /-- Installed DRAM in MiB (R49); its reset value is the model's (DESIGN CHOICE, log entry 3). -/
  dramMiB : Nat := 1024
  /-- The model's counter of free values drawn; no statement rests on its value (DESIGN CHOICE, log entry 5). -/
  freeIdx : Nat := 0
  bus : Bus := {}
  msix : Msix := {}
  pins : Pins := {}
  frm : Frm := {}
  arr : ArrayState := {}
  cores : Tab Core := []
  ket : Kettle := {}
  ports : Tab Port := []
  /-- The control firmware's receive path (R223). -/
  fwRx : List Received := []
  /-- Frames handed to the input engines, not yet taken: sACN and ST 2110-20 (R223). -/
  sacnRx : List Received := []
  stRx : List Received := []
  pack : Pack := {}
  dmx : Tab Dmx := []
  slow : Slow := {}
  pair : Pair := {}
  queues : Tab Queue := []
  dma : Tab DmaChan := []
  abort : Option Abort := none
  weevil : Weevil := {}
  calib : Calib := {}
  scarab : Scarab := {}
  sys : Sys := {}
  deriving DecidableEq, Repr

/-- The device and the commands that wait for it, first in first out. -/
structure State where
  pending : List Instr
  clk : Clk
  dev : Dev
  deriving DecidableEq, Repr

/-- Why the device stops: it never does. -/
inductive Fault where
  deriving DecidableEq, Repr

/-- Why a command has no meaning. -/
inductive Refusal where
  /-- Raised by an arm of Dispatch.lean whose command has no meaning yet; safe: nothing is claimed of it. -/
  | notModelled (mnemonic : String)
  deriving DecidableEq, Repr

/-- The clock after a POWER_ON reset (R16, R19, R43). -/
def Clk.reset : Clk where
  ticks := 0
  tb := { offset := 0, anchor := 0, incr := 0x00CCCCCCCCCCCD, timeValid := false, floor := 0 }

/-- The device after a POWER_ON reset, before STARTUP (R377, R378). What no rule gives a value is the model's choice
(DESIGN CHOICE, log entry 3). -/
def Dev.reset : Dev := {}

/-- The machine right after a POWER_ON reset, with no command waiting. -/
def State.reset : State where
  pending := []
  clk := Clk.reset
  dev := Dev.reset

end Sys2Proof.Machine
end

