-- ==== Sys2Proof/Machine/Ops.lean ====
section
/-!
DEFINITION. The named operations over registers, events and show time that every unit's commands are made of.
-/

namespace Sys2Proof.Machine

/-- A command whose effect leaves the clock and the queue alone. -/
def onDev (s : State) (f : Clk → Dev → Dev) : Host.Outcome State Fault Refusal :=
  .next { s with dev := f s.clk s.dev }

/-- A command that may also move the clock. -/
def onClk (s : State) (f : Clk → Dev → Clk × Dev) : Host.Outcome State Fault Refusal :=
  .next { s with clk := (f s.clk s.dev).1, dev := (f s.clk s.dev).2 }

/-- Register word at place a. -/
def rd (d : Dev) (a : Nat) : W32 := Tab.get (Reg.resetOf a) d.regs a

/-- Field of the register at place a. -/
def rf (d : Dev) (a lo len : Nat) : Nat := fld (rd d a) lo len

/-- Bit i of the register at place a. -/
def rb (d : Dev) (a i : Nat) : Bool := bit (rd d a) i

/-- Set the register word at place a. -/
def wr (a : Nat) (v : W32) (d : Dev) : Dev := { d with regs := Tab.put (Reg.resetOf a) d.regs a v }

/-- Set bit i of the register at place a to b. -/
def wrBit (a i : Nat) (b : Bool) (d : Dev) : Dev := wr a (setBit (rd d a) i b) d

/-- Set field [lo + len - 1 : lo] of the register at place a. -/
def wrFld (a lo len x : Nat) (d : Dev) : Dev := wr a (setFld (rd d a) lo len x) d

/-- What a write of v leaves of a register's word, by the classes of its bits (R6, R308). -/
def RegRow.written (r : RegRow) (old v : W32) : W32 := ((old &&& ~~~ r.w ||| v &&& r.w) &&& ~~~ (v &&& r.w1c)) ||| (v &&& r.w1s)

/-- A plain write of the register at place a: reserved and read-only bits keep their values (R6, R308). -/
def putReg (a : Nat) (v : W32) (d : Dev) : Dev :=
  match Reg.rowAt (Reg.origin a) with
  | some (row, _) => wr a (row.written (rd d a) v) d
  | none => d

/-- The 64-bit value of the pair whose _LO register lies at place a (R310). -/
def rd64 (d : Dev) (a : Nat) : W64 := pair64 (rd d a) (rd d (a + 4))

/-- Set the pair whose _LO register lies at place a. -/
def wr64 (a : Nat) (v : W64) (d : Dev) : Dev := wr (a + 4) (hi32 v) (wr a (lo32 v) d)

/-- Add n to a saturating counter of 32 bits (R308). -/
def bumpSat (a n : Nat) (d : Dev) : Dev := wr a (w32 (min (2 ^ 32 - 1) ((rd d a).toNat + n))) d

/-- Add n to a wrapping counter of 32 bits (R308). -/
def bump (a n : Nat) (d : Dev) : Dev := wr a (rd d a + w32 n) d

/-- Add n to a wrapping counter of 64 bits (R308, R310). -/
def bump64 (a n : Nat) (d : Dev) : Dev := wr64 a (rd64 d a + w64 n) d

/-- Add n to a saturating counter of 64 bits (R308, R310). -/
def bumpSat64 (a n : Nat) (d : Dev) : Dev := wr64 a (w64 (min (2 ^ 64 - 1) ((rd64 d a).toNat + n))) d

/-- Add n to a saturating counter that is a field of a register. -/
def bumpFld (a lo len n : Nat) (d : Dev) : Dev := wrFld a lo len (min (2 ^ len - 1) (rf d a lo len + n)) d

/-- Draw a value that the manual leaves open. (DESIGN CHOICE, log entry 5.) -/
def free (d : Dev) : W64 × Dev := (Config.freeValue d.freeIdx, { d with freeIdx := d.freeIdx + 1 })

/-- Apply f when c holds. -/
def when (c : Bool) (f : Dev → Dev) (d : Dev) : Dev := if c then f d else d

/-- Fold a device update over a list. -/
def forEach {α : Type} (l : List α) (f : α → Dev → Dev) (d : Dev) : Dev := l.foldl (fun d x => f x d) d

/-- The register read returns v to its requester. (DESIGN CHOICE, log entry 4.) -/
def ret (v : W32) (d : Dev) : Dev := { d with bus := { d.bus with data := v } }

/-- The key of a requester's snapshot of the register at place a (R310). (DESIGN CHOICE, log entry 12.) -/
def snapOf (req : Req) (a : Nat) : Nat := (match req with | .host => 0x9000000 | .fw => 0xA000000) + a

/-- Set a requester's snapshot of the register at place a. -/
def snap (req : Req) (a : Nat) (v : W32) (d : Dev) : Dev := wr (snapOf req a) v d

/-- The key of a requester's own copy of the register at place a: the host's copy is the register, the control
firmware's has a key of its own (R306). (DESIGN CHOICE, log entry 12.) -/
def ownOf (req : Req) (a : Nat) : Nat := match req with | .host => a | .fw => 0x8000000 + a

/-! Events and interrupt lines (R388 to R390). -/

/-- PACK_SLOW_SUMMARY: which slow-domain units have a set and enabled event (R268, R392). -/
def slowSummary (d : Dev) : W32 :=
  let on (ev en : Nat) : Bool := rd d ev &&& rd d en != 0
  (List.range 16).foldl (fun v n => v ||| bitIf n (on (Reg.DMX_EVENT n) (Reg.DMX_EVENT_EN n))) 0
    ||| bitIf 16 (on Reg.LTC_EVENT Reg.LTC_EVENT_EN)
    ||| bitIf 17 (on Reg.MIDI_EVENT Reg.MIDI_EVENT_EN)
    ||| bitIf 18 (on Reg.BOARD_EVENT Reg.BOARD_EVENT_EN)

/-- The event registers, each with its enable, that form line n, software lines apart (R388). -/
def lineSources (n : Nat) : List (Nat × Nat) :=
  if n = 0 then [(Reg.SYS_EVENT, Reg.SYS_EVENT_EN)]
  else if n = 1 then [(Reg.SYS_ABORT_EVENT, Reg.SYS_ABORT_EVENT_EN)]
  else if n = 2 then [(Reg.GUARD_EVENT, Reg.GUARD_EVENT_EN)]
  else if n = 3 then [(Reg.TB_EVENT, Reg.TB_EVENT_EN)]
  else if n = 4 then [(Reg.FRM_EVENT, Reg.FRM_EVENT_EN)]
  else if n = 5 then [(Reg.SCHED_EVENT, Reg.SCHED_EVENT_EN)]
  else if n = 6 then [(Reg.SCHED_REL_EVENT, Reg.SCHED_REL_EVENT_EN)]
  else if n < 15 then [(Reg.SWARM_EVENT (n - 7), Reg.SWARM_EVENT_EN (n - 7))]
  else if n < 19 then [(Reg.RHEAD_EVENT (n - 15), Reg.RHEAD_EVENT_EN (n - 15))]
  else if n = 19 then [(Reg.KET_EVENT, Reg.KET_EVENT_EN)]
  else if n < 30 then
    [(Reg.SPORT_TX_EVENT (n - 20), Reg.SPORT_TX_EVENT_EN (n - 20)),
     (Reg.SPORT_RX_EVENT (n - 20), Reg.SPORT_RX_EVENT_EN (n - 20)),
     (Reg.SPORT_RX_WM_EVENT (n - 20), Reg.SPORT_RX_WM_EVENT_EN (n - 20))]
  else if n = 30 then [(Reg.PACK_EVENT, Reg.PACK_EVENT_EN)]
  else if n = 31 then [(Reg.QUE_EVENT, Reg.QUE_EVENT_EN)]
  else if n = 32 then [(Reg.DMA_EVENT, Reg.DMA_EVENT_EN)]
  else if n = 33 then [(Reg.PAIR_EVENT, Reg.PAIR_EVENT_EN)]
  else if n = 34 then [(Reg.WEEVIL_EVENT, Reg.WEEVIL_EVENT_EN)]
  else if n = 35 then [(Reg.CAL_EVENT, Reg.CAL_EVENT_EN)]
  else if n = 36 then [(Reg.SCARAB_EVENT, Reg.SCARAB_EVENT_EN)]
  else []

/-- The level of line n (R388). -/
def lineLevel (d : Dev) (n : Nat) : Bool :=
  if 48 ≤ n then bit (rd d Reg.SYS_SW_EVENT &&& rd d Reg.SYS_SW_EVENT_EN) (n - 48)
  else (lineSources n).any (fun (ev, en) => rd d ev &&& rd d en != 0)
    || (n == 30 && slowSummary d &&& rd d Reg.PACK_SLOW_SUMMARY_EN != 0)

/-- Vector v's message is sent, or its pending bit set while the function or the vector is masked; a sent message puts
the vector in service (R389, R390). (PRESUMED, log entry 11.) -/
def msixSend (v : Nat) (d : Dev) : Dev :=
  if d.msix.masked || rb d (Reg.MSIX_TABLE (v * 4 + 3)) 0 then
    { d with msix := { d.msix with pba := setBit d.msix.pba v true } }
  else
    { d with msix := { d.msix with
        pba := setBit d.msix.pba v false
        inService := setBit d.msix.inService v true
        sent := Tab.put 0 d.msix.sent v (Tab.get 0 d.msix.sent v + 1) } }

/-- Line n rises: its vector's message is sent when the line is routed to the host and the vector is idle (R389).
(PRESUMED, log entry 11.) -/
def lineRise (n : Nat) (d : Dev) : Dev :=
  let route := rd d (Reg.SYS_EVT_ROUTE n)
  if bit route 31 && !bit d.msix.inService (fld route 0 6) then msixSend (fld route 0 6) d else d

/-- An update that may change the level of line n, with what a rise brings (R389). -/
def watchLine (n : Nat) (f : Dev → Dev) (d : Dev) : Dev :=
  if !lineLevel d n && lineLevel (f d) n then lineRise n (f d) else f d

/-- Set the event bits `mask` of the event register `ev`, whose line is n (R308, R388). -/
def raiseAt (n ev : Nat) (mask : W32) (d : Dev) : Dev := watchLine n (fun d => wr ev (rd d ev ||| mask) d) d

/-- Raise bit i of TB_EVENT. -/
def raiseTb (i : Nat) : Dev → Dev := raiseAt 3 Reg.TB_EVENT (bitIf i true)
/-- Raise bit i of FRM_EVENT. -/
def raiseFrm (i : Nat) : Dev → Dev := raiseAt 4 Reg.FRM_EVENT (bitIf i true)
/-- Raise bit i of GUARD_EVENT. -/
def raiseGuard (i : Nat) : Dev → Dev := raiseAt 2 Reg.GUARD_EVENT (bitIf i true)
/-- Raise bit i of SYS_EVENT. -/
def raiseSys (i : Nat) : Dev → Dev := raiseAt 0 Reg.SYS_EVENT (bitIf i true)
/-- Raise bit i of SYS_ABORT_EVENT. -/
def raiseAbort (i : Nat) : Dev → Dev := raiseAt 1 Reg.SYS_ABORT_EVENT (bitIf i true)
/-- Raise bit i of SCHED_EVENT. -/
def raiseSched (i : Nat) : Dev → Dev := raiseAt 5 Reg.SCHED_EVENT (bitIf i true)
/-- Raise bit i of SCHED_REL_EVENT. -/
def raiseRel (i : Nat) : Dev → Dev := raiseAt 6 Reg.SCHED_REL_EVENT (bitIf i true)
/-- Raise bit i of SWARM_EVENT[s]. -/
def raiseSwarm (s i : Nat) : Dev → Dev := raiseAt (7 + s) (Reg.SWARM_EVENT s) (bitIf i true)
/-- Raise bit i of RHEAD_EVENT[h]. -/
def raiseHead (h i : Nat) : Dev → Dev := raiseAt (15 + h) (Reg.RHEAD_EVENT h) (bitIf i true)
/-- Raise bit i of KET_EVENT. -/
def raiseKet (i : Nat) : Dev → Dev := raiseAt 19 Reg.KET_EVENT (bitIf i true)
/-- Raise bit i of the transmit event register of port p. -/
def raiseTx (p i : Nat) : Dev → Dev := raiseAt (20 + p) (Reg.SPORT_TX_EVENT p) (bitIf i true)
/-- Raise bit i of the receive event register of port p. -/
def raiseRx (p i : Nat) : Dev → Dev := raiseAt (20 + p) (Reg.SPORT_RX_EVENT p) (bitIf i true)
/-- Raise bit i of the watermark event register of port p. -/
def raiseWm (p i : Nat) : Dev → Dev := raiseAt (20 + p) (Reg.SPORT_RX_WM_EVENT p) (bitIf i true)
/-- Raise bit i of PACK_EVENT. -/
def raisePack (i : Nat) : Dev → Dev := raiseAt 30 Reg.PACK_EVENT (bitIf i true)
/-- Raise bit i of DMX_EVENT[n]. -/
def raiseDmx (n i : Nat) : Dev → Dev := raiseAt 30 (Reg.DMX_EVENT n) (bitIf i true)
/-- Raise bit i of LTC_EVENT. -/
def raiseLtc (i : Nat) : Dev → Dev := raiseAt 30 Reg.LTC_EVENT (bitIf i true)
/-- Raise bit i of MIDI_EVENT. -/
def raiseMidi (i : Nat) : Dev → Dev := raiseAt 30 Reg.MIDI_EVENT (bitIf i true)
/-- Raise bit i of BOARD_EVENT. -/
def raiseBoard (i : Nat) : Dev → Dev := raiseAt 30 Reg.BOARD_EVENT (bitIf i true)
/-- Raise bit i of QUE_EVENT. -/
def raiseQue (i : Nat) : Dev → Dev := raiseAt 31 Reg.QUE_EVENT (bitIf i true)
/-- Raise bit i of DMA_EVENT. -/
def raiseDma (i : Nat) : Dev → Dev := raiseAt 32 Reg.DMA_EVENT (bitIf i true)
/-- Raise bit i of PAIR_EVENT. -/
def raisePair (i : Nat) : Dev → Dev := raiseAt 33 Reg.PAIR_EVENT (bitIf i true)
/-- Raise bit i of WEEVIL_EVENT. -/
def raiseWeevil (i : Nat) : Dev → Dev := raiseAt 34 Reg.WEEVIL_EVENT (bitIf i true)
/-- Raise bit i of CAL_EVENT. -/
def raiseCal (i : Nat) : Dev → Dev := raiseAt 35 Reg.CAL_EVENT (bitIf i true)
/-- Raise bit i of SCARAB_EVENT. -/
def raiseScarab (i : Nat) : Dev → Dev := raiseAt 36 Reg.SCARAB_EVENT (bitIf i true)

/-- Set a bit of SYS_STARTUP_STATUS. -/
def stepDone (i : Nat) : Dev → Dev := wrBit Reg.SYS_STARTUP_STATUS i true

/-- The outputs are driven: from the first step of a start-up until a reset or a trip (R378, R400, R404, R411). -/
def awake (d : Dev) : Bool := rb d Reg.SYS_STARTUP_STATUS 10 && !d.sys.tripped

/-! Performance monitors (R386, R387). -/

/-- Source src fires n times: every counter that selects it adds n while counting runs (R386). (DESIGN CHOICE, log entry 76.) -/
def pmon (src n : Nat) (d : Dev) : Dev :=
  when (rb d Reg.PMON_CTL 0) (fun d => forEach (List.range 32) (fun i =>
    when (rf d (Reg.PMON_SEL i) 0 10 == src) (bump64 (Reg.PMON_CNT_LO i) n)) d) d

/-- Event e of swarm s fires n times. -/
def pmonSwarm (s e n : Nat) : Dev → Dev := pmon (0x40 + s * 0x20 + e) n

/-- Event e of show port p fires; a legacy port has no sources. -/
def pmonPort (p e : Nat) : Dev → Dev := when (decide (p < 8)) (pmon (0x140 + p * 0x10 + e) 1)

/-- Event e of head h fires. -/
def pmonHead (h e : Nat) : Dev → Dev := pmon (0x1C0 + h * 8 + e) 1

/-! Targets out of service (R338, R339). Target words are CLASS × 2^12 + INDEX (R335). -/

/-- The target is marked UNUSABLE. -/
def unusable (d : Dev) (target : Nat) : Bool := (Tab.get {} d.weevil.marks target).mark == 2

/-- What Weevil's runner r does (R334). -/
def runner (d : Dev) (r : Nat) : Option Slice := Tab.get none d.weevil.runners r

/-- A slice that loops SerDes lane l runs: the lane carries no traffic (R336). -/
def looped (d : Dev) (l : Nat) : Bool :=
  (List.range 4).any fun r => (runner d r).any fun s => !s.waits && (s.kind == 4 || s.kind == 5) && s.target == 0x5000 + l

/-- A bond group is unusable, and with it the whole Kettle. -/
def kettleOut (d : Dev) : Bool := (List.range 64).any fun b => unusable d (0x3000 + b)

/-- A SerDes lane of Cricket is unusable. -/
def cricketOut (d : Dev) : Bool := (List.range 4).any fun l => unusable d (0x5008 + l)

/-- The lanes of head h's DisplayPort output that it offers: the largest of 0, 1, 2 and 4 whose lanes are usable. -/
def dpLanes (d : Dev) (h : Nat) : Nat :=
  let ok (n : Nat) : Bool := (List.range n).all fun l => !unusable d (0x500C + 4 * h + l)
  if ok 4 then 4 else if ok 2 then 2 else if ok 1 then 1 else 0

/-! Show time (R16 to R21). -/

/-- One nanosecond. -/
def ns1 : Time := 2 ^ 48

/-- One second. -/
def sec1 : Time := 1000000000 * 2 ^ 48

/-- Show time at the current tick (R17). (DESIGN CHOICE, log entry 8; DESIGN CHOICE, log entry 21.) -/
def now (k : Clk) : Time := k.tb.offset + k.tb.incr.toNat * (k.ticks - k.tb.anchor).toNat

/-- Seconds of full time. -/
def secOf (t : Time) : W64 := BitVec.ofInt 64 (t / sec1)

/-- Nanoseconds of full time. -/
def nsOf (t : Time) : W32 := BitVec.ofInt 32 (t % sec1 / ns1)

/-- FRAC of full time: the upper 32 of the 48 fraction bits (R17). -/
def fracOf (t : Time) : W32 := BitVec.ofInt 32 (t % ns1 / 2 ^ 16)

/-- Short time: whole nanoseconds, by truncation, modulo 2^64 (R20). -/
def shortOf (t : Time) : W64 := BitVec.ofInt 64 (t / ns1)

/-- The instant of a full time. -/
def timeOf (sec : W64) (ns : W32) : Time := sec.toNat * sec1 + ns.toNat * ns1

/-- Short time a lies later than short time b (R20). -/
def later (a b : W64) : Bool := decide (1 ≤ (a - b).toNat ∧ (a - b).toNat ≤ 2 ^ 63 - 1)

/-- The 32-bit two's complement number of nanoseconds in a register. -/
def nsSigned (v : W32) : Time := v.toInt * ns1

/-- An edge whose instant is x is placed at the current tick: this is the first tick at or after x, and no step passed
over x (R27, R33). -/
def due (k : Clk) (x : Time) : Bool := decide (x ≤ now k ∧ now k - k.tb.incr.toNat < x ∧ k.tb.floor ≤ x)

/-- Ticks since tick t. (DESIGN CHOICE, log entry 8; DESIGN CHOICE, log entry 82.) -/
def since (k : Clk) (t : W64) : Nat := (k.ticks - t).toNat

/-! The frame grid (R34). -/

/-- The epoch of a grid. -/
def Grid.epoch (g : Grid) : Time := timeOf g.sec g.ns

/-- B(g): the exact instant of grid index i (R34). -/
def Grid.at (g : Grid) (i : Nat) : Time :=
  g.epoch + (i * g.den.toNat * 1000000000 / g.num.toNat : Nat) * ns1
    + (i * g.den.toNat * 1000000000 % g.num.toNat * 2 ^ 32 / g.num.toNat : Nat) * 2 ^ 16

/-- One frame period, rounded down. -/
def Grid.period (g : Grid) : Time := (g.den.toNat * 1000000000 * 2 ^ 48 / g.num.toNat : Nat)

/-- The first grid index at or after instant x. -/
def Grid.firstFrom (g : Grid) (x : Time) : Nat :=
  let i := (((x - g.epoch) * g.num.toNat + (g.den.toNat * sec1 - 1)) / (g.den.toNat * sec1)).toNat
  if x ≤ g.at i then i else i + 1

/-- The rate and epoch registers hold values an apply accepts (R36). -/
def Grid.ok (g : Grid) : Bool :=
  decide (1 ≤ g.num.toNat ∧ 1 ≤ g.den.toNat ∧ 24000 * g.den.toNat ≤ 1001 * g.num.toNat ∧ g.num.toNat ≤ 240 * g.den.toNat
    ∧ g.ns.toNat ≤ 999999999)

/-- The grid that the registers name (R44). -/
def gridRegs (d : Dev) : Grid :=
  { sec := rd64 d Reg.FRM_EPOCH_SEC_LO, ns := rd d Reg.FRM_EPOCH_NS
    num := w32 (rf d Reg.FRM_RATE_NUM 0 20), den := w32 (rf d Reg.FRM_RATE_DEN 0 20) }

/-- The frame clock emits boundaries: the run waits for nothing (FRM_STATUS.RUNNING, R37, R44). -/
def running (k : Clk) (d : Dev) : Bool :=
  match d.frm.run with
  | none => false
  | some g => d.frm.firstDone || (k.tb.timeValid && decide (g.epoch ≤ now k))

/-- The frame clock emits boundaries and does not hold (R39). -/
def emitting (k : Clk) (d : Dev) : Bool := running k d && !d.frm.holding

/-- The grid index of the next boundary (R35, R37, R38, R41). -/
def nextIndex (d : Dev) : Nat := d.frm.next

/-- The number of the next boundary, at grid index i (R35, R37); a slaved unit's is the active's (R279). -/
def numberFor (d : Dev) (i : Nat) : W64 :=
  if d.frm.firstDone || d.pins.pairSlaved then w64 i + d.frm.bias
  else if d.frm.everEmitted && decide (i ≤ d.frm.lastFrame.toNat) then d.frm.lastFrame + 1
  else w64 i

/-- The next boundary's number and exact instant, while the frame clock emits. -/
def nextBoundary (k : Clk) (d : Dev) : Option (W64 × Time) :=
  if emitting k d then d.frm.run.map fun g => (numberFor d (nextIndex d), g.at (nextIndex d)) else none

/-- The bias of the boundaries to come (R37): FRM_BIAS once the run has emitted its first. -/
def biasNow (d : Dev) : W64 :=
  if d.frm.run.isSome then numberFor d (nextIndex d) - w64 (nextIndex d) else d.frm.bias

/-- B(F): the exact instant of the boundary numbered F, while a grid is in use (R35). -/
def frameAt (d : Dev) (f : W64) : Option Time :=
  match d.frm.run with
  | some g => if biasNow d ≤ f then some (g.at (f - biasNow d).toNat) else none
  | none => none

/-! Access to the registers by requester. -/

/-- The control firmware runs (R380). -/
def fwRunning (d : Dev) : Bool := rb d Reg.SYS_STARTUP_STATUS 6

/-- R379: during a RECOVERY reset and the start-up that follows it only these registers answer. -/
def csrShut (d : Dev) (a : Nat) : Bool :=
  rf d Reg.SYS_RESET_CAUSE 0 4 == 4 && !fwRunning d
    && !(a == Reg.SYS_STARTUP_STATUS || a == Reg.SYS_RESET_CAUSE || a == Reg.SYS_STRAPS)
    && !(rb d Reg.SYS_STARTUP_STATUS 2
      && (a == Reg.SCARAB_BOOT_ADDR_LO || a == Reg.SCARAB_BOOT_ADDR_HI || a == Reg.SCARAB_BOOT_STATUS
        || a == Reg.SYS_BOOT_CMD))

/-- A write of the register at place a, discarded while R379 shuts it. -/
def access (a : Nat) (f : Dev → Dev) (d : Dev) : Dev := if csrShut d a then d else f d

/-- A read of the register at place a, which answers zero while R379 shuts it. -/
def accessRead (a : Nat) (f : Dev → Dev) (d : Dev) : Dev := if csrShut d a then ret 0 d else f d

/-- The requester that owns the clock (R28): in standalone mode the control firmware alone (R376). -/
def servoOwner (d : Dev) : Req := if rf d Reg.TB_CTL 0 2 = 1 ∧ rb d Reg.SYS_STRAPS 0 = false then .host else .fw

/-- A write of a clock register is foreign (R28, R29). -/
def foreign (d : Dev) (req : Req) : Bool := d.pins.pairSlaved || servoOwner d != req

/-- The _LO half that a requester has staged for the pair at place a (R310). -/
def stagedLo (d : Dev) (req : Req) (a : Nat) : Option W32 :=
  (d.bus.staged.find? fun x => x.req == req && x.place == a).map (·.word)

/-- Empty a requester's staging of the pair at place a. -/
def unstage (req : Req) (a : Nat) (d : Dev) : Dev :=
  { d with bus := { d.bus with staged := d.bus.staged.filter fun x => !(x.req == req && x.place == a) } }

/-- Hold a write of the _LO register at place a (R310). -/
def stage (req : Req) (a : Nat) (v : W32) (d : Dev) : Dev :=
  let e := unstage req a d
  { e with bus := { e.bus with staged := e.bus.staged ++ [⟨req, a, v⟩] } }

/-- GUARD_DENY_INFO or LOCK_VIOLATION_ADDR for a write by a requester (R320). -/
def offender (req : Req) (code off : Nat) : W32 :=
  w32 (bnat (req == .fw) * 2 ^ 31 + code * 2 ^ 28 + off % 2 ^ 24)

/-- Software cleared an event at tick t, in the CSR cycle of this tick: a violation in that cycle sets it again, and the captured address
keeps its earlier value (R316). A CSR cycle is five ticks. -/
def sameCycle (k : Clk) (t : Option W64) : Bool := t.any fun t => t.toNat / 5 == k.ticks.toNat / 5

/-- A guarded write is denied for a reason (R315). -/
def guardDeny (req : Req) (reason off : Nat) (k : Clk) (d : Dev) : Dev :=
  let d := when (!rb d Reg.GUARD_EVENT 1 && !sameCycle k d.bus.denyClear) (wr Reg.GUARD_DENY_INFO (offender req reason off)) d
  raiseGuard 1 (bumpSat Reg.GUARD_DENIED_COUNT 1 d)

/-- A write of a write-once or locked field is discarded (R317). -/
def lockViolation (req : Req) (space off : Nat) (k : Clk) (d : Dev) : Dev :=
  raiseGuard 0 (when (!rb d Reg.GUARD_EVENT 0 && !sameCycle k d.bus.lockClear) (wr Reg.LOCK_VIOLATION_ADDR (offender req space off)) d)

/-- A requester's unlock is armed (R314). -/
def armed (d : Dev) : Req → Bool
  | .host => d.bus.hostArmed
  | .fw => d.bus.fwArmed

/-- Arm or disarm a requester's unlock (R314). -/
def setArmed (req : Req) (b : Bool) (d : Dev) : Dev :=
  { d with bus := match req with | .host => { d.bus with hostArmed := b } | .fw => { d.bus with fwArmed := b } }

/-- The lifecycle state closes a write of v to the guarded register at place a (R362). -/
def lcCloses (d : Dev) (a : Nat) (v : W32) : Bool :=
  let lc := d.scarab.lc
  if a = Reg.WEEVIL_CTL ∨ (∃ r ∈ List.range 4, a = Reg.WEEVIL_RUN r) ∨ (∃ s ∈ List.range 8, a = Reg.SWARM_SPARE_CMD s) then
    lc == .deployed
  else if a = Reg.SCARAB_PKG_CMD then bit v 0 && (lc == .blank || lc == .diagnostic || lc == .retired)
  else if a = Reg.SCARAB_PIN_CMD then bit v 1 && (lc == .deployed || lc == .retired)
  else if a = Reg.SCARAB_PAIR_CMD then !(lc == .provisioned || lc == .deployed)
  else if a = Reg.SCARAB_SVN_CMD ∨ a = Reg.SCARAB_SESS_CMD then lc == .blank || lc == .retired
  else false

/-- A write of v to a guarded register: it takes effect and consumes the unlock, or is denied (R314, R315). -/
def guarded (req : Req) (k : Clk) (a : Nat) (v : W32) (f : Dev → Dev) (d : Dev) : Dev :=
  access a (fun d =>
    if lcCloses d a v then guardDeny req 2 a k d
    else if armed d req then f (setArmed req false d)
    else guardDeny req 1 a k d) d

/-- While passes run, the values that a write of place a has replaced stay known to the pass: `was` is the state before it (R316). -/
def noteSeal (a : Nat) (was d : Dev) : Dev :=
  if rd was Reg.SEAL_MASK = 0 then d
  else
    forEach [a - 4, a] (fun p d =>
      if rd d p = rd was p then d
      else { d with bus := { d.bus with sealRun := { d.bus.sealRun with seen := Tab.put [] d.bus.sealRun.seen p (Tab.get [] d.bus.sealRun.seen p ++ [rd was p]) } } }) d

/-- A write of the register at place a, which a seal pass may meet before it or after it (R316). -/
def sealing (a : Nat) (f : Dev → Dev) (d : Dev) : Dev := noteSeal a d (f d)

/-- A command that writes a register with sealed fields (R316, R379). -/
def accessSealed (a : Nat) (f : Dev → Dev) : Dev → Dev := sealing a (access a f)

/-- A command that writes a guarded register with sealed fields (R314, R316). -/
def guardedSealed (req : Req) (k : Clk) (a : Nat) (v : W32) (f : Dev → Dev) : Dev → Dev := sealing a (guarded req k a v f)

end Sys2Proof.Machine
end

