-- ==== Sys2Proof/Machine/Memory.lean ====
section
/-!
DEFINITION. Memory: the Kettle and DRAM ranges (R49), word errors (R159), surface descriptors (R164 to R166) and the
tear that a write into a scanning region makes (R185).
-/

namespace Sys2Proof.Machine

/-! Ranges (R49). -/

/-- First Kettle address. -/
def ketBase : Nat := 0x1000000000
/-- Kettle size. -/
def ketSize : Nat := 0x20000000
/-- First DRAM address. -/
def dramBase : Nat := 0x10000000000
/-- Installed DRAM in bytes. -/
def dramSize (d : Dev) : Nat := d.dramMiB * 0x100000

/-- The bytes [a, a + n) lie in the Kettle. -/
def inKet (a n : Nat) : Bool := decide (ketBase ≤ a ∧ a + n ≤ ketBase + ketSize)
/-- The bytes [a, a + n) lie in installed DRAM. -/
def inDram (d : Dev) (a n : Nat) : Bool := decide (dramBase ≤ a ∧ a + n ≤ dramBase + dramSize d)
/-- The bytes [a, a + n) lie in one of the two. -/
def inShared (d : Dev) (a n : Nat) : Bool := inKet a n || inDram d a n

/-- One byte of memory; an unlisted byte reads 0. (DESIGN CHOICE, log entry 2.) -/
def getByte (d : Dev) (a : Nat) : W8 := Tab.get 0 d.mem a

/-- n bytes of memory from address a on. -/
def getBytes (d : Dev) (a : Nat) : Nat → List W8
  | 0 => []
  | n + 1 => getByte d a :: getBytes d (a + 1) n

/-- Write bytes to memory from address a on. -/
def putBytes (a : Nat) : List W8 → Dev → Dev
  | [], d => d
  | b :: r, d => putBytes (a + 1) r { d with mem := Tab.put 0 d.mem a b }

/-! Banks and blocks (R140, R157). -/

/-- The bank in which Kettle offset x lies (R157). -/
def ketBank (x : Nat) : Nat := (x / 64 % 64) ^^^ (x / 4096 % 64)
/-- The die that holds a bank (R157). -/
def bankDie (bank : Nat) : Nat := bank / 32
/-- The 64-byte blocks that the Kettle bytes [o, o + n) meet, by offset / 64. -/
def ketBlocks (o n : Nat) : List Nat := (List.range ((o + n - 1) / 64 - o / 64 + 1)).map (o / 64 + ·)
/-- The row of the Kettle that holds offset x, named by its number in its bank and the bank (R161, R336). (DESIGN CHOICE, log entry 94.) -/
def ketRow (x : Nat) : Nat := Config.kettleRow x * 64 + ketBank x

/-! Surface descriptors (R163 to R166). -/

/-- The eight words of a descriptor. -/
def surfDesc (d : Dev) (n : Nat) : List W32 := (List.range 8).map fun w => Tab.get 0 d.ket.surf (n * 8 + w)

/-- Set a descriptor. -/
def setSurfDesc (n : Nat) (ws : List W32) (d : Dev) : Dev :=
  { d with ket := { d.ket with
      surf := (List.range 8).foldl (fun t w => Tab.put 0 t (n * 8 + w) (ws.getD w 0)) d.ket.surf } }

/-- Word i of a descriptor. -/
def descWord (s : List W32) (i : Nat) : W32 := s.getD i 0
/-- V. -/
def descValid (s : List W32) : Bool := bit (descWord s 0) 31
/-- FORMAT. -/
def descFormat (s : List W32) : Nat := fld (descWord s 0) 16 5
/-- DEPTH; 0 acts as 1. -/
def descDepth (s : List W32) : Nat := max 1 (fld (descWord s 0) 0 10)
/-- WIDTH. -/
def descWidth (s : List W32) : Nat := fld (descWord s 1) 16 15
/-- HEIGHT. -/
def descHeight (s : List W32) : Nat := fld (descWord s 1) 0 14
/-- Base of plane p, a Kettle offset. -/
def descBase (s : List W32) (p : Nat) : Nat := fld (descWord s (2 + p)) 12 17 * 4096
/-- Row pitch of plane p in bytes. -/
def descPitch (s : List W32) (p : Nat) : Nat := (if p = 0 then fld (descWord s 5) 0 10 else fld (descWord s 5) 16 10) * 256
/-- Distance between slices in bytes. -/
def descSlice (s : List W32) : Nat := fld (descWord s 6) 0 17 * 4096

/-- A format of the table of R165. -/
def fmtKnown (f : Nat) : Bool := decide (1 ≤ f ∧ f ≤ 6 ∨ 0x10 ≤ f ∧ f ≤ 0x17)
/-- A YCbCr format. -/
def fmtYcc (f : Nat) : Bool := decide (0x10 ≤ f ∧ f ≤ 0x17)
/-- A 4:2:0 format. -/
def fmt420 (f : Nat) : Bool := f == 0x12 || f == 0x13 || f == 0x16 || f == 0x17
/-- A 10-bit YCbCr format. -/
def fmt10 (f : Nat) : Bool := decide (0x14 ≤ f ∧ f ≤ 0x17)
/-- A three-plane format. -/
def fmt3p (f : Nat) : Bool := fmtYcc f && f % 2 == 1
/-- Planes of a format. -/
def fmtPlanes (f : Nat) : Nat := if fmt3p f then 3 else if fmtYcc f then 2 else 1
/-- Bytes of a sample of plane 0. -/
def fmtBytes (f : Nat) : Nat :=
  match f with
  | 1 => 2 | 2 => 3 | 3 => 4 | 4 => 4 | 5 => 2 | 6 => 8
  | _ => if fmt10 f then 2 else 1

/-- Bytes per row of plane p (R165). -/
def descRowBytes (s : List W32) (p : Nat) : Nat :=
  let f := descFormat s
  if p = 0 then descWidth s * fmtBytes f
  else if fmt3p f then descWidth s / 2 * fmtBytes f else descWidth s * fmtBytes f

/-- Rows of plane p (R166); a plane that the format does not use has none. -/
def descRows (s : List W32) (p : Nat) : Nat :=
  if fmtPlanes (descFormat s) ≤ p then 0
  else if p = 0 then descHeight s * descDepth s
  else if fmt420 (descFormat s) then descHeight s / 2 else descHeight s

/-- The Kettle offset at which row r of plane p begins (R166). -/
def descRowAt (s : List W32) (p r : Nat) : Nat :=
  if p = 0 then descBase s 0 + r / descHeight s * descSlice s + r % descHeight s * descPitch s 0
  else descBase s p + r * descPitch s p

/-! Tears (R185). -/

/-- Raster head h. -/
def head (d : Dev) (h : Nat) : Head := Tab.get {} d.ket.heads h

/-- Set raster head h. -/
def setHead (h : Nat) (x : Head) (d : Dev) : Dev := { d with ket := { d.ket with heads := Tab.put {} d.ket.heads h x } }

/-- Head h is the odd half of a split pair (R179). -/
def splitOdd (d : Dev) (h : Nat) : Bool :=
  h % 2 == 1 && (head d (h - 1)).running && ((head d (h - 1)).timing.elim false (·.split))

/-- RHEAD_STATUS.SCANNING: from the start of the first back-porch line to the latch instant (R169). -/
def scanning (x : Head) : Bool :=
  match x.timing with
  | some t => x.running && !x.latched && decide (x.line < t.vActive ∨ t.vActive + t.vFp + t.vSync ≤ x.line)
  | none => false

/-- The bytes [o, o + n) meet rows y to y + k - 1 of plane p. -/
def rowsHit (s : List W32) (p y k o n : Nat) : Bool :=
  let base := descBase s p
  let pitch := descPitch s p
  let lo := (o - base) / pitch
  let hi := (o + n - 1 - base) / pitch
  let first := max y lo
  decide (0 < n ∧ base ≤ o + n - 1 ∧ first ≤ min (y + k - 1) hi ∧ 0 < k
    ∧ (lo < first ∨ lo < min (y + k - 1) hi ∨ o < base + lo * pitch + descRowBytes s p))

/-- The bytes [o, o + n) of the Kettle meet the scanning region of a layer (R185). -/
def layerHit (l : ActiveLayer) (o n : Nat) : Bool :=
  bit l.regs.ctl 31 && !l.failed
    && (let y := fld l.regs.srcPos 0 14
        let k := fld l.regs.srcSize 0 14
        let c := if fmt420 (descFormat l.desc) then 2 else 1
        (List.range (fmtPlanes (descFormat l.desc))).any fun p =>
          if p = 0 then rowsHit l.desc 0 y k o n else rowsHit l.desc p (y / c) (k / c) o n)

/-- One write, of the byte ranges `rs` (Kettle offset and length), judged against head h (R185). -/
def tearHead (rs : List (Nat × Nat)) (h : Nat) (d : Dev) : Dev :=
  let x := head d h
  if !scanning x || splitOdd d h then d
  else
    match x.active with
    | none => d
    | some a =>
      match firstIdx (fun l => rs.any fun (o, n) => layerHit l o n) a.layers 0 with
      | none => d
      | some l =>
        let d := when (!rb d (Reg.RHEAD_EVENT h) 6) (wr (Reg.RHEAD_TEAR_INFO h) (w32 (l * 2 ^ 16 + x.line))) d
        raiseHead h 6 (pmonHead h 2 (bumpSat (Reg.RHEAD_TEAR_COUNT h) 1 d))

/-- One write to the Kettle is judged against every head (R185). -/
def tear (rs : List (Nat × Nat)) (d : Dev) : Dev := forEach (List.range 4) (tearHead rs) d

/-! Word errors (R159). -/

/-- The words that the bytes [a, a + n) touch. -/
def wordsOf (a n : Nat) : List Nat := if n = 0 then [] else (List.range ((a + n - 1) / 8 - a / 8 + 1)).map (a / 8 + ·)

/-- The error of a word. (DESIGN CHOICE, log entry 74.) -/
def errOf (d : Dev) (w : Nat) : WordErr := Tab.get .none d.ecc w

/-- Set the error of a word. -/
def setErr (w : Nat) (e : WordErr) (d : Dev) : Dev := { d with ecc := Tab.put .none d.ecc w e }

/-- A corrected word: rewritten, and counted if it is the Kettle's (R159). -/
def noteSingle (w : Nat) (d : Dev) : Dev :=
  let d := setErr w .none d
  if inKet (w * 8) 8 then raiseKet 0 (pmon 0x202 1 (bumpSat Reg.KET_CE_COUNT 1 d)) else d

/-- An uncorrectable word: counted and captured if it is the Kettle's (R159). -/
def noteMulti (w : Nat) (d : Dev) : Dev :=
  if inKet (w * 8) 8 then
    let d := when (!rb d Reg.KET_EVENT 1) (wr Reg.KET_UE_ADDR (w32 (w * 8 - ketBase))) d
    raiseKet 1 (bumpSat Reg.KET_UE_COUNT 1 d)
  else d

/-- A read touches a word. -/
def touchRead (w : Nat) (d : Dev) : Dev :=
  match errOf d w with
  | .none => d
  | .single => noteSingle w d
  | .multi => noteMulti w d

/-- Some word of the bytes [a, a + n) is uncorrectable. -/
def uncorrectable (d : Dev) (a n : Nat) : Bool := (wordsOf a n).any fun w => errOf d w == .multi

/-- A read of n bytes at address a: the bytes, or none when a word is uncorrectable, and what the errors bring.
(DESIGN CHOICE, log entry 74.) -/
def load (a n : Nat) (d : Dev) : Option (List W8) × Dev :=
  (if uncorrectable d a n then none else some (getBytes d a n), forEach (wordsOf a n) touchRead d)

/-- A write touches a word: a whole word gets valid check bits, a part of one is merged (R159, R162). -/
def touchWrite (a n w : Nat) (d : Dev) : Dev :=
  match errOf d w with
  | .none => d
  | .single => if a ≤ w * 8 ∧ w * 8 + 8 ≤ a + n then setErr w .none d else noteSingle w d
  | .multi =>
    if a ≤ w * 8 ∧ w * 8 + 8 ≤ a + n then setErr w .none d
    else if inKet (w * 8) 8 then raiseKet 2 (noteMulti w d) else d

/-- Write bytes to one range of memory, with the word errors it meets. -/
def storeRange (a : Nat) (bs : List W8) (d : Dev) : Dev :=
  putBytes a bs (forEach (wordsOf a bs.length) (touchWrite a bs.length) d)

/-- One write of several ranges, in order; a write to the Kettle may tear (R185). -/
def storeRanges (rs : List (Nat × List W8)) (d : Dev) : Dev :=
  let hits := rs.filterMap fun (a, bs) => if inKet a bs.length then some (a - ketBase, bs.length) else none
  tear hits (forEach rs (fun (a, bs) => storeRange a bs) d)

/-- Ranges of one write in order, those that adjoin made one: a word that they cover together is a whole word (R159). -/
def joinRanges : List (Nat × List W8) → List (Nat × List W8)
  | [] => []
  | (a, bs) :: r =>
    match joinRanges r with
    | (b, cs) :: l => if b = a + bs.length then (a, bs ++ cs) :: l else (a, bs) :: (b, cs) :: l
    | [] => [(a, bs)]

/-- One write to memory. -/
def store (a : Nat) (bs : List W8) (d : Dev) : Dev := storeRanges [(a, bs)] d

end Sys2Proof.Machine
end

