-- ==== Sys2Proof/Machine/Kettle.lean ====
section
/-!
DEFINITION. The Kettle's own commands: scrub, the host window and the surface descriptors (R159 to R168, R191).
-/

namespace Sys2Proof.Machine

/-- KET_SCRUB_PERIOD in ms, within its limits (R191). -/
def scrubPeriod (d : Dev) : Nat := min 100000 (max 100 (rd d Reg.KET_SCRUB_PERIOD).toNat)

/-- Every word of the pass has been read, and its period has not passed (R160). -/
def scrubRests (k : Clk) (d : Dev) : Bool := d.ket.scrub == 0 && decide (since k d.ket.passTick < d.ket.passMs * 1250000)

/-- Scrub moves on by one word; the first word of a pass fixes the pass's period (R160, R191). -/
def scrubMove (k : Clk) (d : Dev) : Kettle :=
  { d.ket with
    scrub := (d.ket.scrub + 1) % (ketSize / 8)
    passTick := if d.ket.scrub = 0 then k.ticks else d.ket.passTick
    passMs := if d.ket.scrub = 0 then scrubPeriod d else d.ket.passMs }

/-- Scrub has corrected Kettle word w: the tally of its row rises (R336). -/
def tallyRow (w : Nat) (d : Dev) : Dev :=
  { d with ket := { d.ket with tally := Tab.put 0 d.ket.tally (ketRow (w * 8)) (Tab.get 0 d.ket.tally (ketRow (w * 8)) + 1) } }

/-- Scrub reads Kettle word w. -/
def scrubRead (w : Nat) (d : Dev) : Dev :=
  when (errOf d (ketBase / 8 + w) == .single) (tallyRow w) (touchRead (ketBase / 8 + w) d)

/-- Scrub reads the next word of the Kettle while SCRUB_EN is 1, a pass in each KET_SCRUB_PERIOD (R160). -/
def scrubStep (k : Clk) (d : Dev) : Dev :=
  if rb d Reg.KET_CTL 0 && !scrubRests k d then scrubRead d.ket.scrub { d with ket := scrubMove k d } else d

/-- KETTLE_SCRUB. -/
def execKettleScrub (s : State) : Host.Outcome State Fault Refusal := onDev s scrubStep

/-- A completion of a read through a memory window. (DESIGN CHOICE, log entry 4.) -/
def windowAnswer (bs : List W8) (poisoned : Bool) (d : Dev) : Dev :=
  { d with bus := { d.bus with win := bs, poisoned } }

/-- The bytes of an access that lie in the Kettle. -/
def ketClip (off n : Nat) : Nat := min n (ketSize - off)

/-- A read through the Kettle window: zero until INIT_DONE; an uncorrectable word poisons the completion (R159, R162). -/
def ketWindowRead (off n : Nat) (d : Dev) : Dev :=
  if !d.ket.initDone then windowAnswer (List.replicate (ketClip off n) 0) false d
  else
    let bad := uncorrectable d (ketBase + off) (ketClip off n)
    windowAnswer (getBytes d (ketBase + off) (ketClip off n)) bad
      (forEach (wordsOf (ketBase + off) (ketClip off n)) touchRead d)

/-- KETTLE_WINDOW_READ. -/
def execKettleWindowRead (off : BitVec 29) (len : Nat) (s : State) : Host.Outcome State Fault Refusal :=
  onDev s fun _ => ketWindowRead off.toNat len

/-- A write through the Kettle window: discarded until INIT_DONE, else merged (R162). -/
def ketWindowWrite (off : Nat) (bs : List W8) (d : Dev) : Dev :=
  if d.ket.initDone then store (ketBase + off) (bs.take (ketClip off bs.length)) d else d

/-- KETTLE_WINDOW_WRITE. -/
def execKettleWindowWrite (off : BitVec 29) (data : List W8) (s : State) : Host.Outcome State Fault Refusal :=
  onDev s fun _ => ketWindowWrite off.toNat data

/-- The bits of descriptor word w that hold a field (R164). -/
def descMask (w : Nat) : W32 :=
  [0x801F03FF, 0x7FFF3FFF, 0x1FFFF000, 0x1FFFF000, 0x1FFFF000, 0x03FF03FF, 0x0001FFFF, 0].getD w 0

/-- The Kettle offset beyond plane p: its rows at their pitch, the last one's too, of plane 0 those of the last slice (R166, R167).
(DESIGN CHOICE, log entry 98.) -/
def descPlaneEnd (s : List W32) (p : Nat) : Nat :=
  if p = 0 then descBase s 0 + (descDepth s - 1) * descSlice s + descHeight s * descPitch s 0
  else descBase s p + descRows s p * descPitch s p

/-- The checks of R167, by their numbers: whether the staged words fail one. -/
def descFails (s : List W32) (check : Nat) : Bool :=
  let f := descFormat s
  let planes := List.range (fmtPlanes f)
  match check with
  | 1 => (List.range 8).any fun w => descWord s w &&& ~~~ descMask w != 0
  | 2 => !fmtKnown f
  | 3 => decide (descWidth s = 0 ∨ 16384 < descWidth s ∨ descHeight s = 0 ∨ 8192 < descHeight s)
  | 4 => planes.any fun p => decide (descPitch s p < descRowBytes s p)
  | 5 => planes.any fun p => decide (ketSize < descPlaneEnd s p)
  | 6 => decide (1 < descDepth s) && (!(f == 3 || f == 5 || f == 6) || decide (512 < descWidth s ∨ 512 < descHeight s)
      || decide (descSlice s < descHeight s * descPitch s 0))
  | 7 => (fmtYcc f && descWidth s % 2 == 1) || (fmt420 f && descHeight s % 2 == 1)
  | _ => false

/-- The first failing check of R167, or 0. -/
def descReason (s : List W32) : Nat :=
  if descValid s then ((List.range 7).map (· + 1)).find? (descFails s) |>.getD 0 else 0

/-- KET_SURF_CMD.WRITE by a requester (R163, R167). The staging words keep every bit; a descriptor, committed with V at 0 too, has its fields
alone (R6, R164). -/
def surfWrite (req : Req) (d : Dev) : Dev :=
  let s := (List.range 8).map fun w => rd d (ownOf req (Reg.KET_SURF_DATA w))
  let d := wr Reg.KET_SURF_STATUS (w32 (descReason s)) d
  if descReason s = 0 then setSurfDesc (fld (rd d (ownOf req Reg.KET_SURF_IDX)) 0 10) (s.zipIdx.map fun (x, w) => x &&& descMask w) d else raiseKet 3 d

/-- KET_SURF_CMD.READ by a requester (R163). -/
def surfRead (req : Req) (d : Dev) : Dev :=
  let s := surfDesc d (fld (rd d (ownOf req Reg.KET_SURF_IDX)) 0 10)
  forEach (List.range 8) (fun w => wr (ownOf req (Reg.KET_SURF_DATA w)) (descWord s w)) d

/-- A write of KET_SURF_CMD: WRITE goes before READ (R163). -/
def surfCmd (req : Req) (v : W32) (d : Dev) : Dev :=
  if bit v 1 then surfWrite req d else if bit v 0 then surfRead req d else d

/-- KET_SURF_WRITE: a write of KET_SURF_CMD that sets WRITE. -/
def execKetSurfWrite (req : Req) (s : State) : Host.Outcome State Fault Refusal :=
  onDev s fun _ => access Reg.KET_SURF_CMD (surfWrite req)

/-- KET_SURF_READ: a write of KET_SURF_CMD that sets READ alone. -/
def execKetSurfRead (req : Req) (s : State) : Host.Outcome State Fault Refusal :=
  onDev s fun _ => access Reg.KET_SURF_CMD (surfRead req)

end Sys2Proof.Machine
end

