-- ==== Sys2Proof/Machine/Cricket.lean ====
section
/-!
DEFINITION. The Cricket link's blocks and replay (R273 to R277), the mirror budget (R282), digests (R287), and what a pair's state
lets through (R272, R284, R286, R296). The commands of the pair are in Machine/Pair.lean.
-/

namespace Sys2Proof.Machine

/-- An update of the pair's state. -/
def onPair (f : Pair → Pair) (d : Dev) : Dev := { d with pair := f d.pair }

/-- Show outputs of packers are suppressed in this state (R272, R284). -/
def suppresses : PairMode → Bool
  | .solo => false
  | .active => false
  | _ => true

/-- A packer's packet of output frame f is not sent when its launch time x comes (R284, R296). -/
def muted (d : Dev) (f : W64) (x : Time) : Bool :=
  suppresses d.pair.mode
    || (match d.pair.takeover with
      | some (t, c) => decide (x < t) || c.any fun c => decide (f ≤ c)
      | none => false)

/-- DMX outputs hold DMX_DE low (R285, R296): a claimant that has been verified drives it. -/
def dmxQuiet (d : Dev) : Bool := suppresses d.pair.mode && !(d.pair.mode == .taking && d.pair.verified)

/-- The device drives OWN_N low; a tripped one leaves it high (R292, R411). -/
def ownOut (d : Dev) : Bool := d.pair.ownDrive && !d.sys.tripped

/-- The level of PAIR_SEL_OUT (R286): low from a reset to the start-up's first step (R378). -/
def selOut (d : Dev) : Bool :=
  awake d && match d.pair.mode with
  | .solo => true
  | .active => true
  | .taking => d.pair.verified && !d.pair.byHandover
  | _ => false

/-- Cricket is up: trained and attested (PAIR_STATUS.LINK_UP, R303). -/
def linkUp (d : Dev) : Bool := d.pair.trained && d.scarab.attested

/-! Sending (R274 to R277). -/

/-- A block: its header, its payload of up to 244 bytes, and its CRC (R274). -/
def wireBlock (head : Nat) (data : List W8) : List W8 :=
  let body := leBytes 8 head ++ data ++ List.replicate (244 - data.length) 0
  body ++ leBytes 4 (crc32c body).toNat

/-- The header and payload of a block as sent, with its CRC (R274). -/
def blockBytes (p : Pair) (c : Cell) : List W8 :=
  wireBlock (c.seq * 2 ^ 52 + p.expect * 2 ^ 40 + bnat p.nak * 2 ^ 39 + c.chan * 2 ^ 32 + c.data.length * 2 ^ 16
    + bnat c.first * 2 ^ 15 + bnat c.last * 2 ^ 14) c.data

/-- An idle block as sent: the SEQ of the next data block, and no payload (R274). -/
def idleBytes (p : Pair) : List W8 := wireBlock (p.seq * 2 ^ 52 + p.expect * 2 ^ 40 + bnat p.nak * 2 ^ 39 + 2 ^ 38) []

/-- With no block ready the link sends an idle one, which carries ACK and a NAK that is due (R274, R275). -/
def cricketIdle (d : Dev) : Dev := onPair (fun p => { p with tx := idleBytes p, nak := false }) d

/-- The blocks of a message, with up to `n` of them (R274). -/
def cellsOf (chan : Nat) (first : Bool) : Nat → List W8 → List Cell
  | 0, _ => []
  | n + 1, data =>
    if data.length ≤ 244 then [{ chan, first, last := true, data }]
    else { chan, first, last := false, data := data.take 244 } :: cellsOf chan false n (data.drop 244)

/-- A channel may be used before the pair key is established (R273). -/
def openChannel (d : Dev) (chan : Nat) : Bool := d.pair.trained && (d.pair.keyed || chan == 0 || chan == 1 || chan == 5)

/-- Waiting blocks leave while the replay buffer has room, the lowest-numbered channel first (R275, R276). -/
def cricketPump (k : Clk) (d : Dev) : Dev :=
  forEach (List.range d.pair.outbox.length) (fun _ d =>
    match d.pair.outbox with
    | c :: r =>
      if d.pair.replay.length < 512 then
        pmon 0x300 1 (onPair (fun p => { p with
          outbox := r
          replay := p.replay ++ [{ c with seq := p.seq, sends := 1 }]
          seq := (p.seq + 1) % 4096
          tx := blockBytes p { c with seq := p.seq }
          nak := false
          ackTick := if p.replay.isEmpty then k.ticks else p.ackTick }) d)
      else d
    | [] => d) d

/-- Send a message on a channel (R273, R276). (DESIGN CHOICE, log entry 52.) -/
def cricketSend (chan : Nat) (data : List W8) (k : Clk) (d : Dev) : Dev :=
  if openChannel d chan then
    let cells := cellsOf chan true (data.length / 244 + 1) data
    cricketPump k (onPair (fun p => { p with outbox := cells.foldl (fun l c => insertBy (·.chan) c l) p.outbox }) d)
  else d

/-- The link goes down to be trained anew: both replay buffers and every partly received message are discarded (R277), and the channels
that need the pair key close until the units have attested again (R273, R369). A formation under way fails (R374).
(DEDUCED, log entry 53.) -/
def cricketDrop (d : Dev) : Dev :=
  let d := if d.scarab.forming = 0 then d else raiseScarab 7 { d with scarab := { d.scarab with forming := 0 } }
  onPair (fun p => { p with
    trained := false, keyed := false, seq := 0, expect := 0, nak := false, replay := [], outbox := [], partials := [], ttAsk := none }) d

/-- The bytes of a message whose layout the manual does not give: its kind and its content, to the device.
(DESIGN CHOICE, log entry 52.) -/
def messageBytes (kind : Nat) (content : List W64) : List W8 := Config.messageLayout kind content

/-! Mirroring (R223, R282). -/

/-- RATE of the mirror budget in Gbit/s (R303). -/
def mirrorRate (d : Dev) : Nat :=
  let r := rf d Reg.PAIR_MIRROR_CTL 0 7
  if r = 0 ∨ 80 < r then 80 else r

/-- The budget refilled up to this tick: RATE / 8 bytes per nanosecond of 0.8 ns ticks, in bytes × 1,000, at most the burst. -/
def refill (k : Clk) (d : Dev) : Dev :=
  onPair (fun p => { p with
    tokens := min 262144000 (p.tokens + since k p.tokenTick * mirrorRate d * 100)
    tokenTick := k.ticks }) d

/-- Send a copy of n bytes to the partner: accepted and charged, or refused (R223, R282). -/
def mirrorSend (n : Nat) (message : List W8) (k : Clk) (d : Dev) : Bool × Dev :=
  let d := refill k d
  if openChannel d 7 && d.pair.mode != .solo && decide (n * 1000 ≤ d.pair.tokens) then
    (true, cricketSend 7 message k (onPair (fun p => { p with tokens := p.tokens - n * 1000 }) d))
  else (false, d)

/-! Digests (R287). -/

/-- Record the digest of a stream of frame f. -/
def addDigest (f : W64) (cls index : Nat) (digest : W32) (d : Dev) : Dev :=
  if d.pair.mode == .solo then d
  else
    onPair (fun p =>
      match p.digests.find? (fun s => s.frame == f) with
      | some _ => { p with digests := p.digests.map fun s =>
          if s.frame == f then { s with recs := s.recs ++ [(cls, index, digest)] } else s }
      | none => { p with digests := p.digests ++ [{ frame := f, recs := [(cls, index, digest)] }] }) d

end Sys2Proof.Machine
end

