-- ==== Sys2Proof/Machine/Slices.lean ====
section
/-!
DEFINITION. Weevil's runners and result records (R334, R344), as far as other units act on them.
-/

namespace Sys2Proof.Machine

/-- Set what runner r does; WEEVIL_RUN_STATUS keeps the last slice. -/
def setRunner (r : Nat) (x : Option Slice) (d : Dev) : Dev :=
  let d := { d with weevil := { d.weevil with runners := Tab.put none d.weevil.runners r x } }
  match x with
  | some s => wr (Reg.WEEVIL_RUN_STATUS r) (w32 (2 ^ 31 + s.kind * 2 ^ 16 + s.target)) d
  | none => wrBit (Reg.WEEVIL_RUN_STATUS r) 31 false d

/-- The lowest-numbered idle runner. -/
def idleRunner (d : Dev) : Option Nat := (List.range 4).find? fun r => (runner d r).isNone

/-- A BALL_WRAP slice runs (R336). -/
def wrapping (d : Dev) : Bool := (List.range 4).any fun r => (runner d r).any fun s => s.kind == 7 && !s.waits

/-- The internal TAP master loads the boundary register for BALL_WRAP (R341): its pattern is free. (DESIGN CHOICE, log entry 95.) -/
def wrapLoad (d : Dev) : Dev :=
  let n := Config.boundaryLength
  { d with freeIdx := d.freeIdx + n, sys := { d.sys with boundary := (List.range n).map fun i => bit (Config.freeValue (d.freeIdx + i)) 0 } }

/-- A target's mark. -/
def targetMark (d : Dev) (target : Nat) : TargetMark := Tab.get {} d.weevil.marks target
/-- Set a target's mark. -/
def setTargetMark (target : Nat) (m : TargetMark) (d : Dev) : Dev :=
  { d with weevil := { d.weevil with marks := Tab.put {} d.weevil.marks target m } }

/-- The code of an origin (R344). -/
def SliceOrigin.code : SliceOrigin → Nat
  | .host => 0
  | .startup => 1
  | .service => 2
  | .adjudication _ => 3

/-- Spare rows left of a bank (R161). -/
def rowsLeft (d : Dev) (bank : Nat) : Nat := 128 - Tab.get 0 d.weevil.rowsUsed bank

/-- DETAIL: of a row repair the spare rows that its bank has left, whatever its result; of other types what the slice found (R344). -/
def sliceDetail (d : Dev) (s : Slice) (found : Nat) : Nat :=
  if s.kind = 3 ∧ s.target / 4096 = 4 ∧ s.target % 4096 < 64 then rowsLeft d (s.target % 4096) else found

/-- The record of a slice on runner r, with its result (R344): 0 PASS, 1 FAIL, 2 TIMEOUT, 3 ABORTED, 4 SKIPPED, 5 BUSY. -/
def sliceRecord (r : Nat) (s : Slice) (result repairs errors detail : Nat) (k : Clk) (d : Dev) : List W8 :=
  let seq := (rf d Reg.WEEVIL_RES_SEQ 0 24 + 1) % 2 ^ 24
  leBytes 8 (shortOf (now k)).toNat ++ leBytes 8 d.frm.lastFrame.toNat
    ++ leBytes 8 (repairs % 2 ^ 16 * 2 ^ 48 + min 0xFFFF errors * 2 ^ 32 + sliceDetail d s detail % 2 ^ 32)
    ++ leBytes 8 (result * 2 ^ 56 + s.kind * 2 ^ 48 + s.target * 2 ^ 32 + s.origin.code * 2 ^ 30 + r * 2 ^ 28
      + (targetMark d s.target).mark * 2 ^ 24 + seq)

/-- A slice ends: its record enters the result memory, and the runner is idle (R344, R356). -/
def writeResult (r : Nat) (s : Slice) (result repairs errors detail : Nat) (k : Clk) (d : Dev) : Dev :=
  let bytes := sliceRecord r s result repairs errors detail k d
  let at' := rf d Reg.WEEVIL_RES_PTR 0 11
  let d := forEach (List.range 8) (fun w d => { d with weevil := { d.weevil with
    results := Tab.put 0 d.weevil.results (at' * 8 + w) (w32 (ofLe (slice bytes (w * 4) 4))) } }) d
  let d := wr Reg.WEEVIL_RES_PTR (w32 ((at' + 1) % 2048)) d
  let d := wr Reg.WEEVIL_RES_SEQ (w32 ((rf d Reg.WEEVIL_RES_SEQ 0 24 + 1) % 2 ^ 24)) d
  raiseWeevil 0 (bump Reg.WEEVIL_SLICE_COUNT 1 d)

/-- What the pair counts of a slice that ended (R289, R300). -/
def pairSlice (s : Slice) (result : Nat) : Dev → Dev := onPair fun p =>
  { p with
    slices := p.slices + bnat (decide (result ≤ 1)), sliceFail := p.sliceFail || result == 1, sliceSuspect := p.sliceSuspect || result == 2
    adj := p.adj.map fun a => if s.origin == .adjudication a.tick then { a with left := a.left - 1, failed := a.failed || result == 1 } else a }

/-- The last of this unit's adjudication slices has ended: its result goes to the partner (R289). -/
def adjReport (s : Slice) (k : Clk) (d : Dev) : Dev :=
  match d.pair.adj with
  | some a =>
    if s.origin == .adjudication a.tick && a.left == 0 then
      cricketSend 2 (messageBytes 3 [w64 a.cls, w64 a.index, w64 (bnat a.failed)]) k d
    else d
  | none => d

/-- A slice of runner r that found nothing ends with a result of ABORTED or SKIPPED; its mark stands (R338, R344). -/
def dropSlice (r : Nat) (s : Slice) (result : Nat) (k : Clk) (d : Dev) : Dev :=
  adjReport s k (pairSlice s result (writeResult r s result 0 0 0 k (setRunner r none d)))

/-- A slice that waited for a target goes on once no other runner works on it; an unusable target receives none (R338, R345). -/
def startWaiting (target : Nat) (k : Clk) (d : Dev) : Dev :=
  forEach (List.range 4) (fun r d =>
    match runner d r with
    | some s =>
      if !s.waits || s.target != target then d
      else if unusable d target then dropSlice r s 4 k d
      else if (List.range 4).any fun i => (runner d i).any fun s => !s.waits && s.target == target then d
      else setRunner r (some { s with waits := false, tick := k.ticks }) d
    | none => d) d

/-- The slice of runner r ends ABORTED; its mark stands (R338, R344). -/
def sliceAbort (r : Nat) (k : Clk) (d : Dev) : Dev :=
  match runner d r with
  | some s => startWaiting s.target k (dropSlice r s 3 k d)
  | none => d

/-- A slice that must run outside the scanning windows (R342). -/
def Slice.kettle (s : Slice) : Bool := s.kind == 2 || s.kind == 3 || (s.kind == 8 && s.target / 16 == 0x702)

/-- A scanning window opens while Kettle slices run: they end ABORTED (R345), and one that waits for such a slice's target with them
(DEDUCED: it would run while a head scans). (DEDUCED, log entry 65.) -/
def abortKettleSlices (k : Clk) (d : Dev) : Dev :=
  forEach (List.range 4) (fun r d => if (runner d r).any Slice.kettle then sliceAbort r k d else d) d

end Sys2Proof.Machine
end

