-- ==== Sys2Proof/Machine/CalValue.lean ====
section
/-!
DEFINITION. The calibration store and the values in force for the paths (R346, R351 to R354).
-/

namespace Sys2Proof.Machine

/-- An update of the calibration engine. -/
def onCalib (f : Calib → Calib) (d : Dev) : Dev := { d with calib := f d.calib }

/-- Calibrated path p. -/
def calPath (d : Dev) (p : Nat) : CalPath := Tab.get {} d.calib.paths p
/-- Set path p. -/
def setCalPath (p : Nat) (x : CalPath) : Dev → Dev := onCalib fun c => { c with paths := Tab.put {} c.paths p x }

/-! Paths (R346, R347, R384). -/

/-- The sensor of a path's region. -/
def pathSensor (p : Nat) : Nat := if p < 8 then 10 + p else if p < 16 then 2 + p else if p < 24 then 18 else if p = 24 then 20 else 22

/-- The temperature of a path's region, in 1/16 °C. -/
def pathTemp (d : Dev) (p : Nat) : Int := signExt 16 (rf d (Reg.SYS_TEMP (pathSensor p)) 0 16)

/-- The SerDes lanes of a path. -/
def pathLanes (p : Nat) : List Nat :=
  if p < 16 then [p % 8] else if p < 24 then [8 + p % 4] else if p = 24 then [12, 16] else [20, 24]

/-- A LANE_INT or LANE_EXT slice runs on the path's lane. -/
def pathLooped (d : Dev) (p : Nat) : Bool := (pathLanes p).any (looped d)

/-! The store (R353, R354). -/

/-- Byte a of the store. -/
def mramByte (d : Dev) (a : Nat) : W8 := Tab.get 0 d.calib.mram a
/-- n bytes of the store, as a number. -/
def mramNum (d : Dev) (a n : Nat) : Nat := ofLe ((List.range n).map fun i => mramByte d (a + i))
/-- Write bytes to the store. -/
def mramPut (a : Nat) (bs : List W8) (d : Dev) : Dev :=
  forEach (List.range bs.length) (fun i => onCalib fun c => { c with mram := Tab.put 0 c.mram (a + i) (byteAt bs i) }) d

/-- CHECK of the frame at offset s matches. (DEDUCED, log entry 68.) -/
def mramCheck (d : Dev) (s : Nat) : Bool :=
  (crc32c ((List.range 0x3FFC).map fun i => mramByte d (s + i))).toNat == mramNum d (s + 0x3FFC) 4

/-- The factory region is good. -/
def factoryOk (d : Dev) : Bool := mramNum d 0 4 == 0x46414354 && mramCheck d 0

/-- The slot at offset s is valid. (DEDUCED, log entry 68.) -/
def slotOk (d : Dev) (s : Nat) : Bool := mramNum d s 4 == 0x534C4F54 && decide (mramNum d (s + 8) 2 ≤ 128) && mramCheck d s

/-- The offset of slot A or B. -/
def slotAt (slot : Nat) : Nat := if slot = 2 then 0x8000 else 0x4000

/-- The entries of a slot, with their paths. -/
def slotEntries (d : Dev) (s : Nat) : List (Nat × CalValue) :=
  (List.range (mramNum d (s + 8) 2)).map fun i =>
    let e := s + 16 + 16 * i
    (mramNum d e 1, { mode := mramNum d (e + 1) 1, temp := signExt 16 (mramNum d (e + 2) 2)
                      value := signExt 32 (mramNum d (e + 4) 4), time := w64 (mramNum d (e + 8) 8) })

/-! Values (R348, R351, R352). -/

/-- Factory value i of a path and mode, in 1/16 ps; zero in a bad region. -/
def factoryNode (d : Dev) (p m i : Nat) : Int :=
  if factoryOk d then signExt 32 (mramNum d (0x40 + (p * 4 + m) * 0x20 + 4 * i) 4) else 0

/-- 480 × F(T), with T in 1/16 °C (R351). -/
def factoryAt (d : Dev) (p m : Nat) (t : Int) : Int :=
  let i := (if t < 160 then 0 else if t < 640 then 1 else if t < 1120 then 2 else 3)
  let f := factoryNode d p m i
  480 * f + (factoryNode d p m (i + 1) - f) * (t - (-320 + 480 * (i : Int)))

/-- The whole number nearest below or above a quotient, whichever the device takes; the quotient itself when it is whole.
(DESIGN CHOICE, log entry 67.) -/
def roundFree (n den : Int) (d : Dev) : Int × Dev :=
  if n % den = 0 then (n / den, d) else let x := free d; (n / den + (if bit x.1 0 then 1 else 0), x.2)

/-- A valid slot holds a value for a path and mode (R352, R354). -/
def slotHolds (d : Dev) (p m : Nat) : Bool :=
  [slotAt 1, slotAt 2].any fun s => slotOk d s && (slotEntries d s).any fun (q, v) => q == p && v.mode == m

/-- The cases of R352 in which a path runs on its factory value. -/
def factoryCase (d : Dev) (p : Nat) : Bool :=
  let x := calPath d p
  !slotHolds d p x.mode || pathLooped d p || !x.trusted

/-- The measured value in force for a path, unless it runs on its factory value (R349, R352). -/
def measuredFor (d : Dev) (p : Nat) : Option CalValue :=
  let x := calPath d p
  if x.factory then none else x.inForce.find? fun v => v.mode == x.mode

/-- 480 × the value in force for a path (R351). -/
def valueInForce (d : Dev) (p : Nat) : Int :=
  let m := (calPath d p).mode
  match measuredFor d p with
  | some v => 480 * v.value + factoryAt d p m (pathTemp d p) - factoryAt d p m v.temp
  | none => factoryAt d p m (pathTemp d p)

/-- SOURCE (R358): 0 none, 1 measured, 2 factory. -/
def pathSource (d : Dev) (p : Nat) : Nat := if (measuredFor d p).isSome then 1 else if factoryOk d then 2 else 0

/-- Some path runs on its factory value (R352). -/
def calFactory (d : Dev) : Bool := (List.range 26).any fun p => (measuredFor d p).isNone

/-- An accepted value replaces the one of its mode. -/
def putValue (v : CalValue) (l : List CalValue) : List CalValue := l.filter (fun x => x.mode != v.mode) ++ [v]

/-- The value in force for a path as a span of show time, rounded down to its units (R351). -/
def pathDelay (d : Dev) (p : Nat) : Time := valueInForce d p * 2 ^ 48 / 7680000

end Sys2Proof.Machine
end

