-- ==== Sys2Proof/Machine/Tx.lean ====
section
/-!
DEFINITION. Transmit on the show ports and legacy ports (R193 to R217), the saucer (R234, R235) and one-step Sync (R237,
R238). Port 8 + n is LPORT[n].
-/

namespace Sys2Proof.Machine

/-- Port p. -/
def port (d : Dev) (p : Nat) : Port := Tab.get {} d.ports p
/-- Set port p. -/
def setPort (p : Nat) (x : Port) (d : Dev) : Dev := { d with ports := Tab.put {} d.ports p x }
/-- Update port p. -/
def onPort (p : Nat) (f : Port → Port) (d : Dev) : Dev := setPort p (f (port d p)) d

/-- Transmit ring q of a port. -/
def Port.ring (x : Port) (q : Nat) : TxRing := Tab.get {} x.rings q
/-- Set transmit ring q. -/
def Port.setRing (q : Nat) (r : TxRing) (x : Port) : Port := { x with rings := Tab.put {} x.rings q r }

/-- Port p has transmit ring q (R195, R213). -/
def hasRing (p q : Nat) : Bool := decide (p < 8 ∨ q < 4 ∨ q = 8)

/-! Rates, in units of 1/25 ns (R193, R213). -/

/-- The byte time. -/
def Port.byteTime (p : Nat) (x : Port) : Nat :=
  if p < 8 then (match fld x.ctl 4 2 with | 0 => 200 | 1 => 20 | _ => 8)
  else (match x.rate with | 0 => 20000 | 1 => 2000 | _ => 200)

/-- The launch quantum; on a legacy port the band within which R215 lets the SFD fall. -/
def Port.quantum (p : Nat) (x : Port) : Nat :=
  if p < 8 then (match fld x.ctl 4 2 with | 0 => 400 | 1 => 80 | _ => 32) else 2 * x.byteTime p

/-- A span of units of 1/25 ns as show time. -/
def spanOf (u : Nat) : Time := (u * 2 ^ 48 / 25 : Nat)

/-- The instant near x at which the port places a start: at most half a quantum away, the earlier of two (R204). The
phase of the PCS is open. (DEDUCED, log entry 6.) -/
def placed (q : Nat) (x : Time) (d : Dev) : Time × Dev :=
  (x + (Config.freeValue d.freeIdx).toNat % (q * 2 ^ 48 / 25) - spanOf q / 2, { d with freeIdx := d.freeIdx + 1 })

/-- Frame length n, FCS included (R197). -/
def TxFrame.len (f : TxFrame) : Nat := f.bytes.length + 4

/-- The transmit queue that a frame goes through, the LQ ring as 8; a discovery page goes through a TXQ too (R195, R251). -/
def TxFrame.queue (f : TxFrame) : Option Nat :=
  match f.origin with
  | .ring q _ => some q
  | .packer 3 q _ => some q
  | _ => none

/-- A packer made the frame (R202, R251). -/
def TxFrame.packed (f : TxFrame) : Bool := match f.origin with | .packer _ _ _ => true | _ => false

/-- Staging blocks of a frame (R201). -/
def TxFrame.blocks (f : TxFrame) : Nat := (f.len + 255) / 256

/-- The units of windows in one of show time: byte times and whole picoseconds are exact in them (R200, R244, R258). -/
def fine : Int := 125

/-- The launch time of a frame in the units of windows. -/
def TxFrame.launchW (f : TxFrame) : Int := fine * f.launch + f.frac

/-- A span of byte times in the units of windows. -/
def bytesW (b n : Nat) : Int := (n * b * 5 * 2 ^ 48 : Nat)

/-- A span of picoseconds in the units of windows. -/
def psW (n : Nat) : Int := (n * 2 ^ 45 : Nat)

/-- The window of a timed frame, in units of 2^-48 ns / 125 (R200). -/
def windowOf (b : Nat) (f : TxFrame) : Int × Int := (f.launchW - bytesW b 7, f.launchW + bytesW b (f.len + 13))

/-- Show time in the units of windows. -/
def nowW (k : Clk) : Int := fine * now k

/-- Frame bytes that have left since the preamble of a flight began, its first fragments included. -/
def Flight.sentBy (k : Clk) (b : Nat) (f : Flight) : Nat := min f.frame.len (f.sent + (since k f.tick * 20 / b - 8))

/-- The bytes that a truncated frame shows on the wire: those sent, with the FCS inverted when `bad` (R207). -/
def truncated (bad : Bool) (n : Nat) (f : TxFrame) : List W8 :=
  let sent := (f.bytes ++ leBytes 4 (crc32 f.bytes).toNat).take n
  if bad then sent ++ leBytes 4 (~~~ crc32 sent).toNat else sent

/-! Outcomes (R196, R198). -/

/-- Write DONE, STATUS and COLL to a descriptor (R196). -/
def writeBack (desc status coll : Nat) (d : Dev) : Dev :=
  store (desc + 24) (leBytes 8 (2 ^ 63 + status * 2 ^ 48 + min 15 coll * 2 ^ 32)) d

/-- Write back the descriptors at the front of a TXQ ring whose outcome is known: ring order (R198). -/
def flushRing (p q : Nat) (d : Dev) : Dev :=
  forEach ((port d p).ring q).done (fun _ d =>
    match ((port d p).ring q).done with
    | { desc, outcome := some (st, c) } :: r =>
      writeBack desc st c (onPort p (fun x => x.setRing q { x.ring q with done := r }) d)
    | _ => d) d

/-- Record a TXQ descriptor's outcome. -/
def txqDone (p q desc status coll : Nat) (d : Dev) : Dev :=
  let mark (l : List TxDone) : List TxDone :=
    match firstIdx (fun (e : TxDone) => e.desc == desc && e.outcome.isNone) l 0 with
    | some i => l.set i { desc, outcome := some (status, coll) }
    | none => l
  flushRing p q (onPort p (fun x => x.setRing q { x.ring q with done := mark (x.ring q).done }) d)

/-- The event that a status raises (R198). -/
def statusEvent (status : Nat) (timed : Bool) : Option Nat :=
  if status = 0 then none
  else if status < 8 then some 3
  else if status = 0x10 ∨ status = 0x11 then some 4
  else if status = 0x12 ∨ status = 0x13 then (if timed then some 4 else none)
  else if status = 0x20 then some 0
  else if status = 0x26 then some (if timed then 4 else 2)
  else some 2

/-- A refusal of a packer's frame is reported to its packer (R202, R244, R258). -/
def packerRefused (p kind id : Nat) (d : Dev) : Dev :=
  if kind = 2 then raisePack 2 (bumpSat (Reg.TRAZH_REFUSED id) 1 d)
  else raisePack 1 (bumpSat (Reg.PACK_REFUSED p) 1 d)

/-- A frame's outcome: counts, event, and the write-back of its descriptor (R198, R201, R203). -/
def outcome (p : Nat) (f : TxFrame) (timed : Bool) (status : Nat) (d : Dev) : Dev :=
  let refused := decide (1 ≤ status ∧ status ≤ 7) || (timed && status == 0x23)
  let d := when refused (fun d => pmonPort p 3 (bumpSat (Reg.SPORT_LQ_REFUSE p) 1 d)) d
  let d := when (timed && (decide (0x10 ≤ status ∧ status ≤ 0x13) || status == 0x26)) (bumpSat (Reg.SPORT_LQ_DISCARD p) 1) d
  let d := match statusEvent status timed with | some i => raiseTx p i d | none => d
  match f.origin with
  | .ring q desc => if q = 8 then writeBack desc status f.coll d else txqDone p q desc status f.coll d
  | .packer kind id _ => when refused (packerRefused p kind id) d

/-! The saucer (R234, R235). -/

/-- Post a stamp, or drop it when the saucer holds 256. -/
def saucerPush (p : Nat) (s : Stamp) (d : Dev) : Dev :=
  if 256 ≤ (port d p).saucer.length then raiseRx p 4 (bumpSat (Reg.SPORT_TS_DROP p) 1 d)
  else onPort p (fun x => { x with saucer := x.saucer ++ [s] }) d

/-- The stamp of a frame sent whole, when its descriptor asks for one; none in half duplex (R214, R234). -/
def stampOf (x : Port) (f : Flight) : Option Stamp :=
  match f.frame.origin with
  | .ring q _ => if f.frame.tsReq && !x.half then some { time := f.sfd, tag := f.frame.tag, ring := q } else none
  | _ => none

/-- Post stamps in the order in which the SFDs left: behind a cut frame that asks for a stamp they wait (R234).
(DEDUCED, log entry 41.) -/
def postStamp (p : Nat) (f : Flight) (d : Dev) : Dev :=
  match stampOf (port d p) f with
  | none => d
  | some s =>
    if ((port d p).cut.map (·.frame.tsReq)).getD false then onPort p (fun x => { x with stampWait := x.stampWait ++ [s] }) d
    else saucerPush p s d

/-- The stamps that waited for a cut frame are posted, unless one still waits for its outcome. -/
def releaseStamps (p : Nat) (d : Dev) : Dev :=
  let l := if ((port d p).cut.map (·.frame.tsReq)).getD false then [] else (port d p).stampWait
  if l.isEmpty then d else
  forEach l (saucerPush p) (onPort p (fun x => { x with stampWait := [] }) d)

/-- SAUCER_POP: a read of SPORT_SAUCER_SEC_LO removes the oldest stamp (R234). -/
def saucerPop (req : Req) (p : Nat) (d : Dev) : Dev :=
  accessRead (Reg.SPORT_SAUCER_SEC_LO p) (fun d =>
    let show_ (t : Time) (ns info : W32) (d : Dev) : Dev :=
      ret (lo32 (secOf t)) (snap req (Reg.SPORT_SAUCER_SEC_HI p) (hi32 (secOf t))
        (snap req (Reg.SPORT_SAUCER_NS p) ns (snap req (Reg.SPORT_SAUCER_FRAC p) (fracOf t)
          (snap req (Reg.SPORT_SAUCER_INFO p) info d))))
    match (port d p).saucer with
    | [] => show_ 0 0x80000000 0 d
    | s :: r =>
      show_ s.time (nsOf s.time) (w32 (s.ring * 2 ^ 16 + s.tag.toNat)) (onPort p (fun x => { x with saucer := r }) d)) d

/-- SAUCER_POP. -/
def execSaucerPop (req : Req) (p : Fin 10) (s : State) : Host.Outcome State Fault Refusal :=
  onDev s fun _ => saucerPop req p

/-! One-step Sync (R237, R238). -/

/-- Two bytes of a frame, big-endian. -/
def be16 (l : List W8) (i : Nat) : Nat := (byteAt l i).toNat * 256 + (byteAt l (i + 1)).toNat

/-- The ones' complement sum of 16-bit words, modulo 65,535. -/
def sum16 : List W8 → Nat
  | a :: b :: r => (a.toNat * 256 + b.toNat + sum16 r) % 65535
  | [a] => a.toNat * 256 % 65535
  | [] => 0

/-- A PTP message in a frame whose EtherType lies at e: where it begins, and where its UDP header does with the IP version
(R237). -/
def ptpAt (l : List W8) (e : Nat) : Option (Nat × Option (Nat × Nat)) :=
  let i := e + 2
  if be16 l e = 0x88F7 then some (i, none)
  else if be16 l e = 0x0800 ∧ byteAt l i = 0x45 ∧ byteAt l (i + 9) = 17 ∧ be16 l (i + 6) % 0x4000 = 0 ∧ be16 l (i + 22) = 319 then
    some (i + 28, some (i + 20, 4))
  else if be16 l e = 0x86DD ∧ byteAt l (i + 6) = 17 ∧ be16 l (i + 42) = 319 then some (i + 48, some (i + 40, 6))
  else none

/-- A frame with originTimestamp and correctionField of the message at m set for the time t (R237). (DEDUCED, log entry 41.) -/
def stampSync (l : List W8) (m : Nat) (t : Time) : List W8 :=
  let l := splice l (m + 34) (beBytes 6 ((secOf t).toNat % 2 ^ 48) ++ beBytes 4 (nsOf t).toNat)
  splice l (m + 8) (beBytes 8 ((ofBe (slice l (m + 8) 8) + (fracOf t).toNat / 2 ^ 16) % 2 ^ 64))

/-- The IPv6 frame `new` with the two bytes behind the PTP message set so that the UDP sum is that of `old` (R238). -/
def fixUdp6 (old new : List W8) (udp m : Nat) : Option (List W8) :=
  let n := be16 old (m + 2)
  if be16 old (udp + 4) < 8 + n + 2 then none
  else
    let body (l : List W8) : List W8 := slice l udp (be16 old (udp + 4))
    let zeroed := splice new (m + n) [0, 0]
    let x := (sum16 (body old) + 65535 - sum16 (body zeroed)) % 65535
    let v := beBytes 2 x
    some (splice zeroed (m + n) (if n % 2 = 0 then v else v.reverse))

/-- What a port sends for a frame from ring q whose SFD leaves at instant t: a one-step Sync with its time inserted, and its counts
(R237, R238); a frame sent again after a collision is not counted again. -/
def oneStep (p : Nat) (f : TxFrame) (t : Time) (d : Dev) : TxFrame × Dev :=
  let skip (d : Dev) : TxFrame × Dev := (f, raiseRx p 6 (bumpFld (Reg.SPORT_PTP_COUNT p) 16 16 1 d))
  match f.origin with
  | .packer _ _ _ => (f, d)
  | .ring q _ =>
    match rb d (Reg.SPORT_PTP_CTL p) q, ptpAt f.bytes (12 + f.tags) with
    | true, some (m, udp) =>
      if f.bytes.length < m + 44 ∨ fld (byteAt f.bytes m) 0 4 ≠ 0 ∨ bit (byteAt f.bytes (m + 6)) 1 then (f, d)
      else if (port d p).half then (if f.coll = 0 then skip d else (f, d))
      else
        let l := stampSync f.bytes m (t + spanOf ((port d p).byteTime p))
        let done (l : List W8) : TxFrame × Dev := ({ f with bytes := l }, bumpFld (Reg.SPORT_PTP_COUNT p) 0 16 1 d)
        match udp with
        | none => done l
        | some (u, 4) => done (splice l (u + 6) [0, 0])
        | some (u, _) => match fixUdp6 f.bytes l u m with | some l => done l | none => skip d
    | _, _ => (f, d)

/-! Building frames (R197, R209). -/

/-- The tags that ring q of port p inserts (R209). -/
def tagBytes (d : Dev) (p q : Nat) : List W8 :=
  let t := rd d (Reg.SPORT_TXQ_TAG p q)
  let c := beBytes 4 (0x8100 * 2 ^ 16 + fld t 0 16)
  match fld t 30 2 with
  | 1 => c
  | 2 => beBytes 4 (rd d (Reg.SPORT_TXQ_OUTER p q)).toNat ++ c
  | _ => []

/-- A frame from its bytes: the ring's tags inserted, padded to 60 (R197). -/
def buildFrame (tags body : List W8) : List W8 :=
  let l := body.take 12 ++ tags ++ body.drop 12
  l ++ List.replicate (60 - l.length) 0

/-! Rings (R195, R211, R212). -/

/-- The ring's base in the registers. -/
def ringBase (d : Dev) (p q : Nat) : Nat := (rd64 d (Reg.SPORT_TXQ_BASE_LO p q)).toNat % 2 ^ 48 / 64 * 64

/-- LOG2SIZE by its limits. -/
def log2Of (x : Nat) : Nat := min 16 (max 4 x)

/-- A write of SPORT_TXQ_CTL[p][q] (R195). -/
def txqCtlWrite (p q : Nat) (v : W32) (d : Dev) : Dev :=
  let was := ((port d p).ring q).enabled
  let d := putReg (Reg.SPORT_TXQ_CTL p q) v d
  let d := when (q == 8) (wr (Reg.SPORT_TXQ_CTL p q) (rd d (Reg.SPORT_TXQ_CTL p q) &&& 0x8000071F)) d
  if bit v 31 && !was then
    let n := log2Of (fld v 0 5)
    if inShared d (ringBase d p q) (2 ^ n * 32) then
      wrFld (Reg.SPORT_TXQ_HEAD p q) 0 16 (rf d (Reg.SPORT_TXQ_HEAD p q) 0 16 % 2 ^ n)
        (onPort p (fun x => x.setRing q { x.ring q with enabled := true, base := ringBase d p q, log2 := n }) d)
    else raiseTx p 2 (wrBit (Reg.SPORT_TXQ_CTL p q) 31 false d)
  else if !bit v 31 && was then onPort p (fun x => x.setRing q { x.ring q with enabled := false }) d
  else d

/-- TXQ_ENABLE: a write of SPORT_TXQ_CTL[p][q] that sets EN. -/
def execTxqEnable (_req : Req) (p : Fin 10) (q : Fin 9) (v : W32) (s : State) : Host.Outcome State Fault Refusal :=
  onDev s fun _ => accessSealed (Reg.SPORT_TXQ_CTL p q) (when (hasRing p q && bit v 31) (txqCtlWrite p q v))

/-- TXQ_DISABLE: a write of SPORT_TXQ_CTL[p][q] that clears EN. -/
def execTxqDisable (_req : Req) (p : Fin 10) (q : Fin 9) (v : W32) (s : State) : Host.Outcome State Fault Refusal :=
  onDev s fun _ => accessSealed (Reg.SPORT_TXQ_CTL p q) (when (hasRing p q && !bit v 31) (txqCtlWrite p q v))

/-- TXQ_TAIL_WRITE: software hands descriptors over (R195). -/
def execTxqTailWrite (_req : Req) (p : Fin 10) (q : Fin 9) (v : W32) (s : State) : Host.Outcome State Fault Refusal :=
  onDev s fun _ => access (Reg.SPORT_TXQ_TAIL p q) (when (hasRing p q) (putReg (Reg.SPORT_TXQ_TAIL p q) v))

/-- HEAD moves past one descriptor. -/
def headNext (p q : Nat) (d : Dev) : Dev :=
  let a := Reg.SPORT_TXQ_HEAD p q
  wrFld a 0 16 ((rf d a 0 16 + 1) % 2 ^ ((port d p).ring q).log2) d

/-- The port owns a descriptor of ring q: HEAD has not reached TAIL. -/
def ringReady (d : Dev) (p q : Nat) : Bool :=
  let x := port d p
  let n := 2 ^ (x.ring q).log2
  x.enabled && (x.ring q).enabled && rf d (Reg.SPORT_TXQ_HEAD p q) 0 16 % n != rf d (Reg.SPORT_TXQ_TAIL p q) 0 16 % n

/-- Frames that the transmit buffer holds; a discovery page waits in the packer until it starts (R207, R251). (DESIGN CHOICE, log entry
99.) -/
def Port.buffered (x : Port) : List TxFrame :=
  (x.rings.map fun (_, r) => r.frames.filter fun f => !f.packed).flatten ++ (x.untimed.toList.map (·.frame)) ++ (x.cut.toList.map (·.frame))
    ++ (x.backoff.toList.map (·.1))

/-- Bytes in the transmit buffer. -/
def Port.bufferUse (x : Port) : Nat := (x.buffered.map TxFrame.len).sum

/-- Staging blocks in use (R201, R203): staged frames and those of the calendar. -/
def Port.stageUse (x : Port) : Nat := (x.staged.map TxFrame.blocks).sum + (x.cal.map fun a => a.frame.blocks).sum

/-- Staging blocks of port p (R201, R213). -/
def stageLimit (p : Nat) : Nat := if p < 8 then 32768 else 4096

/-- Calendar places of port p (R201, R213). -/
def calLimit (p : Nat) : Nat := if p < 8 then 16384 else 1024

/-- The index of the first byte of [a, a + n) in an uncorrectable word. -/
def firstBad (d : Dev) (a n : Nat) : Option Nat :=
  (List.range n).find? fun i => errOf d ((a + i) / 8) == .multi

/-- An LQ descriptor is judged and its frame staged (R195, R197, R201). (DEDUCED, log entry 40.) -/
def lqRead (p desc addr len : Nat) (frame : TxFrame) (d : Dev) : Dev :=
  let n := max 60 (len + frame.tags) + 4
  if len < 14 ∨ 9216 < n then outcome p frame true 0x21 d
  else if !inShared d addr len then outcome p frame true 0x22 d
  else if stageLimit p < (port d p).stageUse + (n + 255) / 256 then outcome p frame true 0x04 d
  else
    match load addr len d with
    | (none, d) => outcome p frame true 0x23 d
    | (some body, d) =>
      let bytes := buildFrame (tagBytes d p 8) body
      onPort p (fun x => { x with staged := x.staged ++ [{ frame with origin := .ring 8 desc, bytes }] }) d

/-- A TXQ descriptor is judged and its frame enters the transmit buffer with its first `got` bytes; none: the buffer has no
room (R195, R197, R207). -/
def txqRead (p q got desc addr len : Nat) (frame : TxFrame) (d : Dev) : Option Dev :=
  let n := max 60 (len + frame.tags) + 4
  let note (d : Dev) : Dev := onPort p (fun x => x.setRing q { x.ring q with done := (x.ring q).done ++ [{ desc }] }) d
  if len < 14 ∨ 9216 < n then some (headNext p q (outcome p frame false 0x21 (note d)))
  else if !inShared d addr len then some (headNext p q (outcome p frame false 0x22 (note d)))
  else if 16384 < (port d p).bufferUse + n then none
  else
    let bad := (firstBad d addr len).map fun i => if i < 12 then i else i + frame.tags
    let bytes := buildFrame (tagBytes d p q) (getBytes d addr len)
    let d := note (load addr len d).2
    let part := decide (got < bytes.length)
    some (when (!part) (headNext p q) (onPort p (fun x => x.setRing q { x.ring q with
      frames := (x.ring q).frames ++ [{ frame with bytes, bad }]
      filling := if part then some got else none }) d))

/-- The port reads the next descriptor of ring q (R195, R196). A descriptor in an uncorrectable word ends as its frame
would. (DEDUCED, log entry 40.) -/
def txDescRead (p q got : Nat) (d : Dev) : Dev :=
  let desc := ((port d p).ring q).base + rf d (Reg.SPORT_TXQ_HEAD p q) 0 16 * 32
  match load desc 24 d with
  | (none, d) =>
    let d := when (q != 8) (onPort p (fun x => x.setRing q { x.ring q with done := (x.ring q).done ++ [{ desc }] })) d
    headNext p q (outcome p { origin := .ring q desc, bytes := [] } (q == 8) 0x23 d)
  | (some w, d') =>
    let info := ofLe (slice w 16 8)
    let frame : TxFrame :=
      { origin := .ring q desc, bytes := [], launch := (ofLe (slice w 8 8) : Nat) * ns1
        tsReq := info.testBit 16, tag := BitVec.ofNat 16 (info / 2 ^ 48), tags := (tagBytes d p q).length }
    let addr := ofLe (slice w 0 6)
    if q = 8 then headNext p q (lqRead p desc addr (info % 2 ^ 14) frame d')
    else (txqRead p q got desc addr (info % 2 ^ 14) frame d').getD d

/-- More bytes of the frame that ring q reads have arrived: `got` in all (R195, R207). -/
def txFill (p q got : Nat) (d : Dev) : Dev :=
  let r := (port d p).ring q
  let all := (port d p).buffered.find? fun f => match f.origin, r.done.getLast? with
    | .ring q' a, some l => q' == q && a == l.desc
    | _, _ => false
  if ((all.map (·.bytes.length)).getD 0) ≤ got then
    headNext p q (onPort p (fun x => x.setRing q { r with filling := none }) d)
  else onPort p (fun x => x.setRing q { r with filling := some (max got (r.filling.getD 0)) }) d

/-- TX_DESC_READ: the port reads a descriptor of ring q, or more bytes of the frame it is reading. -/
def execTxDescRead (p : Fin 10) (q : Fin 9) (got : Nat) (s : State) : Host.Outcome State Fault Refusal :=
  onDev s fun _ d =>
    if ((port d p).ring q).filling.isSome then txFill p q got d
    else if ringReady d p q then txDescRead p q got d
    else d

/-- Bytes of a frame that the port holds (R207). -/
def Port.held (x : Port) (f : TxFrame) : Nat :=
  match f.origin with
  | .ring q a =>
    match (x.ring q).filling, (x.ring q).done.getLast? with
    | some g, some l => if l.desc = a then g else f.len
    | _, _ => f.len
  | _ => f.len

/-! The launch calendar (R200 to R203). -/

/-- STAGE_LEAD in ns (R216). -/
def stageLead (d : Dev) (p : Nat) : Nat := max 2 (rf d (Reg.SPORT_LQ_CTL p) 0 10) * 1000

/-- The horizon in ns (R216). -/
def horizon (d : Dev) (p : Nat) : Nat := max (stageLead d p) ((rd d (Reg.SPORT_LQ_HORIZON p)).toNat * 1000)

/-- Sent and lost frames whose window has ended leave the calendar (R203). -/
def windowEnd (p : Nat) (k : Clk) (d : Dev) : Dev :=
  onPort p (fun x => { x with cal := x.cal.filter fun a => a.fate == .waiting || decide (nowW k < a.we) }) d

/-- WINDOW_END. -/
def execWindowEnd (p : Fin 10) (s : State) : Host.Outcome State Fault Refusal := onDev s (windowEnd p)

/-- The reason for which an offer is refused, in the order of R201; none: it is admitted. -/
def judge (p : Nat) (f : TxFrame) (k : Clk) (d : Dev) : Option Nat :=
  let x := port d p
  let t := shortOf (now k)
  let l := shortOf f.launch
  let w := windowOf (x.byteTime p) f
  if !x.link then some 0x07
  else if x.half then some 0x06
  else if later (t + w64 (stageLead d p)) l then some 0x01
  else if later l (t + w64 (horizon d p)) then some 0x05
  else if calLimit p ≤ x.cal.length then some 0x03
  else if x.cal.any (fun a => decide (w.1 < a.we ∧ a.ws < w.2)) then some 0x02
  else none

/-- Insert into the calendar, by window start. -/
def insertCal (a : Admitted) : List Admitted → List Admitted
  | [] => [a]
  | y :: r => if a.ws < y.ws then a :: y :: r else y :: insertCal a r

/-- An offer is judged: the frame is refused, or owns its window from now on (R201). Windows that end now are freed first
(R211). -/
def offer (p : Nat) (f : TxFrame) (k : Clk) (d : Dev) : Dev :=
  let d := windowEnd p k d
  match judge p f k d with
  | some code => outcome p f true code d
  | none =>
    let w := windowOf ((port d p).byteTime p) f
    onPort p (fun x => { x with cal := insertCal { frame := f, ws := w.1, we := w.2 } x.cal }) d

/-- The full time with short time l that lies within 2^63 ns of t (R202). -/
def nearTime (l : W64) (t : Time) : Time := (t / ns1 + (l - shortOf t).toInt) * ns1

/-- The oldest staged frame of the LQ ring is offered (R201, R202). -/
def lqOffer (p : Nat) (k : Clk) (d : Dev) : Dev :=
  match (port d p).staged with
  | [] => d
  | f :: r =>
    offer p { f with launch := nearTime (shortOf f.launch) (now k) } k (onPort p (fun x => { x with staged := r }) d)

/-- LQ_OFFER. -/
def execLqOffer (p : Fin 10) (s : State) : Host.Outcome State Fault Refusal := onDev s (lqOffer p)

/-- The oldest frame that a packer offers is judged, its staging first (R201, R202). -/
def packerOffer (p : Nat) (k : Clk) (d : Dev) : Dev :=
  match (port d p).offers with
  | [] => d
  | f :: r =>
    let d := windowEnd p k (onPort p (fun x => { x with offers := r }) d)
    if stageLimit p < (port d p).stageUse + f.blocks then outcome p f true 0x04 d else offer p f k d

/-- PACKER_OFFER. -/
def execPackerOffer (p : Fin 10) (s : State) : Host.Outcome State Fault Refusal := onDev s (packerOffer p)

/-! Starting and ending frames (R199, R203 to R208). -/

/-- Preemption is active on port p (R208). -/
def preemptActive (d : Dev) (p : Nat) : Bool :=
  decide (p < 8) && rb d (Reg.SPORT_PREEMPT_CTL p) 0 && (rb d (Reg.SPORT_PREEMPT_CTL p) 1 || (port d p).preempt)

/-- A frame of port p is preemptable: a frame of a TXQ with PREEMPT (R208). -/
def preemptable (d : Dev) (p : Nat) (f : TxFrame) : Bool :=
  preemptActive d p && f.queue.any fun q => decide (q < 8) && rb d (Reg.SPORT_TXQ_CTL p q) 12

/-- The least fragment in bytes (R208). -/
def minFragment (d : Dev) (p : Nat) : Nat := 64 * (1 + rf d (Reg.SPORT_PREEMPT_CTL p) 2 2)

/-- GUARD in the units of windows (R206). -/
def guardW (d : Dev) (p : Nat) : Int := fine * ((rf d (Reg.SPORT_LQ_CTL p) 16 10 : Nat) * ns1)

/-- The start of the next admitted window after t. -/
def Port.nextWindow (x : Port) (t : Int) : Option Int :=
  (x.cal.find? fun a => a.fate == .waiting && decide (t < a.ws)).map (·.ws)

/-- A window has the wire at t (R199). -/
def Port.inWindow (x : Port) (t : Int) : Bool := x.timed.isSome || x.cal.any fun a => decide (a.ws ≤ t ∧ t < a.we)

/-- `w` wire bytes that start now end by the next window less GUARD (R206). -/
def fitsGap (p w : Nat) (k : Clk) (d : Dev) : Bool :=
  let x := port d p
  match x.nextWindow (nowW k) with
  | some ws => decide (nowW k + bytesW (x.byteTime p) w ≤ ws - guardW d p)
  | none => true

/-- A frame of which `sent` bytes have left may start now: whole (R206), or, preemptable, up to a legal cut (R208). -/
def mayStart (p : Nat) (f : TxFrame) (sent : Nat) (k : Clk) (d : Dev) : Bool :=
  fitsGap p (f.len - sent + 20) k d
    || (preemptable d p f && decide (minFragment d p + 64 ≤ f.len - sent) && fitsGap p (minFragment d p + 24) k d)

/-- Ticks of a pause: quanta of 512 bit times (R210). -/
def pauseTicks (b quanta : Nat) : Nat := quanta * 64 * b / 20

/-- TXQ q is stopped (R210). -/
def stopped (p q : Nat) (k : Clk) (d : Dev) : Bool :=
  match Tab.get none (port d p).pause q with
  | some { quanta, began := some t } => decide (since k t < pauseTicks ((port d p).byteTime p) quanta)
  | _ => false

/-- THRESH by its limits (R216). -/
def threshOf (d : Dev) (p : Nat) : Nat := min 9216 (max 64 (rf d (Reg.SPORT_TX_THRESH p) 0 14))

/-- The gap of 12 byte times behind what was last on the wire has passed (R197, R214). -/
def gapOver (p : Nat) (k : Clk) (x : Port) : Bool := x.idle.all fun t => decide (t.toNat * 20 + 12 * x.byteTime p ≤ k.ticks.toNat * 20)

/-- The wire is free for an untimed frame: the port is up, the gap has passed, nothing untimed is on the wire or backs off, no window has
the wire, and in half duplex no carrier is sensed (R199, R214). -/
def wireFree (p : Nat) (k : Clk) (d : Dev) : Bool :=
  let x := port d p
  gapOver p k x && x.enabled && x.link && x.untimed.isNone && x.backoff.isNone && !x.inWindow (nowW k) && !(x.half && x.rx.isSome)

/-- The first frame of TXQ q that is ready and may start (R199, R206). Behind a cut frame only express frames start, and
once it may resume only those of a higher TXQ (R208). (DESIGN CHOICE, log entry 39.) -/
def pickFrom (p q : Nat) (k : Clk) (d : Dev) : Option Nat :=
  let x := port d p
  let allowed (f : TxFrame) : Bool :=
    match x.cut with
    | none => true
    | some c =>
      !preemptable d p f
        && (!mayStart p c.frame c.sent k d || c.frame.queue.all fun q' => decide (q' < q))
  let room (f : TxFrame) : Bool := !f.packed || decide (x.bufferUse + f.len ≤ 16384)
  if stopped p q k d then none
  else firstIdx (fun f => allowed f && room f && decide (min (threshOf d p) f.len ≤ x.held f) && mayStart p f 0 k d) (x.ring q).frames 0

/-- The TXQ and place of the untimed frame that starts next (R199). (DESIGN CHOICE, log entry 39.) -/
def pick (p : Nat) (k : Clk) (d : Dev) : Option (Nat × Nat) :=
  ([7, 6, 5, 4, 3, 2, 1, 0] : List Nat).findSome? fun q => (pickFrom p q k d).map fun i => (q, i)

/-- Put an untimed frame on the wire now. (DEDUCED, log entry 6.) -/
def startUntimed (p : Nat) (f : TxFrame) (k : Clk) (d : Dev) : Dev :=
  let x := port d p
  let a := placed (x.quantum p) (now k + spanOf (7 * x.byteTime p) + spanOf (x.quantum p) / 2) d
  let b := oneStep p f a.1 a.2
  onPort p (fun x => { x with untimed := some { frame := b.1, sfd := a.1, tick := k.ticks } }) b.2

/-- A suppressed unit discards the discovery packets that wait in port p's TXQs (R284). -/
def dropDiscovery (p : Nat) (d : Dev) : Dev :=
  if suppresses d.pair.mode then
    onPort p (fun x => (List.range 9).foldl (fun x q => x.setRing q { x.ring q with
      frames := (x.ring q).frames.filter fun f => match f.origin with | .packer 3 _ _ => false | _ => true }) x) d
  else d

/-- UNTIMED_START: the port starts the frame that R199 chooses. -/
def untimedStart (p : Nat) (k : Clk) (d : Dev) : Dev :=
  let d := dropDiscovery p d
  match wireFree p k d, pick p k d with
  | true, some (q, i) =>
    match ((port d p).ring q).frames[i]? with
    | none => d
    | some f =>
      startUntimed p f k (onPort p (fun x => x.setRing q { x.ring q with frames := (x.ring q).frames.eraseIdx i }) d)
  | _, _ => d

/-- UNTIMED_START. -/
def execUntimedStart (p : Fin 10) (s : State) : Host.Outcome State Fault Refusal := onDev s (untimedStart p)

/-- The start of the fragment on the wire, its preamble included, in the units of windows. -/
def Flight.startW (b : Nat) (f : Flight) : Int := fine * f.frag.getD f.sfd - bytesW b 7

/-- The bytes of the current fragment at the last legal point before a window that starts at ws (R208). -/
def cutPoint (p : Nat) (f : Flight) (ws : Int) (d : Dev) : Nat :=
  let b := (port d p).byteTime p
  let room := (ws - guardW d p - f.startW b) / bytesW b 1
  max (minFragment d p) (min (f.frame.len - f.sent - 64) (room.toNat - 24))

/-- A preemptable frame must be cut for the window that starts at ws: it, with its gap, would not end by ws less GUARD (R208). -/
def cutFor (p : Nat) (f : Flight) (ws : Int) (d : Dev) : Bool :=
  let b := (port d p).byteTime p
  preemptable d p f.frame && decide (minFragment d p + 64 ≤ f.frame.len - f.sent)
    && decide (ws - guardW d p < f.startW b + bytesW b (f.frame.len - f.sent + 20))

/-- The untimed frame in progress has ended, and none is cut: a stop that waited for it begins (R210). -/
def pauseBegins (p : Nat) (k : Clk) (d : Dev) : Dev :=
  if (port d p).cut.isSome then d else
  onPort p (fun x => { x with pause := x.pause.map fun (q, y) =>
    (q, y.map fun s => { s with began := s.began <|> some k.ticks }) }) d

/-- The untimed frame on the wire is over, showing `wire`; the gap begins. -/
def untimedOver (p : Nat) (wire : List W8) (k : Clk) (d : Dev) : Dev :=
  pauseBegins p k (onPort p (fun x => { x with untimed := none, wire, idle := some k.ticks }) d)

/-- The tick of the instant x, this one where x has passed (R16). -/
def tickAt (k : Clk) (x : Time) : W64 := k.ticks + w64 (((x - now k) * 5 + (4 * ns1 - 1)) / (4 * ns1)).toNat

/-- A timed frame has left, and the gap begins behind its last byte as the port placed it (R198, R203, R205). -/
def timedEnd (p : Nat) (f : Flight) (k : Clk) (d : Dev) : Dev :=
  let d := onPort p (fun x => { x with
    timed := none, wire := truncated false f.frame.len f.frame
    idle := some (tickAt k (f.sfd + spanOf ((f.frame.len + 1) * x.byteTime p))) }) d
  let d := pmonPort p 2 (pmonPort p 0 d)
  postStamp p f (outcome p f.frame true 0 (bumpSat64 (Reg.SPORT_TX_FRAMES_LO p) 1 (bumpSat64 (Reg.SPORT_LQ_LAUNCHED_LO p) 1 d)))

/-- An untimed frame has left, or ends at an uncorrectable word (R198, R207, R208). -/
def untimedEnd (p : Nat) (f : Flight) (k : Clk) (d : Dev) : Dev :=
  match f.frame.bad with
  | some n => releaseStamps p (outcome p f.frame false 0x23 (untimedOver p (truncated true n f.frame) k d))
  | none =>
    let d := untimedOver p (truncated false f.frame.len f.frame) k d
    let d := when (f.sent != 0) (bumpSat (Reg.SPORT_PREEMPT_COUNT p) 1) d
    releaseStamps p (postStamp p f (outcome p f.frame false 0 (pmonPort p 0 (bumpSat64 (Reg.SPORT_TX_FRAMES_LO p) 1 d))))

/-- A preemptable frame on the wire is cut for the window that starts at ws (R208); an uncorrectable word before the cut ends it there
(R207). -/
def preemptCut (p : Nat) (ws : Int) (k : Clk) (d : Dev) : Dev :=
  match (port d p).untimed with
  | none => d
  | some f =>
    if !cutFor p f ws d then d
    else if f.frame.bad.any fun n => decide (n < f.sent + cutPoint p f ws d) then untimedEnd p f k d
    else
      bumpSat (Reg.SPORT_PREEMPT_COUNT p) 1
        (onPort p (fun x => { x with untimed := none, cut := some { f with sent := f.sent + cutPoint p f ws d } }) d)

/-- Replace the first waiting entry of the calendar by f of it, or drop it. -/
def fateFirst (f : Admitted → Option Admitted) : List Admitted → List Admitted
  | [] => []
  | a :: r => if a.fate == .waiting then (f a).toList ++ r else a :: fateFirst f r

/-- At L − 7b an admitted frame is sent, suppressed or lost (R203, R204, R284). The PCS starts it before L by the value in force for the
path, which its stamp adds again (R204, R349). (DESIGN CHOICE, log entry 21.) -/
def timedLaunch (p : Nat) (k : Clk) (d : Dev) : Dev :=
  let x := port d p
  let change (f : Admitted → Option Admitted) : Dev → Dev := onPort p fun x => { x with cal := fateFirst f x.cal }
  match x.cal.find? fun a => a.fate == .waiting with
  | none => d
  | some a =>
    if nowW k < a.ws then d
    else if !x.link then outcome p a.frame true 0x11 (change (fun a => some { a with fate := .lost }) d)
    else if (match a.frame.origin with | .packer _ _ f => muted d f a.frame.launch | _ => false) then
      change (fun _ => none) d
    else if x.timed.isSome then d
    else
      let d := preemptCut p a.ws k (change (fun a => some { a with fate := .sent }) d)
      let lat : Time := if p < 8 then 0 else (rf d (Reg.LPORT_TX_LAT (p - 8)) 0 16 : Nat) * ns1
      let cal : Time := if p < 8 then pathDelay d p else 0
      let t := placed (x.quantum p) (a.frame.launch - lat - cal) d
      let b := oneStep p a.frame (t.1 + cal) t.2
      onPort p (fun x => { x with timed := some { frame := b.1, sfd := t.1 + cal, tick := k.ticks } }) b.2

/-- TIMED_LAUNCH. (DESIGN CHOICE, log entry 14.) -/
def execTimedLaunch (p : Fin 10) (s : State) : Host.Outcome State Fault Refusal := onDev s (timedLaunch p)

/-- The wire needs the first byte of an uncorrectable word that the port has read (R207). -/
def meetsBad (p : Nat) (f : Flight) (k : Clk) (x : Port) : Bool :=
  f.frame.bad.any fun n => decide (n ≤ x.held f.frame ∧ min n f.frame.len ≤ f.sentBy k (x.byteTime p))

/-- The window for which the frame on the wire must be cut though its bytes have been read (R208). -/
def cutDue (p : Nat) (f : Flight) (d : Dev) : Option Int :=
  ((port d p).cal.find? fun a => a.fate == .waiting && cutFor p f a.ws d).map (·.ws)

/-- The frame on the wire ends once its last byte has left, or at an uncorrectable word; a preemptable frame that does not end in time for a
window is cut instead (R207, R208). -/
def txFrameEnd (p : Nat) (timed : Bool) (k : Clk) (d : Dev) : Dev :=
  let x := port d p
  match timed, x.timed, x.untimed with
  | true, some f, _ => if f.frame.len ≤ f.sentBy k (x.byteTime p) then timedEnd p f k d else d
  | false, _, some f =>
    if meetsBad p f k x || (f.frame.bad.isNone && decide (f.frame.len ≤ f.sentBy k (x.byteTime p) ∧ f.frame.len ≤ x.held f.frame)) then
      match cutDue p f d with
      | some ws => preemptCut p ws k d
      | none => untimedEnd p f k d
    else d
  | _, _, _ => d

/-- TX_FRAME_END. -/
def execTxFrameEnd (p : Fin 10) (timed : Bool) (s : State) : Host.Outcome State Fault Refusal :=
  onDev s (txFrameEnd p timed)

/-- The wire needs a byte that has not arrived: the frame ends with an inverted FCS, and THRESH rises (R207). -/
def txUnderrun (p : Nat) (k : Clk) (d : Dev) : Dev :=
  let x := port d p
  match x.untimed with
  | none => d
  | some f =>
    if x.held f.frame < f.frame.len ∧ x.held f.frame ≤ f.sentBy k (x.byteTime p) ∧ !meetsBad p f k x then
      let n := threshOf d p
      let d := untimedOver p (truncated true (x.held f.frame) f.frame) k d
      let d := pmonPort p 5 <| bumpSat (Reg.SPORT_TX_UNDERRUN p) 1 (releaseStamps p (outcome p f.frame false 0x20 d))
      let d := wrFld (Reg.SPORT_TX_THRESH p) 0 14 (min 9216 (n + 64)) d
      when (decide (9216 ≤ n + 64)) (raiseTx p 1) d
    else d

/-- TX_UNDERRUN. -/
def execTxUnderrun (p : Fin 10) (s : State) : Host.Outcome State Fault Refusal := onDev s (txUnderrun p)

/-- The cut frame resumes when nothing stands before it (R208). -/
def preemptResume (p : Nat) (k : Clk) (d : Dev) : Dev :=
  match (port d p).cut with
  | none => d
  | some c =>
    if wireFree p k d && mayStart p c.frame c.sent k d && (pick p k d).isNone then
      let x := port d p
      let a := placed (x.quantum p) (now k + spanOf (7 * x.byteTime p) + spanOf (x.quantum p) / 2) d
      onPort p (fun x => { x with cut := none, untimed := some { c with tick := k.ticks, frag := some a.1 } }) a.2
    else d

/-- PREEMPT_RESUME. -/
def execPreemptResume (p : Fin 10) (s : State) : Host.Outcome State Fault Refusal := onDev s (preemptResume p)

/-- A verification attempt ends; the first and three retries may fail, each 10 ms after the one before (R208). -/
def preemptVerify (p : Nat) (ok : Bool) (k : Clk) (d : Dev) : Dev :=
  let x := port d p
  if p < 8 ∧ rb d (Reg.SPORT_PREEMPT_CTL p) 0 ∧ !rb d (Reg.SPORT_PREEMPT_CTL p) 1 ∧ x.link ∧ !x.preempt ∧ x.verifyFails < 4 then
    if ok then setPort p { x with preempt := true } d
    else if x.verifyFails ≠ 0 ∧ since k x.verifyTick < 12500000 then d
    else when (x.verifyFails == 3) (raiseTx p 5) (setPort p { x with verifyFails := x.verifyFails + 1, verifyTick := k.ticks } d)
  else d

/-- PREEMPT_VERIFY. -/
def execPreemptVerify (p : Fin 10) (ok : Bool) (s : State) : Host.Outcome State Fault Refusal :=
  onDev s (preemptVerify p ok)

/-! PAUSE and PFC (R210, R213). -/

/-- Stop TXQ q for some quanta, from the end of the frame in progress; zero resumes at once, and of a stop in force the time is replaced
(R210). -/
def pauseQueue (p : Nat) (k : Clk) (q quanta : Nat) (d : Dev) : Dev :=
  onPort p (fun x =>
    let y : Pause := { quanta, began := if (x.untimed.isSome || x.cut.isSome) && !stopped p q k d then none else some k.ticks }
    { x with pause := Tab.put none x.pause q (if quanta = 0 then none else some y) }) d

/-- A MAC Control frame is consumed: PAUSE and PFC are counted, and obeyed as SPORT_OBEY_PAUSE allows. -/
def macControl (p : Nat) (l : List W8) (k : Clk) (d : Dev) : Dev :=
  match be16 l 14 with
  | 0x0001 =>
    let d := bumpFld (Reg.SPORT_PAUSE_COUNT p) 0 16 1 d
    if rb d (Reg.SPORT_OBEY_PAUSE p) 0 && !(port d p).half then
      forEach (List.range (if p < 8 then 8 else 4)) (fun q => pauseQueue p k q (be16 l 16)) d
    else d
  | 0x0101 =>
    let d := bumpFld (Reg.SPORT_PAUSE_COUNT p) 16 16 1 d
    if decide (p < 8) && rb d (Reg.SPORT_OBEY_PAUSE p) 1 then
      forEach (List.range 8) (fun q d =>
        let c := rf d (Reg.SPORT_TXQ_CTL p q) 8 3
        if (be16 l 16).testBit c then pauseQueue p k q (be16 l (18 + 2 * c)) d else d) d
    else d
  | _ => d

/-- A pause time has run out. -/
def pauseExpire (p : Nat) (k : Clk) (d : Dev) : Dev :=
  let b := (port d p).byteTime p
  onPort p (fun x => { x with pause := x.pause.filter fun (_, y) =>
    match y with
    | some { quanta, began := some t } => decide (since k t < pauseTicks b quanta)
    | _ => true }) d

/-- PAUSE_EXPIRE. -/
def execPauseExpire (p : Fin 10) (s : State) : Host.Outcome State Fault Refusal := onDev s (pauseExpire p)

/-! Discards (R27, R40, R211, R212, R215, R252, R260). -/

/-- Admitted frames that wait and satisfy `sel` are discarded, freeing their places (R203). -/
def calDiscard (p status : Nat) (sel : Admitted → Bool) (d : Dev) : Dev :=
  let out := (port d p).cal.filter fun a => a.fate == .waiting && sel a
  let d := onPort p (fun x => { x with cal := x.cal.filter fun a => !(a.fate == .waiting && sel a) }) d
  forEach out (fun a => outcome p a.frame true status) d

/-- The timed frame on the wire is cut, when it satisfies `sel`; its place is freed (R211). -/
def timedCut (p status : Nat) (bad : Bool) (sel : TxFrame → Bool) (k : Clk) (d : Dev) : Dev :=
  match (port d p).timed with
  | none => d
  | some f =>
    if sel f.frame then
      let n := f.sentBy k ((port d p).byteTime p)
      let gone (a : Admitted) : Bool := a.fate == .sent && a.frame.origin == f.frame.origin && a.frame.launch == f.frame.launch
      outcome p f.frame true status (onPort p (fun x => { x with
        timed := none, wire := truncated bad n f.frame, cal := x.cal.filter fun a => !gone a }) d)
    else d

/-- The untimed frame on the wire, and the cut one, are truncated when they satisfy `sel` (R211). -/
def untimedCut (p status : Nat) (bad : Bool) (sel : TxFrame → Bool) (k : Clk) (d : Dev) : Dev :=
  let d := match (port d p).untimed with
    | some f =>
      if sel f.frame then
        let n := f.sentBy k ((port d p).byteTime p)
        releaseStamps p (outcome p f.frame false status (untimedOver p (truncated bad n f.frame) k d))
      else d
    | none => d
  match (port d p).cut with
  | some f =>
    if sel f.frame then
      releaseStamps p (outcome p f.frame false status
        (untimedOver p (truncated bad f.sent f.frame) k (onPort p (fun x => { x with cut := none }) d)))
    else d
  | none => d

/-- A frame of TXQ q. -/
def ofRing (q : Nat) (f : TxFrame) : Bool := f.queue == some q

/-- Frames of TXQ q that were read and not sent are written back; a frame being read lets HEAD pass it (R211, R212). -/
def ringDrain (p q status : Nat) (d : Dev) : Dev :=
  let r := (port d p).ring q
  let d := when r.filling.isSome (headNext p q) d
  let waits := (port d p).backoff.toList.filter fun b => ofRing q b.1
  let d := onPort p (fun x =>
    Port.setRing q { r with frames := [], filling := none } { x with backoff := x.backoff.filter fun b => !ofRing q b.1 }) d
  forEach (r.frames ++ waits.map (·.1)) (fun f => outcome p f false status) d

/-- Staged frames of the LQ ring are written back unsent (R203, R211, R212). -/
def stagedDrain (p status : Nat) (d : Dev) : Dev :=
  let l := (port d p).staged
  forEach l (fun f => outcome p f true status) (onPort p (fun x => { x with staged := [] }) d)

/-- SYS_ABORT of transmit queue q (R212). -/
def txqAbort (p q : Nat) (k : Clk) (d : Dev) : Dev :=
  let d := if q = 8 then
      stagedDrain p 0x12 (calDiscard p 0x12 (fun a => ofRing 8 a.frame) (timedCut p 0x12 true (ofRing 8) k d))
    else ringDrain p q 0x12 (untimedCut p 0x12 true (ofRing q) k d)
  wrBit (Reg.SPORT_TXQ_CTL p q) 31 false (onPort p (fun x => x.setRing q { x.ring q with enabled := false }) d)

/-- Packer packets of the kinds `kinds` are discarded on every port (R252, R260). -/
def packerAbort (kinds : List Nat) (k : Clk) (d : Dev) : Dev :=
  let sel (f : TxFrame) : Bool := match f.origin with | .packer i _ _ => kinds.contains i | _ => false
  forEach (List.range 8) (fun p d =>
    onPort p (fun x => { x with offers := x.offers.filter fun f => !sel f })
      (calDiscard p 0x12 (fun a => sel a.frame) (timedCut p 0x12 true sel k d))) d

/-! Legacy half duplex (R214, R215). -/

/-- A collision on port p ends the frame on the wire: the bytes sent, and a jam of 32 bits whose content is open (R214).
(DESIGN CHOICE, log entry 43.) -/
def jammed (p : Nat) (f : Flight) (k : Clk) (d : Dev) : Dev :=
  let y := free d
  untimedOver p (truncated false (f.sentBy k ((port d p).byteTime p)) f.frame ++ leBytes 4 y.1.toNat) k y.2

/-- A collision: jam and back-off, or the frame ends as late or excessive (R214). -/
def collision (n : Nat) (k : Clk) (d : Dev) : Dev :=
  let p := n + 8
  let x := port d p
  match x.half, x.untimed with
  | true, some f =>
    let b := x.byteTime p
    let g := { f.frame with coll := f.frame.coll + 1 }
    let d := bumpFld (Reg.LPORT_COLL_COUNT n) 0 16 1 d
    let fail (status : Nat) : Dev := outcome p g false status
      (bumpFld (Reg.LPORT_COLL_COUNT n) 16 16 1 (jammed p f k d))
    if 64 * b < since k f.tick * 20 then fail 0x24
    else if 16 ≤ g.coll then fail 0x25
    else
      let r := (Config.freeValue d.freeIdx).toNat % 2 ^ min g.coll 10
      onPort p (fun x => { x with backoff := some (g, k.ticks, r * 64 * b / 20) })
        (jammed p f k { d with freeIdx := d.freeIdx + 1 })
  | _, _ => d

/-- COLLISION. -/
def execCollision (n : Fin 2) (s : State) : Host.Outcome State Fault Refusal := onDev s (collision n)

/-- The back-off wait has ended: the frame is attempted again once no carrier is sensed (R214). -/
def backoffExpire (n : Nat) (k : Clk) (d : Dev) : Dev :=
  let p := n + 8
  match (port d p).backoff with
  | none => d
  | some (f, t, w) =>
    if w ≤ since k t ∧ wireFree p k (onPort p (fun x => { x with backoff := none }) d) then
      startUntimed p f k (onPort p (fun x => { x with backoff := none }) d)
    else d

/-- BACKOFF_EXPIRE. -/
def execBackoffExpire (n : Fin 2) (s : State) : Host.Outcome State Fault Refusal := onDev s (backoffExpire n)

end Sys2Proof.Machine
end

