-- ==== Sys2Proof/Machine/Cal.lean ====
section
/-!
DEFINITION. Path calibration: measurements, rounds and stores (R346 to R350, R354, R355, R358).
-/

namespace Sys2Proof.Machine

/-! Paths (R346, R347, R384). -/

/-- The rate mode of a path now: of a show port by its RATE and FEC_EN as captured. -/
def pathMode (d : Dev) (p : Nat) : Nat :=
  if p < 16 then
    let c := (port d (p % 8)).ctl
    match fld c 4 2 with | 0 => 0 | 1 => 1 | _ => if bit c 2 then 3 else 2
  else 0

/-- Head h's DisplayPort output sends. -/
def dpSends (d : Dev) (h : Nat) : Bool :=
  let x := head d h
  x.trained && (if splitOdd d h then ((head d (h - 1)).timing.elim false fun t => bit t.oddOut 0)
    else x.running && (x.timing.elim false fun t => bit t.outCtl 0))

/-- A measurement of the path finds a signal (R347). -/
def pathSignal (d : Dev) (p : Nat) : Bool :=
  if p < 8 then (port d p).enabled
  else if p < 16 then (port d (p - 8)).link
  else if p < 20 then d.pair.mode != .solo
  else if p < 24 then d.pair.trained
  else if p = 24 then dpSends d 0 && dpSends d 1
  else dpSends d 2 && dpSends d 3

/-- A path takes its accepted values and the choice between them and its factory value (R349, R352). -/
def takeValues (p : Nat) (d : Dev) : Dev :=
  let x := calPath d p
  let d := setCalPath p { x with
    mode := pathMode d p, inForce := x.next.foldl (fun l v => putValue v l) x.inForce, next := []
    trusted := x.trusted || !x.next.isEmpty } d
  setCalPath p { calPath d p with factory := factoryCase d p } d

/-- A boundary: accepted and selected values come into force (R349). -/
def calBoundary (d : Dev) : Dev := forEach (List.range 26) takeValues d

/-! Rounds (R347, R348, R350). -/

/-- A calibration is running. -/
def measuring (d : Dev) : Bool := (List.range 26).any fun p => (calPath d p).measuring

/-- The calibration of path p begins, or goes on: a slice that loops its lane, or that has looped it while it ran, spoils it (R345). -/
def measurePath (p : Nat) (d : Dev) : Dev :=
  let x := calPath d p
  setCalPath p { x with measuring := true, spoiled := pathLooped d p || (x.measuring && x.spoiled) } d

/-- A round of every path begins. -/
def measureAll (k : Clk) (d : Dev) : Dev :=
  onCalib (fun c => { c with roundTick := k.ticks }) (forEach (List.range 26) measurePath d)

/-- A store begins: the slot not in force is invalid from here (R355). -/
def storeStart (d : Dev) : Dev :=
  if d.calib.storing then d
  else mramPut (slotAt (if d.calib.slot = 1 then 2 else 1)) [0, 0, 0, 0] (onCalib (fun c => { c with storing := true }) d)

/-- CAL_CMD (R350, R355): MEASURE and STORE; a MEASURE is discarded while the bit reads 1 (R308). -/
def calCmd (v : W32) (k : Clk) (d : Dev) : Dev :=
  when (bit v 1) storeStart (when (bit v 0 && !d.calib.asked) (fun d => measureAll k (onCalib (fun c => { c with asked := true }) d)) d)

/-- CAL_MEASURE. -/
def execCalMeasure (_req : Req) (s : State) : Host.Outcome State Fault Refusal :=
  onDev s fun k => access Reg.CAL_CMD (calCmd 1 k)

/-- CAL_STORE. -/
def execCalStore (_req : Req) (s : State) : Host.Outcome State Fault Refusal :=
  onDev s fun k => access Reg.CAL_CMD (calCmd 2 k)

/-- The last accepted value of a path. -/
def lastValue (x : CalPath) : Option CalValue :=
  (x.inForce ++ x.next).foldl (fun a v => match a with | some b => if later b.time v.time then some b else some v | none => some v) none

/-- AUTO starts a calibration: of every path when CAL_PERIOD has passed, of path p when its temperature has moved by more than DTEMP
(R350). -/
def autoTrigger (p : Nat) (k : Clk) (d : Dev) : Dev :=
  let period := rf d Reg.CAL_PERIOD 0 16
  let dtemp := max 1 (rf d Reg.CAL_CTL 0 8)
  if !rb d Reg.CAL_CTL 31 then d
  else if period ≠ 0 ∧ period * 1250000000 ≤ since k d.calib.roundTick then measureAll k d
  else
    match lastValue (calPath d p) with
    | some v => if (16 * dtemp : Nat) < (pathTemp d p - v.temp).natAbs then measurePath p d else d
    | none => d

/-- CAL_AUTO_TRIGGER. -/
def execCalAutoTrigger (path : Fin 26) (s : State) : Host.Outcome State Fault Refusal := onDev s (autoTrigger path)

/-- Steps 10 and 11 of start-up end (R380). -/
def startupReady (d : Dev) : Dev := raiseSys 1 (stepDone 31 (stepDone 8 d))

/-- Path p leaves its round; the end of a round that accepted a value stores when AUTO_STORE is 1 (R355), and that of start-up's round ends
start-up (R380). -/
def roundLeave (p : Nat) (d : Dev) : Dev :=
  let d := setCalPath p { calPath d p with measuring := false } d
  if measuring d then d
  else
    let e := when (d.calib.fresh && rb d Reg.CAL_CTL 30) storeStart (onCalib (fun c => { c with fresh := false, asked := false, starting := false }) d)
    when d.calib.starting startupReady e

/-- Both measurements of path p have been made, each a value in 1/16 ps at a temperature in 1/16 °C (R347, R348). Measurements that a slice on
the lane met are discarded, and the path is measured again (R345). (DESIGN CHOICE, log entry 67.) -/
def measurementEnd (p : Nat) (m1 t1 m2 t2 : Int) (k : Clk) (d : Dev) : Dev :=
  if !(calPath d p).measuring then d
  else if pathLooped d p || (calPath d p).spoiled then setCalPath p { calPath d p with spoiled := pathLooped d p } d
  else if !pathSignal d p then raiseCal 4 (roundLeave p d)
  else
    let m := pathMode d p
    let first := 480 * m1 + factoryAt d p m t2 - factoryAt d p m t1
    if (first - 480 * m2).natAbs ≤ 150 * 16 * 480 then
      let r := roundFree (first + 480 * m2) 960 d
      let v : CalValue := { mode := m, value := r.1, temp := t2, time := shortOf (now k) }
      let d := setCalPath p { calPath r.2 p with next := putValue v (calPath r.2 p).next } r.2
      raiseCal 1 (roundLeave p (onCalib (fun c => { c with fresh := true }) d))
    else raiseCal 0 (bumpSat Reg.CAL_DISAGREE_COUNT 1 (roundLeave p d))

/-- CAL_MEASUREMENT_END: the second measurement of a path ends; what was measured comes from outside. -/
def execCalMeasurementEnd (path : Fin 26) (m1 : BitVec 32) (t1 : W16) (m2 : BitVec 32) (t2 : W16) (s : State) :
    Host.Outcome State Fault Refusal :=
  onDev s (measurementEnd path m1.toInt t1.toInt m2.toInt t2.toInt)

/-! Stores (R354, R355). -/

/-- Every accepted value, by path. -/
def acceptedValues (d : Dev) : List (Nat × CalValue) :=
  (List.range 26).flatMap fun p =>
    let x := calPath d p
    (x.next.foldl (fun l v => putValue v l) x.inForce).map fun v => (p, v)

/-- The bytes of a slot, CHECK apart. -/
def slotBytes (gen : Nat) (l : List (Nat × CalValue)) : List W8 :=
  let es := l.flatMap fun (p, v) =>
    leBytes 1 p ++ leBytes 1 v.mode ++ leBytes 2 (v.temp % 2 ^ 16).toNat ++ leBytes 4 (v.value % 2 ^ 32).toNat ++ leBytes 8 v.time.toNat
  let head := leBytes 4 0x534C4F54 ++ leBytes 4 gen ++ leBytes 2 l.length ++ List.replicate 6 0
  head ++ es ++ List.replicate (0x3FFC - 16 - es.length) 0

/-- The store that runs completes in the slot not in force (R355); one that reads back wrong leaves that slot invalid. -/
def storeDone (ok : Bool) (d : Dev) : Dev :=
  if !d.calib.storing then d
  else
    let slot := if d.calib.slot = 1 then 2 else 1
    let at' := slotAt slot
    let d := onCalib (fun c => { c with storing := false }) d
    if !ok then raiseCal 3 d
    else
      let gen := if d.calib.slot = 0 then 1 else ((rd d Reg.CAL_GEN).toNat + 1) % 2 ^ 32
      let bytes := slotBytes gen (acceptedValues d)
      let d := mramPut at' (bytes ++ leBytes 4 (crc32c bytes).toNat) d
      raiseCal 2 (wr Reg.CAL_GEN (w32 gen) (onCalib (fun c => { c with slot := slot }) d))

/-- CAL_STORE_DONE: a store completes, and whether it reads back as written. -/
def execCalStoreDone (ok : Bool) (s : State) : Host.Outcome State Fault Refusal := onDev s fun _ => storeDone ok

/-- At start-up the valid slot with the higher GEN is in force, slot A of two equal ones; after a RECOVERY reset every path runs on its
factory value until a calibration is accepted (R352, R354, R378). -/
def calStartup (recovery : Bool) (d : Dev) : Dev :=
  let a := slotOk d (slotAt 1)
  let b := slotOk d (slotAt 2)
  let slot := if a && b then (if mramNum d (slotAt 1 + 4) 4 < mramNum d (slotAt 2 + 4) 4 then 2 else 1) else if a then 1 else if b then 2 else 0
  let entries := if slot = 0 then [] else slotEntries d (slotAt slot)
  let d := wr Reg.CAL_GEN (w32 (if slot = 0 then 0 else mramNum d (slotAt slot + 4) 4)) d
  let d := forEach (List.range 26) (fun p => setCalPath p
    { mode := pathMode d p, inForce := (entries.filter fun e => e.1 == p).map (·.2), trusted := !recovery
      factory := recovery || !entries.any fun e => e.1 == p && e.2.mode == pathMode d p }) d
  when (!factoryOk d) (raiseCal 5) (onCalib (fun c => { c with slot := slot, storing := false, fresh := false, asked := false }) d)

end Sys2Proof.Machine
end

