-- ==== Sys2Proof/Machine/Keys.lean ====
section
/-!
DEFINITION. Scarab's key ladder (R363), and the attestations and the pair key that are made with it (R369).
-/

namespace Sys2Proof.Machine

/-- An update of Scarab. -/
def onScarab (f : Scarab → Scarab) (d : Dev) : Dev := { d with scarab := f d.scarab }

/-- The code of a lifecycle state (R359). -/
def Lifecycle.code : Lifecycle → Nat
  | .blank => 0
  | .provisioned => 1
  | .deployed => 2
  | .diagnostic => 3
  | .retired => 4

/-- The bytes of n register words from the one that `reg` names, byte 4w of word w in [7:0]. -/
def regBytes (d : Dev) (reg : Nat → Nat) (n : Nat) : List W8 := (List.range n).flatMap fun w => leBytes 4 (rd d (reg w)).toNat

/-- Write bytes to register words. -/
def putRegBytes (reg : Nat → Nat) (n : Nat) (l : List W8) (d : Dev) : Dev :=
  forEach (List.range n) (fun w => wr (reg w) (w32 (ofLe (slice l (4 * w) 4)))) d

/-- Bytes that the manual leaves open. (DESIGN CHOICE, log entry 5.) -/
def freeBytes : Nat → Dev → List W8 × Dev
  | 0, d => ([], d)
  | n + 1, d => let x := freeBytes n (free d).2; ((free d).1.truncate 8 :: x.1, x.2)

/-! The ladder (R363). -/

/-- A key of n bytes derived from HUK: 0 DIK, 1 DAK, 2 SK. -/
def ladderKey (d : Dev) (i n : Nat) : List W8 := Config.hkdf (leBytes 32 d.scarab.huk.toNat) [] (Config.keyLabel i) n

/-- The keys that derive from HUK exist: in RETIRED they are never derived again (R360). (DESIGN CHOICE, log entry 100.) -/
def keysDerived (d : Dev) : Bool := d.scarab.lc != .retired

/-- The private keys DIK and DAK, and SK. -/
def dik (d : Dev) : List W8 := ladderKey d 0 48
def dak (d : Dev) : List W8 := ladderKey d 1 48
def sk (d : Dev) : List W8 := ladderKey d 2 32

/-- PAK's private scalar, from the MRAM (R369). -/
def pak (d : Dev) : List W8 := Config.skOpen (sk d) d.scarab.pakSealed

/-- The public points of DIK and DAK (R375); none in RETIRED, where their registers read zero (R360). -/
def dikPub (d : Dev) : List W8 := if keysDerived d then Config.ecPoint (dik d) else []
def dakPub (d : Dev) : List W8 := if keysDerived d then Config.ecPoint (dak d) else []

/-- A DIK signature over a message. -/
def dikSign (m : List W8) (d : Dev) : List W8 × Dev := (Config.ecdsaSign (dik d) m d.freeIdx, { d with freeIdx := d.freeIdx + 1 })

/-- The ID of a pair key: the first 8 bytes of SHA-384 of its public key (R369). -/
def pairKeyId (pub : List W8) : W64 := w64 (ofLe ((Config.sha384 pub).take 8))

/-- The key-wrap key of a package, from ECDH of its ephemeral key with DAK, or with PAK for a pair binding (R366): BIND, TARGET, EPH_PUB. -/
def wrapKey (d : Dev) (bind : Nat) (target eph : List W8) : List W8 :=
  Config.hkdf (Config.ecdh (if bind = 2 then pak d else dak d) eph) target (Config.keyLabel 3) 32

/-! Attestation (R369, steps 1 and 2). -/

/-- The staged certificate. -/
def certBytes (d : Dev) : List W8 := (regBytes d Reg.SCARAB_CERT 1024).take (min 4096 (rf d Reg.SCARAB_CERT_LEN 0 13))

/-- The unit's state permits a pair key. -/
def mayForm (d : Dev) : Bool := d.scarab.lc == .provisioned || d.scarab.lc == .deployed

/-- What an attestation signs: the receiver's nonce, the sender's lifecycle state and its firmware measurement. (PRESUMED, log entry 71.) -/
def attestMessage (nonce : List W8) (lc : W8) (measurement : List W8) : List W8 := nonce ++ lc :: measurement

/-- A partner's attestation passes: its chain against this unit's ROOT_HASH, its state, its measurement, its signature over the nonce sent. -/
def attestPasses (a : Attestation) (nonce : List W8) (d : Dev) : Bool :=
  Config.chainOk a.cert Config.rootHash && (a.lc == 1 || a.lc == 2) && a.measurement == d.scarab.measurement
    && Config.ecdsaOk (Config.certSubject a.cert) (attestMessage nonce a.lc a.measurement) a.sig

/-- The content of a message: each run of bytes behind its length. -/
def contentOf (l : List (List W8)) : List W64 := l.flatMap fun b => w64 b.length :: b.map (·.setWidth 64)

/-- The content of an attestation. -/
def attestContent (a : Attestation) : List W64 := contentOf [a.cert, a.nonce, [a.lc], a.measurement, leBytes 8 a.keyId.toNat, a.sig]

/-- Scarab draws a nonce for the partner to sign. -/
def nonceNew (d : Dev) : Dev := let x := freeBytes 48 d; onScarab (fun s => { s with nonce := x.1 }) x.2

/-- Scarab sends its attestation over the partner's nonce. -/
def attestSend (nonce : List W8) (k : Clk) (d : Dev) : Dev :=
  let lc : W8 := BitVec.ofNat 8 d.scarab.lc.code
  let m := d.scarab.measurement
  let x := dikSign (attestMessage nonce lc m) d
  let a : Attestation := { cert := certBytes d, nonce := d.scarab.nonce, lc, measurement := m, keyId := d.scarab.keyId, sig := x.1 }
  cricketSend 5 (messageBytes 11 (attestContent a)) k x.2

/-! The pair key (R369, steps 3 to 5). -/

/-- Scarab draws an ephemeral key, signs its public point and sends it. -/
def shareSend (k : Clk) (d : Dev) : Dev :=
  let e := freeBytes 48 d
  let x := dikSign (Config.ecPoint e.1) e.2
  cricketSend 5 (messageBytes 12 (contentOf [Config.ecPoint e.1, x.1])) k (onScarab (fun s => { s with eph := e.1 }) x.2)

/-- PAK's private scalar, from the partner's ephemeral public key: the salt is the two unique IDs, the numerically smaller first. -/
def pairScalar (d : Dev) (pub : List W8) : List W8 :=
  let a := d.scarab.uid.toNat
  let b := (Config.certUid d.scarab.partnerCert).toNat
  Config.reduceScalar (Config.hkdf (Config.ecdh d.scarab.eph pub) (leBytes 16 (min a b) ++ leBytes 16 (max a b)) (Config.keyLabel 4) 48)

end Sys2Proof.Machine
end

