-- ==== Sys2Proof/Machine/Alu.lean ====
section
/-!
DEFINITION. The arithmetic of the scalar instructions (R59 to R62, R74, R103): functions of their operands alone (R47).
-/

namespace Sys2Proof.Machine

/-- A field of n bits, sign-extended to 64. -/
def sx (n x : Nat) : W64 := BitVec.ofInt 64 (signExt n x)

/-- 1 or 0. -/
def flag64 (b : Bool) : W64 := if b then 1 else 0

/-- Leading zeros of a 64-bit value. -/
def clz64 (a : W64) : Nat := (firstIdx (fun i => bit a (63 - i)) (List.range 64) 0).getD 64

/-- Trailing zeros of a 64-bit value. -/
def ctz64 (a : W64) : Nat := (firstIdx (fun i => bit a i) (List.range 64) 0).getD 64

/-- Ones of a value of n bits. -/
def popcount {n : Nat} (a : BitVec n) : Nat := ((List.range n).filter fun i => bit a i).length

/-- The four shifts, by their code in SHIFTI (R59, R60). -/
def shift64 (kind : Nat) (a : W64) (n : Nat) : W64 :=
  match kind with
  | 0 => a <<< n
  | 1 => a >>> n
  | 2 => a.sshiftRight n
  | _ => a.rotateRight n

/-- The smaller or larger of two values, signed or unsigned: MIN, MAX, MINU, MAXU (R59, R74). -/
def minMax {n : Nat} (kind : Nat) (a b : BitVec n) : BitVec n :=
  match kind with
  | 0 => if a.toInt ≤ b.toInt then a else b
  | 1 => if a.toInt ≤ b.toInt then b else a
  | 2 => if a.toNat ≤ b.toNat then a else b
  | _ => if a.toNat ≤ b.toNat then b else a

/-- The ALU instructions; none where FUNC or the field B is not defined (R58, R59, R77). -/
def alu (func bField : Nat) (a b : W64) : Option W64 :=
  match func with
  | 0x00 => some (a + b)
  | 0x01 => some (a - b)
  | 0x02 => some (a &&& b)
  | 0x03 => some (a ||| b)
  | 0x04 => some (a ^^^ b)
  | 0x05 => some (a &&& ~~~ b)
  | 0x08 => some (shift64 0 a (fld b 0 6))
  | 0x09 => some (shift64 1 a (fld b 0 6))
  | 0x0A => some (shift64 2 a (fld b 0 6))
  | 0x0B => some (shift64 3 a (fld b 0 6))
  | 0x10 => some (a * b)
  | 0x11 => some (BitVec.ofInt 64 (a.toInt * b.toInt / 2 ^ 64))
  | 0x12 => some (w64 (a.toNat * b.toNat / 2 ^ 64))
  | 0x14 => some (if b = 0 then -1 else BitVec.ofInt 64 (a.toInt.tdiv b.toInt))
  | 0x15 => some (if b = 0 then -1 else w64 (a.toNat / b.toNat))
  | 0x16 => some (if b = 0 then a else BitVec.ofInt 64 (a.toInt.tmod b.toInt))
  | 0x17 => some (if b = 0 then a else w64 (a.toNat % b.toNat))
  | 0x18 => some (flag64 (a == b))
  | 0x19 => some (flag64 (a != b))
  | 0x1A => some (flag64 (decide (a.toInt < b.toInt)))
  | 0x1B => some (flag64 (decide (a.toNat < b.toNat)))
  | 0x1C => some (minMax 0 a b)
  | 0x1D => some (minMax 1 a b)
  | 0x1E => some (minMax 2 a b)
  | 0x1F => some (minMax 3 a b)
  | 0x20 => if bField = 0 then some (w64 (clz64 a)) else none
  | 0x21 => if bField = 0 then some (w64 (ctz64 a)) else none
  | 0x22 => if bField = 0 then some (w64 (popcount a)) else none
  | 0x24 => if bField < 3 then some (sx (8 * 2 ^ bField) a.toNat) else none
  | 0x25 => if bField < 3 then some (w64 (a.toNat % 2 ^ (8 * 2 ^ bField))) else none
  | _ => none

/-- ADDI, ANDI, ORI, XORI, SLTI and SLTIU by major opcode; `w` is the immediate's width: 16, or 38 under LIMM (R60). -/
def immediateOp (op w imm : Nat) (a : W64) : W64 :=
  match op with
  | 0x02 => a + sx w imm
  | 0x03 => a &&& w64 imm
  | 0x04 => a ||| w64 imm
  | 0x05 => a ^^^ w64 imm
  | 0x08 => flag64 (decide (a.toInt < (sx w imm).toInt))
  | _ => flag64 (decide (a.toNat < (sx w imm).toNat))

/-- LUI (R60). -/
def luiValue (w imm : Nat) : W64 := sx w imm <<< (if w = 16 then 16 else 26)

/-- The condition of a branch by major opcode (R62). -/
def branchTaken (op : Nat) (a b : W64) : Bool :=
  match op with
  | 0x18 => a == b
  | 0x19 => a != b
  | 0x1A => decide (a.toInt < b.toInt)
  | 0x1B => decide (b.toInt ≤ a.toInt)
  | 0x1C => decide (a.toNat < b.toNat)
  | _ => decide (b.toNat ≤ a.toNat)

/-- The new memory value of an atomic of 8 * bytes bits: old value, g[B] and the incoming g[D] (R74). -/
def atomic {n : Nat} (func : Nat) (old b d : BitVec n) : Option (BitVec n) :=
  match func with
  | 0 => some b
  | 1 => some (old + b)
  | 2 => some (old &&& b)
  | 3 => some (old ||| b)
  | 4 => some (old ^^^ b)
  | 5 => some (minMax 0 old b)
  | 6 => some (minMax 1 old b)
  | 7 => some (minMax 2 old b)
  | 8 => some (minMax 3 old b)
  | 9 => some (if old = d then b else old)
  | _ => none

/-! Keys (R86, R103). -/

/-- TMPL of a key. -/
def keyTmpl (k : W64) : Nat := fld k 50 14
/-- FRAME of a key. -/
def keyFrame (k : W64) : Nat := fld k 32 18
/-- INST of a key. -/
def keyInst (k : W64) : Nat := fld k 0 32
/-- A key from its fields. -/
def mkKey (tmpl frame inst : Nat) : W64 := w64 (tmpl % 2 ^ 14 * 2 ^ 50 + frame % 2 ^ 18 * 2 ^ 32 + inst % 2 ^ 32)
/-- KMAKE. -/
def kmake (k a b : W64) : W64 := mkKey a.toNat (keyFrame k) b.toNat
/-- KSETF. -/
def ksetf (a b : W64) : W64 := mkKey (keyTmpl a) b.toNat (keyInst a)
/-- KADDF. -/
def kaddf (a b : W64) : W64 := mkKey (keyTmpl a) (keyFrame a + b.toNat) (keyInst a)
/-- KADDI. -/
def kaddi (a b : W64) : W64 := mkKey (keyTmpl a) (keyFrame a) (keyInst a + b.toNat)
/-- KSETT. -/
def ksett (a b : W64) : W64 := mkKey b.toNat (keyFrame a) (keyInst a)

end Sys2Proof.Machine
end

