-- ==== Sys2Proof/Machine/Queue.lean ====
section
/-!
DEFINITION. Caddy queues (R321 to R326).
-/

namespace Sys2Proof.Machine

/-- Queue q. -/
def queue (d : Dev) (q : Nat) : Queue := Tab.get {} d.queues q

/-- Set queue q. -/
def setQueue (q : Nat) (x : Queue) (d : Dev) : Dev := { d with queues := Tab.put {} d.queues q x }

/-- Entries held in all (R322). -/
def Queue.depth (x : Queue) : Nat := x.head.length + x.held + x.tail.length

/-- Capacity (R321). -/
def Queue.capacity (x : Queue) : Nat := 32 + x.spill

/-- While the caddy holds no entry, tail entries move to the head up to 16 (R322). -/
def Queue.settle (x : Queue) : Queue :=
  if x.held = 0 then
    let n := min (16 - x.head.length) x.tail.length
    { x with head := x.head ++ x.tail.take n, tail := x.tail.drop n }
  else x

/-- Empty a queue; EN and the captured configuration stay (R324). -/
def Queue.clear (x : Queue) : Queue := { x with head := [], held := 0, first := 0, tail := [] }

/-- The caddy takes 8 tail entries as one block (R322). -/
def queSpill (q : Nat) (d : Dev) : Dev :=
  let x := queue d q
  if 8 ≤ x.tail.length ∧ x.held + 8 ≤ x.spill ∧ ¬(x.held = 0 ∧ x.head.length < 16) then
    store (x.base + (x.first + x.held) % x.spill * 32) (x.tail.take 8).flatten
      (setQueue q { x with held := x.held + 8, tail := x.tail.drop 8 } d)
  else d

/-- Push an entry: refused when the queue is full or disabled, and counted (R323). A tail of 16 has spilled before.
(DEDUCED, log entry 61.) -/
def quePush (q : Nat) (entry : List W8) (d : Dev) : Bool × Dev :=
  let x := queue d q
  if !x.enabled || decide (x.capacity ≤ x.depth) then (false, bumpSat (Reg.QUE_REFUSED q) 1 d)
  else
    let d := if 16 ≤ x.tail.length then queSpill q d else d
    (true, setQueue q { queue d q with tail := (queue d q).tail ++ [entry] }.settle d)

/-- Report a pop's result to its requester (R323). -/
def popReport (req : Req) (status : W32) (entry : List W8) (d : Dev) : Dev :=
  let d := forEach (List.range 8) (fun w => wr (ownOf req (Reg.QUE_POP_DATA w)) (w32 (ofLe (slice entry (w * 4) 4)))) d
  wr (ownOf req Reg.QUE_POP_STATUS) status d

/-- Pop one entry: the head's oldest, EMPTY at depth 0, or a wait while only the caddy holds entries (R323). (DEDUCED, log entry 61.) -/
def quePop (req : Req) (q : Nat) (d : Dev) : Dev :=
  let x := queue d q
  match x.head with
  | e :: r => popReport req 1 e (setQueue q { x with head := r }.settle d)
  | [] =>
    if x.held = 0 then popReport req 3 [] d
    else wr (ownOf req Reg.QUE_POP_STATUS) 0 (setQueue q { x with popWait := x.popWait ++ [req] } d)

/-- The queue resets to empty, with the error recorded and counted (R324). KIND 1 is a pointer mismatch, 2 a caddy
error; the info register keeps an error whose event has not been cleared. Waiting pops find it empty (R325). -/
def queError (kind q : Nat) (d : Dev) : Dev :=
  let x := queue d q
  let d := setQueue q { x.clear with popWait := [] } d
  let held := rf d Reg.QUE_ERR_INFO 28 2
  let keeps := (held == 1 && rb d Reg.QUE_EVENT 0) || (held == 2 && rb d Reg.QUE_EVENT 1)
  let d := when (!keeps) (wr Reg.QUE_ERR_INFO (w32 (kind * 2 ^ 28 + q))) d
  let d := bumpFld Reg.QUE_ERR_COUNT (if kind = 1 then 0 else 16) 16 1 d
  forEach x.popWait (fun req => popReport req 3 []) (raiseQue (if kind = 1 then 0 else 1) d)

/-- The next 8 entries of the caddy enter the head (R322); an uncorrectable word resets the queue (R324). A waiting pop
then takes the refilled entry (R325). -/
def queRefill (q : Nat) (d : Dev) : Dev :=
  let x := queue d q
  if x.head.length ≤ 8 ∧ 0 < x.held then
    match load (x.base + x.first % x.spill * 32) 256 d with
    | (none, d) => queError 2 q d
    | (some bs, d) =>
      let es := (List.range 8).map fun i => slice bs (i * 32) 32
      let x := { x with head := x.head ++ es, held := x.held - 8, first := (x.first + 8) % x.spill }.settle
      forEach x.popWait (fun req => quePop req q) (setQueue q { x with popWait := [] } d)
  else d

/-- S from LOG2SPILL (R321). -/
def spillOf (n : Nat) : Nat := if n = 0 then 0 else 2 ^ min 24 (max 4 n)

/-- The caddy's base address in the registers. -/
def caddyBase (d : Dev) (q : Nat) : Nat := (rd64 d (Reg.QUE_BASE_LO q)).toNat % 2 ^ 48

/-- QUE_CFG EN goes to 1: the queue captures its caddy, or is rejected (R321). -/
def queEnable (q : Nat) (v : W32) (d : Dev) : Dev :=
  let d := wr (Reg.QUE_CFG q) (v &&& 0x8000001F) d
  let s := spillOf (fld v 0 5)
  let base := caddyBase d q
  if 0 < s ∧ ¬(base % 4096 = 0 ∧ inDram d base (s * 32)) then raiseQue 2 (wrBit (Reg.QUE_CFG q) 31 false d)
  else setQueue q { enabled := true, spill := s, base := base } d

/-- Clearing EN discards every entry (R321); waiting pops find the queue empty. -/
def queDisable (q : Nat) (v : W32) (d : Dev) : Dev :=
  let waits := (queue d q).popWait
  forEach waits (fun req => popReport req 3 []) (setQueue q {} (wr (Reg.QUE_CFG q) (v &&& 0x8000001F) d))

/-- A write of QUE_CFG[q]: EN rising captures, EN falling discards, else the value is only held (R321, R307). -/
def queCfgWrite (q : Nat) (v : W32) (d : Dev) : Dev :=
  if bit v 31 && !(queue d q).enabled then queEnable q v d
  else if !bit v 31 && (queue d q).enabled then queDisable q v d
  else wr (Reg.QUE_CFG q) (v &&& 0x8000001F) d

/-- QUE_ENABLE: a write of QUE_CFG[q] that sets EN. -/
def execQueEnable (_req : Req) (q : Fin 1024) (v : W32) (s : State) : Host.Outcome State Fault Refusal :=
  onDev s fun _ => accessSealed (Reg.QUE_CFG q) (when (bit v 31) (queCfgWrite q v))

/-- QUE_DISABLE: a write of QUE_CFG[q] that clears EN. -/
def execQueDisable (_req : Req) (q : Fin 1024) (v : W32) (s : State) : Host.Outcome State Fault Refusal :=
  onDev s fun _ => accessSealed (Reg.QUE_CFG q) (when (!bit v 31) (queCfgWrite q v))

/-- The entry staged by a requester (R323). -/
def stagedEntry (d : Dev) (req : Req) : List W8 :=
  ((List.range 8).map fun w => leBytes 4 (rd d (ownOf req (Reg.QUE_PUSH_DATA w))).toNat).flatten

/-- A write of QUE_PUSH_CMD (R323). -/
def quePushCmd (req : Req) (q : Nat) (d : Dev) : Dev :=
  let r := quePush q (stagedEntry d req) d
  wr (ownOf req Reg.QUE_PUSH_STATUS) (if r.1 then 1 else 3) r.2

/-- QUE_PUSH. -/
def execQuePush (req : Req) (q : Fin 1024) (s : State) : Host.Outcome State Fault Refusal :=
  onDev s fun _ => access Reg.QUE_PUSH_CMD (quePushCmd req q)

/-- QUE_POP. -/
def execQuePop (req : Req) (q : Fin 1024) (s : State) : Host.Outcome State Fault Refusal :=
  onDev s fun _ => access Reg.QUE_POP_CMD (quePop req q)

/-- QUE_SPILL. -/
def execQueSpill (q : Fin 1024) (s : State) : Host.Outcome State Fault Refusal := onDev s fun _ => queSpill q

/-- QUE_REFILL. -/
def execQueRefill (q : Fin 1024) (s : State) : Host.Outcome State Fault Refusal := onDev s fun _ => queRefill q

/-- QUEUE_PTR_MISMATCH: the duplicated pointers of queue q disagree (R324). -/
def execQueuePtrMismatch (q : Fin 1024) (s : State) : Host.Outcome State Fault Refusal := onDev s fun _ => queError 1 q

end Sys2Proof.Machine
end

