-- ==== Sys2Proof/Machine/Brew.lean ====
section
/-!
DEFINITION. Brews, leaves and the steeping tables (R86 to R117), and the end of a brew by a fault (R79 to R81, R110).
-/

namespace Sys2Proof.Machine

/-- Update the array's state. -/
def onArr (f : ArrayState → ArrayState) (d : Dev) : Dev := { d with arr := f d.arr }

/-! Slots (R50, R99, R101). -/

/-- The number of a brew slot. -/
def slotNum (x : SlotId) : Nat := (x.s.val * 17 + x.f.val) * 8 + x.j.val
/-- The swarm of a slot. -/
def slotSwarm (i : Nat) : Nat := i / 136
/-- The physical firefly of a slot. -/
def slotFirefly (i : Nat) : Nat := i / 8 % 17
/-- The number of a slot on its firefly. -/
def slotIndex (i : Nat) : Nat := i % 8

/-- The brew in a slot. -/
def brewAt (d : Dev) (i : Nat) : Option Brew := Tab.get none d.arr.slots i
/-- Set the brew in a slot. -/
def setBrew (i : Nat) (b : Option Brew) : Dev → Dev := onArr fun a => { a with slots := Tab.put none a.slots i b }

/-- ARRAY frequency of swarm s in MHz (R383). -/
def arrayMHz (d : Dev) (s : Nat) : Nat :=
  match rf d (Reg.SWARM_CLK_CTL s) 0 3 with | 1 => 1200 | 2 => 800 | 3 => 400 | 4 => 0 | _ => 1600

/-- Cycles of a clock of so many MHz in a number of ticks of 0.8 ns. -/
def cyclesIn (mhz ticks : Nat) : Nat := ticks * mhz / 1250

/-- The cycles that a brew has run since its first issue (R102). -/
def brewCycles (k : Clk) (d : Dev) (i : Nat) (b : Brew) : Nat :=
  if b.issued then b.cycles + cyclesIn (arrayMHz d (slotSwarm i)) (since k b.cycTick) else 0

/-- A brew issues an instruction: with its first its cycles begin to count (R102). -/
def Brew.issue (k : Clk) (b : Brew) : Brew := if b.issued then b else { b with issued := true, cycTick := k.ticks }

/-- The physical firefly that holds logical place f of swarm s (R99, R339). -/
def fireflyAt (d : Dev) (s f : Nat) : Option Nat :=
  let st := rd d (Reg.SWARM_SPARE_STATUS s)
  if bit st 31 && fld st 24 5 == f then some 16 else if bit st f then none else some f

/-- The idle slot that takes the next brew of swarm s (R99). -/
def idleSlot (d : Dev) (s : Nat) : Option Nat :=
  ((List.range 16).flatMap fun f =>
    match fireflyAt d s f with
    | some p => (List.range 8).map fun j => (s * 17 + p) * 8 + j
    | none => []).find? fun i => (brewAt d i).isNone

/-- The slots with a brew. -/
def busySlots (d : Dev) : List (Nat × Brew) := d.arr.slots.filterMap fun (i, b) => b.map fun b => (i, b)

/-! Templates and homes (R88, R89, R93). -/

/-- Word w of template t. -/
def tmplWord (d : Dev) (t w : Nat) : W32 := Tab.get 0 d.arr.tmpl (t * 4 + w)
/-- V. -/
def tmplValid (d : Dev) (t : Nat) : Bool := bit (tmplWord d t 3) 31
/-- LEAVES; 0 means 8. -/
def tmplLeaves (d : Dev) (t : Nat) : Nat := let n := fld (tmplWord d t 3) 21 3; if n = 0 then 8 else n
/-- AFFINITY. -/
def tmplAffinity (d : Dev) (t : Nat) : Nat := fld (tmplWord d t 2) 16 8
/-- The flow of a template with FLOW_EN. -/
def tmplFlow (d : Dev) (t : Nat) : Option Nat :=
  if bit (tmplWord d t 3) 18 then some (fld (tmplWord d t 3) 0 12) else none
/-- The code address. -/
def tmplCode (d : Dev) (t : Nat) : W64 :=
  w64 (fld (tmplWord d t 2) 0 16 * 2 ^ 32 + fld (tmplWord d t 1) 2 30 * 4)

/-- The route set; 0x00 acts as 0xFF (R94, R115). -/
def routeSet (d : Dev) : Nat := let n := rf d Reg.SCHED_ROUTE_SET 0 8; if n = 0 then 0xFF else n

/-- The home swarm of a key (R93). -/
def homeOf (d : Dev) (key : W64) : Nat :=
  let m := tmplAffinity d (keyTmpl key) &&& routeSet d
  let m := if m = 0 then routeSet d else m
  let set := (List.range 8).filter fun s => m.testBit s
  set.getD (keyInst key % set.length) 0

/-- A leaf is invalid (R92). -/
def leafBad (d : Dev) (key : W64) (slot : Nat) : Bool :=
  !tmplValid d (keyTmpl key) || decide (tmplLeaves d (keyTmpl key) ≤ slot)

/-- An invalid leaf of a source other than EMIT and EMITV is discarded (R92). -/
def discardBad (key : W64) (d : Dev) : Dev :=
  raiseSched 1 (bumpFld (Reg.SWARM_LEAF_DISCARD (homeOf d key)) 0 16 1 d)

/-! The steeping table (R95 to R99, R111). -/

/-- The steeping table of swarm s. -/
def steepOf (d : Dev) (s : Nat) : Steep := Tab.get {} d.arr.steep s
/-- Set the steeping table of swarm s. -/
def setSteep (s : Nat) (x : Steep) : Dev → Dev := onArr fun a => { a with steep := Tab.put {} a.steep s x }
/-- Places in use (R96). -/
def Steep.places (x : Steep) : Nat := x.entries.length + x.markers.length
/-- The entry of a key. -/
def Steep.entry? (x : Steep) (key : W64) : Option Entry := x.entries.find? fun e => e.key == key
/-- A marker of a key stands. -/
def Steep.marked (x : Steep) (key : W64) : Bool := x.markers.any fun m => m.key == key
/-- An entry is ready. -/
def Entry.isReady (e : Entry) : Bool := e.leaves.all (·.isSome)
/-- Replace a key's entry. -/
def Steep.setEntry (x : Steep) (e : Entry) : Steep :=
  { x with entries := x.entries.map fun y => if y.key = e.key then e else y }
/-- Remove a key's entry. -/
def Steep.dropEntry (x : Steep) (key : W64) : Steep :=
  { x with entries := x.entries.filter (fun y => y.key != key), ready := x.ready.filter (· != key) }

/-- Places up to which a class may create an entry or marker (R96). -/
def placeLimit (input : Bool) : Nat := if input then 8192 else 7168

/-- SWARM_STEEP_PEAK follows the occupancy (R117). -/
def notePeak (s : Nat) (d : Dev) : Dev :=
  if rf d (Reg.SWARM_STEEP_PEAK s) 0 14 < (steepOf d s).places then
    wr (Reg.SWARM_STEEP_PEAK s) (w32 (steepOf d s).places) d
  else d

/-- A dropped input-class leaf or cancel (R97). -/
def dropInput (s : Nat) (d : Dev) : Dev := raiseSched 2 (bumpSat (Reg.SWARM_INPUT_LEAF_DROP s) 1 d)

/-- Post a tombstone (R98, R110, R111). -/
def postTomb (flow : Option Nat) (key : W64) (d : Dev) : Dev :=
  match flow with
  | some f => onArr (fun a => { a with tombs := a.tombs ++ [(f, key)] }) d
  | none => d

/-- Fill a slot of an entry; the entry that its last leaf completes joins its ready list (R95, R99). -/
def fillSlot (s : Nat) (e : Entry) (slot : Nat) (value : W64) (d : Dev) : Dev :=
  let e := { e with leaves := e.leaves.set slot (some value) }
  let x := (steepOf d s).setEntry e
  setSteep s (if e.isReady then { x with ready := x.ready ++ [e.key] } else x) d

/-- The entry that the first leaf of a key creates (R89, R95). -/
def newEntry (d : Dev) (key : W64) : Entry :=
  let t := keyTmpl key
  { key, leaves := List.replicate (tmplLeaves d t) none, prio := fld (tmplWord d t 3) 24 2
    persist := bit (tmplWord d t 3) 30, flow := tmplFlow d t }

/-- The home table of a key handles a leaf; false: it must wait for a place (R95 to R97, R111). -/
def takeLeaf (input : Bool) (key : W64) (slot : Nat) (value : W64) (d : Dev) : Bool × Dev :=
  let s := homeOf d key
  let x := steepOf d s
  if x.marked key then (true, bumpFld (Reg.SWARM_CANCEL_COUNT s) 16 16 1 d)
  else
    match x.entry? key with
    | some e =>
      if e.leaves.length ≤ slot then (true, discardBad key d)
      else if (e.leaves.getD slot none).isSome || e.isReady then
        (true, raiseSched 0 (bumpFld (Reg.SWARM_LEAF_DISCARD s) 16 16 1 d))
      else (true, pmonSwarm s 3 1 (fillSlot s e slot value d))
    | none =>
      if x.places < placeLimit input then
        let e := newEntry d key
        (true, pmonSwarm s 3 1 (fillSlot s e slot value (notePeak s (setSteep s { x with entries := x.entries ++ [e] } d))))
      else if input then (true, dropInput s d)
      else (false, d)

/-- The brews of a key that run in swarm s. -/
def runningOf (d : Dev) (s : Nat) (key : W64) : List Nat :=
  (busySlots d).filterMap fun (i, b) => if slotSwarm i = s ∧ b.key = key then some i else none

/-- A brew that waits in an instruction of the scheduler goes on: the instruction completes (R104, R105, R111). -/
def finishWait (i : Nat) (d : Dev) : Dev :=
  match brewAt d i with
  | some b => setBrew i (some { b with wait := .none, pc := b.pc + 4 }) d
  | none => d

/-- Withdraw what slot i waits to have accepted: the first refused element and all after it; what was sent before stands
without its brew (R105, R110, R111). -/
def withdraw (i : Nat) (d : Dev) : Dev :=
  onArr (fun a => { a with
    sends := (a.sends.foldl (fun (acc : Bool × List Sent) x =>
      if x.slotId = some i then
        if acc.1 || x.waits then (true, acc.2) else (false, acc.2 ++ [{ x with slotId := none }])
      else (acc.1, acc.2 ++ [x])) (false, [])).2 }) d

/-- Whether slot i has a leaf or cancel refused for want of a place. -/
def refused (d : Dev) (i : Nat) : Bool := d.arr.sends.any fun x => x.slotId == some i && x.waits

/-- A running brew is cancelled (R111, R113): an instruction it is stalled in completes as suppressed, a POUR it is stalled
in is discarded. -/
def cancelBrew (i : Nat) (d : Dev) : Dev :=
  match brewAt d i with
  | none => d
  | some b =>
    let d := setBrew i (some { b with cancelled := true }) d
    match b.wait with
    | .leaves => if refused d i then finishWait i (withdraw i d) else d
    | .pour _ => finishWait i d
    | _ => d

/-- Place a marker for a key, or restart it (R111). -/
def placeMarker (s : Nat) (key : W64) (d : Dev) : Dev :=
  let x := steepOf d s
  let markers := if x.marked key then x.markers.map (fun m => if m.key = key then { m with left := 2 } else m)
    else x.markers ++ [{ key := key }]
  notePeak s (setSteep s { x with markers } d)

/-- The home table of a key handles a cancel; false: it must wait for a place for its marker (R96, R97, R111). While a marker of the key
stands, a brew that is cancelled already is not cancelled again. (DEDUCED, log entry 91.) -/
def takeCancel (input : Bool) (key : W64) (d : Dev) : Bool × Dev :=
  let s := homeOf d key
  let x := steepOf d s
  let entry := x.entry? key
  let brews := (runningOf d s key).filter fun i => !x.marked key || !(brewAt d i).any (·.cancelled)
  let counted := brews.length + bnat entry.isSome
  if entry.isNone && !x.marked key && decide (placeLimit input ≤ x.places) then
    (if input then (true, dropInput s d) else (false, d))
  else
    let d := match entry with
      | some e => postTomb e.flow key (setSteep s (x.dropEntry key) d)
      | none => if counted = 0 && !x.marked key then postTomb (tmplFlow d (keyTmpl key)) key d else d
    (true, placeMarker s key (forEach brews cancelBrew (bumpFld (Reg.SWARM_CANCEL_COUNT s) 0 16 counted d)))

/-- A brew stalls in a brew instruction (R117). -/
def Brew.stalled (b : Brew) : Bool := match b.wait with | .leaves => true | .pour _ => true | .ending => true | _ => false

/-- The clock of swarm s runs (R383). -/
def swarmRuns (d : Dev) (s : Nat) : Bool := decide (0 < arrayMHz d s)

/-! Meters: stalls counted in cycles (R97, R128, R138, R156). -/

/-- A meter that is on counts from its tick; one that goes off, or is read, adds the cycles of its clock to its counter. -/
def meter (read : Bool) (key mhz : Nat) (active : Dev → Bool) (add : Nat → Dev → Dev) (k : Clk) (d : Dev) : Dev :=
  let set (v : Option W64) := onArr fun a => { a with meters := Tab.put none a.meters key v }
  match Tab.get none d.arr.meters key with
  | none => if active d then set (some k.ticks) d else d
  | some t =>
    if active d && !read then d
    else add (cyclesIn mhz k.ticks.toNat - cyclesIn mhz t.toNat) (set (if active d then some k.ticks else none) d)

/-- Records that the pour unit holds (R128). -/
def heldRecs (d : Dev) : List Rec :=
  (busySlots d).flatMap (fun (_, b) => b.recs) ++ d.arr.loose
    ++ d.arr.flows.flatMap fun (_, f) => f.out ++ f.closed.flatMap fun c => c.recs.getD []

/-- Blocks of pour memory of a record (R128). -/
def Rec.blocks (r : Rec) : Nat := (r.data.length + 63) / 64

/-- Blocks of pour memory in use. -/
def pourBlocks (d : Dev) : Nat := ((heldRecs d).map Rec.blocks).sum

/-- Record places in use. -/
def pourPlaces (d : Dev) : Nat := (heldRecs d).length

/-- A record fits into pour memory; the last blocks and places are for position 0 (R128). -/
def pourFits (d : Dev) (first : Bool) (r : Rec) : Bool :=
  decide (pourBlocks d + r.blocks ≤ 131072 - (if first then 0 else 1024)
    ∧ pourPlaces d + 1 ≤ 32768 - (if first then 0 else 16))

/-- Start and stop the meters of what holds now: stalls, infuser work and busy slots; `read` brings their counters up to this tick.
(DESIGN CHOICE, log entry 91.) -/
def settleMeters (read : Bool) (k : Clk) (d : Dev) : Dev :=
  let d := forEach (List.range 8) (fun s d =>
    let d := meter read (4 * s) (arrayMHz d s) (fun d => d.arr.sends.any fun x => x.waits && x.slotId.any (slotSwarm · == s))
      (fun n d => pmonSwarm s 2 n (bumpSat (Reg.SWARM_EMIT_STALL s) n d)) k d
    let d := meter read (4 * s + 1) (arrayMHz d s) (fun d => d.arr.infuserStalled.any fun x => slotSwarm x.slotId == s)
      (bumpSat (Reg.SWARM_INF_STALL s)) k d
    meter read (4 * s + 2) 1000 (fun d => Tab.get [] d.arr.infuser s != [])
      (fun n d => pmonSwarm s 4 n (bumpSat64 (Reg.SWARM_INF_BUSY_LO s) n d)) k d) d
  let d := meter read 64 1000 (fun d => (busySlots d).any fun (_, b) =>
    match b.wait with | .pour r => !pourFits d false r | _ => false)
    (fun n d => pmon 0x2C2 n (bumpSat Reg.SCHED_POUR_STALL n d)) k d
  let slots := (busySlots d).map (·.1) ++ d.arr.meters.filterMap fun (n, _) => if 65 ≤ n then some (n - 65) else none
  forEach slots.eraseDups (fun i d =>
    meter read (65 + i) (arrayMHz d (slotSwarm i)) (fun d => (brewAt d i).isSome) (pmonSwarm (slotSwarm i) 1) k d) d

/-- Start and stop the meters after a change. -/
def settle (k : Clk) (d : Dev) : Dev := settleMeters false k d

/-- Sources of which the manual does not say what one access is to them: Kettle blocks, DRAM bursts and TLPs (R386). -/
def freeSources : List Nat := [0x200, 0x201, 0x240, 0x241, 0x280, 0x281]

/-- A source has fired a free number of times in n FABRIC cycles, at most 64 times in each. (DESIGN CHOICE, log entry 76.) -/
def pmonFree (n src : Nat) (d : Dev) : Dev := pmon src ((free d).1.toNat % (64 * n + 1)) (free d).2

/-- Bring every counter that counts by time up to this tick (R97, R128, R138, R156, R386). -/
def settleCounts (k : Clk) (d : Dev) : Dev :=
  let d := settleMeters true k d
  let n := cyclesIn 1000 k.ticks.toNat - cyclesIn 1000 d.sys.pmonTick.toNat
  let d := pmon 1 n { d with sys := { d.sys with pmonTick := k.ticks } }
  forEach (freeSources.filter fun src => rb d Reg.PMON_CTL 0 && (List.range 32).any fun i => rf d (Reg.PMON_SEL i) 0 10 == src) (pmonFree n) d

/-! The end of a brew (R79 to R81, R110). -/

/-- Free slot i: its instruction in the infuser writes nothing (R138, R155). (DESIGN CHOICE, log entry 91.) -/
def freeSlot (i : Nat) (d : Dev) : Dev :=
  onArr (fun a => { a with
    slots := Tab.put none a.slots i none
    infuser := Tab.put [] a.infuser (slotSwarm i) ((Tab.get [] a.infuser (slotSwarm i)).filter fun x => x.slotId != i)
    infuserStalled := a.infuserStalled.filter fun x => x.slotId != i }) (withdraw i d)

/-- A fault record (R80). -/
def faultRecord (b : Brew) (i code lane : Nat) (addr : W64) : List W8 :=
  leBytes 8 b.key.toNat ++ leBytes 8 b.pc.toNat ++ leBytes 8 addr.toNat
    ++ leBytes 8 (lane * 2 ^ 32 + slotIndex i * 2 ^ 24 + slotFirefly i * 2 ^ 16 + slotSwarm i * 2 ^ 8 + code)

/-- Push a fault record of swarm s and count it (R81). -/
def reportFault (s : Nat) (record : List W8) (d : Dev) : Dev :=
  let ctl := rd d (Reg.SWARM_FAULT_CTL s)
  let d := pmonSwarm s 5 1 (bumpFld (Reg.SWARM_FAULT_COUNT s) 0 16 1 d)
  let r := if bit ctl 10 then quePush (fld ctl 0 10) record d else (false, d)
  if r.1 then r.2 else bumpFld (Reg.SWARM_FAULT_COUNT s) 16 16 1 r.2

/-- The brew in slot i ends by a fault, overtime or an abort (R79, R110). -/
def killBrew (i code : Nat) (addr : W64) (lane : Nat) (d : Dev) : Dev :=
  match brewAt d i with
  | none => d
  | some b => postTomb b.flow b.key (freeSlot i (reportFault (slotSwarm i) (faultRecord b i code lane addr) d))

/-! The happenings of the tables. -/

/-- Set the list of what brews send. -/
def setSends (l : List Sent) : Dev → Dev := onArr fun a => { a with sends := l }

/-- A leaf or cancel of a brew has been taken off the list: with its last the brew goes on (R104, R105). -/
def sentOff (x : Sent) (d : Dev) : Dev :=
  match x.slotId with
  | some i => if d.arr.sends.any (fun y => y.slotId == some i) then d else finishWait i d
  | none => d

/-- The home table handles what a brew sent, which is off the list by then; false: it must wait for a place (R95 to R97, R111). -/
def takeSent (x : Sent) (d : Dev) : Bool × Dev :=
  if x.cancel then takeCancel false x.key d else takeLeaf false x.key x.slot x.value d

/-- A leaf or cancel whose brew waits for an earlier one of the same instruction. -/
def behindRefused (d : Dev) (n : Nat) (x : Sent) : Bool :=
  x.slotId.isSome && (d.arr.sends.take n).any fun y => y.slotId == x.slotId && y.waits

/-- The first leaf (or cancel) of a brew for swarm s that may act and can be taken, refused before or not, is taken off the list and
handled. One that is refused is marked as waiting in the second component, or withdrawn where its brew is cancelled (R111).
(DEDUCED, log entry 33.) -/
def serveSends (s : Nat) (cancel : Bool) (d : Dev) : Bool × Dev :=
  (List.range d.arr.sends.length).foldl (fun (acc : Bool × Dev) n =>
    if acc.1 then acc
    else
      match acc.2.arr.sends[n]? with
      | none => acc
      | some x =>
        if x.cancel != cancel || homeOf acc.2 x.key != s || behindRefused acc.2 n x then acc
        else
          let r := takeSent x (setSends (acc.2.arr.sends.eraseIdx n) acc.2)
          if r.1 then (true, sentOff x r.2)
          else
            let d := setSends (acc.2.arr.sends.set n { x with waits := true }) acc.2
            match x.slotId with
            | some i => (false, if (brewAt d i).any (·.cancelled) then finishWait i (withdraw i d) else d)
            | none => (false, d)) (false, d)

/-- The frame leaf of template t that a value names: its key (R91). -/
def frameLeafKey (t : Nat) (v : W64) : W64 := mkKey t v.toNat 0

/-- The first frame leaf for swarm s that can be taken; later leaves of a template queue behind its earlier ones (R97). Its FRAME_SLOT is
the one that the template holds now. (DESIGN CHOICE, log entry 97.) -/
def serveFrame (s : Nat) (d : Dev) : Bool × Dev :=
  (List.range d.arr.frameLeaves.length).foldl (fun (acc : Bool × Dev) n =>
    if acc.1 then acc
    else
      match acc.2.arr.frameLeaves[n]? with
      | none => acc
      | some (t, v) =>
        let key := frameLeafKey t v
        let slot := fld (tmplWord acc.2 t 3) 26 3
        if homeOf acc.2 key != s || (acc.2.arr.frameLeaves.take n).any (fun y => y.1 == t) then acc
        else
          let r := if leafBad acc.2 key slot then (true, discardBad key acc.2) else takeLeaf false key slot v acc.2
          if r.1 then (true, onArr (fun a => { a with frameLeaves := a.frameLeaves.eraseIdx n }) r.2) else acc) (false, d)

/-- Delay list j of swarm s. -/
def delayList (d : Dev) (n : Nat) : List DelayEntry := Tab.get [] d.arr.delays n
/-- Set delay list n. -/
def setDelayList (n : Nat) (l : List DelayEntry) : Dev → Dev :=
  onArr fun a => { a with delays := Tab.put [] a.delays n l }

/-- Whether short time a lies before b (R20). -/
def earlier (a b : W64) : Bool := later b a

/-- The first entry of swarm s with a property, by due time, list and insertion: its list and place (R132). -/
def firstDelay (p : DelayEntry → Bool) (d : Dev) (s : Nat) : Option (Nat × Nat × DelayEntry) :=
  (List.range 4).foldl (fun acc j =>
    match firstIdx p (delayList d (4 * s + j)) 0 with
    | none => acc
    | some i =>
      match (delayList d (4 * s + j))[i]? with
      | none => acc
      | some e =>
        match acc with
        | some (_, _, b) => if earlier e.due b.due then some (j, i, e) else acc
        | none => some (j, i, e)) none

/-- The entry of swarm s that is released next: the deferred one, behind which every ready entry waits, else the first that is ready (R132). -/
def readyDelay (d : Dev) (s : Nat) : Option (Nat × Nat × DelayEntry) :=
  match firstDelay (·.deferred) d s with
  | some x => some x
  | none => firstDelay (·.ready) d s

/-- Release the first ready delay entry of swarm s; one without a place is deferred, counted once (R132). -/
def serveDelay (s : Nat) (d : Dev) : Bool × Dev :=
  match readyDelay d s with
  | none => (false, d)
  | some (j, i, e) =>
    let remove := setDelayList (4 * s + j) ((delayList d (4 * s + j)).eraseIdx i)
    if leafBad d e.key e.slot then (true, discardBad e.key (remove d))
    else
      let r := takeLeaf false e.key e.slot e.value (remove d)
      if r.1 then r
      else if e.deferred then (false, d)
      else (false, raiseRel 9 (bumpFld (Reg.SWARM_DLY_LATE s) 16 16 1
        (setDelayList (4 * s + j) ((delayList d (4 * s + j)).set i { e with deferred := true }) d)))

/-- The first input-class leaf or cancel for swarm s, in the order of release: its place (R116). -/
def headInput (d : Dev) (s : Nat) : Option (Nat × Push) :=
  match firstIdx (fun (x : Push) => homeOf d x.key == s) d.arr.inputs 0 with
  | none => none
  | some n => (d.arr.inputs[n]?).map fun x => (n, x)

/-- An input-class leaf waits for the table of swarm s, which then serves no compute source (R95). -/
def inputWaits (d : Dev) (s : Nat) : Bool := d.arr.inputs.any fun x => homeOf d x.key == s && !x.cancel

/-- Take input n off its queue. -/
def dropPush (n : Nat) : Dev → Dev := onArr fun a => { a with inputs := a.inputs.eraseIdx n }

/-- The first input for swarm s is served when it is a leaf; a leaf behind a cancel waits for it (R95, R116). -/
def serveInput (s : Nat) (d : Dev) : Bool × Dev :=
  match headInput d s with
  | some (n, x) =>
    if x.cancel then (false, d)
    else
      let d := dropPush n d
      (true, if leafBad d x.key x.slot then discardBad x.key d else (takeLeaf true x.key x.slot x.value d).2)
  | none => (false, d)

/-- The leaf at the head of the immediate host port, when it is for swarm s (R95, R97, R116). -/
def serveHost (s : Nat) (d : Dev) : Bool × Dev :=
  match d.arr.immediate with
  | x :: r =>
    let popped := onArr (fun a => { a with immediate := r }) d
    if x.cancel || homeOf d x.key != s then (false, d)
    else if leafBad d x.key x.slot then (true, discardBad x.key popped)
    else
      let y := takeLeaf false x.key x.slot x.value popped
      if y.1 then y else (false, d)
  | [] => (false, d)

/-- One compute source of the rotation: brews, delay entries, frame clock, immediate host port (R95). (DEDUCED, log entry 33.) -/
def serveSource (n s : Nat) (d : Dev) : Bool × Dev :=
  match n with | 0 => serveSends s false d | 1 => serveDelay s d | 2 => serveFrame s d | _ => serveHost s d

/-- The table port of swarm s goes round the compute sources from the one after the source served last, passes over those with nothing that it
can take now, serves one leaf, and tells of which source (R95). -/
def rotate (s : Nat) (d : Dev) : Option Nat × Dev :=
  let t := (steepOf d s).turn
  (List.range 4).foldl (fun (acc : Option Nat × Dev) i =>
    if acc.1.isSome then acc
    else
      let n := (t + i) % 4
      let r := serveSource n s acc.2
      if r.1 then (some n, setSteep s { steepOf r.2 s with turn := (n + 1) % 4 } r.2) else (none, r.2)) (none, d)

/-- The table port of swarm s serves a leaf of compute source n if the rotation has come to it, and no input-class leaf waits (R95, R97). -/
def serveTurn (n s : Nat) (d : Dev) : Dev :=
  if !swarmRuns d s || inputWaits d s then d
  else
    let r := rotate s d
    if r.1.any (· != n) then d else r.2

/-- The table port of swarm s takes one leaf: input class first, else the compute sources in rotation (R95). -/
def leafArrive (s : Nat) (d : Dev) : Dev :=
  if !swarmRuns d s then d
  else
    let r := serveInput s d
    if r.1 then r.2
    else if inputWaits d s then d
    else (rotate s d).2

/-- LEAF_ARRIVE. -/
def execLeafArrive (s : Fin 8) (st : State) : Host.Outcome State Fault Refusal :=
  onDev st fun k d => settle k (leafArrive s d)

/-- The age of a frame against the current frame (R87). -/
def ageOf (d : Dev) (frame : Nat) : Nat := (d.frm.cur - BitVec.ofNat 18 frame).toNat

/-- The stale sweep discards this entry (R98). -/
def stale (d : Dev) (e : Entry) : Bool :=
  !e.persist && decide (max 2 (rf d Reg.SCHED_STALE_CTL 0 16) ≤ ageOf d (keyFrame e.key) ∧ ageOf d (keyFrame e.key) < 2 ^ 17)

/-- The stale sweep of the table of swarm s (R98). -/
def sweepTable (s : Nat) (d : Dev) : Dev :=
  let old := (steepOf d s).entries.filter (stale d)
  forEach old (fun e d =>
    raiseSched 3 (bumpSat (Reg.SWARM_STALE_COUNT s) 1
      (postTomb e.flow e.key (setSteep s ((steepOf d s).dropEntry e.key) d)))) (setSteep s { steepOf d s with sweepDue := false } d)

/-- A cancel has reached the table of swarm s and can act now (R98): the next input, a brew's, or the immediate host port's next. -/
def cancelPending (d : Dev) (s : Nat) : Bool :=
  (headInput d s).any (fun x => x.2.cancel)
    || d.arr.sends.any (fun x => x.cancel && homeOf d x.key == s && (takeSent x d).1)
    || d.arr.immediate.head?.any fun x => x.cancel && homeOf d x.key == s && (takeCancel false x.key d).1

/-- The sweep of swarm s that its last boundary asked for, once no cancel is pending (R98). (DEDUCED, log entry 34.) -/
def sweepPass (s : Nat) (d : Dev) : Dev := if (steepOf d s).sweepDue && !cancelPending d s then sweepTable s d else d

/-- A boundary asks every table for a sweep (R98). -/
def sweep (d : Dev) : Dev :=
  forEach (List.range 8) (fun s d => sweepPass s (setSteep s { steepOf d s with sweepDue := true } d)) d

/-- The table of swarm s handles one cancel: of the latched host port when it is the port's next, else of a brew (R95, R111, R116). -/
def cancelArrive (s : Nat) (d : Dev) : Dev :=
  if !swarmRuns d s then d
  else
    sweepPass s (match headInput d s with
      | some (n, x) => if x.cancel then (takeCancel true x.key (dropPush n d)).2 else (serveSends s true d).2
      | none => (serveSends s true d).2)

/-- CANCEL_ARRIVE. -/
def execCancelArrive (s : Fin 8) (st : State) : Host.Outcome State Fault Refusal :=
  onDev st fun k d => settle k (cancelArrive s d)

/-- A cancel of a brew that waited for a place of swarm s is accepted if one is free, else a leaf when the table port comes to the brews
(R95, R97). -/
def waitingDeliver (s : Nat) (d : Dev) : Dev :=
  if !swarmRuns d s then d
  else
    let r := serveSends s true d
    if r.1 then sweepPass s r.2 else serveTurn 0 s r.2

/-- WAITING_LEAF_DELIVER. -/
def execWaitingLeafDeliver (s : Fin 8) (st : State) : Host.Outcome State Fault Refusal :=
  onDev st fun k d => settle k (waitingDeliver s d)

/-- The registers of a brew at dispatch (R46). -/
def freshBrew (k : Clk) (d : Dev) (e : Entry) : Brew where
  key := e.key
  pc := tmplCode d (keyTmpl e.key)
  l := e.leaves.zipIdx.foldl (fun t (v, i) => Tab.put 0 t i (v.getD 0)) []
  flow := e.flow
  cycTick := k.ticks

/-- Dispatch the head of swarm s's highest ready list into an idle slot (R99). -/
def dispatch (s : Nat) (k : Clk) (d : Dev) : Dev :=
  let x := steepOf d s
  let ready := x.ready.filterMap x.entry?
  let best := [3, 2, 1, 0].findSome? fun p => ready.find? fun e => e.prio == p
  match rb d Reg.SCHED_CTL 0 && swarmRuns d s, best, idleSlot d s with
  | true, some e, some i =>
    pmonSwarm s 0 1 (bumpSat64 (Reg.SWARM_DISPATCHED_LO s) 1
      (setBrew i (some (freshBrew k d e)) (setSteep s (x.dropEntry e.key) d)))
  | _, _, _ => d

/-- DISPATCH. -/
def execDispatch (s : Fin 8) (st : State) : Host.Outcome State Fault Refusal :=
  onDev st fun k d => settle k (dispatch s k d)

/-- BREW_CYCLE_LIMIT (R115). -/
def cycleLimit (d : Dev) : Nat := max 1024 (rd d Reg.SCHED_CYCLE_LIMIT).toNat

/-- A brew past its limit is killed (R102). -/
def brewOvertime (i : Nat) (k : Clk) (d : Dev) : Dev :=
  match brewAt d i with
  | some b => if cycleLimit d < brewCycles k d i b then killBrew i 0x10 0 0xFF d else d
  | none => d

/-- BREW_OVERTIME. -/
def execBrewOvertime (x : SlotId) (s : State) : Host.Outcome State Fault Refusal :=
  onDev s fun k d => settle k (brewOvertime (slotNum x) k d)

/-- Markers that two boundaries have passed over expire (R111). -/
def markerExpire (s : Nat) (d : Dev) : Dev :=
  setSteep s { steepOf d s with markers := (steepOf d s).markers.filter fun m => m.left != 0 } d

/-- MARKER_EXPIRE. -/
def execMarkerExpire (s : Fin 8) (st : State) : Host.Outcome State Fault Refusal := onDev st fun _ => markerExpire s

/-- A boundary brings every marker nearer its expiry (R111). -/
def ageMarkers (d : Dev) : Dev :=
  forEach (List.range 8) (fun s d => setSteep s { steepOf d s with
    markers := (steepOf d s).markers.map fun m => { m with left := m.left - 1 } } d) d

/-- A brew table is idle: no entry, marker or running brew, both host ports empty (R115). -/
def schedIdle (d : Dev) : Bool :=
  ((List.range 8).all fun s => (steepOf d s).places == 0) && (busySlots d).isEmpty
    && d.arr.latched.isEmpty && d.arr.immediate.isEmpty

/-! Requesters' commands (R90, R94, R116). -/

/-- SCHED_TMPL_CMD.WRITE by a requester (R90). The reserved bits of the words read zero. -/
def tmplWrite (req : Req) (d : Dev) : Dev :=
  let t := fld (rd d (ownOf req Reg.SCHED_TMPL_IDX)) 0 14
  let mask : List W32 := [0, 0xFFFFFFFC, 0x00FFFFFF, 0xFFFC0FFF]
  onArr (fun a => { a with tmpl := (List.range 4).foldl (fun tab w =>
    Tab.put 0 tab (t * 4 + w) (rd d (ownOf req (Reg.SCHED_TMPL_DATA w)) &&& mask.getD w 0)) a.tmpl }) d

/-- SCHED_TMPL_CMD.READ by a requester (R90). -/
def tmplRead (req : Req) (d : Dev) : Dev :=
  let t := fld (rd d (ownOf req Reg.SCHED_TMPL_IDX)) 0 14
  forEach (List.range 4) (fun w => wr (ownOf req (Reg.SCHED_TMPL_DATA w)) (tmplWord d t w)) d

/-- A write of SCHED_TMPL_CMD: WRITE goes before READ (R90). -/
def tmplCmd (req : Req) (v : W32) (d : Dev) : Dev :=
  if bit v 1 then tmplWrite req d else if bit v 0 then tmplRead req d else d

/-- SCHED_TMPL_WRITE. -/
def execSchedTmplWrite (req : Req) (s : State) : Host.Outcome State Fault Refusal :=
  onDev s fun _ => access Reg.SCHED_TMPL_CMD (tmplWrite req)

/-- SCHED_TMPL_READ. -/
def execSchedTmplRead (req : Req) (s : State) : Host.Outcome State Fault Refusal :=
  onDev s fun _ => access Reg.SCHED_TMPL_CMD (tmplRead req)

/-- The queue of host port p, and its capacity (R116). -/
def hostPort (d : Dev) (p : Nat) : List Push := if p = 0 then d.arr.latched else d.arr.immediate
/-- Capacity of host port p. -/
def hostPortSize (p : Nat) : Nat := if p = 0 then 4096 else 64
/-- Set the queue of host port p. -/
def setHostPort (p : Nat) (l : List Push) : Dev → Dev :=
  onArr fun a => if p = 0 then { a with latched := l } else { a with immediate := l }

/-- The active mirrors a push to its latched host port with the boundary that latches it: the next one, or where that one falls in this
tick the one after it (R9, R283). -/
def mirrorPush (x : Push) (k : Clk) (d : Dev) : Dev :=
  if d.pair.mode == .active && rb d Reg.PAIR_MIRROR_CTL 31 then
    let f := (nextBoundary k d).elim (d.frm.lastFrame + 1) fun (f, b) => if b ≤ now k then f + 1 else f
    cricketSend 7 (messageBytes 8 [f, x.key, w64 x.slot, x.value, w64 (bnat x.cancel)]) k d
  else d

/-- With MIRROR_HOST at 1 the partner of the active discards pushes to its own latched host port (R283). -/
def pushClosed (d : Dev) (p : Nat) : Bool :=
  p == 0 && rb d Reg.PAIR_MIRROR_CTL 31
    && (d.pair.mode == .sync || d.pair.mode == .cozy || d.pair.mode == .degraded || d.pair.mode == .taking)

/-- A write of SCHED_LEAF_PUSH[p] (R116, R283). -/
def leafPush (req : Req) (p : Nat) (v : W32) (k : Clk) (d : Dev) : Dev :=
  if pushClosed d p then d
  else if hostPortSize p ≤ (hostPort d p).length then raiseSched 4 (bumpSat (Reg.SCHED_LEAF_OVF p) 1 d)
  else
    let own (a : Nat) : W32 := rd d (ownOf req a)
    let x : Push := { key := pair64 (own (Reg.SCHED_LEAF_KEY_LO p)) (own (Reg.SCHED_LEAF_KEY_HI p)), slot := fld v 0 3
                      value := pair64 (own (Reg.SCHED_LEAF_VAL_LO p)) (own (Reg.SCHED_LEAF_VAL_HI p)), cancel := bit v 3, tick := k.ticks }
    let d := setHostPort p (hostPort d p ++ [x]) d
    if p = 0 then mirrorPush x k d else d

/-- SCHED_LEAF_PUSH_LEAF. -/
def execSchedLeafPushLeaf (req : Req) (p : Fin 2) (slot : Fin 8) (s : State) : Host.Outcome State Fault Refusal :=
  onDev s fun k => access (Reg.SCHED_LEAF_PUSH p) (leafPush req p (w32 slot) k)

/-- SCHED_LEAF_PUSH_CANCEL. -/
def execSchedLeafPushCancel (req : Req) (p : Fin 2) (s : State) : Host.Outcome State Fault Refusal :=
  onDev s fun k => access (Reg.SCHED_LEAF_PUSH p) (leafPush req p 8 k)

/-- The immediate host port releases its oldest push, if its home table takes it: a leaf when the table port comes to it (R95, R97, R116). -/
def hostRelease (d : Dev) : Dev :=
  match d.arr.immediate with
  | [] => d
  | x :: r =>
    let s := homeOf d x.key
    if !swarmRuns d s then d
    else if x.cancel then
      let y := takeCancel false x.key (setHostPort 1 r d)
      if y.1 then sweepPass s y.2 else d
    else serveTurn 3 s d

/-- HOST_PORT_RELEASE. -/
def execHostPortRelease (s : State) : Host.Outcome State Fault Refusal := onDev s fun k d => settle k (hostRelease d)

/-- A write of SCHED_ROUTE_SET (R94). -/
def routeSetWrite (v : W32) (d : Dev) : Dev :=
  if !rb d Reg.SCHED_CTL 0 && schedIdle d then wr Reg.SCHED_ROUTE_SET (v &&& 0xFF) d else raiseSched 5 d

/-- SCHED_ROUTE_SET_WRITE. -/
def execSchedRouteSetWrite (_req : Req) (v : W32) (s : State) : Host.Outcome State Fault Refusal :=
  onDev s fun _ => accessSealed Reg.SCHED_ROUTE_SET (routeSetWrite v)

/-- SYS_ABORT of swarm s: its brews end, its table empties (R110). -/
def swarmAbort (s : Nat) (d : Dev) : Dev :=
  let d := forEach ((busySlots d).filter fun (i, _) => slotSwarm i == s) (fun (i, _) => killBrew i 0x16 0 0xFF) d
  let d := forEach (steepOf d s).entries (fun e => postTomb e.flow e.key) d
  setSteep s { steepOf d s with entries := [], markers := [], ready := [] } d

end Sys2Proof.Machine
end

