-- ==== Sys2Proof/Machine/Rx.lean ====
section
/-!
DEFINITION. Receive, strainer and receive rings (R218 to R233, R239 to R242), and a port's enable and link (R193, R194, R211).
-/

namespace Sys2Proof.Machine

/-! Tags and the strainer (R219 to R224). -/

/-- A TPID that port p takes as a tag's (R219). -/
def isTpid (d : Dev) (p x : Nat) : Bool :=
  x == 0x8100 || x == 0x88A8 || (x == rf d (Reg.SPORT_RX_TPID p) 0 16 && x != 0)

/-- The tags that the port recognises: at most two (R219). -/
def tagCount (d : Dev) (p : Nat) (l : List W8) : Nat :=
  if isTpid d p (be16 l 12) then (if isTpid d p (be16 l 16) then 2 else 1) else 0

/-- The frame's EtherType has been received. -/
def hasEtype (d : Dev) (p : Nat) (l : List W8) : Bool := decide (14 + 4 * tagCount d p l ≤ l.length)

/-- Bit h of the hash table is 1 for an address (R222). -/
def hashHit (d : Dev) (p : Nat) (l : List W8) : Bool :=
  let h := ((l.take 6).foldl (· ^^^ ·) 0).toNat
  bit (byteAt l 0) 0 && rb d (Reg.SPORT_RX_MCHASH p (h / 32)) (h % 32)

/-- Entry e of port p matches a frame (R221, R222). -/
def entryMatch (d : Dev) (p : Nat) (l : List W8) (e : Nat) : Bool :=
  let w (i : Nat) : W32 := rd d (Reg.SPORT_STRAIN p e i)
  let n := tagCount d p l
  let otci := be16 l 14
  let itci := be16 l 18
  let dmac := ofBe (l.take 6)
  let tags := fld (w 1) 30 2
  bit (w 0) 31
    && (tags == 0 || n == tags - 1)
    && (!bit (w 1) 29 || (decide (1 ≤ n) && otci % 4096 == fld (w 2) 16 12))
    && (!bit (w 1) 28 || (decide (1 ≤ n) && otci / 8192 == fld (w 1) 20 3))
    && (!bit (w 1) 27 || (decide (2 ≤ n) && itci % 4096 == fld (w 2) 0 12))
    && (!bit (w 1) 26 || (decide (2 ≤ n) && itci / 8192 == fld (w 1) 17 3))
    && (!bit (w 1) 25 || be16 l (12 + 4 * n) == fld (w 3) 0 16)
    && (match fld (w 1) 23 2 with
      | 0 => true
      | 1 => dmac == fld (w 4) 0 16 * 2 ^ 32 + (w 5).toNat
      | 2 => hashHit d p l
      | _ => dmac == 2 ^ 48 - 1)

/-- The strainer's judgment (R220). -/
def strain (d : Dev) (p : Nat) (l : List W8) : Judged :=
  match (List.range 64).find? (entryMatch d p l) with
  | some e => { entry := some e, word := rd d (Reg.SPORT_STRAIN p e 0), tags := tagCount d p l }
  | none => { entry := none, word := rd d (Reg.SPORT_RX_DEFAULT p), tags := tagCount d p l }

/-- What a judgment does with a frame (R221, R223). -/
inductive Action where
  | ring (q : Nat)
  | sacn
  | st (stream : Nat)
  | firmware
  | drop
  deriving DecidableEq, Repr

/-- The action of a word 0. -/
def Judged.action (j : Judged) : Action :=
  match fld j.word 28 3 with
  | 0 => .ring (fld j.word 24 3)
  | 1 => (match fld j.word 20 4 with | 0 => .sacn | 1 => .st (fld j.word 16 3) | _ => .drop)
  | 2 => .firmware
  | _ => .drop

/-! Receive rings (R225 to R231). -/

/-- Receive ring q of a port. -/
def Port.rxRing (x : Port) (q : Nat) : RxRing := Tab.get {} x.rxRings q
/-- Set receive ring q. -/
def setRxRing (p q : Nat) (r : RxRing) : Dev → Dev := onPort p fun x => { x with rxRings := Tab.put {} x.rxRings q r }

/-- HEAD of ring q. -/
def rxHead (d : Dev) (p q : Nat) : Nat := rf d (Reg.SPORT_RXQ_HEAD p q) 0 16 % 2 ^ ((port d p).rxRing q).log2

/-- Descriptors of ring q that the port owns (R225). -/
def rxOwned (d : Dev) (p q : Nat) : Nat :=
  let n := 2 ^ ((port d p).rxRing q).log2
  (rf d (Reg.SPORT_RXQ_TAIL p q) 0 16 % n + n - rxHead d p q) % n

/-- The watermark of ring q is evaluated (R231). -/
def evalWm (p q : Nat) (d : Dev) : Dev :=
  let r := (port d p).rxRing q
  let wm := rf d (Reg.SPORT_RXQ_WM p q) 0 16
  let above := decide (wm ≠ 0 ∧ wm ≤ 2 ^ r.log2 - 1 - rxOwned d p q)
  let d := when (above && !r.above) (fun d => raiseWm p q (bumpSat (Reg.SPORT_RXQ_WM_CROSSINGS p q) 1 d)) d
  setRxRing p q { r with above } d

/-- HEAD advances past n descriptors (R228, R231). (DEDUCED, log entry 42.) -/
def rxAdvance (p q n : Nat) (d : Dev) : Dev :=
  evalWm p q (wrFld (Reg.SPORT_RXQ_HEAD p q) 0 16 ((rxHead d p q + n) % 2 ^ ((port d p).rxRing q).log2) d)

/-- Tags that ring r removes of a frame with n (R226). -/
def RxRing.strips (r : RxRing) (n : Nat) : Nat := min n (min 2 r.strip)

/-- The tags that ring x removes of a frame, of those that the strainer recognised (R219, R226). -/
def RxFrame.stripped (x : RxRing) (r : RxFrame) : Nat := x.strips ((r.judged.map (·.tags)).getD 0)

/-- The bytes that go to the buffers, of a frame's bytes so far (R226). -/
def rxStream (x : RxRing) (r : RxFrame) : List W8 :=
  let s := r.bytes.take 12 ++ r.bytes.drop (12 + 4 * r.stripped x)
  if x.keepFcs then s else s.take (s.length - 4)

/-- The bad descriptor is written back alone and HEAD moves past it (R230); fields that the rule does not state are open within the table of
R227: no stamp, or the frame's; no tags, or those removed; no judgment, or the frame's. (DEDUCED, log entry 42.) -/
def badBuffer (p q desc i : Nat) (r : RxFrame) (d : Dev) : Dev :=
  let a := free d
  let b := free a.2
  let ts := bit b.1 0 && !(port d p).half
  let n := if bit b.1 1 then r.stripped ((port d p).rxRing q) else 0
  let entry := if bit b.1 2 then r.judged.map (·.entry) else none
  let stamp := if ts then shortOf r.stamp else a.1
  let w2 := (if 1 ≤ n then be16 r.bytes 14 else 0) * 2 ^ 48 + (if 2 ≤ n then be16 r.bytes 18 else 0) * 2 ^ 32
    + (if ts then (fracOf r.stamp).toNat else a.1.toNat % 2 ^ 32)
  let w3 := 2 ^ 63 + bnat (bit b.1 3) * 2 ^ 62 + bnat (bit b.1 4) * 2 ^ 61 + bnat ts * 2 ^ 60 + bnat (entry == some none) * 2 ^ 59
    + bnat (bit b.1 5) * 2 ^ 58 + n * 2 ^ 56 + 2 ^ 54 + ((entry.getD none).getD 0) * 2 ^ 48
  let bytes := leBytes 8 stamp.toNat ++ leBytes 8 w2 ++ leBytes 8 w3
  raiseRx p 2 (rxAdvance p q (i + 1) (store (desc + 8) bytes b.2))

/-- The frame takes its next buffer, or is dropped (R229, R230). -/
def takeBuffer (p q : Nat) (r : RxFrame) (d : Dev) : RxFrame × Dev :=
  let x := (port d p).rxRing q
  let i := r.buffers.length
  if r.dropped then (r, d)
  else if rxOwned d p q ≤ i then
    ({ r with dropped := true }, raiseRx p 3 (bumpSat (Reg.SPORT_RXQ_NOBUF_DROP p q) 1 d))
  else
    let desc := x.base + (rxHead d p q + i) % 2 ^ x.log2 * 32
    match load desc 8 d with
    | (none, d) => ({ r with dropped := true }, badBuffer p q desc i r d)
    | (some w, d) =>
      let addr := ofLe (w.take 6) / 64 * 64
      if inShared d addr x.bufsz then ({ r with buffers := r.buffers ++ [(desc, addr)] }, d)
      else ({ r with dropped := true }, badBuffer p q desc i r d)

/-- Bytes that have arrived enter the buffers, which are taken as they are needed (R228). -/
def rxStore (p q : Nat) (r : RxFrame) (d : Dev) : RxFrame × Dev :=
  let x := (port d p).rxRing q
  let s := rxStream x r
  let y := (List.range (s.length / x.bufsz + 1)).foldl (fun (y : RxFrame × Dev) _ =>
    if y.1.buffers.length * x.bufsz < s.length then takeBuffer p q y.1 y.2 else y) (r, d)
  if y.1.dropped then y
  else
    let put (i : Nat) (d : Dev) : Dev :=
      let lo := max y.1.stored (i * x.bufsz)
      let hi := min s.length ((i + 1) * x.bufsz)
      if lo < hi then store ((y.1.buffers.getD i (0, 0)).2 + (lo - i * x.bufsz)) (slice s lo (hi - lo)) d else d
    ({ y.1 with stored := max y.1.stored s.length }, forEach (List.range y.1.buffers.length) put y.2)

/-- Write-back of buffer i of a frame (R227, R228). -/
def rxWriteBack (p q i : Nat) (r : RxFrame) (tsValid mirrored : Bool) (d : Dev) : Dev :=
  let x := (port d p).rxRing q
  let s := (rxStream x r).length
  let n := r.stripped x
  let stamp := if tsValid then (shortOf r.stamp, fracOf r.stamp, d) else ((free d).1, (free d).1.truncate 32, (free d).2)
  let w2 := (if 1 ≤ n then be16 r.bytes 14 else 0) * 2 ^ 48 + (if 2 ≤ n then be16 r.bytes 18 else 0) * 2 ^ 32 + stamp.2.1.toNat
  let w3 := 2 ^ 63 + bnat (i == 0) * 2 ^ 62 + bnat (i + 1 == r.buffers.length) * 2 ^ 61 + bnat tsValid * 2 ^ 60
    + bnat ((r.judged.bind (·.entry)).isNone) * 2 ^ 59 + bnat mirrored * 2 ^ 58 + n * 2 ^ 56
    + ((r.judged.bind (·.entry)).getD 0) * 2 ^ 48 + s * 2 ^ 32 + min x.bufsz (s - i * x.bufsz)
  store ((r.buffers.getD i (0, 0)).1 + 8) (leBytes 8 stamp.1.toNat ++ leBytes 8 w2 ++ leBytes 8 w3) stamp.2.2

/-- A frame that has passed R218 is delivered to ring q: whole, or not at all (R223, R228, R229). -/
def ringDeliver (p q : Nat) (r : RxFrame) (tsValid mirrored : Bool) (d : Dev) : Dev :=
  if r.dropped then d
  else if !((port d p).rxRing q).enabled then raiseRx p 1 (bumpFld (Reg.SPORT_RX_DROP p) 0 16 1 d)
  else
    let y := rxStore p q r d
    if y.1.dropped then y.2
    else
      rxAdvance p q y.1.buffers.length
        (forEach (List.range y.1.buffers.length) (fun i => rxWriteBack p q i y.1 tsValid mirrored) y.2)

/-- A frame that has passed R218 is delivered as its judgment says (R223). (DESIGN CHOICE, log entry 44.) -/
def deliver (p : Nat) (r : RxFrame) (j : Judged) (tsValid mirrored : Bool) (d : Dev) : Dev :=
  let got (stream : Nat) : Received := { port := p, stamp := r.stamp, bytes := r.bytes, stream }
  match j.action with
  | .ring q => ringDeliver p q { r with judged := some j } tsValid mirrored d
  | .sacn => { d with sacnRx := d.sacnRx ++ [got 0] }
  | .st s => { d with stRx := d.stRx ++ [got s] }
  | .firmware =>
    if Config.fwPathFrames ≤ d.fwRx.length then raiseRx p 1 (bumpFld (Reg.SPORT_RX_DROP p) 0 16 1 d)
    else { d with fwRx := d.fwRx ++ [got 0] }
  | .drop => raiseRx p 1 (bumpFld (Reg.SPORT_RX_DROP p) 16 16 1 d)

/-- A copy goes to the partner when the judgment says so: accepted, or refused and counted (R223, R282). -/
def mirrorCopy (p : Nat) (r : RxFrame) (j : Judged) (k : Clk) (d : Dev) : Bool × Dev :=
  if bit j.word 27 then
    let content := [w64 p, shortOf r.stamp, (fracOf r.stamp).setWidth 64] ++ r.bytes.map (·.setWidth 64)
    let y := mirrorSend r.bytes.length (messageBytes 7 content) k d
    if y.1 then (true, pmon 0x302 1 (bumpFld (Reg.SPORT_RX_MIRROR p) 0 16 1 y.2))
    else (false, raiseRx p 5 (bumpFld (Reg.SPORT_RX_MIRROR p) 16 16 1 y.2))
  else (false, d)

/-! Reception (R218, R229, R232, R233). -/

/-- How long after its stamp a frame's start is seen: the value in force for the path, on a legacy port its PHY's latency (R232, R233, R349). -/
def rxLatency (d : Dev) (p : Nat) : Time :=
  if p < 8 then pathDelay d (p + 8) else (rf d (Reg.LPORT_RX_LAT (p - 8)) 0 16 : Nat) * ns1

/-- RX_SFD: the start of a frame reaches the PCS and is stamped, less the port's latency (R232, R233, R349). (DESIGN CHOICE, log entry
21.) -/
def rxSfd (p : Nat) (k : Clk) (d : Dev) : Dev :=
  let x := port d p
  if x.enabled && x.link && x.rx.isNone then setPort p { x with rx := some { stamp := now k - rxLatency d p } } d else d

/-- A reception is over; in half duplex the carrier falls, and the gap begins (R214). -/
def rxOver (k : Clk) (x : Port) : Port := { x with rx := none, idle := if x.half then some k.ticks else x.idle }

/-- RX_SFD. -/
def execRxSfd (p : Fin 10) (s : State) : Host.Outcome State Fault Refusal := onDev s (rxSfd p)

/-- Bytes arrive, and the strainer judges once it has the EtherType (R220); a MAC Control frame never reaches it (R210). -/
def rxTake (p : Nat) (data : List W8) (r : RxFrame) (d : Dev) : RxFrame :=
  let r := { r with bytes := r.bytes ++ data }
  if r.judged.isNone && hasEtype d p r.bytes && be16 r.bytes 12 != 0x8808 then { r with judged := some (strain d p r.bytes) }
  else r

/-- RX_BUFFER_NEED: bytes that have arrived need the next buffer (R229). -/
def rxBufferNeed (p : Nat) (data : List W8) (d : Dev) : Dev :=
  match (port d p).rx with
  | none => d
  | some r =>
    let r := rxTake p data r d
    match r.judged.map Judged.action with
    | some (.ring q) =>
      if ((port d p).rxRing q).enabled then
        let y := rxStore p q r d
        onPort p (fun x => { x with rx := some y.1 }) y.2
      else onPort p (fun x => { x with rx := some r }) d
    | _ => onPort p (fun x => { x with rx := some r }) d

/-- RX_BUFFER_NEED. -/
def execRxBufferNeed (p : Fin 10) (data : List W8) (s : State) : Host.Outcome State Fault Refusal :=
  onDev s fun _ => rxBufferNeed p data

/-- The FCS of a whole frame is right. -/
def fcsOk (l : List W8) : Bool := decide (4 ≤ l.length) && crc32 (l.take (l.length - 4)) == w32 (ofLe (l.drop (l.length - 4)))

/-- A received frame ends: discarded, or consumed, or delivered and mirrored (R210, R218, R223, R228). -/
def rxEnd (p : Nat) (r : RxFrame) (err : Bool) (k : Clk) (d : Dev) : Dev :=
  let n := r.bytes.length
  if n < 64 ∨ 9216 < n then raiseRx p 0 (bumpFld (Reg.SPORT_RX_ERR p) 0 16 1 d)
  else if err ∨ !fcsOk r.bytes then raiseRx p 0 (bumpFld (Reg.SPORT_RX_ERR p) 16 16 1 d)
  else
    let d := pmonPort p 1 (bumpSat64 (Reg.SPORT_RX_FRAMES_LO p) 1 d)
    if be16 r.bytes 12 = 0x8808 then macControl p r.bytes k d
    else
      let j := r.judged.getD (strain d p r.bytes)
      let half := (port d p).half
      let r := if half then { r with stamp := now k } else r
      let y := mirrorCopy p r j k d
      deliver p r j (!half) y.1 y.2

/-! Ring registers (R225, R231, R239, R240). -/

/-- The frame in progress for ring q is abandoned, uncounted (R239). -/
def rxAbandon (p q : Nat) : Dev → Dev := onPort p fun x =>
  { x with rx := x.rx.map fun r =>
      if r.judged.map Judged.action == some (.ring q) then { r with dropped := true } else r }

/-- A write of SPORT_RXQ_CTL[p][q] (R225, R239). -/
def rxqCtlWrite (p q : Nat) (v : W32) (d : Dev) : Dev :=
  let r := (port d p).rxRing q
  let d := putReg (Reg.SPORT_RXQ_CTL p q) v d
  let base := (rd64 d (Reg.SPORT_RXQ_BASE_LO p q)).toNat % 2 ^ 48 / 64 * 64
  let n := log2Of (fld v 0 5)
  if bit v 31 && !r.enabled then
    if inShared d base (2 ^ n * 32) then
      wrFld (Reg.SPORT_RXQ_HEAD p q) 0 16 (rf d (Reg.SPORT_RXQ_HEAD p q) 0 16 % 2 ^ n)
        (setRxRing p q { r with
          enabled := true, base, log2 := n, bufsz := min 144 (max 4 (fld v 8 8)) * 64, strip := fld v 18 2, keepFcs := bit v 21 } d)
    else raiseRx p 2 (wrBit (Reg.SPORT_RXQ_CTL p q) 31 false d)
  else if !bit v 31 && r.enabled then rxAbandon p q (setRxRing p q { r with enabled := false } d)
  else d

/-- RXQ_ENABLE: a write of SPORT_RXQ_CTL[p][q] that sets EN. -/
def execRxqEnable (_req : Req) (p : Fin 10) (q : Fin 8) (v : W32) (s : State) : Host.Outcome State Fault Refusal :=
  onDev s fun _ => accessSealed (Reg.SPORT_RXQ_CTL p q) (when (bit v 31) (rxqCtlWrite p q v))

/-- RXQ_DISABLE: a write of SPORT_RXQ_CTL[p][q] that clears EN. -/
def execRxqDisable (_req : Req) (p : Fin 10) (q : Fin 8) (v : W32) (s : State) : Host.Outcome State Fault Refusal :=
  onDev s fun _ => accessSealed (Reg.SPORT_RXQ_CTL p q) (when (!bit v 31) (rxqCtlWrite p q v))

/-- SYS_ABORT of receive queue q (R240). -/
def rxqAbort (p q : Nat) (d : Dev) : Dev :=
  wrBit (Reg.SPORT_RXQ_CTL p q) 31 false (rxAbandon p q (setRxRing p q { (port d p).rxRing q with enabled := false } d))

/-- A write of SPORT_RXQ_TAIL[p][q] (R225, R231). -/
def rxqTailWrite (p q : Nat) (v : W32) (d : Dev) : Dev := evalWm p q (putReg (Reg.SPORT_RXQ_TAIL p q) v d)

/-- RXQ_TAIL_WRITE. -/
def execRxqTailWrite (_req : Req) (p : Fin 10) (q : Fin 8) (v : W32) (s : State) : Host.Outcome State Fault Refusal :=
  onDev s fun _ => access (Reg.SPORT_RXQ_TAIL p q) (rxqTailWrite p q v)

/-- A write of SPORT_RXQ_WM[p][q] (R231, R239). -/
def ringWmWrite (p q : Nat) (v : W32) (d : Dev) : Dev := evalWm p q (putReg (Reg.SPORT_RXQ_WM p q) v d)

/-- RING_WM_WRITE. -/
def execRingWmWrite (_req : Req) (p : Fin 10) (q : Fin 8) (v : W32) (s : State) : Host.Outcome State Fault Refusal :=
  onDev s fun _ => accessSealed (Reg.SPORT_RXQ_WM p q) (ringWmWrite p q v)

/-! Enable and link (R193, R194, R211, R213). -/

/-- The link drops: frames on the wire are cut, and a frame being received is discarded (R211, R218). -/
def linkDown (p : Nat) (k : Clk) (d : Dev) : Dev :=
  let d := when (port d p).rx.isSome (fun d => raiseRx p 0 (bumpFld (Reg.SPORT_RX_ERR p) 16 16 1 d)) d
  let d := onPort p (fun x => { x with link := false, phy := false, rx := none, preempt := false, verifyFails := 0 }) d
  untimedCut p 0x26 false (fun _ => true) k (timedCut p 0x26 false (fun _ => true) k d)

/-- The rate of a legacy port: from the interface when AUTO is 1, else RATE as captured (R193, R213). -/
def legacyRate (d : Dev) (p : Nat) : Nat :=
  min 2 (if rb d (Reg.SPORT_CTL p) 6 then (port d p).inRate else fld (port d p).ctl 4 2)

/-- A legacy port runs in half duplex: as the interface says when AUTO is 1, else by DUPLEX (R213). -/
def legacyHalf (d : Dev) (p : Nat) : Bool := if rb d (Reg.SPORT_CTL p) 6 then (port d p).inHalf else !rb d (Reg.SPORT_CTL p) 3

/-- A legacy port takes up rate and duplex: half duplex at 1000 Mbit/s is no link (R213), and a link that turns half duplex discards every
admitted frame (R215). (DEDUCED, log entry 43.) -/
def legacyTake (p : Nat) (k : Clk) (d : Dev) : Dev :=
  let x := port d p
  let r := legacyRate d p
  let h := legacyHalf d p
  if !x.phy then d
  else if h && r == 2 then onPort p (fun x => { x with phy := true, rate := r, half := h }) (when x.link (linkDown p k) d)
  else when h (calDiscard p 0x11 fun _ => true) (setPort p { x with link := true, rate := r, half := h } d)

/-- The interface of a legacy link reports half duplex (R215). -/
def duplexChange (p : Nat) (k : Clk) (d : Dev) : Dev :=
  if (port d p).phy then legacyTake p k (onPort p (fun x => { x with inHalf := true }) d) else d

/-- The link of an enabled port comes up, on a legacy port with the rate and duplex that its interface reports (R194, R213). A looped lane
carries no link (R336). -/
def linkRise (p rate : Nat) (half : Bool) (k : Clk) (d : Dev) : Dev :=
  let x := port d p
  if !x.enabled || d.sys.tripped then d
  else if p < 8 then (if looped d p then d else setPort p { x with link := true } d)
  else legacyTake p k (setPort p { x with phy := true, inRate := rate, inHalf := half } d)

/-- Clearing EN: everything on the wire is truncated, everything admitted or read is written back DISABLED (R211); the windows of frames sent
or lost before stand until they end (R203). -/
def portOff (p : Nat) (k : Clk) (d : Dev) : Dev :=
  let d := untimedCut p 0x13 true (fun _ => true) k (timedCut p 0x13 true (fun _ => true) k d)
  let d := stagedDrain p 0x13 (calDiscard p 0x13 (fun _ => true) d)
  let d := forEach (List.range 8) (fun q => ringDrain p q 0x13) d
  onPort p (fun x => { x with enabled := false }) (linkDown p k d)

/-- A write of SPORT_CTL[p] (R193, R211); EN is held at 0 while the lane is unusable (R339). AUTO and DUPLEX of a legacy port act at once
(R213, R307). -/
def portCtlWrite (p : Nat) (v : W32) (k : Clk) (d : Dev) : Dev :=
  let was := (port d p).enabled
  let v := if p < 8 ∧ unusable d (0x5000 + p) then setBit v 0 false else v
  let d := putReg (Reg.SPORT_CTL p) v d
  if bit v 0 && !was then onPort p (fun x => { x with enabled := true, ctl := v }) d
  else if !bit v 0 && was then portOff p k d
  else when (decide (8 ≤ p) && was) (legacyTake p k) d

end Sys2Proof.Machine
end

