-- ==== Sys2Proof/Machine/Sacn.lean ====
section
/-!
DEFINITION. The sACN packer (R243 to R252) and the sACN receiver (R253, R254).
-/

namespace Sys2Proof.Machine

/-- An update of the packers' state. -/
def onPack (f : Pack → Pack) (d : Dev) : Dev := { d with pack := f d.pack }

/-! Assembling frames (R245, R246, R262). -/

/-- The number of the next boundary, while boundaries are to come. -/
def runFrame (k : Clk) (d : Dev) : Option W64 :=
  if running k d then d.frm.run.map fun _ => numberFor d (nextIndex d) else none

/-- The exact instant of the boundary numbered f: the last one emitted, or one of the grid in use. -/
def frameInstant (_k : Clk) (d : Dev) (f : W64) : Option Time :=
  if d.frm.everEmitted && f == d.frm.lastFrame then some d.frm.lastB else frameAt d f

/-- Frame A (R245). -/
def Assembly.number (k : Clk) (d : Dev) (a : Assembly) : Option W64 := a.frame <|> (runFrame k d).map (· + 1)

/-- The assembly that begins afresh: frame A is the next boundary's, which before a run's first boundary is held uncounted
(R245). -/
def asmBegin (k : Clk) (d : Dev) : Assembly :=
  if d.frm.firstDone then { frame := runFrame k d } else { first := true }

/-- Where a record's frame stands against A (R245): 0 at A, 1 earlier, 2 later. -/
def recordAge (a : W64) (frame18 : Nat) : Nat :=
  let age := (a.toNat + 2 ^ 18 - frame18) % 2 ^ 18
  if age = 0 then 0 else if age < 2 ^ 17 then 1 else 2

/-- A hold of frame f is not counted: a skip suppressed its frame leaf (R41, R246). -/
def uncounted (k : Clk) (d : Dev) (f : W64) : Bool :=
  (d.frm.skipped && runFrame k d == some f)
    || d.frm.gaps.any fun (g, n) => decide ((BitVec.ofNat 18 f.toNat - g).toNat < n)

/-- An assembly whose frame a skip passed over moves to the next boundary's frame (R41). -/
def Assembly.skipTo (last next : W64) (a : Assembly) : Assembly :=
  match a.frame with
  | some f => if last < f ∧ f < next then { frame := some next } else a
  | none => a

/-- A held frame counts for its flow (R246). -/
def lateFlow (f : Nat) : Dev → Dev :=
  onPack fun p => { p with late := Tab.put 0 p.late f (w32 (min (2 ^ 32 - 1) ((Tab.get 0 p.late f).toNat + 1))) }

/-! The universe table (R243). -/

/-- Word w of universe u's entry. -/
def univWord (d : Dev) (u w : Nat) : W32 := Tab.get 0 d.pack.table (4 * u + w)

/-- The universe is enabled. -/
def univOn (d : Dev) (u : Nat) : Bool := bit (univWord d u 3) 31

/-- Universe u's state. -/
def univAt (d : Dev) (u : Nat) : Universe := Tab.get {} d.pack.univ u
/-- Set universe u's state. -/
def setUniverse (u : Nat) (x : Universe) : Dev → Dev := onPack fun p => { p with univ := Tab.put {} p.univ u x }

/-- The enabled universes, ascending. -/
def univsOn (d : Dev) : List Nat :=
  d.pack.table.filterMap fun (i, v) => if i % 4 = 3 ∧ bit v 31 then some (i / 4) else none

/-- The universes that send: the enabled ones, and those that still owe packets with Stream_Terminated set (R250). -/
def univsLive (d : Dev) : List Nat :=
  univsOn d ++ (d.pack.univ.filterMap fun (u, x) => if x.term ≠ 0 ∧ univOn d u = false then some u else none)

/-- The ports of a universe. -/
def univPorts (d : Dev) (u : Nat) : List Nat := (List.range 8).filter fun p => bit (univWord d u 3) (20 + p)

/-- SLOTS by its limits. -/
def univSlots (d : Dev) (u : Nat) : Nat := let n := fld (univWord d u 2) 0 10; if n = 0 ∨ 512 < n then 512 else n

/-- SYNC; values above 63,999 act as 0. -/
def univSync (d : Dev) (u : Nat) : Nat := let n := fld (univWord d u 1) 16 16; if 63999 < n then 0 else n

/-- RECORDS; 0 means 16. -/
def univRecords (d : Dev) (u : Nat) : Nat := let n := fld (univWord d u 3) 16 4; if n = 0 then 16 else n

/-! Images (R245). -/

/-- Address of universe u's images: the sent one, and the assembling one 512 bytes on. -/
def imageAt (d : Dev) (u : Nat) : Nat := (rd64 d Reg.PACK_BUF_BASE_LO).toNat / 2 ^ 20 * 2 ^ 20 + u * 1024

/-- Some byte of the images lies outside installed DRAM. (DEDUCED, log entry 45.) -/
def imageBad (d : Dev) (u : Nat) : Bool := !inDram d (imageAt d u) 1024

/-! Launch times (R244, R246). -/

/-- L of a slot on port p for the boundary at instant b, in the units of windows: the sum is kept exactly. -/
def slotW (d : Dev) (p slot : Nat) (b : Time) : Int :=
  fine * (b + (rd d (Reg.PACK_PORT_BASE p)).toNat * ns1) + psW (slot * (rd d (Reg.PACK_PORT_SPACING p)).toNat)

/-- L of a slot, rounded down to the units of show time. -/
def slotLaunch (d : Dev) (p slot : Nat) (b : Time) : Time := slotW d p slot b / fine

/-- L of universe u on port p, in the units of windows. -/
def univW (d : Dev) (u p : Nat) (b : Time) : Int := slotW d p (fld (univWord d u 3) 0 14) b

/-- L of universe u on port p, rounded down to the units of show time. -/
def univLaunch (d : Dev) (u p : Nat) (b : Time) : Time := univW d u p b / fine

/-- The record deadline of universe u for the frame whose boundary lies at b (R246). -/
def univDeadline (d : Dev) (u : Nat) (b : Time) : Time :=
  match univPorts d u with
  | [] => b - 2000 * ns1
  | p :: r =>
    let q := r.foldl (fun q p => if univLaunch d u p b < univLaunch d u q b then p else q) p
    univLaunch d u q b - (stageLead d q + 2000 : Nat) * ns1

/-! Packets (R247, R248, R250, R251). -/

/-- The root layer to the end of the CID. -/
def acnRoot (d : Dev) (len vector : Nat) : List W8 :=
  [0x00, 0x10, 0x00, 0x00, 0x41, 0x53, 0x43, 0x2D, 0x45, 0x31, 0x2E, 0x31, 0x37, 0x00, 0x00, 0x00]
    ++ beBytes 2 (0x7000 + len) ++ beBytes 4 vector
    ++ (List.range 4).flatMap fun w => beBytes 4 (rd d (Reg.PACK_CID w)).toNat

/-- The source name. -/
def sourceName (d : Dev) : List W8 := (List.range 16).flatMap fun w => beBytes 4 (rd d (Reg.PACK_SOURCE_NAME w)).toNat

/-- The UDP payload of a data packet (R247). -/
def dataPacket (d : Dev) (u seq : Nat) (term : Bool) (img : List W8) : List W8 :=
  let n := univSlots d u
  acnRoot d (110 + n) 4 ++ beBytes 2 (0x7000 + 88 + n) ++ beBytes 4 2 ++ sourceName d
    ++ beBytes 1 (min 200 (fld (univWord d u 2) 24 8)) ++ beBytes 2 (univSync d u) ++ beBytes 1 seq
    ++ beBytes 1 (bnat (bit (univWord d u 3) 30) * 128 + bnat term * 64) ++ beBytes 2 u
    ++ beBytes 2 (0x7000 + 11 + n) ++ [0x02, 0xA1, 0x00, 0x00, 0x00, 0x01] ++ beBytes 2 (n + 1)
    ++ beBytes 1 (fld (univWord d u 2) 16 8) ++ slice img 0 n

/-- The UDP payload of a synchronisation packet (R247). -/
def syncPacket (d : Dev) (a seq : Nat) : List W8 :=
  acnRoot d 0x21 8 ++ beBytes 2 0x700B ++ beBytes 4 1 ++ beBytes 1 seq ++ beBytes 2 a ++ [0, 0]

/-- Destination of a packet: IPv6, address, MAC (R248). -/
def packDest (d : Dev) (mode a dest : Nat) : Option (Bool × List W8 × List W8) :=
  let hi := BitVec.ofNat 8 (a / 256)
  let lo := BitVec.ofNat 8 a
  let w (i : Nat) : W32 := rd d (Reg.PACK_DEST dest i)
  match mode with
  | 1 => some (true, [0xFF, 0x18, 0, 0, 0, 0, 0, 0, 0, 0x83, 0, 0, 0, hi, 0, lo], [0x33, 0x33, 0, hi, 0, lo])
  | 2 =>
    if !bit (w 6) 31 then none
    else
      let mac := beBytes 6 (fld (w 5) 0 16 * 2 ^ 32 + (w 4).toNat)
      if bit (w 6) 30 then some (true, (List.range 4).flatMap (fun i => beBytes 4 (w i).toNat), mac)
      else some (false, beBytes 4 (w 3).toNat, mac)
  | _ => some (false, [239, 255, hi, lo], [0x01, 0x00, 0x5E, 0x7F, hi, lo])

/-- The internet checksum of bytes. -/
def inetSum (l : List W8) : Nat := (65535 - sum16 l) % 65535

/-- The Ethernet frame of a UDP payload that port p sends to a destination, without tags and FCS (R248). -/
def udpFrame (d : Dev) (p : Nat) (dst : Bool × List W8 × List W8) (payload : List W8) : List W8 :=
  let ctl := rd d (Reg.PACK_PORT_CTL p)
  let ttl := max 1 (fld ctl 0 8)
  let dscp := fld ctl 16 6
  let n := 8 + payload.length
  let src := if dst.1 then (List.range 4).flatMap fun w => beBytes 4 (rd d (Reg.PACK_PORT_IP6 p w)).toNat
    else beBytes 4 (rd d (Reg.PACK_PORT_IP4 p)).toNat
  let ports := beBytes 2 (rf d (Reg.PACK_PORT_UDP p) 0 16) ++ beBytes 2 5568 ++ beBytes 2 n
  let pseudo := src ++ dst.2.1 ++ (if dst.1 then beBytes 4 n ++ beBytes 4 17 else beBytes 2 17 ++ beBytes 2 n)
  let c := inetSum (pseudo ++ ports ++ [0, 0] ++ payload)
  let udp := ports ++ beBytes 2 (if c = 0 then 0xFFFF else c) ++ payload
  let macs := dst.2.2 ++ beBytes 6 ((rd64 d (Reg.PACK_PORT_MAC_LO p)).toNat % 2 ^ 48)
  if dst.1 then
    macs ++ beBytes 2 0x86DD ++ beBytes 4 (6 * 2 ^ 28 + dscp * 2 ^ 22) ++ beBytes 2 n ++ beBytes 1 17 ++ beBytes 1 ttl ++ src ++ dst.2.1 ++ udp
  else
    let head (sum : Nat) : List W8 := beBytes 1 0x45 ++ beBytes 1 (dscp * 4) ++ beBytes 2 (20 + n) ++ beBytes 4 0x4000
      ++ beBytes 1 ttl ++ beBytes 1 17 ++ beBytes 2 sum ++ src ++ dst.2.1
    macs ++ beBytes 2 0x0800 ++ head (inetSum (head 0)) ++ udp

/-- A packer offers a packet to port p, its launch time in the units of windows (R202, R244); one without a destination is refused without an offer (R248). -/
def packOffer (p kind id : Nat) (f : W64) (launch : Int) (dst : Option (Bool × List W8 × List W8)) (payload : List W8)
    (d : Dev) : Dev :=
  match dst with
  | none => packerRefused p kind id d
  | some dst =>
    let bytes := buildFrame (tagBytes d p 8) (udpFrame d p dst payload)
    onPort p (fun x => { x with offers := x.offers ++ [{ origin := .packer kind id f, bytes, launch := launch / fine, frac := (launch % fine).toNat }] }) d

/-- Universe u's packet of frame f, whose boundary lies at b, is built from an image and offered to each of its ports (R244 to R249). -/
def sacnSend (u : Nat) (f : W64) (b : Time) (term : Bool) (img : List W8) (d : Dev) : Dev :=
  if imageBad d u then d
  else
    let x := univAt d u
    let payload := dataPacket d u x.seq term img
    let dst := packDest d (fld (univWord d u 3) 28 2) u (fld (univWord d u 0) 0 8)
    let d := addDigest f 0 u (crc32c payload) (setUniverse u { x with seq := (x.seq + 1) % 256 } d)
    forEach (univPorts d u) (fun p d => packOffer p 0 u f (univW d u p b) dst payload d) d

/-! Records and deadlines (R245, R246, R250). -/

/-- The packer sends: SACN_OUT_EN is 1 and the frame clock emits boundaries (R245, R252). -/
def sacnOut (k : Clk) (d : Dev) : Bool := rb d Reg.PACK_CTL 0 && running k d

/-- The next frame of universe u. -/
def univNext (u : Nat) (f : W64) (d : Dev) : Dev :=
  setUniverse u { univAt d u with asm := { frame := some (f + 1) } } d

/-- The packer accepts a record for hand-on: not one of a frame later than A (R245). -/
def sacnAccepts (k : Clk) (d : Dev) (r : Rec) : Bool :=
  let u := fld r.dest 16 16
  !(sacnOut k d && univOn d u && !imageBad d u)
    || (match (univAt d u).asm.number k d with
      | some a => recordAge a (keyFrame r.key) != 2
      | none => true)

/-- A record of frame A enters the assembling image, and the last one sends the packet (R245). -/
def sacnAssemble (u : Nat) (a : W64) (r : Rec) (k : Clk) (d : Dev) : Dev :=
  let x := univAt d u
  let at' := imageAt d u
  let d := when (!x.asm.begun) (store (at' + 512) (getBytes d at' 512)) d
  let d := store (at' + 512 + fld r.dest 0 9) r.data d
  let n := x.asm.count + 1
  if n < univRecords d u then setUniverse u { x with asm := { x.asm with count := n, begun := true } } d
  else
    let img := getBytes d (at' + 512) 512
    let d := store at' img d
    univNext u a (match frameInstant k d a with | some b => sacnSend u a b false img d | none => d)

/-- A record reaches the packer (R245, R252). -/
def sacnTake (r : Rec) (k : Clk) (d : Dev) : Dev :=
  let u := fld r.dest 16 16
  if !sacnOut k d then d
  else if !univOn d u then raisePack 3 (bumpSat Reg.PACK_UNKNOWN 1 d)
  else if imageBad d u then raisePack 6 (bumpSat Reg.PACK_UNKNOWN 1 d)
  else
    match (univAt d u).asm.number k d with
    | none => d
    | some a => if recordAge a (keyFrame r.key) = 0 then sacnAssemble u a r k d else d

/-- SACN_RECORD: the oldest record handed on that the packer accepts reaches it; one of a frame that has become later than A since its
hand-on waits (R245). (DESIGN CHOICE, log entry 46.) -/
def execSacnRecord (s : State) : Host.Outcome State Fault Refusal :=
  onDev s fun k d =>
    match d.pack.inbox.find? (sacnAccepts k d) with
    | none => d
    | some r => sacnTake r k (onPack (fun p => { p with inbox := p.inbox.eraseP (sacnAccepts k d) }) d)

/-- Universe u sends its sent image for frame f, whose boundary lies at b: a hold, or one of the three packets with
Stream_Terminated set after V has been cleared (R246, R250). -/
def sendImage (u : Nat) (f : W64) (b : Time) (d : Dev) : Dev :=
  let img := getBytes d (imageAt d u) 512
  if univOn d u then sacnSend u f b false img d
  else if (univAt d u).term = 0 then d
  else
    let d := sacnSend u f b true img d
    setUniverse u { univAt d u with term := (univAt d u).term - 1 } d

/-- The hold at the first boundary of a run, whose frame is f at instant b: uncounted (R245, R246). (DEDUCED, log entry 46.) -/
def firstHold (u : Nat) (f : W64) (b : Time) (d : Dev) : Dev :=
  sendImage u f b (setUniverse u { univAt d u with asm := { (univAt d u).asm with first := false } } d)

/-- A hold of frame a of universe u (R246). (DEDUCED, log entry 46.) -/
def sacnHold (u : Nat) (a : W64) (b : Time) (k : Clk) (d : Dev) : Dev :=
  let d' := sendImage u a b d
  univNext u a
    (if uncounted k d a || imageBad d u then d'
    else
      raisePack 0 (lateFlow (fld (univWord d u 1) 0 12)
        (forEach (univPorts d u) (fun p d => pmonPort p 4 (bumpSat (Reg.PACK_FRAME_LATE p) 1 d)) d')))

/-- The record deadline of universe u has come: an incomplete frame is held, a terminated universe sends its sent image (R246, R250).
(DEDUCED, log entry 45.) -/
def recordDeadline (u : Nat) (k : Clk) (d : Dev) : Dev :=
  let x := univAt d u
  if !sacnOut k d || !(univOn d u || x.term != 0) then d
  else if x.asm.first && !d.frm.firstDone then
    match d.frm.run with
    | some g =>
      let i := nextIndex d
      if univDeadline d u (g.at i) ≤ now k then firstHold u (numberFor d i) (g.at i) d else d
    | none => d
  else
    match x.asm.number k d with
    | none => d
    | some a =>
      match frameInstant k d a with
      | none => d
      | some b =>
        if now k < univDeadline d u b then d
        else if univOn d u then sacnHold u a b k d
        else univNext u a (sendImage u a b d)

/-- RECORD_DEADLINE. -/
def execRecordDeadline (u : W16) (s : State) : Host.Outcome State Fault Refusal := onDev s (recordDeadline u.toNat)

/-- PACK_UNIV_CMD.WRITE by a requester (R243, R245, R250). -/
def univWrite (req : Req) (k : Clk) (d : Dev) : Dev :=
  let u := fld (rd d (ownOf req Reg.PACK_UNIV_IDX)) 0 16
  if u = 0 ∨ 63999 < u then d
  else
    let was := univOn d u
    let mask : List W32 := [0xFF, 0xFFFF0FFF, 0xFFFF03FF, 0xFFFF3FFF]
    let d := onPack (fun p => { p with table := (List.range 4).foldl (fun t w =>
      Tab.put 0 t (4 * u + w) (rd d (ownOf req (Reg.PACK_UNIV_DATA w)) &&& mask.getD w 0)) p.table }) d
    if univOn d u && !was then
      setUniverse u { univAt d u with asm := asmBegin k d, term := 0 }
        (if imageBad d u then d else store (imageAt d u) (List.replicate 512 0) d)
    else if !univOn d u && was then
      let x := univAt d u
      setUniverse u { x with term := 3, asm := { x.asm with count := 0, begun := false } } d
    else d

/-- PACK_UNIV_CMD.READ by a requester (R243). -/
def univRead (req : Req) (d : Dev) : Dev :=
  let u := fld (rd d (ownOf req Reg.PACK_UNIV_IDX)) 0 16
  forEach (List.range 4) (fun w => wr (ownOf req (Reg.PACK_UNIV_DATA w)) (if 63999 < u then 0 else univWord d u w)) d

/-- A write of PACK_UNIV_CMD: WRITE goes before READ (R90, R243). -/
def univCmd (req : Req) (v : W32) (k : Clk) (d : Dev) : Dev :=
  if bit v 1 then univWrite req k d else if bit v 0 then univRead req d else d

/-- PACK_UNIV_WRITE. -/
def execPackUnivWrite (req : Req) (s : State) : Host.Outcome State Fault Refusal :=
  onDev s fun k => access Reg.PACK_UNIV_CMD (univWrite req k)

/-- PACK_UNIV_READ. -/
def execPackUnivRead (req : Req) (s : State) : Host.Outcome State Fault Refusal :=
  onDev s fun _ => access Reg.PACK_UNIV_CMD (univRead req)

/-! Synchronisation and discovery (R249 to R251). -/

/-- The distinct non-zero SYNC addresses among port p's enabled universes, ascending, each with the lowest universe that names
it (R248, R250). -/
def syncAddrs (d : Dev) (p : Nat) : List (Nat × Nat) :=
  let us := (univsOn d).filter fun u => bit (univWord d u 3) (20 + p) && univSync d u != 0
  sortBy (·.1) (us.foldl (fun l u => if l.any (fun x => x.1 == univSync d u) then l else l ++ [(univSync d u, u)]) [])

/-- Port p's place in its synchronisation packets. -/
def syncPort (d : Dev) (p : Nat) : SyncPort := Tab.get {} d.pack.sync p
/-- Set port p's place in its synchronisation packets. -/
def setSync (p : Nat) (y : SyncPort) : Dev → Dev := onPack fun q => { q with sync := Tab.put {} q.sync p y }

/-- Some port may still build a synchronisation packet of frame g. -/
def syncWanted (d : Dev) (g : W64) : Bool :=
  (List.range 8).any fun p =>
    (syncPort d p).older.any (fun x => decide (x.1 ≤ g)) || (syncPort d p).frame.elim true fun f => decide (f ≤ g)

/-- The number of frame f's synchronisation packets of address a: each address counts once per frame (R249). -/
def syncNumber (a : Nat) (f : W64) (d : Dev) : Nat × Dev :=
  let x := Tab.get {} d.pack.syncSeq a
  match x.recent.find? fun y => y.1 == f with
  | some y => (y.2, d)
  | none =>
    let y : SyncSeq := { next := (x.next + 1) % 256, recent := (f, x.next) :: x.recent.filter fun y => syncWanted d y.1 }
    (x.next, onPack (fun p => { p with syncSeq := Tab.put {} p.syncSeq a y }) d)

/-- Port p builds and offers the synchronisation packet of the i-th address of frame f, whose boundary lies at b (R249, R250). -/
def syncOffer (p : Nat) (f : W64) (b : Time) (i a u : Nat) (d : Dev) : Dev :=
  let n := syncNumber a f d
  let dst := packDest d (fld (univWord d u 3) 28 2) a (fld (univWord d u 0) 0 8)
  packOffer p 1 a f (slotW d p (fld (rd d (Reg.PACK_PORT_SYNC p)) 0 14 + i) b) dst (syncPacket d a n.1) n.2

/-- The time has come to build port p's i-th synchronisation packet of the frame whose boundary lies at b: its launch time less the
stage lead less 2 µs (R250). -/
def syncDue (p : Nat) (b : Time) (i : Nat) (k : Clk) (d : Dev) : Bool :=
  decide (slotLaunch d p (fld (rd d (Reg.PACK_PORT_SYNC p)) 0 14 + i) b - (stageLead d p + 2000 : Nat) * ns1 ≤ now k)

/-- Port p's next synchronisation packet of the present frame (R250). -/
def syncNext (p : Nat) (k : Clk) (d : Dev) : Dev :=
  let y := syncPort d p
  match y.frame <|> runFrame k d with
  | none => d
  | some f =>
    match frameInstant k d f with
    | none => d
    | some b =>
      match (syncAddrs d p)[y.index]? with
      | none => if (frameInstant k d (f + 1)).isSome ∧ b ≤ now k then setSync p { y with frame := some (f + 1), index := 0 } d else d
      | some (a, u) =>
        if !syncDue p b y.index k d then d
        else
          setSync p (if y.index + 1 < (syncAddrs d p).length then { y with frame := some f, index := y.index + 1 }
            else { y with frame := some (f + 1), index := 0 }) (syncOffer p f b y.index a u d)

/-- Port p's next synchronisation packet is built and offered; a frame before the present one goes first (R250). -/
def syncBuild (p : Nat) (k : Clk) (d : Dev) : Dev :=
  let y := syncPort d p
  if !(sacnOut k d && rb d (Reg.PACK_PORT_SYNC p) 31) then d
  else
    match y.older with
    | (f, b, i) :: rest =>
      match (syncAddrs d p)[i]? with
      | none => setSync p { y with older := rest } d
      | some (a, u) =>
        if syncDue p b i k d then setSync p { y with older := (f, b, i + 1) :: rest } (syncOffer p f b i a u d) else syncNext p k d
    | [] => syncNext p k d

/-- SYNC_PACKET_BUILD. -/
def execSyncPacketBuild (p : Fin 8) (s : State) : Host.Outcome State Fault Refusal := onDev s (syncBuild p)

/-- One page of a universe-discovery packet (R251). (DESIGN CHOICE, log entry 47.) -/
def discoveryPage (d : Dev) (us : List Nat) (page last : Nat) : List W8 :=
  let n := us.length
  acnRoot d (104 + 2 * n) 8 ++ beBytes 2 (0x7000 + 82 + 2 * n) ++ beBytes 4 2 ++ sourceName d ++ [0, 0, 0, 0]
    ++ beBytes 2 (0x7000 + 8 + 2 * n) ++ beBytes 4 1 ++ beBytes 1 page ++ beBytes 1 last ++ us.flatMap (beBytes 2)

/-- The pages of port p join the untimed frames of its TXQ; a suppressed unit discards them (R251, R284).
(DESIGN CHOICE, log entry 47.) -/
def discoverPort (p : Nat) (d : Dev) : Dev :=
  let us := (univsOn d).filter fun u => bit (univWord d u 3) (20 + p)
  let last := (us.length - 1) / 512
  let q := rf d Reg.PACK_DISC_CTL 0 3
  if !(port d p).enabled || suppresses d.pair.mode then d
  else
    forEach (List.range (last + 1)) (fun i d =>
      match packDest d (bnat Config.discoveryV6) 64214 0 with
      | none => d
      | some dst =>
        let bytes := buildFrame (tagBytes d p 8) (udpFrame d p dst (discoveryPage d ((us.drop (512 * i)).take 512) i last))
        onPort p (fun x => x.setRing q { x.ring q with
          frames := (x.ring q).frames ++ [{ origin := .packer 3 q 0, bytes }] }) d) d

/-- DISCOVERY: every 10 s the pages of every port are sent (R251). -/
def execDiscovery (s : State) : Host.Outcome State Fault Refusal :=
  onDev s fun k d =>
    if rb d Reg.PACK_CTL 0 && rb d Reg.PACK_DISC_CTL 31
        && d.pack.discTick.elim true (fun t => decide (12500000000 ≤ since k t)) then
      forEach (List.range 8) discoverPort (onPack (fun p => { p with discTick := some k.ticks }) d)
    else d

/-! What the frame clock does to the packer (R245, R246, R41). -/

/-- A run begins: every enabled universe's frame A becomes the one that its first frame leaf names (R245). -/
def sacnRun (d : Dev) : Dev :=
  let d := onPack (fun p => { p with sync := [] }) d
  forEach (univsLive d) (fun u d => setUniverse u { univAt d u with asm := { first := true } } d) d

/-- Port p begins to send synchronisation packets: those of the next boundary's frame are its first (R250). (DEDUCED, log entry 99.) -/
def syncRestart (p : Nat) (k : Clk) (d : Dev) : Dev :=
  setSync p { frame := if d.frm.firstDone then runFrame k d else none } d

/-- SACN_OUT_EN goes to 1: assembly begins at the next boundary's frame. -/
def sacnRestart (k : Clk) (d : Dev) : Dev :=
  forEach (List.range 8) (fun p => syncRestart p k)
    (forEach (univsLive d) (fun u d => setUniverse u { univAt d u with asm := asmBegin k d } d) d)

/-- The first boundary of a run, of frame f at instant b, has been emitted: what was not held for it is held now (R245). -/
def sacnFirst (f : W64) (b : Time) (d : Dev) : Dev :=
  forEach (univsLive d) (fun u d =>
    let d := if (univAt d u).asm.first && rb d Reg.PACK_CTL 0 then firstHold u f b d else d
    let x := univAt d u
    setUniverse u { x with asm := { x.asm with first := false, frame := x.asm.frame <|> some (f + 1) } } d) d

/-- Port p sends synchronisation packets (R250). -/
def syncOn (d : Dev) (p : Nat) : Bool := rb d Reg.PACK_CTL 0 && rb d (Reg.PACK_PORT_SYNC p) 31

/-- Boundary f is emitted, after one of frame g at instant b: the synchronisation packets of frame g that are still to be sent keep
their launch times (R250); a port that sends none has none to come. -/
def syncBoundary (f g : W64) (b : Time) (d : Dev) : Dev :=
  forEach (List.range 8) (fun p d =>
    let y := syncPort d p
    let older := if syncOn d p then y.older else []
    setSync p (match y.frame with
      | none => { y with frame := some f, older }
      | some h =>
        if h < f then
          { frame := some f, older := if syncOn d p && h == g && decide (y.index < (syncAddrs d p).length) then older ++ [(g, b, y.index)] else older }
        else { y with older }) d) d

/-- A forward step skips the frames between the last boundary emitted and the next (R41). -/
def sacnSkip (last next : W64) : Dev → Dev :=
  onPack fun p => { p with
    univ := p.univ.map fun (u, x) => (u, { x with asm := x.asm.skipTo last next })
    sync := p.sync.map fun (q, y) => (q, match y.frame with | some g => if last < g ∧ g < next then { frame := some next } else y | none => y) }

/-- SYS_ABORT of the sACN packer (R252). -/
def sacnAbort (k : Clk) (d : Dev) : Dev :=
  let d := packerAbort [0, 1, 3] k (wrBit Reg.PACK_CTL 0 false d)
  onPack (fun p => { p with inbox := [], univ := p.univ.map fun (u, x) =>
    (u, { x with asm := { x.asm with count := 0, begun := false } }) }) d

/-! The sACN receiver (R253, R254). -/

/-- The UDP datagram in a received frame: destination port and payload (R253). -/
def udpOf (d : Dev) (r : Received) : Option (Nat × List W8) :=
  let e := 12 + 4 * tagCount d r.port r.bytes
  let i := e + 2
  let at' (u : Nat) : Option (Nat × List W8) :=
    let n := be16 r.bytes (u + 4)
    if 8 ≤ n ∧ u + n + 4 ≤ r.bytes.length then some (be16 r.bytes (u + 2), slice r.bytes (u + 8) (n - 8)) else none
  if be16 r.bytes e = 0x0800 ∧ fld (byteAt r.bytes i) 4 4 = 4 ∧ byteAt r.bytes (i + 9) = 17 ∧ be16 r.bytes (i + 6) % 0x4000 = 0 then
    at' (i + 4 * fld (byteAt r.bytes i) 0 4)
  else if be16 r.bytes e = 0x86DD ∧ byteAt r.bytes (i + 6) = 17 then at' (i + 40)
  else none

/-- The vectors, fixed fields and lengths of a data packet are those of R247 (R253). -/
def dataPacketOk (l : List W8) : Bool :=
  let n := be16 l 123 - 1
  decide (1 ≤ be16 l 123 ∧ be16 l 123 ≤ 513 ∧ 126 + n ≤ l.length)
    && l.take 16 == ([0x00, 0x10, 0x00, 0x00, 0x41, 0x53, 0x43, 0x2D, 0x45, 0x31, 0x2E, 0x31, 0x37, 0x00, 0x00, 0x00] : List W8)
    && be16 l 16 == 0x7000 + 110 + n && ofBe (slice l 18 4) == 4 && be16 l 38 == 0x7000 + 88 + n && ofBe (slice l 40 4) == 2
    && be16 l 115 == 0x7000 + 11 + n && slice l 117 6 == ([0x02, 0xA1, 0x00, 0x00, 0x00, 0x01] : List W8) && byteAt l 125 == 0

/-- Word w of input entry e. -/
def inWord (d : Dev) (e w : Nat) : W32 := Tab.get 0 d.pack.inTable (4 * e + w)
/-- Input entry e's state. -/
def inEntry (d : Dev) (e : Nat) : InEntry := Tab.get {} d.pack.inputs e
/-- Set input entry e's state. -/
def setInEntry (e : Nat) (x : InEntry) : Dev → Dev := onPack fun p => { p with inputs := Tab.put {} p.inputs e x }

/-- The valid input entries, ascending. -/
def inputsOn (d : Dev) : List Nat :=
  d.pack.inTable.filterMap fun (i, v) => if i % 4 = 3 ∧ bit v 31 then some (i / 4) else none

/-- The CID that SOURCE c matches. -/
def inCid (d : Dev) (c : Nat) : List W8 := (List.range 4).flatMap fun w => beBytes 4 (rd d (Reg.PACK_IN_CID c w)).toNat

/-- A packet is accepted for entry e: kept, or discarded (R253). -/
def inKeep (e : Nat) (r : Received) (l : List W8) (k : Clk) (d : Dev) : Dev :=
  let x := inEntry d e
  let seq := (byteAt l 111).toNat
  let prio := (byteAt l 108).toNat
  let old := match x.seq with | some s => decide (-19 ≤ signExt 8 (seq + 256 - s) ∧ signExt 8 (seq + 256 - s) ≤ 0) | none => false
  let drop := (bit (byteAt l 112) 7 && !bit (inWord d e 3) 30) || old || (x.kept.elim false fun p => decide (prio < p.prio))
  if drop then bumpFld Reg.PACK_IN_COUNT 0 16 1 d
  else
    let n := be16 l 123
    let p : KeptPacket := { stamp := r.stamp, prio, seq, count := n, cid := slice l 22 16, slots := slice l 125 n }
    setInEntry e { x with kept := some p, seq := some seq, keptTick := k.ticks, loss := false, mirrored := r.mirrored } d

/-- The sACN receiver takes a frame (R253). -/
def sacnReceive (r : Received) (k : Clk) (d : Dev) : Dev :=
  let ignored := bumpFld Reg.PACK_IN_COUNT 16 16 1 d
  match udpOf d r with
  | some (5568, l) =>
    if !dataPacketOk l then ignored
    else
      match (inputsOn d).find? fun e => fld (inWord d e 3) 0 16 == be16 l 113 with
      | none => ignored
      | some e =>
        let c := fld (inWord d e 3) 16 4
        if c = 0 ∨ inCid d c = slice l 22 16 then inKeep e r l k d else ignored
  | _ => ignored

/-- A unit whose mirrored leaves wait for MARK: the partner of the active (R281). (DEDUCED, log entry 60.) -/
def waitsMark (d : Dev) : Bool :=
  d.pair.mode == .sync || d.pair.mode == .cozy || d.pair.mode == .degraded || d.pair.mode == .taking

/-- The sACN receiver may take a frame: its stamp lies before the next boundary, and no boundary that it must not join still waits for a
MARK or for a frame in reception (R9, R254, R281). -/
def inTime (r : Received) (k : Clk) (d : Dev) : Bool :=
  (match nextBoundary k d with | some (_, b) => decide (r.stamp < b) | none => true)
    && !(r.mirrored && d.pair.markDue.isSome && decide (d.frm.lastB ≤ r.stamp))
    && (r.mirrored || d.frm.latching.all fun x => decide (r.stamp < x.2))

/-- SACN_IN_PACKET: the sACN receiver takes the oldest frame handed to it. -/
def execSacnInPacket (s : State) : Host.Outcome State Fault Refusal :=
  onDev s fun k d =>
    match d.sacnRx with
    | [] => d
    | r :: rest =>
      if !rb d Reg.PACK_CTL 1 then { d with sacnRx := rest }
      else if inTime r k d then sacnReceive r k { d with sacnRx := rest }
      else d

/-- IN_LOSS: no packet has been kept for entry e for 2.5 s (R254). -/
def execInLoss (e : Fin 4096) (s : State) : Host.Outcome State Fault Refusal :=
  onDev s fun k d =>
    let x := inEntry d e
    if rb d Reg.PACK_CTL 1 && bit (inWord d e 3) 31 && !x.loss && decide (3125000000 ≤ since k x.keptTick) then
      raisePack 4 (setInEntry e { x with loss := true } d)
    else d

/-- The half of an image: stamp, priority, sequence number, count, CID, START code and slots (R254). -/
def storeHalf (a : Nat) (p : KeptPacket) (d : Dev) : Dev :=
  if inShared d a 1024 then
    storeRanges [(a, leBytes 8 (shortOf p.stamp).toNat ++ leBytes 1 p.prio ++ leBytes 1 p.seq ++ leBytes 2 p.count),
      (a + 16, p.cid ++ p.slots)] d
  else d

/-- Entry e writes its image and releases its leaf of output frame f (R254). The address is open before the first image.
(DESIGN CHOICE, log entry 49.) -/
def inRelease (e : Nat) (f : W64) (d : Dev) : Dev :=
  let x := inEntry d e
  let half := if x.kept.isSome then some (1 - x.half.getD 1) else x.half
  let base := (rd64 d Reg.PACK_IN_BUF_BASE_LO).toNat / 2 ^ 16 * 2 ^ 16 + e * 2048
  let d := match x.kept, half with | some p, some h => storeHalf (base + h * 1024) p d | _, _ => d
  let addr := match half with | some h => (base + h * 1024, d) | none => ((free d).1.toNat, (free d).2)
  let value := w64 (bnat x.kept.isSome * 2 ^ 63 + bnat x.loss * 2 ^ 62 + addr.1 % 2 ^ 48)
  let key := mkKey (fld (inWord d e 2) 0 14) f.toNat (inWord d e 1).toNat
  setInEntry e { x with kept := none, half }
    (onArr (fun a => { a with inputs := a.inputs ++ [{ key, slot := fld (inWord d e 3) 27 3, value }] }) addr.2)

/-- At the boundary that begins output frame f every valid entry releases its leaf; those of mirrored packets wait for MARK (R254,
R281). -/
def sacnInBoundary (f : W64) (d : Dev) : Dev :=
  if rb d Reg.PACK_CTL 1 then
    forEach (inputsOn d) (fun e d => if waitsMark d && (inEntry d e).mirrored then d else inRelease e f d) d
  else d

/-- MARK has come for the boundary that began output frame f, or its wait is over (R281). -/
def sacnInMark (f : W64) (d : Dev) : Dev :=
  if rb d Reg.PACK_CTL 1 then
    forEach (inputsOn d) (fun e d => if (inEntry d e).mirrored then inRelease e f d else d) d
  else d

/-- PACK_IN_CMD.WRITE by a requester (R268). -/
def packInWrite (req : Req) (k : Clk) (d : Dev) : Dev :=
  let e := fld (rd d (ownOf req Reg.PACK_IN_IDX)) 0 12
  let was := bit (inWord d e 3) 31
  let mask : List W32 := [0, 0xFFFFFFFF, 0x3FFF, 0xF80FFFFF]
  let d := onPack (fun p => { p with inTable := (List.range 4).foldl (fun t w =>
    Tab.put 0 t (4 * e + w) (rd d (ownOf req (Reg.PACK_IN_DATA w)) &&& mask.getD w 0)) p.inTable }) d
  if bit (inWord d e 3) 31 && !was then setInEntry e { inEntry d e with keptTick := k.ticks } d else d

/-- PACK_IN_CMD.READ by a requester (R268). -/
def packInRead (req : Req) (d : Dev) : Dev :=
  let e := fld (rd d (ownOf req Reg.PACK_IN_IDX)) 0 12
  forEach (List.range 4) (fun w => wr (ownOf req (Reg.PACK_IN_DATA w)) (inWord d e w)) d

/-- A write of PACK_IN_CMD. -/
def packInCmd (req : Req) (v : W32) (k : Clk) (d : Dev) : Dev :=
  if bit v 1 then packInWrite req k d else if bit v 0 then packInRead req d else d

/-- PACK_IN_WRITE. -/
def execPackInWrite (req : Req) (s : State) : Host.Outcome State Fault Refusal :=
  onDev s fun k => access Reg.PACK_IN_CMD (packInWrite req k)

/-- PACK_IN_READ. -/
def execPackInRead (req : Req) (s : State) : Host.Outcome State Fault Refusal :=
  onDev s fun _ => access Reg.PACK_IN_CMD (packInRead req)

end Sys2Proof.Machine
end

