-- ==== Sys2Proof/Machine/Dmx.lean ====
section
/-!
DEFINITION. DMX512-A ports and RDM (R261 to R264). Waveforms are not drawn bit by bit: `line` holds the bytes that a frame puts on the
line, and `freeTick` the tick at which it is free again.
-/

namespace Sys2Proof.Machine

/-- DMX port n. -/
def dmx (d : Dev) (n : Nat) : Dmx := Tab.get {} d.dmx n
/-- Set DMX port n. -/
def setDmx (n : Nat) (x : Dmx) (d : Dev) : Dev := { d with dmx := Tab.put {} d.dmx n x }

/-- A number held between two limits. -/
def dmxClampTo (lo hi x : Nat) : Nat := min hi (max lo x)

/-- MODE is the responder mode. -/
def dmxResponder (d : Dev) (n : Nat) : Bool := rf d (Reg.DMX_CTL n) 29 2 == 1
/-- The port runs as a controller; an unusable one is absent (R339). -/
def dmxController (d : Dev) (n : Nat) : Bool := rb d (Reg.DMX_CTL n) 31 && !dmxResponder d n && !unusable d (0x7010 + n)
/-- SLOTS. -/
def dmxSlots (d : Dev) (n : Nat) : Nat := dmxClampTo 1 512 (rf d (Reg.DMX_CTL n) 0 10)
/-- DIV; 0 means 16. -/
def dmxDiv (d : Dev) (n : Nat) : Nat := let v := rf d (Reg.DMX_SCHED n) 28 4; if v = 0 then 16 else v
/-- Frame f launches on the line (R262). -/
def dmxLaunches (d : Dev) (n : Nat) (f : W64) : Bool := f.toNat % dmxDiv d n == rf d (Reg.DMX_SCHED n) 24 4
/-- DMX_OFS. -/
def dmxOfs (d : Dev) (n : Nat) : Time := (rd d (Reg.DMX_OFS n)).toNat * ns1
/-- RECORDS; 0 means 16. -/
def dmxRecords (d : Dev) (n : Nat) : Nat := let v := rf d (Reg.DMX_SRC n) 28 4; if v = 0 then 16 else v

/-- The port sends at this tick: from the start of what is on its line to the last stop bit. -/
def dmxSending (d : Dev) (n : Nat) (k : Clk) : Bool :=
  let x := dmx d n
  x.line.isSome && decide (x.startTick.toNat ≤ k.ticks.toNat) && decide (k.ticks.toNat < x.endTick.toNat)

/-- The level of DMX_DE[n] (R261, R263, R264, R285, R296): a controller holds it high except while it waits for a reply, a responder
only while it sends; a disabled or absent port, a suppressed unit and a tripped device hold it low. -/
def dmxDe (d : Dev) (n : Nat) (k : Clk) : Bool :=
  !d.sys.tripped && !dmxQuiet d &&
    (if dmxController d n then !(dmx d n).waitTick.any fun t => decide (t.toNat ≤ k.ticks.toNat)
    else rb d (Reg.DMX_CTL n) 31 && !unusable d (0x7010 + n) && dmxSending d n k)

/-- DMX_BREAK_TIME[n]: the short time of the last break sent or received (R269). -/
def dmxBreakTime (d : Dev) (n : Nat) (k : Clk) : W64 :=
  match (dmx d n).replyBreak with
  | some (t, v) => if t.toNat ≤ k.ticks.toNat then v else rd64 d (Reg.DMX_BREAK_TIME_LO n)
  | none => rd64 d (Reg.DMX_BREAK_TIME_LO n)

/-- A break is sent or received at instant x (R269). -/
def stampBreak (n : Nat) (x : Time) (d : Dev) : Dev :=
  wr64 (Reg.DMX_BREAK_TIME_LO n) (shortOf x) (setDmx n { dmx d n with replyBreak := none } d)

/-- Nanoseconds of a DMX frame (R261). -/
def dmxLength (d : Dev) (n : Nat) : Nat :=
  (dmxClampTo 88 1000 (rf d (Reg.DMX_TIMING n) 0 16) + dmxClampTo 8 1000 (rf d (Reg.DMX_TIMING n) 16 16) + (dmxSlots d n + 1) * 44
    + dmxSlots d n * rf d (Reg.DMX_SCHED n) 0 8) * 1000

/-- Ticks of a span of nanoseconds, rounded up. -/
def ticksOf (ns : Nat) : Nat := (ns * 5 + 3) / 4

/-- The first frame from f on that launches on the line. -/
def dmxNext (d : Dev) (n : Nat) (f : W64) : W64 :=
  f + w64 (((List.range 16).find? fun i => dmxLaunches d n (f + w64 i)).getD 0)

/-- Frame A of the line. -/
def dmxNumber (k : Clk) (d : Dev) (n : Nat) : Option W64 := ((dmx d n).asm.number k d).map (dmxNext d n)

/-! Assembly (R262, R245, R246). -/

/-- The line is assembled: the port runs and the frame clock emits boundaries. -/
def dmxOut (k : Clk) (d : Dev) (n : Nat) : Bool := dmxController d n && running k d

/-- The line accepts a record for hand-on (R245, R262). -/
def dmxAccepts (k : Clk) (d : Dev) (r : Rec) : Bool :=
  let n := fld r.dest 16 4
  !dmxOut k d n
    || (match dmxNumber k d n with
      | some a => recordAge a (keyFrame r.key) != 2 || !dmxLaunches d n (a + w64 ((keyFrame r.key + 2 ^ 18 - a.toNat % 2 ^ 18) % 2 ^ 18))
      | none => true)

/-- The images staged that a break may still send: the newest of a frame up to c, and all later ones. -/
def keepStaged (c : W64) : List (W64 × List W8) → List (W64 × List W8)
  | a :: b :: l => if b.1 ≤ c then keepStaged c (b :: l) else a :: b :: l
  | l => l

/-- Frame a of the line is staged with its slots, and the next one begins. A break may yet send the image of the last boundary's frame
or of the last frame that the partner confirmed (R296). -/
def dmxStage (n : Nat) (a : W64) (img : List W8) (d : Dev) : Dev :=
  let x := dmx d n
  let c := (d.pair.hb.map (·.confirmed)).elim d.frm.lastFrame fun c => if c ≤ d.frm.lastFrame then c else d.frm.lastFrame
  setDmx n { x with asm := { frame := some (a + 1) }, sent := img, staged := keepStaged c (x.staged ++ [(a, img)]) } d

/-- A record reaches the line: assembled, late, or for a frame that will not launch, as every frame is of a port that does not run as a
controller (R262). (DEDUCED, log entry 50.) -/
def dmxTake (n : Nat) (r : Rec) (k : Clk) (d : Dev) : Dev :=
  match running k d, dmxNumber k d n with
  | true, some a =>
    if !dmxController d n then bumpFld (Reg.DMX_COUNT2 n) 16 16 1 d else
    let x := dmx d n
    let f := a + w64 ((keyFrame r.key + 2 ^ 18 - a.toNat % 2 ^ 18) % 2 ^ 18)
    match recordAge a (keyFrame r.key) with
    | 0 =>
      let img := splice (slice (if x.asm.begun then x.building else x.sent) 0 512) (fld r.dest 0 9) r.data
      if x.asm.count + 1 < dmxRecords d n then
        setDmx n { x with building := img, asm := { frame := some a, count := x.asm.count + 1, begun := true } } d
      else dmxStage n a img d
    | 1 => if dmxLaunches d n (a - w64 ((a.toNat + 2 ^ 18 - keyFrame r.key) % 2 ^ 18)) then d else bumpFld (Reg.DMX_COUNT2 n) 16 16 1 d
    | _ => if dmxLaunches d n f then d else bumpFld (Reg.DMX_COUNT2 n) 16 16 1 d
  | _, _ => d

/-- DMX_RECORD: the oldest record handed on that the line accepts reaches port n; one of a frame that has become later than A since its
hand-on waits (R245, R262). (DESIGN CHOICE, log entry 46.) -/
def execDmxRecord (n : Fin 16) (s : State) : Host.Outcome State Fault Refusal :=
  onDev s fun k d =>
    match (dmx d n).inbox.find? (dmxAccepts k d) with
    | none => d
    | some r => dmxTake n r k (setDmx n { dmx d n with inbox := (dmx d n).inbox.eraseP (dmxAccepts k d) } d)

/-- The record deadline of the line has come: an incomplete frame is held (R246, R262). -/
def dmxDeadline (n : Nat) (k : Clk) (d : Dev) : Dev :=
  match dmxOut k d n, dmxNumber k d n with
  | true, some a =>
    match frameInstant k d a with
    | none => d
    | some b =>
      if now k < b + dmxOfs d n - (rf d (Reg.DMX_LEAD n) 0 10 * 1000 : Nat) * ns1 then d
      else
        let d' := dmxStage n a (slice (dmx d n).sent 0 512) d
        if uncounted k d a then d'
        else raiseDmx n 0 (bumpFld (Reg.DMX_COUNT n) 0 16 1 (lateFlow (rf d (Reg.DMX_SRC n) 16 12) d'))
  | _, _ => d

/-- DMX_RECORD_DEADLINE. -/
def execDmxRecordDeadline (n : Fin 16) (s : State) : Host.Outcome State Fault Refusal := onDev s (dmxDeadline n)

/-! Frames on the line (R261, R262, R285, R296). -/

/-- The line has been free since 8 µs before this tick (R262). (DEDUCED, log entry 50.) -/
def lineFree (k : Clk) (x : Dmx) : Bool := x.freeTick == 0 || decide (x.freeTick.toNat + 10000 ≤ k.ticks.toNat)

/-- The slots that a break for frame f sends: the sent image as it stands with frame f, the newest staged for a frame up to f (R246,
R296). -/
def dmxImage (x : Dmx) (f : W64) : List W8 :=
  match (x.staged.filter fun y => y.1 ≤ f).getLast? with
  | some y => y.2
  | none => slice x.sent 0 512

/-- The frame whose slots a break sends: a verified claimant holds the last frame that its partner confirmed until its takeover boundary
(R296). -/
def dmxShown (d : Dev) (f : W64) : W64 :=
  if d.pair.mode == .taking && d.pair.verified then (d.pair.hb.map (·.confirmed)).getD f else f

/-- The break of the last boundary's frame begins, or the frame is skipped (R262), also where a forward step has passed over its instant.
(DEDUCED, log entry 50; DESIGN CHOICE, log entry 96.) -/
def dmxBreak (n : Nat) (k : Clk) (d : Dev) : Dev :=
  let x := dmx d n
  let f := d.frm.lastFrame
  let at' := d.frm.lastB + dmxOfs d n
  if d.sys.tripped || !dmxController d n || d.frm.run.isNone || !d.frm.firstDone || !dmxLaunches d n f || x.launched == some f
      || decide (now k < at') then d
  else if !lineFree k x then raiseDmx n 1 (bumpFld (Reg.DMX_COUNT n) 16 16 1 (setDmx n { x with launched := some f } d))
  else
    let bytes := BitVec.ofNat 8 (rf d (Reg.DMX_SRC n) 0 8) :: slice (dmxImage x (dmxShown d f)) 0 (dmxSlots d n)
    let fin := k.ticks + w64 (ticksOf (dmxLength d n))
    stampBreak n at' (setDmx n { x with launched := some f, line := some (some f, bytes), startTick := k.ticks, endTick := fin, freeTick := fin } d)

/-- DMX_BREAK. -/
def execDmxBreak (n : Fin 16) (s : State) : Host.Outcome State Fault Refusal := onDev s (dmxBreak n)

/-- The last stop bit has been sent: the frame's digest is complete (R287, R288). -/
def dmxFrameEnd (n : Nat) (k : Clk) (d : Dev) : Dev :=
  let x := dmx d n
  match x.line with
  | none => d
  | some (f, bytes) =>
    if k.ticks.toNat < x.endTick.toNat then d
    else
      let d := setDmx n { x with line := none } d
      match f with
      | some f => addDigest f 1 n (crc32c bytes) d
      | none => d

/-- DMX_FRAME_END. -/
def execDmxFrameEnd (n : Fin 16) (s : State) : Host.Outcome State Fault Refusal := onDev s (dmxFrameEnd n)

/-- A backward step leaves the break of the last frame to come again (R27, R39). -/
def dmxStepBack (k : Clk) (d : Dev) : Dev :=
  forEach (List.range 16) (fun n d =>
    let x := dmx d n
    if x.launched == some d.frm.lastFrame && decide (now k < d.frm.lastB + dmxOfs d n) then setDmx n { x with launched := none } d
    else d) d

/-- A run begins: every line's frame A becomes the one that its first frame leaf names; the sent images stand (R245). -/
def dmxRun (d : Dev) : Dev :=
  forEach (List.range 16) (fun n d => setDmx n { dmx d n with asm := {}, staged := [(0, slice (dmx d n).sent 0 512)] } d) d

/-- A write of DMX_CTL[n]: a port that begins to run as a controller assembles as a universe whose V goes from 0 to 1 (R245, R262).
(DEDUCED, log entry 50.) -/
def dmxCtlWrite (n : Nat) (v : W32) (k : Clk) (d : Dev) : Dev :=
  let e := putReg (Reg.DMX_CTL n) v d
  if dmxController e n && !dmxController d n then
    setDmx n { dmx e n with asm := { frame := (asmBegin k e).frame }, sent := [], building := [], staged := [] } e
  else e

/-- The first boundary of a run, of frame f, has been emitted. -/
def dmxFirst (f : W64) (d : Dev) : Dev :=
  forEach (List.range 16) (fun n d =>
    let x := dmx d n
    setDmx n { x with asm := { x.asm with frame := x.asm.frame <|> some (f + 1) } } d) d

/-- A forward step skips frames (R41). -/
def dmxSkip (last next : W64) (d : Dev) : Dev :=
  { d with dmx := d.dmx.map fun (n, x) => (n, { x with asm := x.asm.skipTo last next }) }

/-! RDM as controller (R263). -/

/-- Bytes of the transmit buffer. -/
def rdmTx (d : Dev) (n : Nat) : List W8 :=
  ((List.range 65).flatMap fun i => leBytes 4 (rd d (Reg.DMX_RDM_TX n i)).toNat).take (dmxClampTo 2 257 (rf d (Reg.DMX_RDM_TXLEN n) 0 9))

/-- Fill a buffer of registers, `words` of them, with bytes. -/
def fillWords (reg : Nat → Nat) (words : Nat) (l : List W8) (d : Dev) : Dev :=
  forEach (List.range words) (fun i d => if 4 * i < l.length then
    wr (reg i) (w32 (ofLe (slice (l ++ (leBytes 4 (rd d (reg i)).toNat).drop (l.length - 4 * i)) (4 * i) 4)) ) d else d) d

/-- A capture into the receive buffer, with its length. -/
def rdmCapture (n : Nat) (l : List W8) (d : Dev) : Dev :=
  wrFld (Reg.DMX_RDM_STATUS n) 16 9 (min 257 l.length) (fillWords (Reg.DMX_RDM_RX n) 65 (l.take 257) d)

/-- The responder sends a reply, no sooner than 176 µs after the request (R264); a reply other than to discovery begins with a break of
176 µs and a mark of 12 µs. (PRESUMED, log entry 48.) -/
def rdmAnswer (n : Nat) (brk : Bool) (l : List W8) (k : Clk) (d : Dev) : Dev :=
  let x := dmx d n
  if d.sys.tripped then d else
  let start := max k.ticks.toNat ((x.askTick.getD k.ticks).toNat + 220000)
  let fin := w64 (start + ticksOf ((bnat brk * 188 + l.length * 44) * 1000))
  let show' := shortOf (now k + ((start - k.ticks.toNat) * k.tb.incr.toNat : Nat))
  setDmx n { x with
    askTick := none, line := some (none, l), startTick := w64 start, endTick := fin, freeTick := fin
    replyBreak := if brk then some (w64 start, show') else x.replyBreak } d

/-- A write of DMX_RDM_CMD[n] with GO = 1: a request waits, or a reply is sent (R263, R264). A 1 written while a request waits is
discarded (R308), and an absent port does nothing (R339). -/
def rdmGo (n : Nat) (noResp : Bool) (k : Clk) (d : Dev) : Dev :=
  let x := dmx d n
  if x.pending || unusable d (0x7010 + n) then d
  else if dmxResponder d n then
    match x.askTick with
    | none => d
    | some t => if 2250000 < since k t then raiseDmx n 6 (setDmx n { x with askTick := none } d) else rdmAnswer n true (rdmTx d n) k d
  else setDmx n { x with pending := true, noResp } d

/-- RDM_GO. -/
def execRdmGo (_req : Req) (n : Fin 16) (noResp : Bool) (s : State) : Host.Outcome State Fault Refusal :=
  onDev s fun k => access (Reg.DMX_RDM_CMD n) (rdmGo n noResp k)

/-- The next break of the line, if one is to come. -/
def dmxNextBreak (n : Nat) (k : Clk) (d : Dev) : Option Time :=
  let x := dmx d n
  if d.frm.firstDone && d.frm.run.isSome && dmxLaunches d n d.frm.lastFrame && x.launched != some d.frm.lastFrame then
    some (d.frm.lastB + dmxOfs d n)
  else (runFrame k d).bind fun f => (frameAt d (dmxNext d n f)).map (· + dmxOfs d n)

/-- Nanoseconds of a request and its reply's wait (R263). -/
def rdmAllowance (d : Dev) (n : Nat) (noResp : Bool) : Nat :=
  (176 + 12 + (rdmTx d n).length * 44 + if noResp then 0 else (rd d (Reg.DMX_RDM_WAIT n)).toNat) * 1000

/-- The pending request is sent in a gap that it fits; a suppressed unit keeps it pending (R263, R285). -/
def rdmSend (n : Nat) (k : Clk) (d : Dev) : Dev :=
  let x := dmx d n
  let need := rdmAllowance d n x.noResp
  let fits := match dmxNextBreak n k d with
    | some b => decide (now k + (need + 8000 : Nat) * ns1 ≤ b)
    | none => true
  if !d.sys.tripped && dmxController d n && x.pending && !dmxQuiet d && x.line.isNone && x.waitTick.isNone
      && decide (x.freeTick.toNat ≤ k.ticks.toNat) && fits then
    let sent := k.ticks + w64 (ticksOf ((188 + (rdmTx d n).length * 44) * 1000))
    stampBreak n (now k) (setDmx n { x with
      pending := false, line := some (none, rdmTx d n), startTick := k.ticks, endTick := sent, freeTick := k.ticks + w64 (ticksOf need)
      waitTick := if x.noResp then none else some sent } d)
  else d

/-- RDM_REQUEST_SEND. -/
def execRdmRequestSend (n : Fin 16) (s : State) : Host.Outcome State Fault Refusal := onDev s (rdmSend n)

/-- A reply to the request is captured, break or no break; its break, if it has one, began `brk` ns ago (R263, R269). -/
def rdmReply (n : Nat) (data : List W8) (brk : Option Nat) (k : Clk) (d : Dev) : Dev :=
  let x := dmx d n
  if x.waitTick.any fun t => decide (t.toNat ≤ k.ticks.toNat) then
    let d := match brk with | some ago => stampBreak n (now k - ago * ns1) d | none => d
    raiseDmx n 4 (rdmCapture n data (setDmx n { dmx d n with waitTick := none, line := none, freeTick := k.ticks } d))
  else d

/-- RDM_REPLY. -/
def execRdmReply (n : Fin 16) (data : List W8 × Option Nat) (s : State) : Host.Outcome State Fault Refusal :=
  onDev s (rdmReply n data.1 data.2)

/-- RDM_TIMEOUT: nothing arrived within the wait (R263). -/
def execRdmTimeout (n : Fin 16) (s : State) : Host.Outcome State Fault Refusal :=
  onDev s fun k d =>
    match (dmx d n).waitTick with
    | some t =>
      if t.toNat + ticksOf ((rd d (Reg.DMX_RDM_WAIT n)).toNat * 1000) ≤ k.ticks.toNat then
        raiseDmx n 5 (setDmx n { dmx d n with waitTick := none, line := none } d)
      else d
    | none => d

/-! Responder mode (R264). The packet layout and the discovery answers are those of ANSI E1.20. -/

/-- The responder runs. -/
def responding (d : Dev) (n : Nat) : Bool := rb d (Reg.DMX_CTL n) 31 && dmxResponder d n && !unusable d (0x7010 + n)

/-- A received DMX frame is kept, or counted as an error (R264). -/
def dmxReceive (n breakNs ago : Nat) (l : List W8) (framing : Bool) (k : Clk) (d : Dev) : Dev :=
  let d := stampBreak n (now k - ago * ns1) d
  if framing || decide (breakNs < 88000) then raiseDmx n 2 (bumpFld (Reg.DMX_COUNT2 n) 0 16 1 d)
  else raiseDmx n 3 (fillWords (Reg.DMX_RX n) 129 (l.take 513) d)

/-- DMX_RX_FRAME: a frame ends whose break lasted breakNs and began `ago` ns ago. -/
def execDmxRxFrame (n : Fin 16) (breakNs ago : Nat) (data : List W8) (framing : Bool) (s : State) :
    Host.Outcome State Fault Refusal :=
  onDev s fun k d => if responding d n then dmxReceive n breakNs ago data framing k d else d

/-- DMX_UID. -/
def dmxUid (d : Dev) (n : Nat) : Nat := (rd64 d (Reg.DMX_UID_LO n)).toNat % 2 ^ 48

/-- The sum of a packet's bytes. -/
def sumBytes (l : List W8) : Nat := (l.map BitVec.toNat).sum % 2 ^ 16

/-- An RDM packet with its sub-start code, length and checksum right. -/
def rdmOk (l : List W8) : Bool :=
  let m := (byteAt l 2).toNat
  decide (24 ≤ m ∧ m + 2 ≤ l.length) && byteAt l 0 == 0xCC && byteAt l 1 == 0x01 && be16 l m == sumBytes (l.take m)

/-- The answer to DISC_UNIQUE_BRANCH: preamble and the UID and checksum in pairs of bytes. -/
def discoveryAnswer (uid : Nat) : List W8 :=
  let pairs (l : List W8) : List W8 := l.flatMap fun b => [b ||| 0xAA, b ||| 0x55]
  let e := pairs (beBytes 6 uid)
  List.replicate 7 0xFE ++ [0xAA] ++ e ++ pairs (beBytes 2 (sumBytes e))

/-- The response to DISC_MUTE or DISC_UN_MUTE, with a control field of zero. -/
def muteAnswer (l : List W8) (uid : Nat) : List W8 :=
  let body := [0xCC, 0x01, 26] ++ slice l 9 6 ++ beBytes 6 uid ++ [byteAt l 15, 0, 0] ++ slice l 18 2 ++ [0x11] ++ slice l 21 2 ++ [2, 0, 0]
  body ++ beBytes 2 (sumBytes body)

/-- A request has been received: discovery is answered in hardware, others go to the control firmware (R264). -/
def rdmRequest (n : Nat) (l : List W8) (k : Clk) (d : Dev) : Dev :=
  let x := { dmx d n with askTick := some k.ticks }
  let uid := dmxUid d n
  let dest := ofBe (slice l 3 6)
  let mine := dest == uid
  let all := dest == 2 ^ 48 - 1 || dest == uid / 2 ^ 32 * 2 ^ 32 + 0xFFFFFFFF
  if !rdmOk l || !(mine || all) then d
  else
    match (byteAt l 20).toNat, be16 l 21 with
    | 0x10, 0x0001 =>
      if !x.mute ∧ ofBe (slice l 24 6) ≤ uid ∧ uid ≤ ofBe (slice l 30 6) then rdmAnswer n false (discoveryAnswer uid) k (setDmx n x d) else d
    | 0x10, 0x0002 =>
      let d := setDmx n { x with mute := true, askTick := if mine then x.askTick else none } d
      if mine then rdmAnswer n true (muteAnswer l uid) k d else d
    | 0x10, 0x0003 =>
      let d := setDmx n { x with mute := false, askTick := if mine then x.askTick else none } d
      if mine then rdmAnswer n true (muteAnswer l uid) k d else d
    | _, _ => rdmCapture n l (setDmx n x d)

/-- RDM_REQUEST_RX: a request ends whose break began so many nanoseconds ago. -/
def execRdmRequestRx (n : Fin 16) (data : List W8 × Nat) (s : State) : Host.Outcome State Fault Refusal :=
  onDev s fun k d => if responding d n then rdmRequest n data.1 k (stampBreak n (now k - data.2 * ns1) d) else d

/-- RDM_LATE: 1.8 ms have passed since a request without a reply (R264). -/
def execRdmLate (n : Fin 16) (s : State) : Host.Outcome State Fault Refusal :=
  onDev s fun k d =>
    match (dmx d n).askTick with
    | some t => if responding d n && decide (2250000 < since k t) then raiseDmx n 6 (setDmx n { dmx d n with askTick := none } d) else d
    | none => d

end Sys2Proof.Machine
end

