-- ==== Sys2Proof/Machine/Color.lean ====
section
/-!
DEFINITION. Texels, filters, colour matrices, tables, curves and dither: the arithmetic of the infuser and of scan-out
(R144 to R153, R175 to R178). Levels are natural numbers from 0 to 65,535.
-/

namespace Sys2Proof.Machine

/-- An n-bit channel repeated from the most significant end until 16 bits are filled (R145). -/
def widen (n c : Nat) : Nat :=
  let k := (15 + n) / n
  c * ((2 ^ (k * n) - 1) / (2 ^ n - 1)) / 2 ^ (k * n - 16)

/-- Channel c of a packed texel whose bytes spell `raw` (R144, R145, R165). -/
def packedChannel (f raw c : Nat) : Nat :=
  let at' (lo n : Nat) : Nat := widen n (raw / 2 ^ lo % 2 ^ n)
  match f with
  | 1 => if c = 0 then at' 11 5 else if c = 1 then at' 5 6 else if c = 2 then at' 0 5 else 0xFFFF
  | 2 => if c < 3 then at' (8 * c) 8 else 0xFFFF
  | 3 => if c = 0 then at' 16 8 else if c = 1 then at' 8 8 else if c = 2 then at' 0 8 else at' 24 8
  | 4 => if c = 0 then at' 20 10 else if c = 1 then at' 10 10 else if c = 2 then at' 0 10 else at' 30 2
  | 5 => if c = 0 then raw % 2 ^ 16 else if c = 3 then 0xFFFF else 0
  | 6 => raw / 2 ^ (16 * c) % 2 ^ 16
  | _ => 0

/-- A texel's place in the Kettle: offset and bytes of channel c at column x, row y, slice z (R165, R166). -/
def texelSpan (s : List W32) (c x y z : Nat) : Nat × Nat :=
  let f := descFormat s
  let b := fmtBytes f
  if !fmtYcc f || c = 0 then (descRowAt s 0 (z * descHeight s + y) + x * b, b)
  else if fmt3p f then (descRowAt s c y + x * b, b)
  else (descRowAt s 1 y + x * 2 * b + (c - 1) * b, b)

/-- The value of a texel's channel from the bytes of its span (R144, R145). -/
def texelValue (s : List W32) (c : Nat) (bs : List W8) : Nat :=
  let f := descFormat s
  if fmtYcc f then
    if c = 3 then 0xFFFF
    else if fmt10 f then ofLe bs % 1024 * 64 else ofLe bs % 256 * 256
  else packedChannel f (ofLe bs) c

/-- A texel's channel as memory holds it. -/
def texel (d : Dev) (s : List W32) (c x y z : Nat) : Nat :=
  texelValue s c (getBytes d (ketBase + (texelSpan s c x y z).1) (texelSpan s c x y z).2)

/-- Texel counts of the plane that holds channel c: columns and rows (R147, R148). -/
def planeDims (s : List W32) (c : Nat) : Nat × Nat :=
  if fmtYcc (descFormat s) && (c == 1 || c == 2) then
    (descWidth s / 2, if fmt420 (descFormat s) then descHeight s / 2 else descHeight s)
  else (descWidth s, descHeight s)

/-- The edge mode's index along an axis of n texels; none is outside (R147). -/
def edgeIdx (mode : Nat) (i : Int) (n : Nat) : Option Nat :=
  match mode with
  | 0 => some (if i < 0 then 0 else min i.toNat (n - 1))
  | 1 => if i < 0 ∨ (n : Int) ≤ i then none else some i.toNat
  | 2 => some (i % n).toNat
  | _ => let m := (i % (2 * n)).toNat; some (if m < n then m else 2 * n - 1 - m)

/-- One axis of a filter: each index with its weight. -/
abbrev Axis := List (Option Nat × Nat)

/-- The two taps of one axis at an S15.16 coordinate, with weights totalling 4,096, or the nearest texel alone (R146). -/
def axisTaps (nearest : Bool) (mode : Nat) (u : Int) (n : Nat) : Axis :=
  if nearest then [(edgeIdx mode (u / 65536) n, 4096)]
  else
    let su := u - 0x8000
    let f := (su % 65536).toNat / 16
    [(edgeIdx mode (su / 65536) n, 4096 - f), (edgeIdx mode (su / 65536 + 1) n, f)]

/-- The coordinates of channel c on a surface, from luma coordinates (R148). -/
def planeCoord (s : List W32) (c : Nat) (u v : Int) : Int × Int :=
  if fmtYcc (descFormat s) && (c == 1 || c == 2) then
    ((u - 0x8000) / 2 + 0x8000, if fmt420 (descFormat s) then v / 2 else v)
  else (u, v)

/-- The texels and weights of channel c of a two-dimensional sample (R146, R148). -/
def taps2 (s : List W32) (nearest : Bool) (mode : Nat) (u v : Int) (c : Nat) : List (Option (Nat × Nat × Nat) × Nat) :=
  let uv := planeCoord s c u v
  let dims := planeDims s c
  (axisTaps nearest mode uv.2 dims.2).flatMap fun (y, wy) =>
    (axisTaps nearest mode uv.1 dims.1).map fun (x, wx) =>
      (x.bind fun x => y.map fun y => (x, y, 0), wx * wy)

/-- The voxels and weights of a three-dimensional sample (R149). -/
def taps3 (s : List W32) (nearest : Bool) (mode : Nat) (u v w : Int) : List (Option (Nat × Nat × Nat) × Nat) :=
  (axisTaps nearest mode w (descDepth s)).flatMap fun (z, wz) =>
    (axisTaps nearest mode v (descHeight s)).flatMap fun (y, wy) =>
      (axisTaps nearest mode u (descWidth s)).map fun (x, wx) =>
        (x.bind fun x => y.bind fun y => z.map fun z => (x, y, z), wx * wy * wz)

/-- The Kettle spans that a list of taps of channel c reads; a tap of weight zero reads its texel too. -/
def tapSpans (s : List W32) (c : Nat) (taps : List (Option (Nat × Nat × Nat) × Nat)) : List (Nat × Nat) :=
  taps.filterMap fun (t, _) => t.map fun (x, y, z) => texelSpan s c x y z

/-- A weighted mean of texels, rounded with ties upward; the weights total 2^bits (R146, R149). -/
def mixTaps (d : Dev) (s : List W32) (c bits : Nat) (taps : List (Option (Nat × Nat × Nat) × Nat)) : Nat :=
  let sum := taps.foldl (fun acc (t, w) => acc + match t with | some (x, y, z) => w * texel d s c x y z | none => 0) 0
  (sum + 2 ^ (bits - 1)) / 2 ^ bits

/-- Channel 3 of a format without alpha, and the channels that no plane stores, are constants (R144): whether channel c
is read from the surface. -/
def channelStored (f c : Nat) : Bool := if fmtYcc f then decide (c < 3) else if f = 1 ∨ f = 2 then decide (c < 3) else if f = 5 then c == 0 else true

/-- A channel outside the surface reads 0 in all four channels under BORDER; a channel no plane stores is constant
elsewhere (R144, R147). -/
def sample2 (d : Dev) (s : List W32) (nearest : Bool) (mode : Nat) (u v : Int) (c : Nat) : Nat :=
  mixTaps d s c 24 (taps2 s nearest mode u v c)

/-- One channel of a volume sample (R149). -/
def sample3 (d : Dev) (s : List W32) (nearest : Bool) (mode : Nat) (u v w : Int) (c : Nat) : Nat :=
  mixTaps d s c 36 (taps3 s nearest mode u v w)

/-- A signed 16-bit word. -/
def s16 (x : Nat) : Int := signExt 16 x

/-- One row of a colour matrix applied to three channels: the result, and whether it was clamped (R150). -/
def matrixRow (c0 c1 c2 ofs : Int) (i0 i1 i2 : Nat) : Nat × Bool :=
  let r := (c0 * i0 + c1 * i1 + c2 * i2 + ofs * 65536 + 2048) / 4096
  if r < 0 then (0, true) else if 0xFFFF < r then (0xFFFF, true) else (r.toNat, false)

/-- A level on the scale on which 0xFFFF is exactly one (R151, R152, R153, R175). -/
def unit16 (a : Nat) : Nat := a + a / 2 ^ 15

/-- Node index and weight of an input on an axis of `n` intervals (R151, R152). -/
def nodeOf (n last a : Nat) : Nat × Nat :=
  let p := unit16 a * n
  let i := min (p / 65536) last
  (i, (p - i * 65536) / 16)

/-- Output e of a 33-cube lookup; `e33 r g b k` is word k of a node (R151). -/
def lut3 (e33 : Nat → Nat → Nat → Nat) (r g b : Nat) : Nat :=
  let x := nodeOf 32 31 r
  let y := nodeOf 32 31 g
  let z := nodeOf 32 31 b
  let w (f : Nat) (hi : Nat) : Nat := if hi = 1 then f else 4096 - f
  let sum := [0, 1].foldl (fun acc dz => [0, 1].foldl (fun acc dy => [0, 1].foldl (fun acc dx =>
    acc + w x.2 dx * w y.2 dy * w z.2 dz * e33 (x.1 + dx) (y.1 + dy) (z.1 + dz)) acc) acc) 0
  (sum + 2 ^ 35) / 2 ^ 36

/-- A curve of 4,096 entries (R152). -/
def curve (e : Nat → Nat) (a : Nat) : Nat :=
  let x := nodeOf 4095 4094 a
  (e x.1 * (4096 - x.2) + e (x.1 + 1) * x.2 + 2048) / 4096

/-- The 16 bits of a number in reverse order. -/
def bitrev16 (x : Nat) : Nat := (List.range 16).foldl (fun acc i => acc * 2 + x / 2 ^ i % 2) 0

/-- Dither of element i with phase q (R153). -/
def dither (q i a : Nat) : Nat := (unit16 a * 255 + bitrev16 ((q + i * 0x9E37) % 65536)) / 65536

end Sys2Proof.Machine
end

