-- ==== Sys2Proof/Machine/Raster.lean ====
section
/-!
DEFINITION. The raster heads: timing, lock, layers, composition, commit, latch and retire (R158, R169 to R190, R192).
-/

namespace Sys2Proof.Machine

/-! Timing (R169 to R171, R179, R188). -/

/-- The Trazh registers of head h (R259). -/
def trazhRegs (d : Dev) (h : Nat) : List W32 :=
  [rd d (Reg.TRAZH_CTL h), rd d (Reg.TRAZH_ETYPE h), rd d (Reg.TRAZH_DMAC_LO h), rd d (Reg.TRAZH_DMAC_HI h), rd d (Reg.TRAZH_OFS h),
    rd d (Reg.TRAZH_SPACING h)]

/-- Output controls of head h in force: DP_EN is held at 0 without lane 0, and no head packs Trazh without its packer (R339). -/
def outHeld (d : Dev) (h : Nat) (v : W32) : W32 :=
  let v := if dpLanes d h = 0 then setBit v 0 false else v
  if unusable d 0x7030 then setBit v 1 false else v

/-- DisplayPort controls of head h in force: no more lanes than the head offers (R339). -/
def dpHeld (d : Dev) (h : Nat) (v : W32) : W32 :=
  setFld v 0 2 (min (fld v 0 2) (match dpLanes d h with | 4 => 3 | 2 => 1 | _ => 0))

/-- RHEAD_OUT_CTL[h] as a capture takes it. -/
def outCtlOf (d : Dev) (h : Nat) : W32 := outHeld d h (rd d (Reg.RHEAD_OUT_CTL h))

/-- RHEAD_DP_CTL[h] as a capture takes it. -/
def dpCtlOf (d : Dev) (h : Nat) : W32 := dpHeld d h (rd d (Reg.RHEAD_DP_CTL h))

/-- The timing set that the registers of head h hold (R170). -/
def timingRegs (d : Dev) (h : Nat) : Timing :=
  let hb := rd d (Reg.RHEAD_H_BLANK h)
  let vb := rd d (Reg.RHEAD_V_BLANK h)
  { hActive := rf d (Reg.RHEAD_H_ACTIVE h) 0 15, hFp := fld hb 20 11, hSync := fld hb 10 10, hBp := fld hb 0 10
    hsPol := bit hb 31, vActive := rf d (Reg.RHEAD_V_ACTIVE h) 0 14, vFp := fld vb 20 11, vSync := fld vb 10 10
    vBp := fld vb 0 10, vsPol := bit vb 31, offset := (rd d (Reg.RHEAD_VSYNC_OFFSET h)).toNat
    split := h % 2 == 0 && rb d (Reg.RHEAD_CTL h) 2
    outCtl := outCtlOf d h, dpCtl := dpCtlOf d h
    oddOut := outCtlOf d (h + 1), oddDp := dpCtlOf d (h + 1)
    trazh := trazhRegs d h, oddTrazh := if h % 2 = 0 then trazhRegs d (h + 1) else [] }

/-- Active pixels of one output per line (R179). -/
def Timing.outWidth (t : Timing) : Nat := if t.split then t.hActive / 2 else t.hActive
/-- H_TOTAL. -/
def Timing.hTotal (t : Timing) : Nat := t.outWidth + t.hFp + t.hSync + t.hBp
/-- V_TOTAL. -/
def Timing.vTotal (t : Timing) : Nat := t.vActive + t.vFp + t.vSync + t.vBp
/-- The last front-porch line. -/
def Timing.lastPorch (t : Timing) : Nat := t.vActive + t.vFp - 1

/-- Output depth n (R178). -/
def depthOf (outCtl : W32) : Nat := match fld outCtl 4 2 with | 0 => 6 | 2 => 10 | _ => 8

/-- Lanes times lane rate, in units of 10 Mbit/s (R192). -/
def dpRate (dpCtl : W32) : Nat :=
  (match fld dpCtl 0 2 with | 0 => 1 | 1 => 2 | _ => 4) * (match fld dpCtl 2 2 with | 0 => 162 | 1 => 270 | 2 => 540 | _ => 810)

/-- The grid whose rate sets the pixel rate: the one in use, else the one the registers hold (R171). -/
def rateGrid (d : Dev) : Grid := d.frm.run.getD (gridRegs d)

/-- P in pixels per second, as numerator and denominator (R171). It is not rounded. (DESIGN CHOICE, log entry 93.) -/
def pixelRate (g : Grid) (t : Timing) : Nat × Nat := (t.hTotal * t.vTotal * g.num.toNat, g.den.toNat)

/-- The DisplayPort output with these controls carries the pixel rate (R188). -/
def dpFits (p : Nat × Nat) (outCtl dpCtl : W32) : Bool :=
  !bit outCtl 0 || decide (p.1 * 3 * depthOf outCtl * 1000 ≤ 784 * dpRate dpCtl * 10000000 * p.2)

/-- A capture accepts the timing set (R169, R170, R179, R188). -/
def timingOk (g : Grid) (t : Timing) : Bool :=
  let dp := bit t.outCtl 0 || (t.split && bit t.oddOut 0)
  let p := pixelRate g t
  decide ((if t.split then t.hActive % 2 = 0 ∧ 2 ≤ t.hActive ∧ t.hActive ≤ 16384 else 1 ≤ t.hActive ∧ t.hActive ≤ 8192)
      ∧ 1 ≤ t.vActive ∧ t.vActive ≤ 8192 ∧ 1 ≤ t.hFp ∧ 1 ≤ t.hSync ∧ 1 ≤ t.hBp ∧ 1 ≤ t.vFp ∧ 1 ≤ t.vSync ∧ 2 ≤ t.vBp
      ∧ p.1 ≤ 1200000000 * p.2 ∧ t.offset * g.num.toNat < g.den.toNat * 1000000000)
    && (!dp || decide (64 ≤ t.hFp + t.hSync + t.hBp))
    && dpFits p t.outCtl t.dpCtl && (!t.split || dpFits p t.oddOut t.oddDp)

/-! The Trazh stream's layout (R257 to R259). -/

/-- A captured Trazh set: PORT. -/
def trazhPort (z : List W32) : Nat := fld (z.getD 0 0) 28 3
/-- LINES; 0 means 16. -/
def trazhLines (z : List W32) : Nat := let n := fld (z.getD 0 0) 24 4; if n = 0 then 16 else n
/-- SEG. -/
def trazhSeg (z : List W32) : Nat := fld (z.getD 0 0) 0 14

/-- Payload bytes of a pixel by BPC (R257). -/
def pixelSize (outCtl : W32) : Nat := if depthOf outCtl = 10 then 4 else 3

/-- Frame length of the Trazh packet j of a group of `lines` lines (R257). -/
def trazhLen (d : Dev) (z : List W32) (outCtl : W32) (w lines j : Nat) : Nat :=
  let cols := min (trazhSeg z) (w - j * trazhSeg z)
  max 60 (46 + (tagBytes d (trazhPort z) 8).length + lines * cols * pixelSize outCtl) + 4

/-- Wire time of a frame of n bytes on port p, in the units of windows (R200). -/
def wireTime (d : Dev) (p n : Nat) : Int := bytesW ((port d p).byteTime p) (n + 20)

/-- S: the distance to the packet after one of n bytes, in the units of windows (R258). -/
def trazhStep (d : Dev) (z : List W32) (n : Nat) : Int :=
  let s := (z.getD 5 0).toNat
  if s = 0 then wireTime d (trazhPort z) n else psW s

/-- The instant of the start of line r of the frame, counted from V, in a timing set with rate P (R258). -/
def lineAt (g : Grid) (t : Timing) (r : Nat) : Time :=
  let p := pixelRate g t
  (r * t.hTotal * p.2 * 1000000000 * 2 ^ 48 / p.1 : Nat)

/-- A(g, 0) less V (R258). -/
def groupAt (g : Grid) (t : Timing) (z : List W32) (i : Nat) : Time :=
  lineAt g t (t.vSync + t.vBp + i * trazhLines z) + nsSigned (z.getD 4 0)

/-- Packets of a group, and lines of group i (R258). -/
def trazhPackets (w : Nat) (z : List W32) : Nat := (w + trazhSeg z - 1) / trazhSeg z
/-- Lines of group i. -/
def groupLines (t : Timing) (z : List W32) (i : Nat) : Nat := min (trazhLines z) (t.vActive - i * trazhLines z)
/-- Groups of a frame. -/
def trazhGroups (t : Timing) (z : List W32) : Nat := (t.vActive + trazhLines z - 1) / trazhLines z

/-- A(g, j) less A(g, 0), and the end of packet j - 1 where j passes the last, in the units of windows (R258). -/
def packetAt (d : Dev) (t : Timing) (z : List W32) (outCtl : W32) (w i : Nat) : Nat → Int
  | 0 => 0
  | j + 1 => packetAt d t z outCtl w i j + trazhStep d z (trazhLen d z outCtl w (groupLines t z i) j)

/-- A capture accepts the Trazh set of a head whose TRAZH_EN is 1 (R259). -/
def trazhOk (d : Dev) (g : Grid) (t : Timing) (z : List W32) (outCtl : W32) : Bool :=
  let w := t.outWidth
  let n := trazhPackets w z
  let ahead : Time := (stageLead d (trazhPort z) + 2000 : Nat) * ns1
  let last := trazhGroups t z - 1
  !bit outCtl 1
    || (decide (1 ≤ trazhSeg z ∧ trazhSeg z ≤ w)
      && decide (trazhLen d z outCtl w (min (trazhLines z) t.vActive) 0 ≤ 9216)
      && decide (lineAt g t t.vSync ≤ groupAt g t z 0 - ahead)
      && decide (fine * (groupAt g t z last - ahead) + packetAt d t z outCtl w last (n - 1) ≤ fine * lineAt g t (t.vSync + t.vBp + t.vActive))
      && (List.range last).all fun i =>
        let m := trazhLen d z outCtl w (groupLines t z i) (n - 1)
        decide (fine * groupAt g t z i + packetAt d t z outCtl w i (n - 1) + wireTime d (trazhPort z) m ≤ fine * groupAt g t z (i + 1)))

/-- RHEAD_PCLK takes the rate of a timing set, on both heads of a split pair (R171, R179). -/
def setPclk (h : Nat) (t : Timing) (d : Dev) : Dev :=
  let p := pixelRate (rateGrid d) t
  when t.split (wr (Reg.RHEAD_PCLK (h + 1)) (w32 (p.1 / p.2))) (wr (Reg.RHEAD_PCLK h) (w32 (p.1 / p.2)) d)

/-- A frame-clock apply sets the nominal rates anew; a head whose offset no longer lies below the period runs free
(R171). -/
def rasterRegrid (d : Dev) : Dev :=
  forEach (List.range 4) (fun h d =>
    match (head d h).timing with
    | none => d
    | some t =>
      let d := setPclk h t d
      let g := rateGrid d
      if (head d h).running && decide (g.den.toNat * 1000000000 ≤ t.offset * g.num.toNat) then
        raiseHead h 4 (setHead h { head d h with forced := true } d)
      else d) d

/-! Scan-out reads (R158, R159, R174, R176, R185). -/

/-- The surface a layer names. -/
def LayerRegs.surface (l : LayerRegs) : Nat := fld l.ctl 16 10
/-- A layer that contributes (R174). -/
def ActiveLayer.shown (l : ActiveLayer) : Bool := bit l.regs.ctl 31 && !l.failed
/-- Size on the raster: that of DST for a scaled layer 0, else that of SRC (R174). -/
def LayerRegs.dstSizeOf (l : LayerRegs) (idx : Nat) : Nat × Nat :=
  if idx = 0 ∧ bit l.ctl 30 then (fld l.dstSize 16 15, fld l.dstSize 0 14) else (fld l.srcSize 16 15, fld l.srcSize 0 14)

/-- The source position of layer column or row j, in units of 2^-16 (R176). -/
def scalePos (src n dst j : Nat) : Int := (src * 65536 + (2 * j + 1) * n * 65536 / (2 * dst) : Nat) - (32768 : Int)

/-- The four weights of a phase (R176). -/
def scaleWeights (phi : Nat) : List Int :=
  let p : Int := phi
  let wm1 := (-(p * p * p) + 128 * p * p - 4096 * p + 1024) / 2048
  let w1 := (-3 * p * p * p + 256 * p * p + 4096 * p + 1024) / 2048
  let w2 := (p * p * p - 64 * p * p + 1024) / 2048
  [wm1, 256 - wm1 - w1 - w2, w1, w2]

/-- The four taps of a position, each clamped into [lo, hi] (R176). -/
def scaleTaps (s : Int) (lo hi : Nat) : List Nat :=
  [-1, 0, 1, 2].map fun k => (min (hi : Int) (max (lo : Int) (s / 65536 + k))).toNat

/-- The filter of four taps (R176). -/
def scaleMix (s : Int) (p : List Nat) : Nat :=
  let sum := (List.zipWith (fun (w : Int) (x : Nat) => w * x) (scaleWeights ((s % 65536).toNat / 1024)) p).foldl (· + ·) 0
  (min 65535 (max 0 ((sum + 128) / 256))).toNat

/-- The rows of plane p that layer 0 filters for layer row i, and the columns it may read: position, taps and bounds of
both axes of channel c (R148, R176). -/
def scaleAxes (l : ActiveLayer) (c j i : Nat) : (Int × Nat × Nat) × (Int × Nat × Nat) :=
  let x0 := fld l.regs.srcPos 16 15
  let y0 := fld l.regs.srcPos 0 14
  let w := fld l.regs.srcSize 16 15
  let h := fld l.regs.srcSize 0 14
  let dst := l.regs.dstSizeOf 0
  let uv := planeCoord l.desc c (scalePos x0 w dst.1 j + 32768) (scalePos y0 h dst.2 i + 32768)
  let half := fmtYcc (descFormat l.desc) && c != 0
  let cx := if half then 2 else 1
  let cy := if half && fmt420 (descFormat l.desc) then 2 else 1
  ((uv.1 - 32768, x0 / cx, (x0 + w) / cx - 1), (uv.2 - 32768, y0 / cy, (y0 + h) / cy - 1))

/-- A block of the Kettle shows as zero: its read was late, or a word of it is uncorrectable (R158, R159). -/
def blockDark (d : Dev) (late : List Nat) (o n : Nat) : Bool :=
  (ketBlocks o n).any fun b => late.contains b || uncorrectable d (ketBase + b * 64) 64

/-- A texel as scan-out shows it: zero in a dark block. -/
def scanTexel (d : Dev) (late : List Nat) (s : List W32) (c x y : Nat) : Nat :=
  let span := texelSpan s c x y 0
  if blockDark d late span.1 span.2 then 0 else texel d s c x y 0

/-- Channel c of layer 0 at its column j and row i (R176). -/
def scaled (d : Dev) (late : List Nat) (l : ActiveLayer) (c j i : Nat) : Nat :=
  let ax := scaleAxes l c j i
  scaleMix ax.2.1 ((scaleTaps ax.2.1 ax.2.2.1 ax.2.2.2).map fun y =>
    scaleMix ax.1.1 ((scaleTaps ax.1.1 ax.1.2.1 ax.1.2.2).map fun x => scanTexel d late l.desc c x y))

/-- The taps of a position that carry weight (R176). -/
def scaleUsed (ax : Int × Nat × Nat) : List Nat :=
  ((scaleTaps ax.1 ax.2.1 ax.2.2).zip (scaleWeights ((ax.1 % 65536).toNat / 1024))).filterMap fun (x, w) => if w = 0 then none else some x

/-- A texel of channel c that enters layer 0 at its column j and row i lies in a dark block. -/
def scaledDark (d : Dev) (late : List Nat) (l : ActiveLayer) (c j i : Nat) : Bool :=
  let ax := scaleAxes l c j i
  (scaleUsed ax.2).any fun y => (scaleUsed ax.1).any fun x =>
    let span := texelSpan l.desc c x y 0
    blockDark d late span.1 span.2

/-- Coefficient j of a colour matrix in registers (R150, R192). -/
def cscCoef (csc : List W32) (j : Nat) : Int := s16 (fld (csc.getD (j / 2) 0) (j % 2 * 16) 16)

/-- Row e of RHEAD_CSC applied to luma and chroma (R177). -/
def cscRow (csc : List W32) (e y cb cr : Nat) : Nat :=
  (matrixRow (cscCoef csc (4 * e)) (cscCoef csc (4 * e + 1)) (cscCoef csc (4 * e + 2)) (cscCoef csc (4 * e + 3)) y cb cr).1

/-- Red, green, blue and alpha of layer l of the set at its column j and row i (R174 to R177). A YCbCr pixel with a sample in a dark block
is zero in all channels (R158, R159). -/
def layerPixel (d : Dev) (late : List Nat) (csc : List W32) (idx : Nat) (l : ActiveLayer) (j i : Nat) : List Nat :=
  let f := descFormat l.desc
  if idx = 0 then
    let v := (List.range 3).map fun c => scaled d late l c j i
    (if !fmtYcc f then v
      else if (List.range 3).any fun c => scaledDark d late l c j i then [0, 0, 0]
      else (List.range 3).map fun e => cscRow csc e (v.getD 0 0) (v.getD 1 0) (v.getD 2 0)) ++ [0xFFFF]
  else
    let x := fld l.regs.srcPos 16 15 + j
    let y := fld l.regs.srcPos 0 14 + i
    ((List.range 3).map fun c => scanTexel d late l.desc c x y)
      ++ [if f = 1 ∨ f = 2 then 0xFFFF else scanTexel d late l.desc 3 x y]

/-- One channel blended over the result so far (R175). -/
def blend (galpha pa s d : Nat) : Nat :=
  let a := (unit16 pa * unit16 galpha + 32768) / 65536
  (s * a + d * (65536 - a) + 32768) / 65536

/-- Raster pixel (x, y) of a set: the background under its contributing layers (R174, R175). -/
def composed (d : Dev) (late : List Nat) (a : ActiveSet) (x y : Nat) : List Nat :=
  let bg := [widen 10 (fld a.bg 20 10), widen 10 (fld a.bg 10 10), widen 10 (fld a.bg 0 10)]
  (List.range 4).foldl (fun acc idx =>
    match a.layers[idx]? with
    | none => acc
    | some l =>
      let x0 := fld l.regs.dstPos 16 15
      let y0 := fld l.regs.dstPos 0 14
      let size := l.regs.dstSizeOf idx
      if l.shown && decide (x0 ≤ x ∧ x < x0 + size.1 ∧ y0 ≤ y ∧ y < y0 + size.2) then
        let p := layerPixel d late a.csc idx l (x - x0) (y - y0)
        (List.range 3).map fun c => blend (fld l.regs.ctl 0 16) (p.getD 3 0) (p.getD c 0) (acc.getD c 0)
      else acc) bg

/-- A channel quantised to the output depth (R178). -/
def quantise (n c : Nat) : Nat := (c * (2 ^ n - 1) + 32768) / 65536

/-- The pixels of one output for a line: `x0` is its first logical column (R175 to R180). -/
def linePixels (d : Dev) (late : List Nat) (active : Option ActiveSet) (x0 w n y : Nat) : List (Nat × Nat × Nat) :=
  (List.range w).map fun i =>
    match active with
    | none => (0, 0, 0)
    | some a =>
      let p := composed d late a (x0 + i) y
      (quantise n (p.getD 0 0), quantise n (p.getD 1 0), quantise n (p.getD 2 0))

/-- What head h shows of a set: nothing once its Kettle read path is unusable (R339). -/
def litSet (d : Dev) (h : Nat) (a : Option ActiveSet) : Option ActiveSet := if unusable d (0x7020 + h) then none else a

/-- Compute the pixels that head h, and with it the odd head of its pair, sends in the line being output.
(DESIGN CHOICE, log entry 86.) -/
def showLine (h : Nat) (d : Dev) : Dev :=
  let x := head d h
  match x.timing with
  | none => d
  | some t =>
    let w := if x.running && decide (x.line < t.vActive) then t.outWidth else 0
    let d' := setHead h { x with pixels := linePixels d x.lateBlocks (litSet d h x.active) 0 w (depthOf t.outCtl) x.line } d
    if t.split && x.running then
      let o := head d (h + 1)
      setHead (h + 1) { o with pixels := linePixels d o.lateBlocks (litSet d (h + 1) x.active) w w (depthOf t.oddOut) x.line } d'
    else d'

/-- The rows of channel c's plane that a layer reads for raster line y. -/
def layerRows (idx : Nat) (l : ActiveLayer) (c y : Nat) : List Nat :=
  let y0 := fld l.regs.dstPos 0 14
  if l.shown && decide (y0 ≤ y ∧ y < y0 + (l.regs.dstSizeOf idx).2) then
    if idx = 0 then let ax := (scaleAxes l c 0 (y - y0)).2; (scaleTaps ax.1 ax.2.1 ax.2.2).dedup
    else [fld l.regs.srcPos 0 14 + (y - y0)]
  else []

/-- The first word of each plane's row of the source rectangle: offset and bytes. -/
def layerRowSpan (l : ActiveLayer) (p r : Nat) : Nat × Nat :=
  let f := descFormat l.desc
  let x0 := fld l.regs.srcPos 16 15
  let w := fld l.regs.srcSize 16 15
  let b := fmtBytes f
  if p = 0 then (descRowAt l.desc 0 r + x0 * b, w * b)
  else if fmt3p f then (descRowAt l.desc p r + x0 / 2 * b, w / 2 * b)
  else (descRowAt l.desc p r + x0 / 2 * 2 * b, w / 2 * 2 * b)

/-- The Kettle words that scan-out of line y reads and that of line y - 1 did not. -/
def lineWords (a : ActiveSet) (y : Nat) : List Nat :=
  (List.range 4).flatMap fun idx =>
    match a.layers[idx]? with
    | none => []
    | some l =>
      (List.range (fmtPlanes (descFormat l.desc))).flatMap fun p =>
        let before := if y = 0 then [] else layerRows idx l p (y - 1)
        ((layerRows idx l p y).filter fun r => !before.contains r).flatMap fun r =>
          wordsOf (ketBase + (layerRowSpan l p r).1) (layerRowSpan l p r).2

/-- Scan-out reads what the line being output needs: single errors are corrected, others counted (R159). (DESIGN CHOICE, log entry 86.) -/
def scanReads (h : Nat) (d : Dev) : Dev :=
  match (head d h).active, (head d h).timing with
  | some a, some t => if (head d h).line < t.vActive then forEach (lineWords a (head d h).line) touchRead d else d
  | _, _ => d

/-! Commit and latch (R168, R181 to R184). -/

/-- The even head that governs head h: itself, or the even head of its split pair (R179). -/
def governor (d : Dev) (h : Nat) : Nat := if splitOdd d h then h - 1 else h

/-- A copy of head h's shadow registers (R181). -/
def shadowSet (d : Dev) (h : Nat) : LayerSet where
  layers := (List.range 4).map fun l =>
    { ctl := rd d (Reg.RHEAD_LAYER_CTL h l), srcPos := rd d (Reg.RHEAD_LAYER_SRC_POS h l)
      srcSize := rd d (Reg.RHEAD_LAYER_SRC_SIZE h l), dstPos := rd d (Reg.RHEAD_LAYER_DST_POS h l)
      dstSize := if l = 0 then rd d (Reg.RHEAD_LAYER_DST_SIZE h) else 0 }
  csc := (List.range 6).map fun i => rd d (Reg.RHEAD_CSC h i)
  bg := rd d (Reg.RHEAD_BG h)

/-- A commit to head h, or to the pair it belongs to (R181, R182); a head without its Kettle read path stays absent (R339). -/
def rheadCommit (h : Nat) (d : Dev) : Dev :=
  let g := governor d h
  if unusable d (0x7020 + g) then d else
  let d := when (head d g).pending.isSome (bumpSat (Reg.RHEAD_COMMIT_REPLACED g) 1) d
  setHead g { head d g with pending := some (shadowSet d g) } d

/-- A layer fails its check against the descriptor copied (R174). -/
def layerFails (idx : Nat) (l : LayerRegs) (s : List W32) : Bool :=
  let f := descFormat s
  let x := fld l.srcPos 16 15
  let y := fld l.srcPos 0 14
  let w := fld l.srcSize 16 15
  let h := fld l.srcSize 0 14
  let dst := l.dstSizeOf idx
  bit l.ctl 31
    && (!descValid s || !((decide (1 ≤ f ∧ f ≤ 4)) || (idx == 0 && fmtYcc f)) || decide (1 < descDepth s)
      || decide (descWidth s < x + w ∨ descHeight s < y + h)
      || decide (2 * dst.1 < w ∨ 8 * w < dst.1 ∨ 2 * dst.2 < h ∨ 8 * h < dst.2)
      || (fmtYcc f && (x % 2 == 1 || w % 2 == 1)) || (fmt420 f && (y % 2 == 1 || h % 2 == 1)))

/-- The surface a layer has in force. -/
def inForce (a : Option ActiveSet) (l : Nat) : Option Nat :=
  match a with
  | none => none
  | some a => match a.layers[l]? with | some x => if x.shown then some x.regs.surface else none | none => none

/-- A RETIRE record (R184). -/
def retireRecord (h l surf : Nat) (frame time : W64) : List W8 :=
  leBytes 8 frame.toNat ++ leBytes 8 time.toNat ++ leBytes 8 0
    ++ leBytes 8 (0x01 * 2 ^ 24 + surf * 2 ^ 12 + l * 2 ^ 4 + h)

/-- Post one RETIRE record (R184). -/
def postRetire (h l surf : Nat) (frame time : W64) (d : Dev) : Dev :=
  let ctl := rd d (Reg.RHEAD_RETIRE_CTL h)
  let r := if bit ctl 10 then quePush (fld ctl 0 10) (retireRecord h l surf frame time) d else (false, d)
  if r.1 then bumpFld (Reg.RHEAD_RETIRE_COUNT h) 0 16 1 r.2
  else raiseHead h 1 (bumpFld (Reg.RHEAD_RETIRE_COUNT h) 16 16 1 r.2)

/-- Retire the surfaces that `old` has in force and `new` has not, layer by layer (R184). -/
def retireAll (h : Nat) (old new : Option ActiveSet) (k : Clk) (d : Dev) : Dev :=
  let frame := (head d h).number
  forEach (List.range 4) (fun l d =>
    match inForce old l with
    | some s => if inForce new l = some s then d else postRetire h l s frame (shortOf (now k)) d
    | none => d) d

/-- Head h takes its pending set: descriptors copied, layers checked, surfaces replaced retired (R168, R174, R181,
R184). -/
def takeSet (h : Nat) (k : Clk) (d : Dev) : Dev :=
  match (head d h).pending with
  | none => d
  | some set =>
    let layers : List ActiveLayer := set.layers.zipIdx.map fun (l, idx) =>
      { regs := l, desc := surfDesc d l.surface, failed := layerFails idx l (surfDesc d l.surface) }
    let new : ActiveSet := { layers, csc := set.csc, bg := set.bg }
    let old := (head d h).active
    let faults := (List.range 4).foldl (fun v i => v ||| bitIf i ((layers[i]?).elim false (·.failed))) (0 : W32)
    let d := setHead h { head d h with pending := none, active := some new, fresh := true } d
    let d := wr (Reg.RHEAD_LAYER_FAULT h) faults d
    let d := pmonHead h 1 (raiseHead h 0 (when (faults != 0) (raiseHead h 5) d))
    retireAll h old (some new) k d

/-! Vertical sync (R172, R173). -/

/-- Start a frame of head h (R172, R173, R182): a timing set captured takes effect. V is the show time of the tick.
(DESIGN CHOICE, log entry 93.) -/
def startFrame (h : Nat) (locked : Option W64) (k : Clk) (d : Dev) : Dev :=
  let x := head d h
  let timing := (x.next <|> x.timing)
  let d := match x.next with | some t => setPclk h t d | none => d
  let number := locked.getD x.number
  let consumed := (locked.toList ++ x.consumed).take 4
  let d := setHead h { x with
    timing, next := none, wait := none, latched := false, locked := locked.isSome, free := locked.isNone
    number, consumed, vsync := now k, vsyncTick := k.ticks, fresh := false, renewed := x.fresh, lateBlocks := []
    crc := 0xFFFFFFFF
    line := timing.elim 0 (fun t => t.vActive + t.vFp), pixels := [] } d
  let d := when (splitOdd d (h + 1)) (pmonHead (h + 1) 0) (pmonHead h 0 d)
  let d := if x.fresh then wr64 (Reg.RHEAD_COMMIT_FRAME_LO h) number d else d
  let d := if splitOdd d (h + 1) then
      setHead (h + 1) { head d (h + 1) with running := false, lateBlocks := [], pixels := [], crc := 0xFFFFFFFF } d else d
  if locked.isNone && rb d (Reg.RHEAD_CTL h) 1 then raiseHead h 2 (bumpSat (Reg.RHEAD_FREE_COUNT h) 1 d) else d

/-- The lock candidates: the last boundary emitted and the next, each with its V (R172). -/
def candidates (k : Clk) (d : Dev) (offset : Nat) : List (W64 × Time) :=
  if emitting k d then
    ((if d.frm.everEmitted then [(d.frm.lastFrame, d.frm.lastB)] else []) ++ (nextBoundary k d).toList).map
      fun (j, b) => (j, b + offset * ns1)
  else []

/-- A candidate that this head has not used or slipped. -/
def unused (x : Head) (j : W64) : Bool := !x.consumed.contains j

/-- Head h's front porch ends now: the candidates are judged, and the frame starts or waits for V (R172). -/
def porchEnd (h offset : Nat) (k : Clk) (d : Dev) : Dev :=
  let x := head d h
  let cs := (candidates k d offset).filter fun (j, _) => unused x j
  let past := cs.filter fun (_, v) => decide (v < now k)
  let d := if past.isEmpty then d else
    raiseHead h 3 (bumpSat (Reg.RHEAD_SLIP_COUNT h) past.length
      (setHead h { x with consumed := (past.map (·.1) ++ x.consumed).take 4 } d))
  match cs.find? fun (_, v) => decide (now k ≤ v) with
  | some (j, v) =>
    if now k + (rateGrid d).period ≤ v then startFrame h none k d
    else if v = now k then startFrame h (some j) k d
    else setHead h { head d h with wait := some { frame := j, v, tick := k.ticks } } d
  | none => startFrame h none k d

/-- Head h's front porch ends, or it waits at its end for V (R172). -/
def vsyncStart (h : Nat) (k : Clk) (d : Dev) : Dev :=
  let x := head d h
  match x.timing with
  | none => d
  | some t =>
    if !x.running || splitOdd d h || x.line != t.lastPorch then d
    else if !rb d (Reg.RHEAD_CTL h) 1 || x.forced then startFrame h none k d
    else
      match x.wait with
      | some w => if w.v ≤ now k then startFrame h (some w.frame) k d else d
      | none => porchEnd h t.offset k d

/-- A wait has lasted one frame period of ticks without show time reaching V: a free-running frame starts at once (R172). -/
def abandonWait (h : Nat) (k : Clk) (d : Dev) : Dev :=
  match (head d h).wait with
  | some w =>
    if now k < w.v ∧ (rateGrid d).den.toNat * 1250000000 ≤ since k w.tick * (rateGrid d).num.toNat then startFrame h none k d else d
  | none => d

/-- A pixel as the Trazh payload carries it at depth n (R257). -/
def pixelBytes (n : Nat) (p : Nat × Nat × Nat) : List W8 :=
  if n = 10 then beBytes 4 (p.1 * 2 ^ 20 + p.2.1 * 2 ^ 10 + p.2.2)
  else [BitVec.ofNat 8 p.1, BitVec.ofNat 8 p.2.1, BitVec.ofNat 8 p.2.2]

/-- CRC-32C continued over bytes (R274). -/
def crcOver (c : W32) (l : List W8) : W32 := l.foldl (crcByte 0x82F63B78) c

/-- The active line just sent by head o enters its digest, which is complete at the end of the last (R287, R288). -/
def digestLine (o n line vActive : Nat) (number : W64) (d : Dev) : Dev :=
  let x := head d o
  let c := x.pixels.foldl (fun c p => crcOver c (pixelBytes n p)) x.crc
  if vActive ≤ line then d
  else when (line + 1 == vActive) (addDigest number 2 o (~~~ c)) (setHead o { x with crc := c } d)

/-- The next line begins (R169): its reads, composition and output follow; the last front-porch line is left by a vertical
sync alone (R172). -/
def lineStart (h : Nat) (k : Clk) (d : Dev) : Dev :=
  let x := head d h
  match x.timing with
  | none => d
  | some t =>
    if !x.running || splitOdd d h || x.line == t.lastPorch then d
    else
      let d := digestLine h (depthOf t.outCtl) x.line t.vActive x.number d
      let d := when t.split (digestLine (h + 1) (depthOf t.oddOut) x.line t.vActive x.number) d
      let d := setHead h { head d h with line := (x.line + 1) % t.vTotal } d
      let d := if !scanning x && scanning (head d h) then abortKettleSlices k d else d
      showLine h (scanReads h d)

/-- The latch instant of head h (R169, R181). -/
def latchInstant (h : Nat) (k : Clk) (d : Dev) : Dev :=
  let x := head d h
  match x.timing with
  | none => d
  | some t =>
    if !x.running || splitOdd d h || x.latched || x.line != t.vActive then d
    else takeSet h k (setHead h { x with latched := true } d)

/-- A block of head h's scan-out missed its deadline (R158): the block lies in what its set scans. -/
def scanLate (h block : Nat) (d : Dev) : Dev :=
  let g := governor d h
  let x := head d g
  match x.active with
  | none => d
  | some a =>
    if scanning x && a.layers.any (fun l => layerHit l (block * 64) 64) then
      let d := setHead h { head d h with lateBlocks := (head d h).lateBlocks ++ [block] } d
      showLine g (raiseHead h 7 (pmonHead h 3 (bumpSat (Reg.RHEAD_SCAN_LATE_COUNT h) 1 d)))
    else d

/-! Enable, disable and abort (R170, R183, R190). -/

/-- A timing set is captured: taken up, or rejected (R170). -/
def captureTiming (h : Nat) (enabling : Bool) (d : Dev) : Dev :=
  let t := timingRegs d h
  if timingOk (rateGrid d) t && trazhOk d (rateGrid d) t t.trazh t.outCtl
      && (!t.split || trazhOk d (rateGrid d) t t.oddTrazh t.oddOut) then
    let x := { head d h with forced := false }
    if enabling then setPclk h t (setHead h { x with timing := some t, next := none, running := true, line := t.lastPorch } d)
    else setHead h { x with next := some t } d
  else raiseHead h 4 d

/-- RHEAD_CTL.EN goes to 1 (R170, R172, R183): no head scans without its Kettle read path (R339). (DEDUCED, log entry 38.) -/
def rheadStart (h : Nat) (k : Clk) (d : Dev) : Dev :=
  if splitOdd d h || kettleOut d || unusable d (0x7020 + h) then d
  else
    let d := captureTiming h true d
    if (head d h).running then vsyncStart h k (takeSet h k d) else d

/-- The DisplayPort controls of head h follow the lanes that it still offers, those in force and DP_EN of its register (R339). -/
def dpCut (h : Nat) (d : Dev) : Dev :=
  let own (t : Timing) : Timing := { t with outCtl := outHeld d h t.outCtl, dpCtl := dpHeld d h t.dpCtl }
  let odd (t : Timing) : Timing := { t with oddOut := outHeld d h t.oddOut, oddDp := dpHeld d h t.oddDp }
  let cut (h : Nat) (f : Timing → Timing) (d : Dev) : Dev :=
    setHead h { head d h with timing := (head d h).timing.map f, next := (head d h).next.map f } d
  when (dpLanes d h == 0) (wrBit (Reg.RHEAD_OUT_CTL h) 0 false) (when (h % 2 == 1) (cut (h - 1) odd) (cut h own d))

/-- The outputs of every head in force follow what is still usable (R339). -/
def dpCutAll (d : Dev) : Dev := forEach (List.range 4) dpCut d

/-- A set with every layer disabled. -/
def ActiveSet.dark (a : ActiveSet) : ActiveSet :=
  { a with layers := a.layers.map fun l => { l with regs := { l.regs with ctl := setBit l.regs.ctl 31 false } } }

/-- RHEAD_CTL.EN goes to 0: the head stops and retires every surface in force (R170). -/
def rheadStop (h : Nat) (k : Clk) (d : Dev) : Dev :=
  let x := head d h
  if x.running then
    let d := if splitOdd d (h + 1) then setHead (h + 1) { head d (h + 1) with pixels := [], lateBlocks := [] } d else d
    let d := setHead h { x with
      running := false, next := none, wait := none, locked := false, free := false, line := 0, latched := false
      active := x.active.map ActiveSet.dark, pixels := [], lateBlocks := [] } d
    retireAll h x.active (x.active.map ActiveSet.dark) k d
  else d

/-- A write of RHEAD_CTL[h] (R170, R192). (DEDUCED, log entry 38.) -/
def rheadCtlWrite (h : Nat) (v : W32) (k : Clk) (d : Dev) : Dev :=
  let was := rb d (Reg.RHEAD_CTL h) 0
  let d := wr (Reg.RHEAD_CTL h) (v &&& if h % 2 = 0 then 7 else 3) d
  if bit v 0 && !was then rheadStart h k d else if !bit v 0 && was then rheadStop h k d else d

/-- SYS_ABORT of head h (R190): pending set discarded, every layer disabled, surfaces retired; zero in all channels. -/
def headAbort (h : Nat) (k : Clk) (d : Dev) : Dev :=
  let d := forEach (List.range 4) (fun l => wrBit (Reg.RHEAD_LAYER_CTL h l) 31 false) d
  let x := head d h
  showLine h (retireAll h x.active none k (setHead h { x with pending := none, active := none, fresh := false } d))

/-! The commands. -/

/-- RHEAD_ENABLE: a write of RHEAD_CTL[h] that sets EN. -/
def execRheadEnable (_req : Req) (h : Fin 4) (v : W32) (s : State) : Host.Outcome State Fault Refusal :=
  onDev s fun k => accessSealed (Reg.RHEAD_CTL h) (when (bit v 0) (rheadCtlWrite h v k))

/-- RHEAD_DISABLE: a write of RHEAD_CTL[h] that clears EN. -/
def execRheadDisable (_req : Req) (h : Fin 4) (v : W32) (s : State) : Host.Outcome State Fault Refusal :=
  onDev s fun k => accessSealed (Reg.RHEAD_CTL h) (when (!bit v 0) (rheadCtlWrite h v k))

/-- A write of RHEAD_CMD.TIMING_APPLY captures the timing (R170); that of a head that is stopped is captured anew when it is enabled. -/
def timingApply (h : Nat) (d : Dev) : Dev := if splitOdd d h then d else captureTiming h false d

/-- TIMING_APPLY. -/
def execTimingApply (_req : Req) (h : Fin 4) (s : State) : Host.Outcome State Fault Refusal :=
  onDev s fun _ => access (Reg.RHEAD_CMD h) (timingApply h)

/-- VSYNC_START. -/
def execVsyncStart (h : Fin 4) (s : State) : Host.Outcome State Fault Refusal := onDev s (vsyncStart h)

/-- ABANDONED_WAIT. -/
def execAbandonedWait (h : Fin 4) (s : State) : Host.Outcome State Fault Refusal := onDev s (abandonWait h)

/-- LATCH_INSTANT. -/
def execLatchInstant (h : Fin 4) (s : State) : Host.Outcome State Fault Refusal := onDev s (latchInstant h)

/-- LINE_START. -/
def execLineStart (h : Fin 4) (s : State) : Host.Outcome State Fault Refusal := onDev s (lineStart h)

/-- RHEAD_COMMIT: a write of RHEAD_COMMIT[h] with GO = 1. -/
def execRheadCommit (_req : Req) (h : Fin 4) (s : State) : Host.Outcome State Fault Refusal :=
  onDev s fun _ => access (Reg.RHEAD_COMMIT h) (rheadCommit h)

/-- SCAN_LATE. -/
def execScanLate (h : Fin 4) (block : BitVec 23) (s : State) : Host.Outcome State Fault Refusal :=
  onDev s fun _ => scanLate h block.toNat

/-- A slice loops a DisplayPort lane of head h (R336). -/
def dpLooped (d : Dev) (h : Nat) : Bool := (List.range 4).any fun l => looped d (12 + 4 * h + l)

/-- HPD: the hot-plug detect of head h's output, and whether its link is trained after it (R187); no link trains over a looped lane or
without lane 0 (R336, R339). -/
def execHpd (h : Fin 4) (high trained : Bool) (s : State) : Host.Outcome State Fault Refusal :=
  onDev s fun _ d => setHead h { head d h with
    hpd := high, trained := high && trained && !d.sys.tripped && !dpLooped d h && decide (0 < dpLanes d h) } d

end Sys2Proof.Machine
end

