-- ==== Sys2Proof/Machine/Stream.lean ====
section
/-!
DEFINITION. The ST 2110-20 receiver (R255, R256) and the Trazh packer (R257, R258, R260).
-/

namespace Sys2Proof.Machine

/-! ST 2110-20 (R255, R256). The RTP payload header and the pgroups are those of SMPTE ST 2110-20. -/

/-- Stream s. -/
def stStream (d : Dev) (s : Nat) : StStream := Tab.get {} d.pack.streams s
/-- Set stream s. -/
def setStStream (s : Nat) (x : StStream) : Dev → Dev := onPack fun p => { p with streams := Tab.put {} p.streams s x }

/-- NBUF by its limits. -/
def stBuffers (d : Dev) (s : Nat) : Nat := min 4 (max 2 (rf d (Reg.ST_CTL s) 28 3))

/-- The surface of buffer b. -/
def stSurface (d : Dev) (s b : Nat) : Nat :=
  let r := if b < 2 then rd d (Reg.ST_SURF01 s) else rd d (Reg.ST_SURF23 s)
  if b % 2 = 0 then fld r 0 10 else fld r 16 10

/-- The stream carries 4:2:0; its samples have 10 bits. (PRESUMED, log entry 48.) -/
def st420 (d : Dev) (s : Nat) : Bool := rb d (Reg.ST_CTL s) 23
/-- DEPTH10. (PRESUMED, log entry 48.) -/
def st10 (d : Dev) (s : Nat) : Bool := rb d (Reg.ST_CTL s) 22

/-- A surface's format matches SAMPLING and DEPTH10. -/
def stFormatOk (d : Dev) (s f : Nat) : Bool := fmtYcc f && fmt420 f == st420 d s && fmt10 f == st10 d s

/-- GROUP_ROWS; 0 acts as 1. -/
def stGroupRows (d : Dev) (s : Nat) : Nat := max 1 (rf d (Reg.ST_CTL s) 0 14)

/-- One Sample Row Data segment: length in octets, row, and pixel offset. -/
structure Segment where
  len : Nat
  row : Nat
  off : Nat
  deriving DecidableEq, Repr

/-- The segment headers from byte i on, at most n, and the byte behind them; none when more follow. -/
def segments (l : List W8) : Nat → Nat → Option (List Segment × Nat)
  | 0, _ => none
  | n + 1, i =>
    let x : Segment := { len := be16 l i, row := be16 l (i + 2) % 2 ^ 15, off := be16 l (i + 4) % 2 ^ 15 }
    if be16 l (i + 4) < 2 ^ 15 then some ([x], i + 6)
    else (segments l n (i + 6)).map fun (r, j) => (x :: r, j)

/-- Sample k of a run of samples of n bits, most significant bit first. -/
def sampleAt (l : List W8) (n k : Nat) : Nat := ofBe l / 2 ^ (8 * l.length - n * (k + 1)) % 2 ^ n

/-- Octets and pixels along the row of a pgroup, and the places of its samples: channel, column and row within it. -/
def pgroup (s420 s10 : Bool) : Nat × Nat × List (Nat × Nat × Nat) :=
  match s420, s10 with
  | false, w => (if w then 5 else 4, 2, [(1, 0, 0), (0, 0, 0), (2, 0, 0), (0, 1, 0)])
  | true, false => (6, 2, [(0, 0, 0), (0, 1, 0), (0, 0, 1), (0, 1, 1), (1, 0, 0), (2, 0, 0)])
  | true, true => (15, 4, [(0, 0, 0), (0, 1, 0), (0, 0, 1), (0, 1, 1), (1, 0, 0), (2, 0, 0),
      (0, 2, 0), (0, 3, 0), (0, 2, 1), (0, 3, 1), (1, 1, 0), (2, 1, 0)])

/-- The writes of one pgroup at pixel x of row y of a surface: a luma sample at its place, a chroma sample in the chroma plane. -/
def pgroupWrites (s : List W32) (s420 s10 : Bool) (x y : Nat) (l : List W8) : List (Nat × List W8) :=
  let g := pgroup s420 s10
  let n := if s10 then 10 else 8
  g.2.2.zipIdx.filterMap fun ((c, dx, dy), k) =>
    let px := if c = 0 then x + dx else x / 2 + dx
    let py := if c = 0 then y + dy else if s420 then y / 2 else y
    let w := if c = 0 then descWidth s else descWidth s / 2
    if px < w then some (ketBase + (texelSpan s c px py 0).1, leBytes (if s10 then 2 else 1) (sampleAt l n k)) else none

/-- The writes of a segment whose octets begin the list. -/
def segmentWrites (s : List W32) (s420 s10 : Bool) (g : Segment) (l : List W8) : List (Nat × List W8) :=
  let p := pgroup s420 s10
  (List.range (g.len / p.1)).flatMap fun i => pgroupWrites s s420 s10 (g.off + i * p.2.1) g.row (slice l (i * p.1) p.1)

/-- Write all segments of a packet, each one write whose samples that adjoin are joined (R159, R256). (DESIGN CHOICE, log entry 98.) -/
def writeSegments (s : List W32) (s420 s10 : Bool) : List Segment → List W8 → Dev → Dev
  | [], _, d => d
  | g :: r, l, d => writeSegments s s420 s10 r (l.drop g.len) (storeRanges (joinRanges (sortBy (·.1) (segmentWrites s s420 s10 g (l.take g.len)))) d)

/-- The rows of a segment that it writes to their end. -/
def rowsEnded (s : List W32) (s420 s10 : Bool) (g : Segment) : List Nat :=
  let p := pgroup s420 s10
  if descWidth s ≤ g.off + g.len / p.1 * p.2.1 then (if s420 then [g.row, g.row + 1] else [g.row]) else []

/-- The row groups that a packet completes: those whose last row it writes, and at the marker every other group of the surface (R256).
(DEDUCED, log entry 48.) -/
def groupsDone (n height : Nat) (ended : List Nat) (marker : Bool) : List Nat :=
  let full := (ended.filter fun r => r % n == n - 1 || r + 1 == height).map (· / n)
  if marker then List.range ((height + n - 1) / n) else full.dedup

/-- The row groups in which a gap fell: from the last row written to the row that follows it (R256). (DEDUCED, log entry 48.) -/
def groupsHit (n height : Nat) (last : Option Nat) (next : Nat) : List Nat :=
  let a := last.getD 0
  (List.range ((height + n - 1) / n)).filter fun g => decide (next < a) || (decide (a / n ≤ g) && decide (g ≤ next / n))

/-- A packet is lost or of a wrong format. -/
def stLost (s : Nat) : Dev → Dev := bumpSat (Reg.ST_LOST s) 1

/-- A packet's rows are written and the groups it completes queued for their boundary (R255, R256). -/
def stTake (s : Nat) (r : Received) (l : List W8) (segs : List Segment) (from' : Nat) (d : Dev) : Dev :=
  let x := stStream d s
  let marker := bit (byteAt l 1) 7
  let seq := be16 l 12 * 2 ^ 16 + be16 l 2
  let ts := w32 (ofBe (slice l 4 4))
  let gap := match x.seq with | some n => n != seq | none => false
  let d := when gap (stLost s) d
  let desc := surfDesc d (stSurface d s x.buf)
  let bad := !stFormatOk d s (descFormat desc) || segs.any fun g => decide (descHeight desc ≤ g.row)
  let n := stGroupRows d s
  let hit := if gap then groupsHit n (descHeight desc) x.row ((segs.head?.map (·.row)).getD 0) else []
  let damaged := (x.damaged ++ hit).dedup
  let d := if bad then raisePack 5 (stLost s d) else writeSegments desc (st420 d s) (st10 d s) segs (l.drop from') d
  let row := if bad then x.row else (segs.getLast?.map (·.row)) <|> x.row
  let ended := if bad then [] else segs.flatMap (rowsEnded desc (st420 d s) (st10 d s))
  let done := (groupsDone n (descHeight desc) ended marker).filter fun g => !x.groups.contains g
  let own := row.map (· / n)
  let last := if own.any done.contains then own else done.getLast?
  let leaf (g : Nat) : Time × Nat × W64 := (r.stamp, g,
    w64 (bnat (marker && last == some g) * 2 ^ 63 + bnat (damaged.contains g) * 2 ^ 62 + x.buf * 2 ^ 60 + ts.toNat))
  let y := { x with
    seq := some ((seq + 1) % 2 ^ 32), mirrored := r.mirrored, damaged, leaves := x.leaves ++ done.map leaf, groups := x.groups ++ done, row }
  setStStream s (if marker then { y with buf := (y.buf + 1) % stBuffers d s, groups := [], row := none, damaged := [] } else y) d

/-- The ST 2110-20 receiver takes a frame: a UDP datagram with RTP, or it is dropped (R255). -/
def stReceive (r : Received) (d : Dev) : Dev :=
  let s := r.stream
  if !rb d Reg.PACK_CTL 2 || !rb d (Reg.ST_CTL s) 31 then d
  else
    match udpOf d r with
    | some (_, l) =>
      let head := 12 + 4 * fld (byteAt l 0) 0 4
      match decide (20 ≤ l.length) && fld (byteAt l 0) 6 2 == 2, segments l 3 (head + 2) with
      | true, some (segs, i) => stTake s r (l.take 12 ++ slice l head 2 ++ l.drop (head + 2)) segs (i - head + 12) d
      | _, _ => stLost s d
    | none => stLost s d

/-- ST2110_PACKET: the receiver takes the oldest frame handed to it. -/
def execSt2110Packet (s : State) : Host.Outcome State Fault Refusal :=
  onDev s fun _ d =>
    match d.stRx with
    | [] => d
    | r :: rest => stReceive r { d with stRx := rest }

/-- Leaves of stream s whose stamp lies before instant b are released for output frame f (R256). -/
def stRelease (s : Nat) (f : W64) (b : Time) (d : Dev) : Dev :=
  let x := stStream d s
  let key (g : Nat) : W64 := mkKey (rf d (Reg.ST_KEY s) 0 14) f.toNat ((rd d (Reg.ST_INST s)).toNat + g)
  let out := (x.leaves.filter fun y => decide (y.1 < b)).map fun y =>
    ({ key := key y.2.1, slot := rf d (Reg.ST_KEY s) 16 3, value := y.2.2 } : Push)
  onArr (fun a => { a with inputs := a.inputs ++ out })
    (setStStream s { x with leaves := x.leaves.filter fun y => !decide (y.1 < b) } d)

/-- The boundary at instant b begins output frame f (R256); mirrored streams wait for MARK (R281). -/
def stBoundary (f : W64) (b : Time) (d : Dev) : Dev :=
  forEach (List.range 8) (fun s d => if waitsMark d && (stStream d s).mirrored then d else stRelease s f b d) d

/-- MARK has come, or its wait is over, for the boundary at instant b (R281). -/
def stMark (f : W64) (b : Time) (d : Dev) : Dev :=
  forEach (List.range 8) (fun s d => if (stStream d s).mirrored then stRelease s f b d else d) d

/-! The Trazh packer (R257, R258, R260). -/

/-- Head h's Trazh stream. -/
def trazh (d : Dev) (h : Nat) : Trazh := Tab.get {} d.pack.trazh h
/-- Set head h's Trazh stream. -/
def setTrazh (h : Nat) (x : Trazh) : Dev → Dev := onPack fun p => { p with trazh := Tab.put {} p.trazh h x }

/-- The head that head h's timing and frame come from, its set, and its output control: those of the even head of a split pair (R179). -/
def trazhSet (d : Dev) (h : Nat) : Option (Head × Timing × List W32 × W32) :=
  if splitOdd d h then (head d (h - 1)).timing.map fun t => (head d (h - 1), t, t.oddTrazh, t.oddOut)
  else (head d h).timing.map fun t => (head d h, t, t.trazh, t.outCtl)

/-- The pixels of line r, columns x0 to x0 + n - 1 of head h, as bytes (R257). -/
def trazhPixels (d : Dev) (h : Nat) (x : Head) (t : Timing) (outCtl : W32) (r x0 n : Nat) : List W8 :=
  let left := if splitOdd d h then t.outWidth else 0
  (linePixels d (head d h).lateBlocks (litSet d h x.active) (left + x0) n (depthOf outCtl) r).flatMap (pixelBytes (depthOf outCtl))

/-- The header of a packet (R257). -/
def trazhHeader (x : Head) (t : Timing) (z : List W32) (outCtl : W32) (last : Bool) (launch : Time) (row lines col n : Nat) (seq : W16) : List W8 :=
  let flags := bnat last * 2 ^ 15 + bnat (!x.renewed) * 2 ^ 14 + bnat x.free * 2 ^ 13 + fld outCtl 4 2 * 2 ^ 10
  [0x11, BitVec.ofNat 8 (fld (z.getD 0 0) 16 8)] ++ beBytes 2 flags ++ beBytes 4 x.number.toNat ++ beBytes 8 (shortOf launch).toNat
    ++ beBytes 2 row ++ beBytes 2 lines ++ beBytes 2 col ++ beBytes 2 n ++ beBytes 2 seq.toNat ++ beBytes 2 t.outWidth ++ beBytes 2 t.vActive
    ++ [0, 0]

/-- With the first packet of a group its lines are read: single errors are corrected, others counted (R159). (DESIGN CHOICE, log entry 98.) -/
def trazhReads (h : Nat) (x : Head) (row lines : Nat) (d : Dev) : Dev :=
  match litSet d h x.active with
  | some a => forEach ((List.range lines).flatMap fun i => lineWords a (row + i)) touchRead d
  | none => d

/-- Packet j of group i of head h's frame is composed and offered, its launch time in the units of windows (R258). -/
def trazhSend (h : Nat) (x : Head) (t : Timing) (z : List W32) (outCtl : W32) (launch : Int) (d : Dev) : Dev :=
  let y := trazh d h
  let row := y.group * trazhLines z
  let lines := groupLines t z y.group
  let col := y.packet * trazhSeg z
  let n := min (trazhSeg z) (t.outWidth - col)
  let p := trazhPort z
  let lastGroup := y.group + 1 == trazhGroups t z
  let lastPacket := y.packet + 1 == trazhPackets t.outWidth z
  let d := when (y.packet == 0) (trazhReads h x row lines) d
  let body := trazhHeader x t z outCtl lastGroup (launch / fine) row lines col n y.seq
    ++ (List.range lines).flatMap fun i => trazhPixels d h x t outCtl (row + i) col n
  let macs := beBytes 6 (fld (z.getD 3 0) 0 16 * 2 ^ 32 + (z.getD 2 0).toNat) ++ beBytes 6 ((rd64 d (Reg.PACK_PORT_MAC_LO p)).toNat % 2 ^ 48)
  let bytes := buildFrame (tagBytes d p 8) (macs ++ beBytes 2 (fld (z.getD 1 0) 0 16) ++ body)
  let c := crcOver y.crc body
  let y := { y with
    seq := y.seq + 1, crc := c, prev := launch
    group := if lastPacket then y.group + 1 else y.group
    packet := if lastPacket then 0 else y.packet + 1 }
  let d := setTrazh h y (onPort p (fun w => { w with offers := w.offers ++ [{ origin := .packer 2 h x.number, bytes, launch := launch / fine, frac := (launch % fine).toNat }] }) d)
  when (lastGroup && lastPacket) (addDigest x.number 3 h (~~~ c)) d

/-- The next packet of head h's stream is composed at its launch time less the stage lead less 2 µs (R258). -/
def trazhCompose (h : Nat) (k : Clk) (d : Dev) : Dev :=
  match trazhSet d h with
  | none => d
  | some (x, t, z, outCtl) =>
    let y := trazh d h
    let y := if y.tick = some x.vsyncTick then y else { y with tick := some x.vsyncTick, group := 0, packet := 0, crc := 0xFFFFFFFF }
    let d := setTrazh h y d
    let g := rateGrid d
    let launch := if y.packet = 0 then fine * (x.vsync + groupAt g t z y.group)
      else y.prev + trazhStep d z (trazhLen d z outCtl t.outWidth (groupLines t z y.group) (y.packet - 1))
    if x.running && bit outCtl 1 && decide (y.group < trazhGroups t z)
        && decide (launch / fine - (stageLead d (trazhPort z) + 2000 : Nat) * ns1 ≤ now k) then
      trazhSend h x t z outCtl launch d
    else d

/-- TRAZH_COMPOSE. -/
def execTrazhCompose (h : Fin 4) (s : State) : Host.Outcome State Fault Refusal := onDev s (trazhCompose h)

/-- A timing set with TRAZH_EN cleared. -/
def Timing.noTrazh (t : Timing) : Timing := { t with outCtl := setBit t.outCtl 1 false, oddOut := setBit t.oddOut 1 false }

/-- SYS_ABORT of the Trazh packer (R260). -/
def trazhAbort (k : Clk) (d : Dev) : Dev :=
  forEach (List.range 4) (fun h d =>
    wrBit (Reg.RHEAD_OUT_CTL h) 1 false (setHead h { head d h with
      timing := (head d h).timing.map Timing.noTrazh, next := (head d h).next.map Timing.noTrazh } d)) (packerAbort [2] k d)

end Sys2Proof.Machine
end

