-- ==== Sys2Proof/Machine/Latch.lean ====
section
/-!
DEFINITION. The inputs of a boundary (R9): what the input engines take before it releases its leaves, and the commands after which a
boundary that waited can be latched: the tick (R16), and those that end a reception.
-/

namespace Sys2Proof.Machine

/-- Frames in an engine's hands, in order: those that `mine` selects are taken, the others stay. -/
def enginesTake (mine : Received → Bool) (k : Clk) (d : Dev) : Dev :=
  let sacn := d.sacnRx.filter mine
  let st := d.stRx.filter mine
  let d := { d with sacnRx := d.sacnRx.filter fun r => !mine r, stRx := d.stRx.filter fun r => !mine r }
  forEach st stReceive (when (rb d Reg.PACK_CTL 1) (forEach sacn fun r => sacnReceive r k) d)

/-- The port receives a frame stamped before instant b whose bytes boundary b may still need: it goes, or may go, to an input engine or to
the partner (R9, R281). In half duplex a frame's stamp is that of its end (R233). -/
def straddles (b : Time) (x : Port) : Bool :=
  !x.half && x.rx.any fun r => decide (r.stamp < b) && r.judged.all fun j =>
    bit j.word 27 || (match j.action with | .sacn => true | .st _ => true | _ => false)

/-- The start of a frame whose stamp lies before instant b may still reach port p (R232, R233). -/
def mayCome (b : Time) (k : Clk) (d : Dev) (p : Nat) : Bool :=
  let x := port d p
  x.enabled && x.link && !x.half && x.rx.isNone && decide (now k - rxLatency d p < b)

/-- Some port receives a frame that the boundary at instant b waits for, or may yet. -/
def straddled (b : Time) (k : Clk) (d : Dev) : Bool := (List.range 10).any fun p => straddles b (port d p) || mayCome b k d p

/-- The inputs of boundary n at instant b are latched: what the engines hold of them is taken, their leaves are released, and the active
tells its partner (R9, R254, R256, R281). -/
def latchInputs (n : W64) (b : Time) (k : Clk) (d : Dev) : Dev :=
  let d := enginesTake (fun r => decide (r.stamp < b) && !(r.mirrored && waitsMark d)) k { d with frm := { d.frm with latching := none } }
  stBoundary (n + 1) b (sacnInBoundary (n + 1) d)

/-- MARK(n) of a boundary that waited goes to the partner, from the unit that was active up to it (R281). -/
def sendMark (n : W64) (k : Clk) (d : Dev) : Dev :=
  when d.pair.markOwed (cricketSend 7 (messageBytes 5 [n]) k) (onPair (fun p => { p with markOwed := false }) d)

/-- A boundary that waits for a reception is latched, whatever is still being received (R9). (DESIGN CHOICE, log entry 90.) -/
def latchNow (k : Clk) (d : Dev) : Dev :=
  match d.frm.latching with
  | some (n, b) => sendMark n k (latchInputs n b k d)
  | none => d

/-- A boundary that waits for no other frame is latched (R9, R281). -/
def latchSettle (k : Clk) (d : Dev) : Dev :=
  match d.frm.latching with
  | some (_, b) => if straddled b k d then d else latchNow k d
  | none => d

/-- TICK: the tick counter advances, and show time with it (R16, R18); a boundary that waited for frames on their way to a port may be
latched (R9). -/
def execTick (s : State) : Host.Outcome State Fault Refusal :=
  onClk s fun k d => ({ k with ticks := k.ticks + 1 }, latchSettle { k with ticks := k.ticks + 1 } d)

/-- RX_FRAME_END: the last bytes of a frame arrive, with the receiver's error indication. -/
def execRxFrameEnd (p : Fin 10) (data : List W8) (err : Bool) (s : State) : Host.Outcome State Fault Refusal :=
  onDev s fun k d =>
    match (port d p).rx with
    | none => d
    | some r => latchSettle k (rxEnd p (rxTake p data r d) err k (onPort p (rxOver k) d))

/-- PAUSE_RECEIVE: a whole MAC Control frame has arrived (R210). -/
def execPauseReceive (p : Fin 10) (data : List W8) (s : State) : Host.Outcome State Fault Refusal :=
  onDev s fun k d =>
    if (port d p).enabled && (port d p).link && be16 data 12 == 0x8808 then
      latchSettle k (rxEnd p { stamp := now k, bytes := data } false k (onPort p (rxOver k) d))
    else d

/-- A change of port p's link that may drop the frame being received, which is the end of its reception (R9, R213). -/
def settleDrop (p : Nat) (f : Clk → Dev → Dev) (k : Clk) (d : Dev) : Dev :=
  if (port d p).rx.isSome && (port (f k d) p).rx.isNone then latchSettle k (f k d) else f k d

/-- LPORT_DUPLEX_CHANGE. -/
def execLportDuplexChange (n : Fin 2) (s : State) : Host.Outcome State Fault Refusal := onDev s (settleDrop (n + 8) (duplexChange (n + 8)))

/-- LINK_UP. -/
def execLinkUp (p : Fin 10) (rate : Fin 4) (half : Bool) (s : State) : Host.Outcome State Fault Refusal :=
  onDev s (settleDrop p (linkRise p rate half))

/-- SPORT_ENABLE: a write of SPORT_CTL[p] that sets EN. -/
def execSportEnable (_req : Req) (p : Fin 10) (v : W32) (s : State) : Host.Outcome State Fault Refusal :=
  onDev s fun k => accessSealed (Reg.SPORT_CTL p) (when (bit v 0) (settleDrop p (portCtlWrite p v) k))

/-- LINK_DOWN. -/
def execLinkDown (p : Fin 10) (s : State) : Host.Outcome State Fault Refusal :=
  onDev s fun k d => if (port d p).link then latchSettle k (linkDown p k d) else onPort p (fun x => { x with phy := false }) d

/-- SPORT_DISABLE: a write of SPORT_CTL[p] that clears EN. -/
def execSportDisable (_req : Req) (p : Fin 10) (v : W32) (s : State) : Host.Outcome State Fault Refusal :=
  onDev s fun k => accessSealed (Reg.SPORT_CTL p) (when (!bit v 0) fun d => latchSettle k (portCtlWrite p v k d))

end Sys2Proof.Machine
end

