-- ==== Sys2Proof/Machine/Weevil.lean ====
section
/-!
DEFINITION. Weevil (R334 to R345, R356, R357): slices, marks, and what a target's loss takes out of service.
-/

namespace Sys2Proof.Machine

/-! Targets and types (R335, R336). -/

/-- The target word names a target. -/
def targetKnown (t : Nat) : Bool :=
  let i := t % 4096
  match t / 4096 with
  | 1 => decide (i < 96)
  | 2 => decide (i < 136)
  | 3 => decide (i < 64)
  | 4 => decide (i < 64)
  | 5 => decide (i < 28)
  | 6 => i == 0
  | 7 => i == 0 || decide (0x10 ≤ i ∧ i < 0x24) || i == 0x30
  | _ => false

/-- The classes to which a slice type applies. -/
def sliceClasses (kind : Nat) : List Nat :=
  match kind with
  | 1 => [1, 2]
  | 2 => [3]
  | 3 => [4]
  | 4 => [5]
  | 5 => [5]
  | 6 => [5]
  | 7 => [6]
  | 8 => [7]
  | _ => []

/-- The type applies to the target, which exists and is usable. -/
def sliceApplies (d : Dev) (kind target : Nat) : Bool :=
  targetKnown target && (sliceClasses kind).contains (target / 4096) && !unusable d target

/-- The longest time of a slice type, in µs. -/
def sliceLength (kind : Nat) : Nat :=
  match kind with
  | 1 => 100
  | 2 => 12
  | 3 => 4
  | 6 => 50
  | 8 => 100
  | _ => 150

/-- A budget in µs, within its limits (R337). -/
def budgetOf (x : Nat) : Nat := min 10000 (max 10 x)

/-- The budget of a slice on runner r. -/
def sliceBudget (d : Dev) (r : Nat) : SliceOrigin → Nat
  | .host =>
    let x := rf d (Reg.WEEVIL_RUN_BUDGET r) 0 14
    budgetOf (if x = 0 then rf d Reg.WEEVIL_BUDGET 0 14 else x)
  | .adjudication _ => budgetOf (rf d Reg.PAIR_ADJ_BUDGET 0 14)
  | _ => budgetOf (rf d Reg.WEEVIL_BUDGET 0 14)

/-! What a target's loss takes out of service (R339). -/

/-- Every brew on a firefly ends with MEM_ECC; a memory access is one step, so none is outstanding (R80, R339). (DEDUCED, log entry 83.) -/
def fireflyOut (f : Nat) (d : Dev) : Dev := forEach (List.range 8) (fun j => killBrew (f * 8 + j) 5 0 0xFF) d

/-- The fireflies of swarm s that are withdrawn, of 0 to 15. -/
def withdrawn (d : Dev) (s : Nat) : Nat := ((List.range 16).filter fun f => rb d (Reg.SWARM_SPARE_STATUS s) f).length

/-- The swarm has more unusable fireflies than its spare covers. -/
def swarmShort (d : Dev) (s : Nat) : Bool := decide (bnat (rb d (Reg.SWARM_SPARE_STATUS s) 31) < withdrawn d s)

/-- The spare takes firefly f's place. -/
def spareFor (s f : Nat) (d : Dev) : Dev :=
  wrFld (Reg.SWARM_SPARE_STATUS s) 24 5 f (wrBit (Reg.SWARM_SPARE_STATUS s) 31 true d)

/-- The spare is usable and not in use. -/
def spareFree (d : Dev) (s : Nat) : Bool :=
  !rb d (Reg.SWARM_SPARE_STATUS s) 31 && !rb d (Reg.SWARM_SPARE_STATUS s) 16 && !unusable d (0x2000 + s * 17 + 16)

/-- Firefly f of swarm s is withdrawn; f = 16 is the spare. -/
def withdrawFirefly (s f : Nat) (d : Dev) : Dev :=
  let free := spareFree d s
  let d := wrBit (Reg.SWARM_SPARE_STATUS s) f true d
  let d :=
    if f = 16 then wrFld (Reg.SWARM_SPARE_STATUS s) 24 5 0 (wrBit (Reg.SWARM_SPARE_STATUS s) 31 false d)
    else if free then spareFor s f d else d
  fireflyOut (s * 17 + f) d

/-- SerDes lane l carries no traffic: its port, Cricket lane or DisplayPort output drops its link (R336). -/
def laneDown (l : Nat) (k : Clk) (d : Dev) : Dev :=
  if l < 8 then latchSettle k (linkDown l k d)
  else if l < 12 then cricketDrop d
  else setHead ((l - 12) / 4) { head d ((l - 12) / 4) with trained := false } d

/-- A slice takes the traffic of lane l; a measurement that runs on it is spoiled (R336, R345). -/
def laneTake (l : Nat) (k : Clk) (d : Dev) : Dev :=
  laneDown l k (forEach (List.range 26) (fun p d =>
    when ((calPath d p).measuring && (pathLanes p).contains l) (setCalPath p { calPath d p with spoiled := true }) d) d)

/-- The action for a target other than a fabric link that becomes UNUSABLE (R339). -/
def targetOut (target : Nat) (k : Clk) (d : Dev) : Dev :=
  let i := target % 4096
  match target / 4096 with
  | 2 =>
    let d := settle k (withdrawFirefly (i / 17) (i % 17) d)
    if swarmShort d (i / 17) then raiseWeevil 5 d else d
  | 3 => forEach (List.range 4) (fun h => rheadStop h k) { d with ket := { d.ket with initDone := false } }
  | 5 =>
    if i < 8 then latchSettle k (portCtlWrite i (setBit (rd d (Reg.SPORT_CTL i)) 0 false) k d)
    else when (decide (12 ≤ i)) (dpCut ((i - 12) / 4)) (laneDown i k d)
  | 7 =>
    if i = 0 then wrBit Reg.PACK_CTL 0 false d
    else if i < 0x20 then setDmx (i - 0x10) { dmx d (i - 0x10) with line := none, staged := [] } d
    else if i < 0x24 then headAbort (i - 0x20) k d
    else dpCutAll (trazhAbort k d)
  | _ => d

/-- The endpoints of the fabric that can be marked in a class of their own (R335, R339). -/
def endpoints : List Nat :=
  (List.range 136).map (0x2000 + ·) ++ (List.range 64).map (0x3000 + ·) ++ (List.range 28).map (0x5000 + ·)
    ++ [0x7000, 0x7030] ++ (List.range 16).map (0x7010 + ·) ++ (List.range 4).map (0x7020 + ·)

/-- The fabric links that are unusable. -/
def linksOut (d : Dev) : List Nat := (List.range 96).filter fun n => unusable d (0x1000 + n)

/-- Endpoints left with no route are marked UNUSABLE in their own class (R339). (DESIGN CHOICE, log entry 83.) -/
def strand (k : Clk) (d : Dev) : Dev :=
  forEach endpoints (fun e d =>
    if unusable d e || !Config.routeless (linksOut d) e then d
    else targetOut e k (raiseWeevil 4 (setTargetMark e { targetMark d e with mark := 2 } d))) d

/-- The action for a target that becomes UNUSABLE: the fabric routes around a link (R339). -/
def outOfService (target : Nat) (k : Clk) (d : Dev) : Dev :=
  if target / 4096 = 1 then strand k d else targetOut target k d

/-! The end of a slice (R338, R344). -/

/-- The mark after a result. -/
def markAfter (result : Nat) (mark : Nat) : Nat :=
  match result with
  | 0 => if mark = 2 then 2 else 0
  | 1 => 2
  | 2 => if mark = 0 then 1 else 2
  | _ => mark

/-- What a slice does to its target as it begins: one that loops a lane takes its traffic, BALL_WRAP loads the boundary register. -/
def sliceTakes (target : Nat) (k : Clk) (d : Dev) : Dev :=
  if target / 4096 = 5 ∧ looped d (target % 4096) then laneTake (target % 4096) k d
  else if target / 4096 = 6 ∧ wrapping d then wrapLoad d
  else d

/-- A slice that waited for the target goes on. -/
def resumeWaiting (target : Nat) (k : Clk) (d : Dev) : Dev := sliceTakes target k (startWaiting target k d)

/-- Runner r's slice ends with a result. -/
def endSlice (r : Nat) (s : Slice) (result repairs errors detail : Nat) (k : Clk) (d : Dev) : Dev :=
  let m := targetMark d s.target
  let mark := markAfter result m.mark
  let d := setTargetMark s.target { mark, timeouts := min 255 (m.timeouts + bnat (result == 2)), repairs := min 255 (m.repairs + repairs) } d
  let d := writeResult r s result repairs errors detail k (setRunner r none d)
  let d := when (result == 1) (raiseWeevil 2) (when (result == 2) (raiseWeevil 3) (adjReport s k (pairSlice s result d)))
  let d := if mark != m.mark then raiseWeevil 4 (if mark = 2 then outOfService s.target k d else d) else d
  resumeWaiting s.target k d

/-- A run command that is refused writes its record at once (R344, R341). -/
def refuseSlice (r kind target : Nat) (origin : SliceOrigin) (result : Nat) (k : Clk) (d : Dev) : Dev :=
  let s : Slice := { kind, target, budget := 0, origin, tick := k.ticks }
  adjReport s k (pairSlice s result (writeResult r s result 0 0 0 k d))

/-- A slice starts on an idle runner, or waits for another on its target (R336, R345). -/
def startSlice (r kind target : Nat) (origin : SliceOrigin) (k : Clk) (d : Dev) : Dev :=
  if !sliceApplies d kind target then refuseSlice r kind target origin 4 k d
  else if kind = 7 ∧ d.sys.tapHeld then refuseSlice r kind target origin 5 k d
  else
    let busy := (List.range 4).any fun i => (runner d i).any fun s => s.target == target
    let d := setRunner r (some { kind, target, budget := sliceBudget d r origin, origin, tick := k.ticks, waits := busy }) d
    if busy then d else sliceTakes target k d

/-- WEEVIL_RUN[r] (R345, R356): GO on an idle runner starts a host slice. -/
def weevilRun (r : Nat) (v : W32) (k : Clk) (d : Dev) : Dev :=
  let d := wr (Reg.WEEVIL_RUN r) (v &&& 0xFFFFFF) d
  if !bit v 31 then d
  else if (runner d r).isSome then raiseWeevil 1 d
  else startSlice r (fld v 16 8) (fld v 0 16) .host k d

/-- WEEVIL_RUN. -/
def execWeevilRun (req : Req) (r : Fin 4) (v : W32) (s : State) : Host.Outcome State Fault Refusal :=
  onDev s fun k => guardedSealed req k (Reg.WEEVIL_RUN r) v (weevilRun r v k)

/-! Placement (R342). -/

/-- The instant at which head h's next scanning window opens, as its timing in force predicts it. (DEDUCED, log entry 65.) -/
def scanOpens (d : Dev) (x : Head) (t : Timing) : Time :=
  (if t.vActive + t.vFp ≤ x.line then x.vsync else x.vsync + (rateGrid d).period) + lineAt (rateGrid d) t t.vSync

/-- A slice of so many µs fits the common blanking: every enabled head is outside its scanning window until 2 µs after its end. -/
def blankingFits (d : Dev) (k : Clk) (us : Nat) : Bool :=
  (List.range 4).all fun h =>
    let x := head d h
    match x.running, x.timing with
    | true, some t => !scanning x && decide (now k + (us + 2 : Nat) * 1000 * ns1 ≤ scanOpens d x t)
    | _, _ => true

/-- A slice may start now as far as the heads are concerned. -/
def placeFits (d : Dev) (k : Clk) (kind target : Nat) : Bool :=
  !(kind == 2 || kind == 3 || (kind == 8 && target / 16 == 0x702)) || blankingFits d k (sliceLength kind)

/-- A spare that stands for no firefly, or Kettle rows with none mapped, which no service slice exercises (R339). -/
def unexercised (d : Dev) (target : Nat) : Bool :=
  target / 4096 == 2 && target % 4096 % 17 == 16 && !rb d (Reg.SWARM_SPARE_STATUS (target % 4096 / 17)) 31

/-- The runners that the service scheduler may use: in DEPLOYED 0 to 2, else every one while SERVICE_EN is 1 (R340). -/
def serviceMay (d : Dev) (r : Nat) : Bool :=
  (runner d r).isNone && (if d.scarab.lc == .deployed then decide (r < 3) else rb d Reg.WEEVIL_CTL 0)

/-- The scheduler may start a slice of this type on the target now, as far as the target and the heads are concerned (R340, R342). -/
def serviceFits (d : Dev) (k : Clk) (kind target : Nat) : Bool :=
  [1, 2, 3, 6, 8].contains kind && sliceApplies d kind target && !unexercised d target && placeFits d k kind target
    && !(List.range 4).any fun i => (runner d i).any fun s => s.target == target

/-- The service scheduler starts a slice: SUSPECT targets that can be tested now before all others (R338, R340, R342). -/
def serviceStart (r kind target : Nat) (k : Clk) (d : Dev) : Dev :=
  let suspect := d.weevil.marks.any fun (t, m) => m.mark == 1 && [1, 2, 3, 6, 8].any fun i => serviceFits d k i t
  if serviceMay d r && serviceFits d k kind target && (!suspect || (targetMark d target).mark == 1) then startSlice r kind target .service k d
  else d

/-- SERVICE_SLICE_START: the scheduler's choice of runner, type and target. -/
def execServiceSliceStart (r : Fin 4) (kind : W8) (target : W16) (s : State) : Host.Outcome State Fault Refusal :=
  onDev s (serviceStart r kind.toNat target.toNat)

/-- The runner of an adjudication slice: runner 3 in DEPLOYED, else the lowest-numbered idle one (R343). (DESIGN CHOICE, log entry 56.) -/
def adjRunner (d : Dev) : Option Nat :=
  if d.scarab.lc == .deployed then (if (runner d 3).isNone then some 3 else none) else idleRunner d

/-- The next adjudication slice starts: the first, those of an earlier request before others, that need not wait for the common blanking
(R343). -/
def adjStart (k : Clk) (d : Dev) : Dev :=
  match d.weevil.adj.find? fun x => placeFits d k x.1 x.2.1, adjRunner d with
  | some (kind, target, request), some r =>
    startSlice r kind target (.adjudication request) k { d with weevil := { d.weevil with adj := d.weevil.adj.erase (kind, target, request) } }
  | _, _ => d

/-- ADJ_SLICE_START. -/
def execAdjSliceStart (s : State) : Host.Outcome State Fault Refusal := onDev s adjStart

/-- The rows of a bank that scrub has tallied with 8 corrected errors (R336). -/
def failedRows (d : Dev) (bank : Nat) : List Nat := (d.ket.tally.filter fun (r, n) => r % 64 == bank && decide (8 ≤ n)).map (·.1)

/-- A spare row of the bank is mapped over each of the rows (R161, R336). -/
def mapRows (bank : Nat) (rows : List Nat) (d : Dev) : Dev :=
  { d with
    weevil := { d.weevil with
      mapped := d.weevil.mapped ++ rows
      rowsUsed := Tab.put 0 d.weevil.rowsUsed bank (Tab.get 0 d.weevil.rowsUsed bank + rows.length) }
    ket := { d.ket with tally := d.ket.tally.filter fun x => !rows.contains x.1 } }

/-- Spare lanes left of a bank's bond group (R336). -/
def lanesLeft (d : Dev) (bank : Nat) : Nat := 16 - Tab.get 0 d.weevil.bondUsed bank

/-- Failed lanes of a bank's bond group are steered to spare ones. -/
def steerLanes (bank n : Nat) (d : Dev) : Dev :=
  { d with weevil := { d.weevil with bondUsed := Tab.put 0 d.weevil.bondUsed bank (Tab.get 0 d.weevil.bondUsed bank + n) } }

/-- A slice of runner r ends on TIMEOUT (R337). -/
def timeoutSlice (r : Nat) (s : Slice) (k : Clk) (d : Dev) : Dev := endSlice r s 2 0 0 0 k d

/-- A slice of type `kind` fails (R336): on a result of its own, on any error of a loop or of the balls, on a fifth block of LINK_PRBS that
needs a re-send. (DEDUCED, log entry 101.) -/
def sliceFails (kind : Nat) (pass : Bool) (errors : Nat) : Bool :=
  !pass || ((kind == 4 || kind == 5 || kind == 7) && errors != 0) || (kind == 1 && decide (4 < errors))

/-- Runner r's slice completes with what it found (R336 to R338), which comes from outside. A row repair maps spare rows and never fails; a
bond slice steers the failed lanes it found, whose number is `repairs`, and fails when they are more than the spare lanes left. -/
def sliceResult (r : Nat) (s : Slice) (pass : Bool) (repairs errors detail : Nat) (k : Clk) (d : Dev) : Dev :=
  let bank := s.target % 4096
  if s.kind = 3 then
    let rows := (failedRows d bank).take (rowsLeft d bank)
    endSlice r s 0 rows.length errors 0 k (mapRows bank rows d)
  else if s.kind = 2 then
    let n := min repairs (lanesLeft d bank)
    endSlice r s (if n < repairs then 1 else 0) n errors (if repairs = 0 then 0 else detail) k (steerLanes bank n d)
  else endSlice r s (bnat (sliceFails s.kind pass errors)) 0 errors (if s.kind = 8 ∨ s.kind = 1 then 0 else detail) k d

/-- A slice of runner r completes, unless its budget has passed (R337, R345). -/
def sliceEnd (r : Nat) (pass : Bool) (repairs errors detail : Nat) (k : Clk) (d : Dev) : Dev :=
  match runner d r with
  | none => d
  | some s =>
    if s.waits then d
    else if s.budget * 1250 < since k s.tick then timeoutSlice r s k d
    else sliceResult r s pass repairs errors detail k d

/-! The slices of start-up (R380). -/

/-- A start-up slice on a target runs whole on runner r, with what a report says of it (R336 to R338, R380). (DEDUCED, log entry 66.) -/
def startupSlice (r kind target : Nat) (reports : List SliceReport) (k : Clk) (d : Dev) : Dev :=
  let s : Slice := { kind, target, budget := sliceBudget d r .startup, origin := .startup, tick := k.ticks }
  if !sliceApplies d kind target then refuseSlice r kind target .startup 4 k d
  else if kind = 7 ∧ d.sys.tapHeld then refuseSlice r kind target .startup 5 k d
  else
    let d := sliceTakes target k (setRunner r (some s) d)
    match reports.find? fun x => x.target.toNat == target with
    | none => sliceResult r s true 0 0 0 k d
    | some x => if x.timeout then timeoutSlice r s k d else sliceResult r s x.pass x.repairs.toNat x.errors.toNat x.detail.toNat k d

/-- Start-up slices on n targets of a class. (DEDUCED, log entry 66.) -/
def startupSlices (r kind cls n : Nat) (reports : List SliceReport) (k : Clk) (d : Dev) : Dev :=
  forEach (List.range n) (fun i => startupSlice r kind (cls * 4096 + i) reports k) d

/-- Steps 9 to 11 of start-up (R380), on runner r: the slices that the control firmware runs, with CAL_CTL.AUTO a calibration round of every
path (R350), whose end is that of start-up. -/
def startupEnd (r : Nat) (reports : List SliceReport) (k : Clk) (d : Dev) : Dev :=
  let d := stepDone 7 (startupSlice r 7 0x6000 reports k (startupSlices r 4 5 28 reports k d))
  if rb d Reg.CAL_CTL 31 then
    forEach (List.range 26) (fun p d => when (!pathSignal d p) (fun d => raiseCal 4 (roundLeave p d)) d)
      (onCalib (fun c => { c with starting := true }) (measureAll k d))
  else startupReady d

/-- Step 9 begins once a runner is idle and no slice works on its targets (R334, R345, R380). (DEDUCED, log entry 101.) -/
def startupGoOn (k : Clk) (d : Dev) : Dev :=
  match d.sys.startReports, idleRunner d with
  | some reports, some r =>
    if (List.range 4).any fun i => (runner d i).any fun s => s.target / 4096 == 5 || s.target / 4096 == 6 then d
    else startupEnd r reports k { d with sys := { d.sys with startReports := none } }
  | _, _ => d

/-- SYS_ABORT of runner r (R331): its slice ends ABORTED. -/
def weevilAbort (r : Nat) (k : Clk) (d : Dev) : Dev :=
  match runner d r with
  | some s => startupGoOn k (resumeWaiting s.target k (sliceAbort r k d))
  | none => d

/-- SLICE_END: runner r's slice completes, with what it found. -/
def execSliceEnd (r : Fin 4) (pass : Bool) (repairs errors : W16) (detail : W32) (s : State) : Host.Outcome State Fault Refusal :=
  onDev s fun k d => startupGoOn k (sliceEnd r pass repairs.toNat errors.toNat detail.toNat k d)

/-- A slice reaches its budget (R337). -/
def sliceTimeout (r : Nat) (k : Clk) (d : Dev) : Dev :=
  match runner d r with
  | some s => if !s.waits && decide (s.budget * 1250 ≤ since k s.tick) then timeoutSlice r s k d else d
  | none => d

/-- SLICE_TIMEOUT. -/
def execSliceTimeout (r : Fin 4) (s : State) : Host.Outcome State Fault Refusal := onDev s fun k d => startupGoOn k (sliceTimeout r k d)

/-- FABRIC_LINK_FATAL (R345): the slice that tests the link ends FAIL; without one the link is marked all the same.
(DESIGN CHOICE, log entry 83.) -/
def execFabricLinkFatal (n : Fin 96) (s : State) : Host.Outcome State Fault Refusal :=
  onDev s fun k d =>
    let target := 0x1000 + n.val
    match (List.range 4).find? fun r => (runner d r).any fun s => !s.waits && s.target == target with
    | some r => match runner d r with | some s => startupGoOn k (endSlice r s 1 0 0 0 k d) | none => d
    | none => if unusable d target then d else outOfService target k (raiseWeevil 4 (setTargetMark target { targetMark d target with mark := 2 } d))

/-- SWARM_SPARE_CMD[s].GO (R357): the spare stands for firefly FOR, which is withdrawn. -/
def spareGo (s : Nat) (v : W32) (d : Dev) : Dev :=
  let f := fld v 0 5
  let d := wr (Reg.SWARM_SPARE_CMD s) (v &&& 0x1F) d
  if bit v 31 && spareFree d s && decide (f < 16) then withdrawFirefly s f d else d

/-- SWARM_SPARE_GO. -/
def execSwarmSpareGo (req : Req) (sw : Fin 8) (v : W32) (s : State) : Host.Outcome State Fault Refusal :=
  onDev s fun k d => settle k (guardedSealed req k (Reg.SWARM_SPARE_CMD sw) v (spareGo sw v) d)

end Sys2Proof.Machine
end

