-- ==== Sys2Proof/Machine/Pair.lean ====
section
/-!
DEFINITION. Pair operation (R271 to R303). What of it follows the clock's steps is in Machine/PairTime.lean, what a boundary does in
Machine/Frame.lean.
-/

namespace Sys2Proof.Machine

/-- PAIR_STATUS.STATE. -/
def pairCode : PairMode → Nat
  | .solo => 0
  | .join => 1
  | .sync => 2
  | .cozy => 3
  | .taking => 4
  | .active => 5
  | .degraded => 6

/-- The unit takes the role of unit 1 (R294, R295). -/
def roleOne (d : Dev) : Bool := d.pair.role.getD (rb d Reg.SYS_STRAPS 1)

/-- A state in which the unit follows its partner's clock (R278). -/
def follows (m : PairMode) : Bool := m == .join || m == .sync || m == .cozy || m == .degraded

/-- TB_STATUS.PAIR_SLAVED (R29, R278): set while a following unit's partner is in ACTIVE or TAKING; a claim leaves it as it is, and the
takeover clears it (R279). -/
def reslave (d : Dev) : Dev :=
  let slaved :=
    if d.pair.mode == .taking then d.pins.pairSlaved
    else follows d.pair.mode && d.pair.hb.any fun h => h.mode == .active || h.mode == .taking
  { d with pins := { d.pins with pairSlaved := slaved } }

/-- Enter a state. (DEDUCED, log entry 58.) -/
def enterMode (m : PairMode) (d : Dev) : Dev := reslave (onPair (fun p => { p with mode := m }) d)

/-- Enter DEGRADED: OWN_N is released and every show output suppressed at once. (DEDUCED, log entry 58.) -/
def degrade (d : Dev) : Dev :=
  enterMode .degraded (onPair (fun p => { p with
    ownDrive := false, handover := none, released := false, yielding := false, takeover := none, claimTick := none, verified := false
    byHandover := false, offered := none }) d)

/-- Take the oldest message of a channel when it is this one. -/
def takeMessage (chan : Nat) (bytes : List W8) (d : Dev) : Option Dev :=
  match d.pair.inbox.find? fun m => m.1 == chan with
  | some m =>
    if m.2 = bytes then
      some (onPair (fun p => { p with inbox := p.inbox.erase m, stamps := if chan = 0 then p.stamps.drop 1 else p.stamps }) d)
    else none
  | none => none

/-- A message that has arrived, by kind and content, and what it brings; without it nothing happens. (DESIGN CHOICE, log entry 87.) -/
def onMessage (chan kind : Nat) (content : List W64) (f : Dev → Dev) (d : Dev) : Dev :=
  match takeMessage chan (messageBytes kind content) d with
  | some d => f d
  | none => d

/-! The link (R273 to R277, R369). -/

/-- PAIR_CTL is written (R271, R317): the first write since a reset takes effect. -/
def pairCtlWrite (req : Req) (v : W32) (k : Clk) (d : Dev) : Dev :=
  if d.pair.written then lockViolation req 0 Reg.PAIR_CTL k d
  else
    let d := wr Reg.PAIR_CTL (v &&& 1) (onPair (fun p => { p with written := true }) d)
    if bit v 0 then enterMode .join (onPair (fun p => { p with joinAt := shortOf (now k), hbTick := k.ticks, kickTick := k.ticks }) d)
    else d

/-- PAIR_ENABLE. -/
def execPairEnable (req : Req) (v : W32) (s : State) : Host.Outcome State Fault Refusal :=
  onDev s fun k => accessSealed Reg.PAIR_CTL (pairCtlWrite req v k)

/-- A handover is abandoned: one that the partner offered, and this unit's own while it still holds OWN_N low. After the release the old
active goes on to b − 10 µs (R299). -/
def abandonHandover : Dev → Dev :=
  onPair fun p => if p.released then { p with offered := none } else { p with offered := none, handover := none, yielding := false }

/-- Every unacknowledged block is sent again, in order; a block that has been sent four times takes the link down (R275, R277), which
abandons a handover (R299). -/
def cricketResend (k : Clk) (d : Dev) : Dev :=
  if d.pair.replay.any fun c => 4 ≤ c.sends then
    raisePair 2 (bumpSat Reg.PAIR_LINK_FATAL_COUNT 1 (abandonHandover (cricketDrop d)))
  else
    let d := pmon 0x301 d.pair.replay.length (bumpSat Reg.PAIR_LINK_RESEND d.pair.replay.length d)
    onPair (fun p => match p.replay.getLast? with
      | some c => { p with replay := p.replay.map fun c => { c with sends := c.sends + 1 }, ackTick := k.ticks, tx := blockBytes p c, nak := false }
      | none => p) d

/-- The blocks that an ACK acknowledges leave the replay buffer (R275). -/
def cricketAck (ack : Nat) (k : Clk) : Dev → Dev :=
  onPair fun p =>
    match p.replay with
    | [] => p
    | c :: _ =>
      let n := (ack + 4096 - c.seq) % 4096
      if 1 ≤ n ∧ n ≤ p.replay.length then { p with replay := p.replay.drop n, ackTick := k.ticks } else p

/-- The payload of an accepted block joins its message; a message received whole goes to its channel, one of the TIME channel with the
stamp x of its block (R274, R276, R278). -/
def cricketTake (chan : Nat) (first last : Bool) (data : List W8) (x : Time) (d : Dev) : Dev :=
  if 8 ≤ chan then d
  else
    let whole := (if first then [] else Tab.get [] d.pair.partials chan) ++ data
    onPair (fun p =>
      if last then
        { p with partials := Tab.put [] p.partials chan [], inbox := p.inbox ++ [(chan, whole)], stamps := if chan = 0 then p.stamps ++ [x] else p.stamps }
      else { p with partials := Tab.put [] p.partials chan whole }) d

/-- The stamp of a block that arrives at this tick, by the calibration of lane 0's receive path (R278). (DEDUCED, log entry 59.) -/
def blockIn (k : Clk) (d : Dev) : Time := now k - pathDelay d 20
/-- The stamp of a block that leaves at this tick, by the calibration of lane 0's transmit path (R278). (DEDUCED, log entry 59.) -/
def blockOut (k : Clk) (d : Dev) : Time := now k + pathDelay d 16

/-- A good block with the SEQ expected is accepted (R274). -/
def cricketAccept (head : W64) (l : List W8) (k : Clk) (d : Dev) : Dev :=
  let chan := fld head 32 4
  if bit head 38 then d
  else
    let x := blockIn k d
    let d := onPair (fun p => { p with expect := (p.expect + 1) % 4096 }) d
    if openChannel d chan then cricketTake chan (bit head 15) (bit head 14) (slice l 8 (fld head 16 8)) x d else d

/-- A block arrives (R274, R275): accepted with a good CRC and the SEQ expected, else discarded, with a NAK in the next block sent. What
it acknowledges leaves the replay buffer, what it asks for is sent again, and only then new blocks start (R276). -/
def cricketBlock (l : List W8) (k : Clk) (d : Dev) : Dev :=
  let head := w64 (ofLe (l.take 8))
  if !d.pair.trained || l.length != 256 then d
  else if crc32c (l.take 252) != w32 (ofLe (l.drop 252)) || fld head 52 12 != d.pair.expect then
    cricketIdle (onPair (fun p => { p with nak := true }) d)
  else
    let d := cricketAck (fld head 40 12) k (cricketAccept head l k d)
    cricketIdle (cricketPump k (if bit head 39 then cricketResend k d else d))

/-- CRICKET_BLOCK_RX: the 256 bytes of a block arrive. -/
def execCricketBlockRx (block : List W8) (s : State) : Host.Outcome State Fault Refusal := onDev s (cricketBlock block)

/-- CRICKET_RESEND_TIMEOUT: ACK has not advanced for 4 µs while blocks are outstanding. -/
def execCricketResendTimeout (s : State) : Host.Outcome State Fault Refusal :=
  onDev s fun k d =>
    if d.pair.trained && !d.pair.replay.isEmpty && decide (5000 ≤ since k d.pair.ackTick) then cricketResend k d else d

/-- The pair key is in force: every channel is open (R273, R369). -/
def pairOpen (d : Dev) : Dev := onPair (fun p => { p with keyed := true }) { d with scarab := { d.scarab with keyValid := true } }

/-- Cricket is back, trained and attested: LINK_UP is raised, and a unit in COZY compares digests afresh (R272, R303). -/
def linkBack (d : Dev) : Dev :=
  let d := raisePair 1 d
  if d.pair.mode == .cozy then enterMode .sync (onPair (fun p => { p with matched := 0 }) d) else d

/-- The link trains, and the units attest again (R273, R369): with the key IDs in agreement the pair key is valid. A retired unit has no key
to attest with (R360). (DEDUCED, log entry 53; DESIGN CHOICE, log entry 100.) -/
def cricketUp (a : Attestation) (k : Clk) (d : Dev) : Dev :=
  if d.pair.mode == .solo || cricketOut d || (List.range 4).any (fun l => looped d (8 + l)) || linkUp d || d.sys.tripped then d
  else
    let d := when (keysDerived d) (attestSend a.nonce k) (onPair (fun p => { p with trained := true, keyed := false }) (nonceNew d))
    let ok := attestPasses a d.scarab.nonce d
    let d := onScarab (fun s => { s with keyValid := false, attested := ok }) d
    if !ok then raiseScarab 7 d
    else when (d.scarab.keyHeld && a.keyId == d.scarab.keyId) pairOpen (linkBack d)

/-- CRICKET_LINK_UP: training ends, and the partner attests. -/
def execCricketLinkUp (partner : Attestation) (s : State) : Host.Outcome State Fault Refusal := onDev s (cricketUp partner)

/-! Mirrored inputs (R280 to R283). -/

/-- A mirrored frame reaches the action of this unit's own strainer entry, as if it had arrived at the stamped instant (R280).
(DEDUCED, log entry 60.) -/
def mirrorDeliver (p : Nat) (stamp : Time) (data : List W8) (d : Dev) : Dev :=
  let r : RxFrame := { stamp, bytes := data }
  let j := strain d p data
  match j.action with
  | .sacn => { d with sacnRx := d.sacnRx ++ [{ port := p, stamp, bytes := data, mirrored := true }] }
  | .st n => { d with stRx := d.stRx ++ [{ port := p, stamp, bytes := data, stream := n, mirrored := true }] }
  | _ => deliver p r j true false d

/-- MIRROR_FRAME_RX: the oldest message of the MIRROR channel is a mirrored frame or push. -/
def execMirrorFrameRx (m : Mirrored) (s : State) : Host.Outcome State Fault Refusal :=
  onDev s fun k =>
    match m with
    | .frame p stamp frac data =>
      onMessage 7 7 ([w64 p.val, stamp, frac.setWidth 64] ++ data.map (·.setWidth 64))
        (mirrorDeliver p (nearTime stamp (now k) + frac.toNat * 2 ^ 16) data)
    | .push f key slot value cancel =>
      onMessage 7 8 [f, key, w64 slot.val, value, w64 (bnat cancel)]
        (onPair fun p => { p with pushes := p.pushes ++ [(f, { key, slot := slot.val, value, cancel })] })

/-- Boundary f's mirrored leaves and pushes are released (R281, R283). (DEDUCED, log entry 60.) -/
def releaseMirrored (f : W64) (k : Clk) (d : Dev) : Dev :=
  let b := d.frm.lastB
  let d := enginesTake (fun r => r.mirrored && decide (r.stamp < b)) k d
  let d := stMark (f + 1) b (sacnInMark (f + 1) d)
  let out := d.pair.pushes.filter fun x => x.1 ≤ f
  let d := onArr (fun a => { a with inputs := a.inputs ++ out.map (·.2) }) d
  onPair (fun p => { p with pushes := p.pushes.filter fun x => !decide (x.1 ≤ f), markDue := none }) d

/-- MARK(f) has arrived: what waits for it is released, or will be when boundary f is emitted here. -/
def markTake (f : W64) (k : Clk) (d : Dev) : Dev :=
  let d := onPair (fun p => { p with marked := some f }) d
  if d.pair.markDue.any fun m => m.1 == f then releaseMirrored f k d else d

/-- MARK_RX: the oldest message of the MIRROR channel is MARK(f). -/
def execMarkRx (f : W64) (s : State) : Host.Outcome State Fault Refusal :=
  onDev s fun k d => settle k (onMessage 7 5 [f] (markTake f k) d)

/-- MIRROR_LATE: MARK has not arrived PAIR_MARK_WAIT after its boundary (R281). -/
def execMirrorLate (s : State) : Host.Outcome State Fault Refusal :=
  onDev s fun k d =>
    match d.pair.markDue with
    | some (f, t) =>
      if min 1000 (max 10 (rf d Reg.PAIR_MARK_WAIT 0 10)) * 1250 ≤ since k t then
        settle k (raisePair 12 (bumpSat Reg.PAIR_MIRROR_LATE 1 (releaseMirrored f k d)))
      else d
    | none => d

/-! Heartbeats (R291, R293, R295). -/

/-- The heartbeat PERIOD and TIMEOUT in µs (R303). -/
def hbPeriod (d : Dev) : Nat := min 1000 (max 10 (rf d Reg.PAIR_HB_CFG 0 16))
/-- TIMEOUT. -/
def hbTimeout (d : Dev) : Nat := max (2 * hbPeriod d) (rf d Reg.PAIR_HB_CFG 16 16)

/-- Head h's Trazh stream has launched its last packet of frame f, whose boundary lies at b, by instant t. -/
def trazhLaunched (h : Nat) (b t : Time) (d : Dev) : Bool :=
  match trazhSet d h with
  | none => true
  | some (x, m, z, outCtl) =>
    let g := rateGrid d
    let last := trazhGroups m z - 1
    !x.running || !bit outCtl 1
      || decide (b + m.offset * ns1 + groupAt g m z last + packetAt d m z outCtl m.outWidth last (trazhPackets m.outWidth z - 1) / fine ≤ t)

/-- Every launch time of output frame f lies at or before instant t (R291). -/
def launchesPassed (f : W64) (t : Time) (k : Clk) (d : Dev) : Bool :=
  match frameInstant k d f with
  | none => false
  | some b =>
    (!rb d Reg.PACK_CTL 0
      || ((univsOn d).all (fun u => (univPorts d u).all fun p => decide (univLaunch d u p b ≤ t))
        && (List.range 8).all fun p =>
          let c := rd d (Reg.PACK_PORT_SYNC p)
          let n := (syncAddrs d p).length
          !bit c 31 || n == 0 || decide (slotLaunch d p (fld c 0 14 + (n - 1)) b ≤ t)))
    && (List.range 16).all (fun n => !dmxController d n || !dmxLaunches d n f || decide (b + dmxOfs d n ≤ t))
    && (List.range 4).all fun h => trazhLaunched h b t d

/-- The last of n frames up to f, from frame `least` on, all of whose launch times lie at or before instant t. -/
def lastPassed (least : W64) (t : Time) (k : Clk) (d : Dev) : Nat → W64 → Option W64
  | 0, _ => none
  | n + 1, f => if f < least then none else if launchesPassed f t k d then some f else if f = 0 then none else lastPassed least t k d n (f - 1)

/-- Frames that may have launch times after the last boundary: BASE and the last slot reach 75 s, at up to 240 frames per second. -/
def framesAhead : Nat := 18000

/-- CONFIRMED of this unit by instant t, up to frame `last` (R291): frames of its time in ACTIVE alone. -/
def confirmedAt (t : Time) (last : W64) (k : Clk) (d : Dev) : W64 :=
  let old := d.pair.confirmed
  if d.pair.mode == .active && d.frm.everEmitted then
    (lastPassed (rd64 d Reg.PAIR_TAKEOVER_FRAME_LO) t k d framesAhead last).getD old
  else old

/-- CONFIRMED of this unit now. -/
def confirmedNow (k : Clk) (d : Dev) : W64 := confirmedAt (now k) d.frm.lastFrame k d

/-- A unit that is to leave ACTIVE notes the frames whose launch times have passed (R291). -/
def noteConfirmed (k : Clk) (d : Dev) : Dev := onPair (fun p => { p with confirmed := confirmedNow k d }) d

/-- The content of a heartbeat (R291). -/
def hbContent (h : Heartbeat) : List W64 :=
  [w64 (pairCode h.mode), w64 (bnat h.unit), h.uid.truncate 64, (h.uid >>> 64).truncate 64, h.stamp, h.frame, h.confirmed]

/-- A heartbeat is due: it is sent (R291, R292). -/
def heartbeatSend (k : Clk) (d : Dev) : Dev :=
  if d.pair.mode != .solo && !d.pair.silent && decide (hbPeriod d * 1250 ≤ since k d.pair.hbTick) then
    let c := confirmedNow k d
    let h : Heartbeat :=
      { mode := d.pair.mode, unit := rb d Reg.SYS_STRAPS 1, uid := d.scarab.uid, stamp := shortOf (now k), frame := d.frm.lastFrame, confirmed := c }
    cricketSend 1 (messageBytes 1 (hbContent h)) k (onPair (fun p => { p with hbTick := k.ticks, confirmed := c }) d)
  else d

/-- HEARTBEAT_SEND. -/
def execHeartbeatSend (s : State) : Host.Outcome State Fault Refusal := onDev s heartbeatSend

/-- Equal straps: both units run on, with roles by unique ID from then on (R295). -/
def checkClash (h : Heartbeat) (d : Dev) : Dev :=
  if h.unit = rb d Reg.SYS_STRAPS 1 then
    raisePair 18 (onPair (fun p => { p with idClash := true, role := some (decide (h.uid < d.scarab.uid)) }) d)
  else d

/-- Two units in ACTIVE: the one in the role of unit 1 enters DEGRADED (R299). A claim that this unit's own handover asked for is none
(DEDUCED from R298). -/
def checkDual (h : Heartbeat) (k : Clk) (d : Dev) : Dev :=
  if d.pair.mode == .active && (h.mode == .active || (h.mode == .taking && !d.pair.released)) then
    let d := raisePair 15 d
    if roleOne d then degrade (noteConfirmed k d) else d
  else d

/-- The partner's heartbeat arrives (R272, R291, R293, R295, R299). In JOIN, loss counts from the entry into JOIN, whatever heartbeats
come (R293). -/
def heartbeatTake (h : Heartbeat) (k : Clk) (d : Dev) : Dev :=
  if d.pair.mode == .solo then d
  else
    let d := wr64 Reg.PAIR_CONFIRMED_LO h.confirmed (onPair (fun p => { p with hb := some h, lost := p.lost && p.mode == .join }) d)
    let d := checkDual h k (checkClash h d)
    let d := reslave d
    if d.pair.mode == .join && d.pair.keyed && (h.mode == .active || h.mode == .taking) then
      enterMode .sync (onPair (fun p => { p with matched := 0, lost := false }) d)
    else d

/-- HEARTBEAT_RX: the oldest message of the HEARTBEAT channel is this heartbeat. -/
def execHeartbeatRx (hb : Heartbeat) (s : State) : Host.Outcome State Fault Refusal :=
  onDev s fun k => onMessage 1 1 (hbContent hb) (heartbeatTake hb k)

/-- The short time from which heartbeat loss counts (R293). -/
def lossFrom (d : Dev) : W64 := if d.pair.mode == .join then d.pair.joinAt else d.pair.hb.elim d.pair.joinAt (·.stamp)

/-- Heartbeats are current (R303): one has come, and neither is loss declared nor has show time passed its stamp plus TIMEOUT. -/
def heartbeatsCurrent (k : Clk) (d : Dev) : Bool :=
  (!d.pair.lost || d.pair.mode == .join) && d.pair.hb.any fun h => !later (shortOf (now k)) (h.stamp + w64 (hbTimeout d * 1000))

/-- LINK_LOST: show time passes the last heartbeat's stamp plus TIMEOUT, which abandons a handover (R293, R299). -/
def linkLost (k : Clk) (d : Dev) : Dev :=
  if d.pair.mode != .solo && !d.pair.lost && later (shortOf (now k)) (lossFrom d + w64 (hbTimeout d * 1000)) then
    raisePair 0 (abandonHandover (onPair (fun p => { p with lost := true }) d))
  else d

/-- LINK_LOST. -/
def execLinkLost (s : State) : Host.Outcome State Fault Refusal := onDev s linkLost

/-! Ownership (R294, R298). -/

/-- The unit may claim (R272, R294, R298): after a declared loss, or for a handover that its partner named. -/
def mayClaim (k : Clk) (d : Dev) : Bool :=
  let p := d.pair
  match p.mode with
  | .join => p.lost && running k d
  | .sync => p.lost || p.offered.isSome
  | .cozy => p.lost || p.offered.isSome
  | _ => false

/-- The claim delay in ns. -/
def claimDelay (d : Dev) : Nat := if roleOne d then 20000 else 0

/-- The unit claims: OWN_N has read high for its claim delay (R294). (DESIGN CHOICE, log entry 55.) -/
def claim (highNs : Nat) (k : Clk) (d : Dev) : Dev :=
  let d := onPair (fun p => { p with ownHigh := decide (0 < highNs) }) d
  if mayClaim k d && decide (0 < highNs ∧ claimDelay d ≤ highNs) then
    enterMode .taking (onPair (fun p => { p with
      back := p.mode, ownDrive := true, claimTick := some k.ticks, verified := false, byHandover := !p.lost && p.offered.isSome }) d)
  else d

/-- CLAIM: OWN_N has read high for so many nanoseconds (0: it reads low). -/
def execClaim (highNs : Nat) (s : State) : Host.Outcome State Fault Refusal := onDev s (claim highNs)

/-- The read of OWN_N 200 ns after the claim (R294). (DESIGN CHOICE, log entry 55.) -/
def claimVerify (high : Bool) (k : Clk) (d : Dev) : Dev :=
  match d.pair.mode, d.pair.claimTick with
  | .taking, some t =>
    if d.pair.verified || decide (since k t < 250) then d
    else if high then
      raisePair 4 (enterMode d.pair.back (onPair (fun p => { p with ownDrive := false, ownHigh := true, claimTick := none, byHandover := false }) d))
    else raisePair 3 (onPair (fun p => { p with verified := true, ownHigh := false }) d)
  | _, _ => d

/-- CLAIM_VERIFY: the level that OWN_N reads. -/
def execClaimVerify (high : Bool) (s : State) : Host.Outcome State Fault Refusal := onDev s (claimVerify high)

/-- The active names boundary b, the first at least 1 ms ahead, and sends a HANDOVER message (R298). -/
def handoverStart (k : Clk) (d : Dev) : Dev :=
  match d.pair.mode, d.pair.handover, d.frm.run with
  | .active, none, some g =>
    let i := max (nextIndex d) (g.firstFrom (now k + 1000000 * ns1))
    let f := w64 i + biasNow d
    cricketSend 2 (messageBytes 4 [f]) k (onPair (fun p => { p with handover := some (f, g.at i), released := false }) d)
  | _, _, _ => d

/-- REJOIN takes a unit in DEGRADED back to SYNC (R290). -/
def rejoin (d : Dev) : Dev :=
  if d.pair.mode == .degraded then enterMode .sync (onPair (fun p => { p with matched := 0 }) d) else d

/-- A write of PAIR_CMD (R290, R298, R303). -/
def pairCmd (v : W32) (k : Clk) (d : Dev) : Dev := when (bit v 2) rejoin (when (bit v 0) (handoverStart k) d)

/-- HANDOVER. -/
def execHandover (req : Req) (s : State) : Host.Outcome State Fault Refusal :=
  onDev s fun k => guarded req k Reg.PAIR_CMD 1 (pairCmd 1 k)

/-- REJOIN. -/
def execRejoin (req : Req) (s : State) : Host.Outcome State Fault Refusal :=
  onDev s fun k => guarded req k Reg.PAIR_CMD 4 (pairCmd 4 k)

/-- HANDOVER_MESSAGE_RX: the oldest message of the CONTROL channel names boundary f. -/
def execHandoverMessageRx (f : W64) (s : State) : Host.Outcome State Fault Refusal :=
  onDev s fun _ => onMessage 2 4 [f] fun d =>
    if d.pair.mode == .sync || d.pair.mode == .cozy then onPair (fun p => { p with offered := some f }) d else d

/-- HANDOVER_RELEASE: at b − 50 µs the old active releases OWN_N (R298). -/
def execHandoverRelease (s : State) : Host.Outcome State Fault Refusal :=
  onDev s fun k d =>
    match d.pair.handover with
    | some (_, b) =>
      if d.pair.mode == .active && !d.pair.released && decide (b - 50000 * ns1 ≤ now k) then
        onPair (fun p => { p with ownDrive := false, released := true }) d
      else d
    | none => d

/-- HANDOVER_CHECK: the level that OWN_N reads at b − 10 µs (R298). -/
def execHandoverCheck (high : Bool) (s : State) : Host.Outcome State Fault Refusal :=
  onDev s fun k d =>
    match d.pair.handover with
    | some (_, b) =>
      if d.pair.mode == .active && d.pair.released && decide (b - 10000 * ns1 ≤ now k) then
        if high then
          raisePair 7 (onPair (fun p => { p with ownDrive := true, ownHigh := true, handover := none, released := false, yielding := false }) d)
        else onPair (fun p => { p with ownHigh := false }) d
      else d
    | none => d

/-! The watchdog (R292). -/

/-- PAIR_WDOG_KICK: a write by the control firmware; the host's are discarded. -/
def wdogKick (req : Req) (k : Clk) (d : Dev) : Dev :=
  match req with
  | .fw => onPair (fun p => { p with kickTick := k.ticks, silent := false }) d
  | .host => d

/-- PAIR_WDOG_KICK. -/
def execPairWdogKick (req : Req) (s : State) : Host.Outcome State Fault Refusal :=
  onDev s fun k => access Reg.PAIR_WDOG_KICK (wdogKick req k)

/-- WDOG_EXPIRED: TIMEOUT has passed without a kick on a unit that drives OWN_N. -/
def wdogExpired (k : Clk) (d : Dev) : Dev :=
  if (d.pair.mode == .active || d.pair.mode == .taking)
      && decide (min 1000 (max 100 (rf d Reg.PAIR_WDOG_CFG 0 11)) * 1250 ≤ since k d.pair.kickTick) then
    raisePair 14 (degrade (onPair (fun p => { p with silent := true, wdogExpired := true }) (noteConfirmed k d)))
  else d

/-- WDOG_EXPIRED. -/
def execWdogExpired (s : State) : Host.Outcome State Fault Refusal := onDev s wdogExpired

/-! Digests and adjudication (R288, R289). -/

/-- A digest set in the order in which it is sent: ascending by class and index, a stream's sets in their own order. -/
def DigestSet.sorted (s : DigestSet) : List (Nat × Nat × W32) := sortBy (fun x => x.1 * 65536 + x.2.1) s.recs

/-- The bytes of a digest set (R288). -/
def digestBytes (s : DigestSet) : List W8 :=
  leBytes 8 s.frame.toNat ++ s.sorted.flatMap fun (c, i, x) => leBytes 8 (c * 2 ^ 62 + i % 65536 * 2 ^ 32 + x.toNat)

/-- The digest set that a message spells. -/
def digestOf (l : List W8) : DigestSet where
  frame := w64 (ofLe (l.take 8))
  recs := (List.range (l.length / 8 - 1)).map fun i =>
    let w := w64 (ofLe (slice l (8 * i + 8) 8))
    (fld w 62 2, fld w 32 16, w32 (fld w 0 32))

/-- The end of head h's last Trazh packet of the frame whose boundary lies at b (R288). -/
def trazhEnds (h : Nat) (b : Time) (d : Dev) : List Time :=
  match trazhSet d h with
  | none => []
  | some (x, t, z, outCtl) =>
    let g := rateGrid d
    let last := trazhGroups t z - 1
    if x.running && bit outCtl 1 then
      [b + t.offset * ns1 + groupAt g t z last + packetAt d t z outCtl t.outWidth last (trazhPackets t.outWidth z) / fine]
    else []

/-- The end of head h's last active line of the frame whose boundary lies at b (R288). -/
def headEnds (h : Nat) (b : Time) (d : Dev) : List Time :=
  match (head d h).running, (head d h).timing with
  | true, some t => [b + t.offset * ns1 + lineAt (rateGrid d) t (t.vSync + t.vBp + t.vActive)]
  | _, _ => []

/-- C(f): when every stream of frame f is complete, and boundary f + 1 has come (R288). -/
def completeAt (f : W64) (k : Clk) (d : Dev) : Option Time :=
  match frameInstant k d f, frameInstant k d (f + 1) with
  | some b, some e =>
    let univs := if rb d Reg.PACK_CTL 0 then (univsOn d).flatMap fun u => (univPorts d u).map fun p => univLaunch d u p b else []
    let lines := ((List.range 16).filter fun n => dmxController d n && dmxLaunches d n f).map fun n => b + dmxOfs d n + dmxLength d n * ns1
    some ((univs ++ lines ++ (List.range 4).flatMap fun h => headEnds h b d ++ trazhEnds h b d).foldl max e)
  | _, _ => none

/-- C(f) is to come, or a stream of frame f is still held back (R288). -/
def digestOpen (f : W64) (k : Clk) (d : Dev) : Bool :=
  let ofFrame (x : TxFrame) : Bool := match x.origin with | .packer kind _ g => (kind == 0 || kind == 2) && g == f | _ => false
  decide (d.frm.lastFrame ≤ f) || (completeAt f k d).any (fun c => decide (now k < c))
    || (List.range 8).any (fun p =>
      (port d p).offers.any ofFrame || (port d p).cal.any (fun a => a.fate == .waiting && ofFrame a.frame) || (port d p).timed.any (fun x => ofFrame x.frame))
    || (List.range 16).any fun n => (dmx d n).line.any (fun l => l.1 == some f) || (dmxController d n && (dmx d n).staged.any (fun x => x.1 == f) && (dmx d n).launched.all fun g => decide (g < f))

/-- This unit's digest set of frame f. -/
def ownSet (f : W64) (d : Dev) : DigestSet := (d.pair.digests.find? fun s => s.frame == f).getD { frame := f, recs := [] }

/-- Drop this unit's digest set of frame f. -/
def dropSet (f : W64) : Dev → Dev := onPair fun p => { p with digests := p.digests.filter fun s => s.frame != f }

/-- This unit holds its set of frame f. -/
def hasSet (f : W64) (d : Dev) : Bool := d.pair.digests.any fun s => s.frame == f

/-- Boundary f is emitted: a unit in a pair has a set for it, with no record as yet, or none at all (R288). -/
def openSet (f : W64) (d : Dev) : Dev :=
  if d.pair.mode == .solo || hasSet f d then d else onPair (fun p => { p with digests := p.digests ++ [{ frame := f, recs := [] }] }) d

/-- DIGEST_SEND: the active sends the set of a complete frame. A run of mismatches ends with a frame that its partner has compared and not
named, which the active knows of two frames on (R289). (DEDUCED, log entry 54.) -/
def digestSend (f : W64) (k : Clk) (d : Dev) : Dev :=
  if d.pair.mode == .active && !digestOpen f k d && hasSet f d then
    let d := if d.pair.named.all fun g => decide (g + 2 < f) then wr Reg.PAIR_MISMATCH_RUN 0 d else d
    cricketSend 3 (digestBytes (ownSet f d)) k (dropSet f d)
  else d

/-- DIGEST_SEND. -/
def execDigestSend (f : W64) (s : State) : Host.Outcome State Fault Refusal := onDev s (digestSend f)

/-- The slices of an adjudication, by the stream's class (R289). (DESIGN CHOICE, log entry 56.) -/
def adjSlices (cls index : Nat) : List (Nat × Nat) :=
  match cls with
  | 0 => (8, 0x7000) :: Config.packerLinks.map fun l => (1, 0x1000 + l)
  | 1 => [(8, 0x7010 + index)]
  | _ => (8, 0x7020 + index) :: (List.range 64).map (fun b => (2, 0x3000 + b)) ++ [(8, 0x7030)]

/-- An adjudication begins (R289). -/
def adjBegin (cls index : Nat) (k : Clk) (d : Dev) : Dev :=
  let l := adjSlices cls index
  { onPair (fun p => { p with adj := some { cls, index, tick := k.ticks, left := l.length } }) d with
    weevil := { d.weevil with adj := d.weevil.adj ++ l.map fun x => (x.1, x.2, k.ticks) } }

/-- The run of mismatches rises by one (R289). -/
def mismatchRun (d : Dev) : Dev :=
  let n := min 255 (rf d Reg.PAIR_MISMATCH_RUN 0 8 + 1)
  let d := wr Reg.PAIR_MISMATCH_RUN (w32 n) d
  if max 1 (rf d Reg.PAIR_MISMATCH_LIMIT 0 8) ≤ n then raisePair 9 d else d

/-- The first stream in which two digest sets differ. -/
def firstMismatch : List (Nat × Nat × W32) → List (Nat × Nat × W32) → Option (Nat × Nat)
  | [], [] => none
  | x :: _, [] => some (x.1, x.2.1)
  | [], y :: _ => some (y.1, y.2.1)
  | x :: r, y :: q =>
    if x = y then firstMismatch r q
    else if x.1 * 65536 + x.2.1 ≤ y.1 * 65536 + y.2.1 then some (x.1, x.2.1) else some (y.1, y.2.1)

/-- The partner's set of a frame is compared with this unit's own (R272, R288, R289). (DEDUCED, log entry 54.) -/
def digestCompare (their : DigestSet) (k : Clk) (d : Dev) : Dev :=
  let own := ownSet their.frame d
  let d := dropSet their.frame d
  match firstMismatch own.sorted their.sorted with
  | none =>
    let d := wr Reg.PAIR_MISMATCH_RUN 0 (onPair (fun p => { p with matched := p.matched + 1 }) d)
    if d.pair.mode == .sync && decide (max 1 (rf d Reg.PAIR_JOIN_FRAMES 0 16) ≤ d.pair.matched) then raisePair 17 (enterMode .cozy d) else d
  | some (c, i) =>
    let d := onPair (fun p => { p with matched := 0 }) d
    let d := wr64 Reg.PAIR_MISMATCH_FRAME_LO their.frame (wr Reg.PAIR_MISMATCH_INFO (w32 (c * 2 ^ 30 + i)) d)
    let d := raisePair 8 (cricketSend 2 (messageBytes 2 [w64 c, w64 i, their.frame]) k d)
    if d.pair.adj.isSome then mismatchRun d else adjBegin c i k d

/-- DIGEST_RX: the oldest digest set received is compared, once this unit's own set of that frame is complete. A set that comes after
DIGEST_MISSING counts nothing (R288). -/
def execDigestRx (s : State) : Host.Outcome State Fault Refusal :=
  onDev s fun k d =>
    match d.pair.inbox.find? fun m => m.1 == 3 with
    | none => d
    | some m =>
      let set := digestOf m.2
      if digestOpen set.frame k d then d
      else
        let d := onPair (fun p => { p with inbox := p.inbox.erase m }) d
        if (d.pair.mode == .sync || d.pair.mode == .cozy || d.pair.mode == .degraded) && hasSet set.frame d then digestCompare set k d else d

/-- DIGEST_MISSING: the set of frame f has not arrived by C(f) plus one frame period. -/
def execDigestMissing (f : W64) (s : State) : Host.Outcome State Fault Refusal :=
  onDev s fun k d =>
    if (d.pair.mode == .sync || d.pair.mode == .cozy || d.pair.mode == .degraded) && linkUp d && !digestOpen f k d
        && (completeAt f k d).all (fun c => decide (c + (rateGrid d).period ≤ now k)) && hasSet f d
        && !d.pair.inbox.any (fun m => m.1 == 3 && (digestOf m.2).frame == f) then
      raisePair 11 (dropSet f d)
    else d

/-- The active is told of a mismatch in frame f: a frame between it and the last one named has matched, which ends the run; during an
adjudication it counts in the run (R289). (DEDUCED, log entry 54.) -/
def mismatchTold (cls index : Nat) (f : W64) (k : Clk) (d : Dev) : Dev :=
  let d := if d.pair.named.any fun g => g + 1 == f || g == f then d else wr Reg.PAIR_MISMATCH_RUN 0 d
  let d := onPair (fun p => { p with named := some f }) d
  if d.pair.adj.isNone then adjBegin cls index k d else mismatchRun d

/-- MISMATCH_MESSAGE_RX: the oldest message of the CONTROL channel names a mismatching stream. -/
def execMismatchMessageRx (cls : Fin 4) (index : W16) (f : W64) (s : State) : Host.Outcome State Fault Refusal :=
  onDev s fun k => onMessage 2 2 [w64 cls.val, index.setWidth 64, f] (mismatchTold cls.val index.toNat f k)

/-- The outcome of an adjudication on this unit: whether its own slices and its partner's failed (R289). Slices that have not started still
run (R343). (DEDUCED, log entry 57.) -/
def adjOutcome (own partner : Bool) (k : Clk) (d : Dev) : Dev :=
  let active := d.pair.mode == .active
  let activeFails := if active then own else partner
  let standbyFails := if active then partner else own
  let d := onPair (fun p => { p with adj := none }) d
  if !activeFails && !standbyFails then mismatchRun (bumpSat Reg.PAIR_MISMATCH 1 d)
  else if !active then
    if standbyFails && (d.pair.mode == .sync || d.pair.mode == .cozy || d.pair.mode == .degraded) then raisePair 10 (degrade d) else d
  else if standbyFails then (if activeFails then raisePair 10 d else d)
  else raisePair 10 (handoverStart k (onPair (fun p => { p with yielding := true }) d))

/-- ADJ_RESULT: this unit's slices have ended, and the partner's result has arrived or not within 10 ms (none), which counts as a
pass, as this unit's own slices that have not ended by then do (R289). (DEDUCED, log entry 57.) -/
def adjResult (partner : Option Bool) (k : Clk) (d : Dev) : Dev :=
  match d.pair.adj with
  | none => d
  | some a =>
    let late := decide (12500000 ≤ since k a.tick)
    if a.left != 0 && !late then d
    else
      match partner with
      | some b => onMessage 2 3 [w64 a.cls, w64 a.index, w64 (bnat b)] (adjOutcome a.failed b k) d
      | none => if late then adjOutcome a.failed false k d else d

/-- ADJ_RESULT. -/
def execAdjResult (partnerFail : Option Bool) (s : State) : Host.Outcome State Fault Refusal := onDev s (adjResult partnerFail)

/-! Health (R300). -/

/-- The HEALTH word of boundary f. -/
def healthWord (f : W64) (d : Dev) : W64 :=
  let bits (n : Nat) (on : Nat → Bool) : Nat := ((List.range n).map fun i => bnat (on i) * 2 ^ i).sum
  w64 (f.toNat % 2 ^ 16 * 2 ^ 48
    + bits 8 (fun s => rb d (Reg.SWARM_SPARE_STATUS s) 31) * 2 ^ 40 + bits 8 (swarmShort d) * 2 ^ 32
    + bits 8 (fun p => unusable d (0x5000 + p)) * 2 ^ 24 + bits 4 (fun h => unusable d (0x7020 + h)) * 2 ^ 20
    + bnat d.ket.derated * 2 ^ 19 + bnat (calFactory d) * 2 ^ 18 + bnat d.pair.sliceFail * 2 ^ 17 + bnat d.pair.sliceSuspect * 2 ^ 16
    + min 255 d.pair.slices)

/-- HEALTH_RX: the oldest HEALTH word received is shown (R300). -/
def execHealthRx (s : State) : Host.Outcome State Fault Refusal :=
  onDev s fun _ d =>
    match d.pair.inbox.find? fun m => m.1 == 4 with
    | none => d
    | some m =>
      let v := w64 (ofLe (m.2.take 8))
      let old := rd64 d Reg.PAIR_HEALTH_PARTNER_LO
      let d := wr64 Reg.PAIR_HEALTH_PARTNER_LO v (onPair (fun p => { p with inbox := p.inbox.erase m }) d)
      if fld old 8 40 != fld v 8 40 then raisePair 16 d else d

/-! Boundaries. -/

/-- A boundary of frame f at instant b is emitted: handover and takeover (R296, R298), HEALTH (R300), MARK (R281). The unit that was active
up to the boundary sends its MARK, and the unit that was its partner waits for it. A unit that hands over launches nothing at b or later, so
what it has confirmed ends with the frame before (R291, R298). (DEDUCED, log entry 60.) -/
def pairBoundary (f : W64) (b : Time) (k : Clk) (d : Dev) : Dev :=
  let p := d.pair
  let d := openSet f d
  let before := waitsMark d
  let d :=
    if p.mode == .active && p.released && p.handover.any (fun h => h.1 ≤ f) then
      let d := onPair (fun p => { p with confirmed := confirmedAt (b - 1) (f - 1) k d }) d
      raisePair 6 (if p.yielding then degrade d
        else enterMode .cozy (onPair (fun p => { p with handover := none, released := false, ownDrive := false, takeover := none }) d))
    else if p.mode == .taking && p.verified && (!p.byHandover || p.offered.all fun g => g ≤ f) then
      let d := wr64 Reg.PAIR_TAKEOVER_FRAME_LO f d
      let c := d.pair.hb.map (·.confirmed)
      raisePair 5 (enterMode .active (onPair (fun p => { p with
        takeover := some (b, c), claimTick := none, verified := false, byHandover := false, offered := none }) d))
    else d
  let d :=
    if d.pair.mode == .solo then d
    else
      let h := healthWord f d
      let d := wr64 Reg.PAIR_HEALTH_LOCAL_LO h (onPair (fun p => { p with slices := 0, sliceFail := false, sliceSuspect := false }) d)
      if d.pair.silent then d else cricketSend 4 (leBytes 8 h.toNat) k d
  if p.mode == .active then
    if d.frm.latching.isSome then onPair (fun p => { p with markOwed := true }) d else cricketSend 7 (messageBytes 5 [f]) k d
  else if before then
    if d.pair.marked == some f then releaseMirrored f k d
    else onPair (fun p => { p with markDue := some (f, k.ticks) }) d
  else d

end Sys2Proof.Machine
end

