-- ==== Sys2Proof/Machine/Scarab.lean ====
section
/-!
DEFINITION. Scarab (R359 to R375): lifecycle, packages, the pair key, sessions and tokens; and the DRAM window, which it protects.
-/

namespace Sys2Proof.Machine

/-! The protected window (R368). -/

/-- Protection holds: from step 7 of an open until the window has been zeroed. -/
def protects (d : Dev) : Bool :=
  match d.scarab.phase with
  | .opening => true
  | .opened => true
  | .zeroing _ => true
  | _ => false

/-- Byte a lies in the protected window. -/
def guardedByte (d : Dev) (a : Nat) : Bool := protects d && decide (d.scarab.base ≤ a ∧ a < d.scarab.base + d.scarab.size)

/-- An access of n bytes at address a by the host window, a DMA channel or a control core meets the protected window. -/
def protHit (d : Dev) (a n : Nat) : Bool :=
  protects d && decide (a < d.scarab.base + d.scarab.size ∧ d.scarab.base < a + n)

/-- A denied access is counted. -/
def protDeny (d : Dev) : Dev := raiseScarab 5 (bumpSat Reg.SCARAB_PROT_DENY_COUNT 1 d)

/-- A read that may not see the protected window: its bytes there are not read and answer zero. -/
def loadOutside (a n : Nat) (d : Dev) : Option (List W8) × Dev :=
  if protHit d a n then
    let top := d.scarab.base + d.scarab.size
    let x := load a (d.scarab.base - a) d
    let y := load (max a top) (a + n - max a top) x.2
    (x.1.bind fun l => y.1.map fun r => l ++ List.replicate (min (a + n) top - max a d.scarab.base) 0 ++ r, protDeny y.2)
  else load a n d

/-- A write that may not touch the protected window: its bytes there are discarded. -/
def storeOutside (a : Nat) (bs : List W8) (d : Dev) : Dev :=
  if protHit d a bs.length then
    protDeny (storeRanges (joinRanges (((List.range bs.length).filter fun i => !guardedByte d (a + i)).map fun i => (a + i, [byteAt bs i]))) d)
  else store a bs d

/-- DRAM answers (R379, R380). -/
def dramReady (d : Dev) : Bool := rb d Reg.SYS_STARTUP_STATUS 4

/-- The bytes of an access that lie in the window of 64 GiB. -/
def dramClip (off n : Nat) : Nat := min n (2 ^ 36 - off)

/-- A read through the DRAM window (R368, R379); beyond the installed DRAM its bytes are free. (DESIGN CHOICE, log entry 73.) -/
def dramRead (off n : Nat) (d : Dev) : Dev :=
  let n := dramClip off n
  if !dramReady d then windowAnswer (List.replicate n 0) false d
  else
    let m := min n (dramSize d - off)
    let x := loadOutside (dramBase + off) m d
    let y := freeBytes (n - m) x.2
    windowAnswer (x.1.getD (List.replicate m 0) ++ y.1) x.1.isNone y.2

/-- A write through the DRAM window: bytes beyond the installed DRAM have no place. (DESIGN CHOICE, log entry 73.) -/
def dramWrite (off : Nat) (bs : List W8) (d : Dev) : Dev :=
  if dramReady d then storeOutside (dramBase + off) (bs.take (dramSize d - off)) d else d

/-- DRAM_WINDOW_ACCESS: a read of `len` bytes, or a write of `data`, at an offset of the window. -/
def execDramWindowAccess (write : Bool) (off : BitVec 36) (len : Nat) (data : List W8) (s : State) :
    Host.Outcome State Fault Refusal :=
  onDev s fun _ => if write then dramWrite off.toNat data else dramRead off.toNat len

/-- Every byte of n bytes from address a becomes zero, with valid check bits. (DESIGN CHOICE, log entry 2.) -/
def zeroMem (a n : Nat) (d : Dev) : Dev :=
  { d with
    mem := d.mem.filter fun x => !decide (a ≤ x.1 ∧ x.1 < a + n)
    ecc := d.ecc.filter fun x => !decide (a ≤ 8 * x.1 ∧ 8 * x.1 + 8 ≤ a + n) }

/-! Pins (R370, R375). -/

/-- The bytes of a pin. -/
def pinBytes (d : Dev) (i : Nat) : List W8 := (List.range 12).flatMap fun w => leBytes 4 (Tab.get 0 d.scarab.pins (12 * i + w)).toNat

/-- A pin of all zeros is empty. -/
def pinEmpty (d : Dev) (i : Nat) : Bool := (List.range 12).all fun w => Tab.get 0 d.scarab.pins (12 * i + w) == 0

/-- The pin that SCARAB_PIN_IDX names. -/
def pinIdx (d : Dev) : Nat := rf d Reg.SCARAB_PIN_IDX 0 4

/-- SCARAB_PIN_CMD.WRITE: pin 8 is written in PROVISIONED alone. -/
def pinWrite (d : Dev) : Dev :=
  let i := pinIdx d
  if i < 8 ∨ (i = 8 ∧ d.scarab.lc = .provisioned) then
    forEach (List.range 12) (fun w d => onScarab (fun x => { x with pins := Tab.put 0 x.pins (12 * i + w) (rd d (Reg.SCARAB_PIN_DATA w)) }) d) d
  else d

/-- SCARAB_PIN_CMD.READ. -/
def pinRead (d : Dev) : Dev :=
  let i := pinIdx d
  if i ≤ 8 then forEach (List.range 12) (fun w => wr (Reg.SCARAB_PIN_DATA w) (Tab.get 0 d.scarab.pins (12 * i + w))) d else d

/-- A write of SCARAB_PIN_CMD. -/
def pinCmd (v : W32) (d : Dev) : Dev := when (bit v 0) pinRead (when (bit v 1) pinWrite d)

/-- PIN_WRITE. -/
def execPinWrite (req : Req) (s : State) : Host.Outcome State Fault Refusal :=
  onDev s fun k => guarded req k Reg.SCARAB_PIN_CMD 2 (pinCmd 2)

/-- PIN_READ. -/
def execPinRead (req : Req) (s : State) : Host.Outcome State Fault Refusal :=
  onDev s fun k => guarded req k Reg.SCARAB_PIN_CMD 1 (pinCmd 1)

/-! Packages (R366 to R368, R374). -/

/-- A package in memory, as OPEN names it. -/
def pkgField (d : Dev) (i n : Nat) : List W8 := getBytes d (d.scarab.pkgAddr + i) n
/-- PAYLOAD_LEN. -/
def pkgPayload (d : Dev) : Nat := ofLe (pkgField d 8 8)

/-- Steps 1 to 6 of an open, on the package and window captured: the RESULT of the first that fails. (DEDUCED, log entry 70.) -/
def pkgCheck (d : Dev) : Option Nat :=
  let s := d.scarab
  let l := pkgPayload d
  let bind := ofLe (pkgField d 6 1)
  let signer := pkgField d 0xC0 97
  if !(inDram d s.pkgAddr s.pkgLen && decide (296 + 112 < s.pkgLen) && ofLe (pkgField d 0 4) == 0x5A504B47 && ofLe (pkgField d 4 2) == 1
      && (bind == 1 || bind == 2) && decide (1 ≤ l ∧ l ≤ 2 ^ 34) && s.pkgLen == 296 + l + 112) then some 1
  else if !(s.base % 65536 == 0 && inDram d s.base s.size && decide (l ≤ s.size)
      && decide (s.pkgAddr + s.pkgLen ≤ s.base ∨ s.base + s.size ≤ s.pkgAddr)) then some 8
  else if !Config.ecdsaOk signer (pkgField d 0 (296 + l + 16)) (pkgField d (296 + l + 16) 96) then some 2
  else if !((List.range 8).any (fun i => pinBytes d i == Config.sha384 signer) || (List.range 8).all (pinEmpty d)) then some 3
  else if !(if bind = 1 then pkgField d 0x10 16 == leBytes 16 s.uid.toNat
      else s.keyValid && pkgField d 0x10 8 == leBytes 8 s.keyId.toNat) then some 4
  else none

/-- RESULT and its event. -/
def pkgResult (r : Nat) (d : Dev) : Dev :=
  raiseScarab (if r = 0 then 3 else 4) (wrFld Reg.SCARAB_PKG_STATUS 0 8 r d)

/-- SCARAB_PKG_CMD.OPEN (R367), discarded while an open runs. Steps 1 to 6 are judged as the open starts, and protection begins with it.
(DEDUCED, log entry 70.) -/
def pkgOpen (d : Dev) : Dev :=
  match d.scarab.phase with
  | .opened => pkgResult 9 d
  | .zeroing none => pkgResult 9 d
  | .closed =>
    let d := onScarab (fun s => { s with
      pkgAddr := (rd64 d Reg.SCARAB_PKG_ADDR_LO).toNat, pkgLen := (rd64 d Reg.SCARAB_PKG_LEN_LO).toNat
      base := (rd64 d Reg.SCARAB_PROT_BASE_LO).toNat, size := (rd64 d Reg.SCARAB_PROT_SIZE_LO).toNat }) d
    onScarab (fun s => { s with phase := match pkgCheck d with | some r => .failing r | none => .opening }) d
  | _ => d

/-- An open that has failed with a RESULT of step 2 or 3 has no window (R367). -/
def windowPassed (r : Nat) : Bool := r != 1 && r != 8

/-- A close begins, or the open in progress stops (R368, R374). (DEDUCED, log entry 70.) -/
def pkgClose : Dev → Dev :=
  onScarab fun s => { s with phase :=
    match s.phase with
    | .closed => .closed
    | .opened => .zeroing none
    | .failing r => .stopping (windowPassed r) (some 10)
    | .opening => .zeroing (some 10)
    | .zeroing r => .zeroing r
    | .stopping z r => .stopping z r }

/-- SCARAB_PKG_CMD.CLOSE, which reads 1 until the package is closed (R375). -/
def pkgCloseCmd (d : Dev) : Dev := pkgClose (onScarab (fun s => { s with closing := s.closing || s.phase != .closed }) d)

/-- A write of SCARAB_PKG_CMD. -/
def pkgCmd (v : W32) (d : Dev) : Dev := when (bit v 1) pkgCloseCmd (when (bit v 0) pkgOpen d)

/-- PKG_OPEN. -/
def execPkgOpen (req : Req) (s : State) : Host.Outcome State Fault Refusal :=
  onDev s fun k => guarded req k Reg.SCARAB_PKG_CMD 1 (pkgCmd 1)

/-- PKG_CLOSE. -/
def execPkgClose (req : Req) (s : State) : Host.Outcome State Fault Refusal :=
  onDev s fun k => guarded req k Reg.SCARAB_PKG_CMD 2 (pkgCmd 2)

/-- Steps 7 and 8: the payload, or the RESULT of the step that fails. -/
def pkgDecrypt (d : Dev) : Sum Nat (List W8) :=
  let l := pkgPayload d
  match Config.keyUnwrap (wrapKey d (ofLe (pkgField d 6 1)) (pkgField d 0x10 16) (pkgField d 0x20 97)) (pkgField d 0x88 40) with
  | none => .inl 5
  | some cek =>
    match Config.gcmOpen cek (pkgField d 0xB0 12) (pkgField d 0 296) (pkgField d 296 l) (pkgField d (296 + l) 16) with
    | none => .inl 6
    | some p => .inr (slice p 0 l)

/-- An open ends (R367): a failure from step 7 on leaves the destination zeroed and unprotected. -/
def pkgOpenDone (d : Dev) : Dev :=
  match d.scarab.phase with
  | .failing r => pkgResult r (onScarab (fun s => { s with phase := .closed }) d)
  | .opening =>
    match pkgDecrypt d with
    | .inl r => pkgResult r (zeroMem d.scarab.base d.scarab.size (onScarab (fun s => { s with phase := .closed }) d))
    | .inr p => pkgResult 0 (store d.scarab.base p (onScarab (fun s => { s with phase := .opened }) d))
  | _ => d

/-- PKG_OPEN_DONE. -/
def execPkgOpenDone (s : State) : Host.Outcome State Fault Refusal := onDev s fun _ => pkgOpenDone

/-- The package is closed: OPEN and CLOSE clear, and scopes that waited are granted where the state allows it, every session ended (R359,
R368, R373). -/
def pkgClosed (s : Scarab) : Scarab :=
  let grant := s.granting != 0 && s.lc != .deployed
  { s with
    phase := .closed, closing := false, granting := 0
    scopes := if grant then s.scopes ||| s.granting else s.scopes
    sessions := if grant then [] else s.sessions }

/-- Zeroing of the window ends: protection lifts and the package is closed (R368, R374). -/
def zeroDone (d : Dev) : Dev :=
  match d.scarab.phase with
  | .zeroing r => (r.elim id pkgResult) (onScarab pkgClosed (zeroMem d.scarab.base d.scarab.size d))
  | .stopping z r => (r.elim id pkgResult) (onScarab pkgClosed (when z (zeroMem d.scarab.base d.scarab.size) d))
  | _ => d

/-- WINDOW_ZERO_DONE. -/
def execWindowZeroDone (s : State) : Host.Outcome State Fault Refusal := onDev s fun _ => zeroDone

/-! The lifecycle (R359 to R365). -/

/-- The move to a state is permitted and its condition met (R360), with the token held. (DEDUCED, log entry 69.) -/
def lcPermits (held : Option W32) (d : Dev) (target : Lifecycle) : Bool :=
  match d.scarab.lc, target with
  | .blank, .provisioned => Config.certSubject (certBytes d) == dikPub d && Config.chainOk (certBytes d) Config.rootHash
  | .provisioned, .deployed => true
  | .deployed, .diagnostic => held.any fun w => bit w 4
  | .diagnostic, .deployed => true
  | .provisioned, .retired => held.any fun w => bit w 5
  | .deployed, .retired => held.any fun w => bit w 5
  | .diagnostic, .retired => held.any fun w => bit w 5
  | _, _ => false

/-- The state that TARGET names. -/
def lcTarget (v : W32) : Option Lifecycle :=
  match fld v 0 3 with
  | 0 => some .blank
  | 1 => some .provisioned
  | 2 => some .deployed
  | 3 => some .diagnostic
  | 4 => some .retired
  | _ => none

/-- A write of SCARAB_LC_CMD (R360): GO starts a permitted move, and uses up the token held (R372); a GO written while one reads 1 is discarded
(R308). A move to DIAGNOSTIC or RETIRED first closes the package (R368, R374). (DEDUCED, log entry 69.) -/
def lcCmd (v : W32) (d : Dev) : Dev :=
  let d := wr Reg.SCARAB_LC_CMD ((rd d Reg.SCARAB_LC_CMD &&& 0x80000000) ||| (v &&& 7)) d
  if !bit v 31 || d.scarab.move.isSome then d
  else
    let held := d.scarab.held
    let d := onScarab (fun s => { s with held := none }) d
    match lcTarget v with
    | some t =>
      if lcPermits held d t then
        let d := wrBit Reg.SCARAB_LC_CMD 31 true (onScarab (fun s => { s with move := some t }) d)
        if t = .diagnostic ∨ t = .retired then pkgClose d else d
      else raiseScarab 1 d
    | none => raiseScarab 1 d

/-- LC_MOVE_PROVISIONED. -/
def execLcMoveProvisioned (req : Req) (s : State) : Host.Outcome State Fault Refusal :=
  onDev s fun k => guardedSealed req k Reg.SCARAB_LC_CMD 0x80000001 (lcCmd 0x80000001)

/-- LC_MOVE_DEPLOYED. -/
def execLcMoveDeployed (req : Req) (s : State) : Host.Outcome State Fault Refusal :=
  onDev s fun k => guardedSealed req k Reg.SCARAB_LC_CMD 0x80000002 (lcCmd 0x80000002)

/-- LC_MOVE_DIAGNOSTIC. -/
def execLcMoveDiagnostic (req : Req) (s : State) : Host.Outcome State Fault Refusal :=
  onDev s fun k => guardedSealed req k Reg.SCARAB_LC_CMD 0x80000003 (lcCmd 0x80000003)

/-- LC_MOVE_RETIRED. -/
def execLcMoveRetired (req : Req) (s : State) : Host.Outcome State Fault Refusal :=
  onDev s fun k => guardedSealed req k Reg.SCARAB_LC_CMD 0x80000004 (lcCmd 0x80000004)

/-- The pair key's registers read zero. -/
def pairRegsClear (d : Dev) : Dev := putRegBytes Reg.SCARAB_PAIR_PUB 25 [] (wr64 Reg.SCARAB_PAIR_ID_LO 0 d)

/-- RETIRED erases the pair key and every session (R360). -/
def lcErase (d : Dev) : Dev :=
  let d := when (d.scarab.forming != 0) (raiseScarab 7) d
  let d := pairRegsClear d
  onPair (fun p => { p with keyed := false }) (onScarab (fun s => { s with
    keyHeld := false, keyValid := false, keyId := 0, pakSealed := [], pairSig := [], partnerCert := [], nonce := [], eph := []
    forming := 0, sessions := [] }) d)

/-- A move waits for its package to be closed (R360, R361). -/
def lcWaits (s : Scarab) : Bool := (s.move == some .diagnostic || s.move == some .retired) && s.phase != .closed

/-- A move completes by writing its fuse or flag, once the package is closed (R360, R361). -/
def lcChange (d : Dev) : Dev :=
  match d.scarab.move with
  | none => d
  | some t =>
    if lcWaits d.scarab then d
    else
      let d := onScarab (fun s => { s with
        move := none, lc := t
        ownerFused := s.ownerFused || (t == .deployed && s.lc == .provisioned && !pinEmpty d 8) }) d
      raiseScarab 0 (wrBit Reg.SCARAB_LC_CMD 31 false (when (t == .retired) lcErase d))

/-- LC_CHANGE. -/
def execLcChange (s : State) : Host.Outcome State Fault Refusal := onDev s fun _ => lcChange

/-- A write of SCARAB_SVN_CMD (R365): one that would lower the counter, or exceed the running image's version, is discarded. -/
def svnCmd (v : W16) (d : Dev) : Dev :=
  if d.scarab.svn ≤ v ∧ v ≤ d.scarab.runningSvn then wr Reg.SCARAB_SVN_CMD (v.setWidth 32) (onScarab (fun s => { s with svn := v }) d)
  else raiseScarab 1 d

/-- SVN_RAISE. -/
def execSvnRaise (req : Req) (v : W16) (s : State) : Host.Outcome State Fault Refusal :=
  onDev s fun k => guardedSealed req k Reg.SCARAB_SVN_CMD (v.setWidth 32) (svnCmd v)

/-! The pair key (R369). -/

/-- The formation fails; the existing key stands (R369, R374). -/
def formFail (d : Dev) : Dev := raiseScarab 7 (onScarab (fun s => { s with forming := 0 }) d)

/-- A formation begins: it awaits the partner's attestation over a fresh nonce. -/
def formStart (d : Dev) : Dev := onScarab (fun s => { s with forming := 1 }) (nonceNew d)

/-- A write of SCARAB_PAIR_CMD.FORM, which acts on unit 0 and is discarded while it reads 1 (R308). The request carries unit 0's nonce.
(PRESUMED, log entry 71.) -/
def pairForm (k : Clk) (d : Dev) : Dev :=
  if roleOne d || d.scarab.forming != 0 then d
  else if !d.pair.trained then formFail d
  else
    let d := formStart d
    cricketSend 5 (messageBytes 10 (contentOf [d.scarab.nonce])) k d

/-- PAIR_FORM. -/
def execPairForm (req : Req) (s : State) : Host.Outcome State Fault Refusal :=
  onDev s fun k => guarded req k Reg.SCARAB_PAIR_CMD 1 (pairForm k)

/-- A request for FORM reaches unit 1, which attests over its nonce. -/
def formRequested (nonce : List W8) (k : Clk) (d : Dev) : Dev := if mayForm d then attestSend nonce k (formStart d) else formFail d

/-- The partner's attestation (R369, steps 1 to 3): unit 0, whose request unit 1's attestation answers, attests in its turn, and each sends its
share. (PRESUMED, log entry 71.) -/
def attestationTake (a : Attestation) (k : Clk) (d : Dev) : Dev :=
  if d.scarab.forming ≠ 1 then d
  else if mayForm d && attestPasses a d.scarab.nonce d then
    let d := when (!linkUp d) linkBack (onScarab (fun s => { s with attested := true, forming := 2, partnerCert := a.cert }) d)
    shareSend k (when (!roleOne d) (attestSend a.nonce k) d)
  else formFail d

/-- The pair key with private scalar `x` is in force: its public key, signed with DIK, its ID, and its place in the MRAM (R369, step 5). -/
def pairKeep (x : List W8) (d : Dev) : Dev :=
  let pub := Config.ecPoint x
  let id := pairKeyId pub
  let g := dikSign pub d
  let d := onScarab (fun s => { s with
    forming := 0, keyHeld := true, keyId := id, pakSealed := Config.skSeal (sk d) x, pairSig := g.1, eph := [], nonce := [] }) g.2
  raiseScarab 6 (pairOpen (wr64 Reg.SCARAB_PAIR_ID_LO id (putRegBytes Reg.SCARAB_PAIR_PUB 25 pub d)))

/-- The partner's share (R369, steps 3 to 5): the pair key is formed; a zero scalar has both units draw and send again. -/
def shareTake (pub sig : List W8) (k : Clk) (d : Dev) : Dev :=
  if d.scarab.forming ≠ 2 then d
  else if mayForm d && Config.ecdsaOk (Config.certSubject d.scarab.partnerCert) pub sig then
    let x := pairScalar d pub
    if x.all (· == 0) then shareSend k d else pairKeep x d
  else formFail d

/-- SCARAB_MESSAGE_RX: the oldest message of the SCARAB channel. -/
def execScarabMessageRx (m : ScarabMessage) (s : State) : Host.Outcome State Fault Refusal :=
  onDev s fun k =>
    match m with
    | .request nonce => onMessage 5 10 (contentOf [nonce]) (formRequested nonce k)
    | .attestation a => onMessage 5 11 (attestContent a) (attestationTake a k)
    | .share pub sig => onMessage 5 12 (contentOf [pub, sig]) (shareTake pub sig k)

/-! Sessions, challenges and tokens (R371 to R373). -/

/-- What the requester of a session operation gets back. -/
def sessReply (l : List W8) (d : Dev) : Dev := { d with bus := { d.bus with win := l } }

/-- The certificate of a session's peer chains to the key that pin 8 names, or to ROOT_PUB when it is empty. -/
def peerOk (cert : List W8) (d : Dev) : Bool := Config.chainOk cert (if pinEmpty d 8 then Config.rootHash else pinBytes d 8)

/-- Session i opens: Scarab draws its ephemeral key, signs the transcript with DIK and derives the keys; the requester gets Scarab's public
key and the signature. (DESIGN CHOICE, log entry 10.) -/
def sessOpen (i : Nat) (key cert : List W8) (d : Dev) : Dev :=
  let e := freeBytes 48 d
  let own := Config.ecPoint e.1
  let tr := Config.transcript own key cert
  let g := dikSign tr e.2
  let keys := Config.hkdf (Config.ecdh e.1 key) tr (Config.keyLabel 5) 64
  sessReply (own ++ g.1) (onScarab (fun s => { s with sessions := Tab.put none s.sessions i (some { keys }) }) g.2)

/-- A session operation (R371). Its registers are defined elsewhere (R375): its operands come with the command, its reply goes back as
bytes. (DESIGN CHOICE, log entry 10.) -/
def sessOp (op : SessOp) (d : Dev) : Dev :=
  let session (i : Nat) : Option Session := Tab.get none d.scarab.sessions i
  let put (i : Nat) (x : Option Session) : Dev → Dev := onScarab fun s => { s with sessions := Tab.put none s.sessions i x }
  match op with
  | .establish i key cert => when (peerOk cert d) (sessOpen i key cert) d
  | .seal i m =>
    match session i with
    | some x => sessReply ((Config.sessionMessage true x.keys x.sent m).getD []) (put i (some { x with sent := x.sent + 1 }) d)
    | none => d
  | .unseal i m =>
    match session i with
    | some x =>
      match Config.sessionMessage false x.keys x.received m with
      | some l => sessReply l (put i (some { x with received := x.received + 1 }) d)
      | none => d
    | none => d

/-- SESS_CMD. -/
def execSessCmd (req : Req) (op : SessOp) (s : State) : Host.Outcome State Fault Refusal :=
  onDev s fun k => guarded req k Reg.SCARAB_SESS_CMD 0 (sessOp op)

/-- A fresh nonce replaces any earlier challenge (R372). -/
def chalNew (k : Clk) (d : Dev) : Dev :=
  let d := forEach (List.range 12) (fun w d => wr (Reg.SCARAB_CHAL w) (lo32 (free d).1) (free d).2) d
  onScarab (fun s => { s with chal := some k.ticks }) d

/-- CHAL_NEW. -/
def execChalNew (_req : Req) (s : State) : Host.Outcome State Fault Refusal :=
  onDev s fun k => access Reg.SCARAB_CHAL_CMD (chalNew k)

/-- Ticks of 60 s. -/
def chalLife : Nat := 75000000000

/-- CHAL_EXPIRE. -/
def execChalExpire (s : State) : Host.Outcome State Fault Refusal :=
  onDev s fun k d =>
    match d.scarab.chal with
    | some t => if chalLife ≤ since k t then onScarab (fun s => { s with chal := none }) d else d
    | none => d

/-- What a token signs: the nonce, the unique ID and the scope (R372). (PRESUMED, log entry 71.) -/
def tokenMessage (d : Dev) : List W8 :=
  regBytes d Reg.SCARAB_CHAL 12 ++ leBytes 16 d.scarab.uid.toNat ++ leBytes 4 (rd d Reg.SCARAB_TOKEN_SCOPE).toNat

/-- The token verifies, under ROOT_PUB or under the owner's key that pin 8 names. (PRESUMED, log entry 71.) -/
def tokenOk (d : Dev) : Bool :=
  let sig := regBytes d Reg.SCARAB_TOKEN 24
  let key := (regBytes d Reg.SCARAB_TOKEN_KEY 25).take 97
  Config.ecdsaOk Config.rootPub (tokenMessage d) sig
    || (!pinEmpty d 8 && pinBytes d 8 == Config.sha384 key && Config.ecdsaOk key (tokenMessage d) sig)

/-- Debug scopes are granted, in the states that allow it, once the package is closed and every session has ended (R359, R373). -/
def grantScopes (scopes : Nat) (d : Dev) : Dev :=
  if scopes = 0 ∨ d.scarab.lc = .deployed then d
  else
    let d := pkgClose (onScarab (fun s => { s with sessions := [], granting := s.granting ||| scopes }) d)
    onScarab (fun s => if s.phase = .closed then pkgClosed s else s) d

/-- The debug scopes unlocked: a grant lasts until the next reset, in the states that allow it (R359, R373). -/
def scopesNow (d : Dev) : Nat := if d.scarab.lc = .deployed then 0 else d.scarab.scopes

/-- A debug scope's access is unlocked: 0 halt and trace of the control cores, 1 inspection of brew slots, 2 scan chains (R373). -/
def debugMay (d : Dev) (i : Nat) : Bool := (scopesNow d).testBit i

/-- A token authorises one move or one debug scope: its scope word names one of the five (R372). (DEDUCED, log entry 71.) -/
def scopeOne (scope : W32) : Bool := [0, 1, 2, 4, 5].countP (bit scope) == 1

/-- SCARAB_TOKEN_CMD.GO (R372, R373): the challenge serves this one token. -/
def tokenGo (k : Clk) (d : Dev) : Dev :=
  let fresh := d.scarab.chal.any fun t => decide (since k t < chalLife)
  let ok := fresh && tokenOk d && scopeOne (rd d Reg.SCARAB_TOKEN_SCOPE)
  let d := onScarab (fun s => { s with chal := none }) d
  if !ok then raiseScarab 2 d
  else
    let scope := rd d Reg.SCARAB_TOKEN_SCOPE
    let d := if bit scope 4 || bit scope 5 then onScarab (fun s => { s with held := some scope }) d else d
    grantScopes (fld scope 0 3) d

/-- TOKEN_GO. -/
def execTokenGo (req : Req) (s : State) : Host.Outcome State Fault Refusal :=
  onDev s fun k => guarded req k Reg.SCARAB_TOKEN_CMD 1 (tokenGo k)

end Sys2Proof.Machine
end

