-- ==== Sys2Proof/Machine/Dma.lean ====
section
/-!
DEFINITION. The host DMA channels (R327 to R330).
-/

namespace Sys2Proof.Machine

/-- DMA channel c. -/
def dmaChan (d : Dev) (c : Nat) : DmaChan := Tab.get {} d.dma c
/-- Set DMA channel c. -/
def setDmaChan (c : Nat) (x : DmaChan) (d : Dev) : Dev := { d with dma := Tab.put {} d.dma c x }

/-- The channel holds descriptors to perform: HEAD has not reached TAIL (R327, R195). -/
def dmaReady (d : Dev) (c : Nat) : Bool :=
  let n := 2 ^ (dmaChan d c).log2
  (dmaChan d c).enabled && rf d (Reg.DMA_HEAD c) 0 16 % n != rf d (Reg.DMA_TAIL c) 0 16 % n

/-- The descriptor that the channel performs. -/
def dmaDesc (d : Dev) (c : Nat) : Option Nat :=
  match (dmaChan d c).flight with
  | some a => some a
  | none => if dmaReady d c then some ((dmaChan d c).base + rf d (Reg.DMA_HEAD c) 0 16 % 2 ^ (dmaChan d c).log2 * 32) else none

/-- The channel halts with DMA_ERR (R327, R329). -/
def dmaHalt (c : Nat) (d : Dev) : Dev :=
  raiseDma (16 + c) (wrBit (Reg.DMA_STATUS c) 1 true (wrBit (Reg.DMA_CTL c) 31 false
    (setDmaChan c { dmaChan d c with enabled := false } d)))

/-- A write of DMA_CTL[c] (R327): EN rising captures the ring, or halts; EN falling lets the descriptor in flight end (R195). -/
def dmaCtlWrite (c : Nat) (v : W32) (d : Dev) : Dev :=
  let was := (dmaChan d c).enabled
  let flight := dmaDesc d c
  let d := putReg (Reg.DMA_CTL c) v d
  if bit v 31 && !was then
    let base := (rd64 d (Reg.DMA_BASE_LO c)).toNat % 2 ^ 48 / 64 * 64
    let n := log2Of (fld v 0 5)
    let d := wrBit (Reg.DMA_STATUS c) 1 false d
    if inShared d base (2 ^ n * 32) then setDmaChan c { dmaChan d c with enabled := true, base, log2 := n } d
    else dmaHalt c d
  else if !bit v 31 && was then setDmaChan c { dmaChan d c with enabled := false, flight } d
  else d

/-- DMA_ENABLE: a write of DMA_CTL[c] that sets EN. -/
def execDmaEnable (_req : Req) (c : Fin 16) (v : W32) (s : State) : Host.Outcome State Fault Refusal :=
  onDev s fun _ => accessSealed (Reg.DMA_CTL c) (when (bit v 31) (dmaCtlWrite c v))

/-- DMA_TAIL_WRITE: software hands descriptors over (R327, R195). -/
def execDmaTailWrite (_req : Req) (c : Fin 16) (v : W32) (s : State) : Host.Outcome State Fault Refusal :=
  onDev s fun _ => access (Reg.DMA_TAIL c) (putReg (Reg.DMA_TAIL c) v)

/-- A write of DMA_HEAD[c] takes effect only while EN is 0 (R330). -/
def dmaHeadWrite (c : Nat) (v : W32) (d : Dev) : Dev := if rb d (Reg.DMA_CTL c) 31 then d else putReg (Reg.DMA_HEAD c) v d

/-- The 64-byte blocks of the bytes [a, a + n), each by its distance from a and its length. -/
def blocksOf (a n : Nat) : List (Nat × Nat) :=
  if n = 0 then []
  else (List.range ((a + n - 1) / 64 - a / 64 + 1)).map fun i =>
    let lo := max a ((a / 64 + i) * 64)
    (lo - a, min (a + n) ((a / 64 + i + 1) * 64) - lo)

/-- Move blocks out of device memory, in ascending order, up to the first with an uncorrectable word: what is done with each block's
bytes is `put`. The bytes moved, and whether an error stopped the channel (R328, R329). -/
def dmaRead (src : Nat) (put : Nat → List W8 → Dev → Dev) : List (Nat × Nat) → Nat → Dev → (Nat × Bool) × Dev
  | [], moved, d => ((moved, false), d)
  | (o, n) :: r, moved, d =>
    match loadOutside (src + o) n d with
    | (none, d) => ((moved, true), d)
    | (some bs, d) => dmaRead src put r (moved + n) (put o bs d)

/-- The channel notes bytes that it wrote to the host. -/
def dmaToHost (c : Nat) (bs : List W8) (d : Dev) : Dev := setDmaChan c { dmaChan d c with wrote := (dmaChan d c).wrote ++ bs } d

/-- Bytes from the host enter device memory, block by block. -/
def dmaWrite (dst : Nat) (data : List W8) (d : Dev) : Dev :=
  forEach (blocksOf dst data.length) (fun (o, n) => storeOutside (dst + o) (slice data o n)) d

/-- Move at most `limit` of `len` bytes: bytes moved, and whether an uncorrectable word stopped the channel. DIR 0 host to device, 1
device to host, 2 device to device. -/
def dmaMove (c dir src dst limit : Nat) (hostData : List W8) (d : Dev) : (Nat × Bool) × Dev :=
  let d := setDmaChan c { dmaChan d c with wrote := [] } d
  if dir = 0 then ((limit, false), dmaWrite dst (hostData.take limit) d)
  else if dir = 1 then dmaRead src (fun _ bs => dmaToHost c bs) (blocksOf src limit) 0 d
  else dmaRead src (fun o bs => storeOutside (dst + o) bs) (blocksOf src limit) 0 d

/-- Bytes a descriptor moved are counted (R330, R386). -/
def dmaCount (c n : Nat) (d : Dev) : Dev :=
  pmon 0x282 (((rd64 d (Reg.DMA_BYTES_LO c)).toNat % 64 + n) / 64) (bump64 (Reg.DMA_BYTES_LO c) n d)

/-- A descriptor is written back and HEAD moves past it (R328, R329). -/
def dmaWriteBack (c desc status moved : Nat) (d : Dev) : Dev :=
  let d := storeOutside (desc + 24) (leBytes 8 (2 ^ 63 + status * 2 ^ 48 + moved)) d
  let d := setDmaChan c { dmaChan d c with flight := none } d
  wrFld (Reg.DMA_HEAD c) 0 16 ((rf d (Reg.DMA_HEAD c) 0 16 + 1) % 2 ^ (dmaChan d c).log2) d

/-- What a descriptor says: SRC, DST and the word of its control bits (R328). -/
def dmaFields (w : List W8) : Nat × Nat × Nat := (ofLe (slice w 0 8), ofLe (slice w 8 8), ofLe (slice w 16 8))

/-- The STATUS of a descriptor before any byte moves, 0 where it may move (R329). (DEDUCED, log entry 62.) -/
def dmaJudge (d : Dev) (w : List W8) : Nat :=
  let f := dmaFields w
  let len := f.2.2 % 2 ^ 24
  let dir := f.2.2 / 2 ^ 30 % 4
  if len = 0 then 1
  else if 2 ^ 32 ≤ f.2.2 ∨ f.2.2 / 2 ^ 24 % 32 ≠ 0 ∨ dir = 3 then 2
  else if (dir ≠ 0 && !inShared d f.1 len) || (dir ≠ 1 && !inShared d f.2.1 len) then 3
  else 0

/-- A descriptor's bytes move: STATUS and bytes moved (R328, R329). `hostData` is what the host's memory answered; an error of PCIe
falls after so many bytes. (DEDUCED, log entry 62.) -/
def dmaPerform (c : Nat) (w hostData : List W8) (pcieErr : Option Nat) (d : Dev) : (Nat × Nat) × Dev :=
  let f := dmaFields w
  let len := f.2.2 % 2 ^ 24
  let dir := f.2.2 / 2 ^ 30 % 4
  if dmaJudge d w ≠ 0 then ((dmaJudge d w, 0), d)
  else
    let most := if dir = 0 then min len hostData.length else len
    let limit := if dir = 2 then len else min most (pcieErr.getD most)
    let x := dmaMove c dir f.1 f.2.1 limit hostData d
    ((if x.1.2 then 4 else if limit < len then 5 else 0, x.1.1), x.2)

/-- The channel's next descriptor completes (R328, R329). -/
def dmaDescDone (c : Nat) (hostData : List W8) (pcieErr : Option Nat) (d : Dev) : Dev :=
  match dmaDesc d c with
  | none => d
  | some desc =>
    match loadOutside desc 24 d with
    | (none, d) => dmaHalt c (dmaWriteBack c desc 4 0 d)
    | (some w, d) =>
      let x := dmaPerform c w hostData pcieErr d
      let d := dmaWriteBack c desc x.1.1 x.1.2 (dmaCount c x.1.2 x.2)
      if 2 ≤ x.1.1 then dmaHalt c d
      else when ((dmaFields w).2.2.testBit 29) (raiseDma c) d

/-- DMA_DESC_DONE: `hostData` is what reads of host memory returned; `pcieErr` is the number of bytes before an error of PCIe. -/
def execDmaDescDone (c : Fin 16) (hostData : List W8) (pcieErr : Option Nat) (s : State) : Host.Outcome State Fault Refusal :=
  onDev s fun _ => dmaDescDone c hostData pcieErr

/-- SYS_ABORT of a channel (R331): the descriptor in flight is written back ABORTED with the bytes it had moved, which no rule counts.
(DESIGN CHOICE, log entry 64.) -/
def dmaAbort (c : Nat) (d : Dev) : Dev :=
  let d := match dmaDesc d c with
    | none => d
    | some desc =>
      match loadOutside desc 24 d with
      | (none, d) => dmaWriteBack c desc 6 0 d
      | (some w, d) =>
        let f := dmaFields w
        if dmaJudge d w ≠ 0 then dmaWriteBack c desc 6 0 d
        else
          let n := (free d).1.toNat % (f.2.2 % 2 ^ 24 + 1)
          let h := freeBytes n (free d).2
          let x := dmaMove c (f.2.2 / 2 ^ 30 % 4) f.1 f.2.1 n h.1 h.2
          dmaWriteBack c desc 6 x.1.1 (dmaCount c x.1.1 x.2)
  wrBit (Reg.DMA_CTL c) 31 false (setDmaChan c { dmaChan d c with enabled := false, flight := none } d)

/-- Every channel is aborted and cleared by a LINK reset (R378). -/
def dmaLinkReset (d : Dev) : Dev :=
  let d := forEach (List.range 16) dmaAbort d
  { d with dma := [], regs := d.regs.filter fun x => !decide (Reg.DMA_BASE_LO 0 ≤ x.1 ∧ x.1 < Reg.DMA_BASE_LO 16) }

end Sys2Proof.Machine
end

