-- ==== Sys2Proof/Machine/Flow.lean ====
section
/-!
DEFINITION. Ordered flows and the pour unit (R106, R118 to R129). The hand-on of released records to their destinations is in
Machine/HandOn.lean.
-/

namespace Sys2Proof.Machine

/-- Flow f. -/
def flow (d : Dev) (f : Nat) : Flow := Tab.get {} d.arr.flows f
/-- Set flow f. -/
def setFlow (f : Nat) (x : Flow) : Dev → Dev := onArr fun a => { a with flows := Tab.put {} a.flows f x }

/-- Where a member or closure stands in its flow (R119, R120, R124). -/
inductive Place where
  | disabled
  | undetermined
  | behind
  | pos (n : Nat)
  deriving DecidableEq, Repr

/-- The position of frame and number in a flow (R119). -/
def Flow.place (x : Flow) (frame : BitVec 18) (inst : W32) : Place :=
  if !x.enabled then .disabled
  else if x.stream then (let p := (inst - x.next).toNat; if 2 ^ 31 ≤ p then .behind else .pos p)
  else
    match x.frame with
    | none => .undetermined
    | some fr =>
      let n := (frame - fr).toNat
      if 2 ^ 17 ≤ n ∨ x.len.toNat ≤ inst.toNat ∨ n * x.len.toNat + inst.toNat < x.next.toNat then .behind
      else .pos (n * x.len.toNat + inst.toNat - x.next.toNat)

/-- The place of a key in its flow. -/
def keyPlace (d : Dev) (f : Nat) (key : W64) : Place := (flow d f).place (BitVec.ofNat 18 (keyFrame key)) (w32 (keyInst key))

/-- A closure of the position is recorded. -/
def Flow.isClosed (x : Flow) (n : Nat) : Bool := x.closed.any fun c => x.place c.frame c.inst == .pos n

/-- A stray closure is counted (R122). -/
def countStray (f : Nat) (d : Dev) : Dev := raiseRel 0 (bumpFld (Reg.SCHED_FLOW_COUNTS f) 16 16 1 d)

/-- Record the closure of a key's position, or count it as a stray (R120, R122). (DEDUCED, log entry 35.) -/
def recordClosure (f : Nat) (key : W64) (recs : Option (List Rec)) (d : Dev) : Dev :=
  match keyPlace d f key with
  | .pos n =>
    if (flow d f).isClosed n then countStray f d
    else setFlow f { flow d f with closed := (flow d f).closed ++
      [{ frame := BitVec.ofNat 18 (keyFrame key), inst := w32 (keyInst key), recs }] } d
  | _ => countStray f d

/-! Release (R121, R123). -/

/-- NEXT advances by one (R119). -/
def Flow.advance (x : Flow) : Flow :=
  if x.stream then { x with next := x.next + 1 }
  else if x.next + 1 = x.len then { x with next := 0, frame := x.frame.map (· + 1) }
  else { x with next := x.next + 1 }

/-- A closed position 0 is released (R121). -/
def flowRelease (f : Nat) (d : Dev) : Dev :=
  let x := flow d f
  match x.closed.find? fun c => x.place c.frame c.inst == .pos 0 with
  | none => d
  | some c =>
    let d := when c.recs.isNone (bumpFld (Reg.SCHED_FLOW_COUNTS f) 0 16 1) d
    let d := match c.recs with | some l => pmon 0x2C0 l.length d | none => pmon 0x2C1 1 d
    setFlow f ({ x with closed := x.closed.filter (fun y => y != c), out := x.out ++ c.recs.getD [] }).advance d

/-- Release while position 0 is closed (R121). -/
def releaseAll (f : Nat) (d : Dev) : Dev := forEach (List.range (flow d f).closed.length) (fun _ => flowRelease f) d

/-- FLOW_RELEASE. -/
def execFlowRelease (f : Fin 4096) (s : State) : Host.Outcome State Fault Refusal :=
  onDev s fun k d => settle k (flowRelease f d)

/-- Tombstone number n on its way reaches the pour unit (R120, R122). -/
def takeTomb (n : Nat) (d : Dev) : Dev :=
  match d.arr.tombs[n]? with
  | none => d
  | some (f, key) =>
    let d := onArr (fun a => { a with tombs := a.tombs.eraseIdx n }) d
    match keyPlace d f key with
    | .pos p => if 4096 ≤ p then raiseRel 2 d else recordClosure f key none d
    | _ => countStray f d

/-- The oldest tombstone whose flow has positions reaches the pour unit (R124: before the first frame leaves, closures
wait). -/
def flowTombstone (d : Dev) : Dev :=
  match firstIdx (fun (x : Nat × W64) => keyPlace d x.1 x.2 != .undetermined) d.arr.tombs 0 with
  | some n => takeTomb n d
  | none => d

/-- FLOW_TOMBSTONE. -/
def execFlowTombstone (s : State) : Host.Outcome State Fault Refusal := onDev s fun _ => flowTombstone

/-- How many of the n frames from lo on were passed over without a frame leaf (R41, R123). -/
def gapsIn (d : Dev) (lo : BitVec 18) (n : Nat) : Nat :=
  (d.frm.gaps.map fun (g, len) =>
    let off := (g - lo).toNat
    (min n (off + len) - off) + (min n (off + len - 2 ^ 18))).sum

/-- EXPIRE as captured; 0 acts as 1 (R136). -/
def Flow.expiry (x : Flow) : Nat := max 1 x.expire

/-- Expiry of flow f after a boundary's sweep (R123): the sweep's tombstones first (R129). (DEDUCED, log entry 35.) -/
def flowExpiry (f : Nat) (d : Dev) : Dev :=
  if (List.range 8).any fun s => (steepOf d s).sweepDue then d
  else
  let d := forEach (List.range d.arr.tombs.length) (fun _ d =>
    match firstIdx (fun (x : Nat × W64) => x.1 == f) d.arr.tombs 0 with | some n => takeTomb n d | none => d) d
  let x := flow d f
  match x.enabled && !x.stream, x.frame with
  | true, some fr =>
    let age := (d.frm.cur - fr).toNat
    if age < x.expiry ∨ 2 ^ 17 ≤ age then d
    else
      let frames := age - x.expiry + 1
      let real := frames - gapsIn d fr frames
      let gapFirst := gapsIn d fr 1
      let inFrames (c : Closure) : Bool := decide ((c.frame - fr).toNat < frames)
      let done := sortBy (fun c => (c.frame - fr).toNat * 2 ^ 32 + c.inst.toNat) (x.closed.filter inFrames)
      let ended := (done.filter (·.recs.isSome)).length
      let tombs := real * x.len.toNat - (if gapFirst = 0 then x.next.toNat else 0) - ended
      let d := pmon 0x2C1 tombs (bumpFld (Reg.SCHED_FLOW_COUNTS f) 0 16 tombs d)
      let d := pmon 0x2C0 ((done.filterMap (·.recs)).flatten).length d
      raiseRel 1 (setFlow f { x with
        frame := some (d.frm.cur - BitVec.ofNat 18 x.expiry + 1), next := 0
        closed := x.closed.filter (fun c => !inFrames c), out := x.out ++ (done.filterMap (·.recs)).flatten } d)
  | _, _ => d

/-- FLOW_EXPIRY. -/
def execFlowExpiry (f : Fin 4096) (s : State) : Host.Outcome State Fault Refusal :=
  onDev s fun k d => settle k (flowExpiry f d)

/-! Members: POUR and END (R106, R108, R120, R125, R127, R128). -/

/-- A bit field of a destination word is zero. -/
def zeroFld (dest : W64) (lo len : Nat) : Bool := fld dest lo len == 0

/-- The destination word and length of a POUR are valid (R125). -/
def destOk (d : Dev) (dest : W64) (len : Nat) : Bool :=
  let u := fld dest 16 16
  let start := fld dest 0 9
  let addr := fld dest 0 48
  match fld dest 60 4 with
  | 1 => zeroFld dest 32 28 && zeroFld dest 9 7 && decide (1 ≤ u ∧ u ≤ 63999 ∧ len ≤ 512 - start)
  | 2 => fld dest 58 2 != 3 && decide (len ≤ 4096)
  | 3 => zeroFld dest 10 50 && decide (32 ≤ len ∧ len ≤ 4096 ∧ len % 32 = 0)
  | 4 => zeroFld dest 48 12 && addr % 64 == 0 && decide (len ≤ 4096) && inShared d addr (max 1 len)
  | 5 => zeroFld dest 20 40 && zeroFld dest 9 7 && decide (len ≤ 512 - start)
  | 6 => zeroFld dest 2 58 && len == 0
  | _ => false

/-- The place of a brew in its flow. -/
def brewPlace (d : Dev) (b : Brew) : Option Place := b.flow.map fun f => keyPlace d f b.key

/-- What becomes of a record that slot i pours: false, it stalls; else it is held or discarded (R111, R120, R127, R128). -/
def pourStep (i : Nat) (b : Brew) (r : Rec) (d : Dev) : Bool × Dev :=
  let hold := setBrew i (some { b with recs := b.recs ++ [r] }) d
  if b.cancelled then (true, d)
  else
    match brewPlace d b with
    | none => if pourFits d false r then (true, hold) else (false, d)
    | some .disabled => (true, d)
    | some .behind => (true, d)
    | some .undetermined => (false, d)
    | some (.pos n) => if n < 1024 ∧ pourFits d (n == 0) r then (true, hold) else (false, d)

/-- What becomes of slot i's brew at its END: false, it stalls; else its slot is free and its membership closed (R108,
R111, R120, R122, R127). -/
def endStep (i : Nat) (b : Brew) (d : Dev) : Bool × Dev :=
  match b.flow with
  | none => (true, freeSlot i (pmon 0x2C0 b.recs.length (onArr (fun a => { a with loose := a.loose ++ b.recs }) d)))
  | some f =>
    if b.cancelled then (true, postTomb b.flow b.key (freeSlot i d))
    else
      match keyPlace d f b.key with
      | .undetermined => (false, d)
      | .pos n => if n < 1024 then (true, recordClosure f b.key (some b.recs) (freeSlot i d)) else (false, d)
      | _ => (true, countStray f (freeSlot i d))

/-- A brew stalled in POUR or END goes on when it can (R120, R128). -/
def pourResume (i : Nat) (d : Dev) : Dev :=
  match brewAt d i with
  | none => d
  | some b =>
    match b.wait with
    | .pour r => let x := pourStep i b r d; if x.1 then finishWait i x.2 else d
    | .ending => let x := endStep i b d; if x.1 then x.2 else d
    | _ => d

/-- POUR_RESUME. -/
def execPourResume (x : SlotId) (s : State) : Host.Outcome State Fault Refusal :=
  onDev s fun k d => settle k (pourResume (slotNum x) d)

/-! Configuration (R124, R136). -/

/-- Discard what flow f holds: the closures recorded, and the records of members that run. Released records stand, and tombstones on their
way are judged when they come (R122, R129). -/
def flowDiscard (f : Nat) (d : Dev) : Dev :=
  let d := setFlow f { flow d f with closed := [] } d
  forEach (busySlots d) (fun (i, b) d => if b.flow = some f then setBrew i (some { b with recs := [] }) d else d) d

/-- A capture of flow f, which it leaves enabled or not as `on` says (R124). -/
def flowCapture (f : Nat) (on : Bool) (d : Dev) : Dev :=
  let v := rd d (Reg.SCHED_FLOW_CFG f)
  let len := rd d (Reg.SCHED_FLOW_LEN f)
  let x := { flow (flowDiscard f d) f with stream := bit v 30, expire := fld v 0 8, len }
  let d := flowDiscard f d
  if bit v 30 then setFlow f { x with enabled := on, frame := none, next := len } d
  else if len = 0 then
    raiseRel 5 (wrBit (Reg.SCHED_FLOW_CFG f) 31 false (setFlow f { x with enabled := false, frame := none, next := 0 } d))
  else setFlow f { x with enabled := on, next := 0, frame := if d.frm.leavesIssued then some d.frm.cur else none } d

/-- A write of SCHED_FLOW_CFG[f] (R124). -/
def flowCfgWrite (f : Nat) (v : W32) (d : Dev) : Dev :=
  let was := rb d (Reg.SCHED_FLOW_CFG f) 31
  let d := wr (Reg.SCHED_FLOW_CFG f) (v &&& 0xC00000FF) d
  if bit v 31 && !was then flowCapture f true d
  else if !bit v 31 && was then
    let d := flowDiscard f d
    setFlow f { flow d f with enabled := false, frame := none } d
  else d

/-- FLOW_ENABLE: a write of SCHED_FLOW_CFG[f] that sets EN. -/
def execFlowEnable (_req : Req) (f : Fin 4096) (v : W32) (s : State) : Host.Outcome State Fault Refusal :=
  onDev s fun k d => accessSealed (Reg.SCHED_FLOW_CFG f) (fun d => settle k (when (bit v 31) (flowCfgWrite f v) d)) d

/-- FLOW_DISABLE: a write of SCHED_FLOW_CFG[f] that clears EN. -/
def execFlowDisable (_req : Req) (f : Fin 4096) (v : W32) (s : State) : Host.Outcome State Fault Refusal :=
  onDev s fun k d => accessSealed (Reg.SCHED_FLOW_CFG f) (fun d => settle k (when (!bit v 31) (flowCfgWrite f v) d)) d

/-- SKIP (R124, R129): what is closed is released first. A FRAMED flow with no F has no position to close. (DESIGN CHOICE, log entry 97.) -/
def flowSkip (f : Nat) (d : Dev) : Dev :=
  let d := releaseAll f d
  let x := flow d f
  if x.enabled && (x.stream || x.frame.isSome) && x.next == rd d Reg.SCHED_FLOW_ARG then
    setFlow f { x with closed := x.closed ++ [{ frame := x.frame.getD 0, inst := x.next, recs := none }] } d
  else raiseRel 4 d

/-- RESET (R124): the flow captures afresh, and stays disabled if it was. -/
def flowReset (f : Nat) (d : Dev) : Dev := flowCapture f (flow d f).enabled d

/-- A write of SCHED_FLOW_CMD (R136). -/
def flowCmd (v : W32) (d : Dev) : Dev :=
  match fld v 28 2 with
  | 1 => flowSkip (fld v 0 12) d
  | 2 => flowReset (fld v 0 12) d
  | _ => d

/-- FLOW_SKIP. -/
def execFlowSkip (_req : Req) (f : Fin 4096) (s : State) : Host.Outcome State Fault Refusal :=
  onDev s fun k d => access Reg.SCHED_FLOW_CMD (fun d => settle k (flowSkip f d)) d

/-- FLOW_RESET. -/
def execFlowReset (_req : Req) (f : Fin 4096) (s : State) : Host.Outcome State Fault Refusal :=
  onDev s fun k d => access Reg.SCHED_FLOW_CMD (fun d => settle k (flowReset f d)) d

/-- The first frame leaves give F to the flows that wait for it (R124). -/
def flowsTakeFrame (d : Dev) : Dev :=
  forEach d.arr.flows (fun (f, x) d =>
    if x.enabled && !x.stream && x.frame.isNone then setFlow f { x with frame := some d.frm.cur } d else d) d

/-- SYS_ABORT of flow f: the closures of the members that it ends are discarded with the rest (R124). -/
def flowAbort (f : Nat) (d : Dev) : Dev :=
  let tombs := d.arr.tombs
  let d := forEach ((busySlots d).filter fun (_, b) => b.flow == some f) (fun (i, _) => killBrew i 0x16 0 0xFF) d
  let d := onArr (fun a => { a with tombs }) (flowDiscard f d)
  wrBit (Reg.SCHED_FLOW_CFG f) 31 false (setFlow f { flow d f with enabled := false, frame := none } d)

end Sys2Proof.Machine
end

