-- ==== Sys2Proof/Machine/Abort.lean ====
section
/-!
DEFINITION. SYS_ABORT (R331 to R333): one abort at a time, of one function instance.
-/

namespace Sys2Proof.Machine

/-- A transmit queue's FUNC and INSTANCE: port and ring (R331). -/
def abortTxq (legacy : Bool) (inst : Nat) : Option (Nat × Nat) :=
  let n := inst / 16
  let q := inst % 16
  if legacy then if n < 2 ∧ (q < 4 ∨ q = 8) then some (8 + n, q) else none
  else if n < 8 ∧ q ≤ 8 then some (n, q) else none

/-- A receive queue's FUNC and INSTANCE: port and ring (R331). -/
def abortRxq (legacy : Bool) (inst : Nat) : Option (Nat × Nat) :=
  if legacy then if inst < 16 then some (8 + inst / 8, inst % 8) else none
  else if inst < 64 then some (inst / 8, inst % 8) else none

/-- FUNC names a function and INSTANCE one of its instances, and the lifecycle lets the requester abort it (R331, R332). -/
def abortKnown (req : Req) (d : Dev) (func inst : Nat) : Bool :=
  match func with
  | 1 => (abortTxq false inst).isSome
  | 2 => (abortTxq true inst).isSome
  | 3 => (abortRxq false inst).isSome
  | 4 => (abortRxq true inst).isSome
  | 5 => decide (inst < 16)
  | 6 => decide (inst < 4)
  | 7 => decide (inst < 8)
  | 8 => decide (inst < 4096)
  | 9 => decide (inst < 2)
  | 10 => decide (inst < 4) && !(req == .host && d.scarab.lc == .deployed)
  | 11 => inst == 0
  | _ => false

/-- Transmit queue q is idle: it is disabled, and holds nothing it has read. -/
def txqIdle (d : Dev) (p q : Nat) : Bool :=
  let x := port d p
  let r := x.ring q
  !r.enabled && r.done.isEmpty && r.frames.isEmpty
    && (q != 8 || (x.staged.isEmpty && !x.cal.any (fun a => ofRing 8 a.frame) && !x.timed.any fun f => ofRing 8 f.frame))

/-- No packet of the packer kinds is offered, admitted or on the wire. -/
def packerIdle (d : Dev) (kinds : List Nat) : Bool :=
  let sel (f : TxFrame) : Bool := match f.origin with | .packer i _ _ => kinds.contains i | _ => false
  (List.range 8).all fun p =>
    !(port d p).offers.any sel && !(port d p).cal.any (fun a => sel a.frame) && !(port d p).timed.any fun f => sel f.frame

/-- Transmit queue q is disabled, or holds nothing that it has read. -/
def txqRests (d : Dev) (p q : Nat) : Bool :=
  let x := port d p
  let r := x.ring q
  !r.enabled || (r.done.isEmpty && r.frames.isEmpty && r.filling.isNone && !x.untimed.any (fun f => ofRing q f.frame)
    && (q != 8 || (x.staged.isEmpty && !x.cal.any (fun a => ofRing 8 a.frame) && !x.timed.any fun f => ofRing 8 f.frame)))

/-- Receive queue q is disabled, or no frame in reception goes to it. -/
def rxqRests (d : Dev) (p q : Nat) : Bool :=
  let x := port d p
  !(x.rxRing q).enabled || x.rx.all fun r => r.buffers.isEmpty || r.judged.all fun j => j.action != .ring q

/-- The instance is idle or disabled, whatever of it is left over: its abort completes at once (R332). -/
def abortRests (d : Dev) (func inst : Nat) : Bool :=
  match func with
  | 1 => (abortTxq false inst).all fun x => txqRests d x.1 x.2
  | 2 => (abortTxq true inst).all fun x => txqRests d x.1 x.2
  | 3 => (abortRxq false inst).all fun x => rxqRests d x.1 x.2
  | 4 => (abortRxq true inst).all fun x => rxqRests d x.1 x.2
  | 5 => !(dmaChan d inst).enabled || (dmaDesc d inst).isNone
  | 6 => !(head d inst).running
  | 7 => !(busySlots d).any (fun x => slotSwarm x.1 == inst) && (steepOf d inst).places == 0
  | 8 => !(flow d inst).enabled
      || (!(busySlots d).any (fun x => x.2.flow == some inst) && (flow d inst).out.isEmpty && (flow d inst).closed.isEmpty)
  | 9 =>
    if inst = 0 then !rb d Reg.PACK_CTL 0 || (packerIdle d [0, 1, 3] && d.pack.inbox.isEmpty && d.pack.univ.all fun x => !x.2.asm.begun)
    else packerIdle d [2] || (List.range 4).all fun h => !rb d (Reg.RHEAD_OUT_CTL h) 1
  | 10 => (runner d inst).isNone
  | _ => !d.pair.trained

/-- The instance is idle and disabled, with nothing left to stop (R332). -/
def abortIdle (d : Dev) (func inst : Nat) : Bool :=
  match func with
  | 1 => (abortTxq false inst).all fun x => txqIdle d x.1 x.2
  | 2 => (abortTxq true inst).all fun x => txqIdle d x.1 x.2
  | 3 => (abortRxq false inst).all fun x => !((port d x.1).rxRing x.2).enabled
  | 4 => (abortRxq true inst).all fun x => !((port d x.1).rxRing x.2).enabled
  | 5 => !(dmaChan d inst).enabled && (dmaChan d inst).flight.isNone
  | 6 => !(head d inst).running
  | 7 => !(busySlots d).any (fun x => slotSwarm x.1 == inst) && (steepOf d inst).places == 0
  | 8 => !(flow d inst).enabled && !(busySlots d).any fun x => x.2.flow == some inst
  | 9 =>
    if inst = 0 then !rb d Reg.PACK_CTL 0 && packerIdle d [0, 1, 3]
    else packerIdle d [2] && (List.range 4).all fun h => !rb d (Reg.RHEAD_OUT_CTL h) 1
  | 10 => (runner d inst).isNone
  | _ => !d.pair.trained

/-- What the owning chapter has an accepted abort do (R331). (DEDUCED, log entry 63.) -/
def abortEffect (func inst : Nat) (k : Clk) (d : Dev) : Dev :=
  match func with
  | 1 => match abortTxq false inst with | some (p, q) => txqAbort p q k d | none => d
  | 2 => match abortTxq true inst with | some (p, q) => txqAbort p q k d | none => d
  | 3 => match abortRxq false inst with | some (p, q) => rxqAbort p q d | none => d
  | 4 => match abortRxq true inst with | some (p, q) => rxqAbort p q d | none => d
  | 5 => dmaAbort inst d
  | 6 => headAbort inst k d
  | 7 => settle k (swarmAbort inst d)
  | 8 => settle k (flowAbort inst d)
  | 9 => if inst = 0 then sacnAbort k d else trazhAbort k d
  | 10 => weevilAbort inst k d
  | _ => cricketDrop d

/-- SYS_ABORT_STATUS (R333). -/
def abortStatus (busy : Bool) (result func inst : Nat) : W32 :=
  w32 (bnat busy * 2 ^ 31 + result * 2 ^ 29 + func * 2 ^ 24 + inst)

/-- An abort completes: RESULT, the time from its acceptance in nanoseconds, GO and BUSY cleared, ABORT_DONE (R332). -/
def abortComplete (result func inst : Nat) (ns : Option Nat) (d : Dev) : Dev :=
  let d := wr Reg.SYS_ABORT_STATUS (abortStatus false result func inst) { d with abort := none }
  let d := match ns with | some n => wr Reg.SYS_ABORT_TIME (w32 (min 0xFFFFFFFF n)) d | none => d
  raiseAbort 0 (wrBit Reg.SYS_ABORT 31 false d)

/-- A write of SYS_ABORT that the guard has passed (R331, R332). -/
def abortWrite (req : Req) (v : W32) (k : Clk) (d : Dev) : Dev :=
  let func := fld v 24 4
  let inst := fld v 0 16
  if !bit v 31 then putReg Reg.SYS_ABORT v d
  else if d.abort.isSome then raiseAbort 1 d
  else
    let d := putReg Reg.SYS_ABORT v d
    if !abortKnown req d func inst then abortComplete 2 func inst none d
    else if abortIdle d func inst then abortComplete 1 func inst (some 0) d
    else if abortRests d func inst then abortComplete 1 func inst (some 0) (abortEffect func inst k d)
    else
      abortEffect func inst k (wr Reg.SYS_ABORT_STATUS (abortStatus true 0 func inst)
        { d with abort := some { func, inst, tick := k.ticks } })

/-- The guarded write of SYS_ABORT with GO and a FUNC. (DEDUCED, log entry 63.) -/
def abortGo (func : Nat) (req : Req) (inst : W16) (s : State) : Host.Outcome State Fault Refusal :=
  let v := w32 (2 ^ 31 + func * 2 ^ 24 + inst.toNat)
  onDev s fun k => guardedSealed req k Reg.SYS_ABORT v (abortWrite req v k)

/-- SYS_ABORT_SPORT_TXQ. -/
def execSysAbortSportTxq (req : Req) (inst : W16) (s : State) : Host.Outcome State Fault Refusal := abortGo 1 req inst s
/-- SYS_ABORT_LPORT_TXQ. -/
def execSysAbortLportTxq (req : Req) (inst : W16) (s : State) : Host.Outcome State Fault Refusal := abortGo 2 req inst s
/-- SYS_ABORT_SPORT_RXQ. -/
def execSysAbortSportRxq (req : Req) (inst : W16) (s : State) : Host.Outcome State Fault Refusal := abortGo 3 req inst s
/-- SYS_ABORT_LPORT_RXQ. -/
def execSysAbortLportRxq (req : Req) (inst : W16) (s : State) : Host.Outcome State Fault Refusal := abortGo 4 req inst s
/-- SYS_ABORT_DMA. -/
def execSysAbortDma (req : Req) (inst : W16) (s : State) : Host.Outcome State Fault Refusal := abortGo 5 req inst s
/-- SYS_ABORT_HEAD. -/
def execSysAbortHead (req : Req) (inst : W16) (s : State) : Host.Outcome State Fault Refusal := abortGo 6 req inst s
/-- SYS_ABORT_SWARM. -/
def execSysAbortSwarm (req : Req) (inst : W16) (s : State) : Host.Outcome State Fault Refusal := abortGo 7 req inst s
/-- SYS_ABORT_FLOW. -/
def execSysAbortFlow (req : Req) (inst : W16) (s : State) : Host.Outcome State Fault Refusal := abortGo 8 req inst s
/-- SYS_ABORT_PACKER. -/
def execSysAbortPacker (req : Req) (inst : W16) (s : State) : Host.Outcome State Fault Refusal := abortGo 9 req inst s
/-- SYS_ABORT_WEEVIL. -/
def execSysAbortWeevil (req : Req) (inst : W16) (s : State) : Host.Outcome State Fault Refusal := abortGo 10 req inst s
/-- SYS_ABORT_CRICKET. -/
def execSysAbortCricket (req : Req) (inst : W16) (s : State) : Host.Outcome State Fault Refusal := abortGo 11 req inst s

/-- The running abort completes (R332). -/
def abortDone (k : Clk) (d : Dev) : Dev :=
  match d.abort with
  | some a => abortComplete 1 a.func a.inst (some (since k a.tick * 4 / 5)) d
  | none => d

/-- ABORT_DONE. -/
def execAbortDone (s : State) : Host.Outcome State Fault Refusal := onDev s abortDone

end Sys2Proof.Machine
end

