-- ==== Sys2Proof/Machine/Time.lean ====
section
/-!
DEFINITION. Timebase commands that touch the clock and its own units alone (R19 to R33, R42, R44). The tick is in Machine/Latch.lean;
steps, sets and the frame clock's commands, which reach every unit, are in Machine/Frame.lean.
-/

namespace Sys2Proof.Machine

/-- The increment lies within 0.8 ns ± 1,000 ppm (R23). -/
def incrOk (v : BitVec 56) : Bool :=
  decide (7992 * 2 ^ 48 ≤ v.toNat * 10000 ∧ v.toNat * 10000 ≤ 8008 * 2 ^ 48)

/-- Adopt an increment: the offset becomes the show time of this tick, the anchor this tick (R22). -/
def reanchor (v : BitVec 56) (k : Clk) : Clk :=
  { k with tb := { k.tb with offset := now k, anchor := k.ticks, incr := v } }

/-- A write of TB_INCR_HI commits the increment (R22, R23, R28, R29). -/
def incrCommit (req : Req) (v : W32) (k : Clk) (d : Dev) : Clk × Dev :=
  if csrShut d Reg.TB_INCR_HI then (k, d)
  else if foreign d req then (k, raiseTb 4 d)
  else
    let lo := (stagedLo d req Reg.TB_INCR_LO).getD (k.tb.incr.truncate 32)
    let incr : BitVec 56 := v.truncate 24 ++ lo
    let d := unstage req Reg.TB_INCR_LO d
    if incrOk incr then (reanchor incr k, d) else (k, raiseTb 2 d)

/-- TB_INCR_COMMIT. -/
def execTbIncrCommit (req : Req) (v : W32) (s : State) : Host.Outcome State Fault Refusal :=
  onClk s (incrCommit req v)

/-- A read of TB_NOW_SEC_LO captures show time and the tick count (R21). (DESIGN CHOICE, log entry 7.) -/
def nowRead (req : Req) (k : Clk) (d : Dev) : Dev :=
  accessRead Reg.TB_NOW_SEC_LO (fun d =>
    ret (lo32 (secOf (now k)))
      (snap req Reg.TB_NOW_SEC_HI (hi32 (secOf (now k)))
        (snap req Reg.TB_NOW_NS (nsOf (now k))
          (snap req Reg.TB_NOW_FRAC (fracOf (now k))
            (snap req Reg.TB_NOW_TICKS_LO (lo32 k.ticks) (snap req Reg.TB_NOW_TICKS_HI (hi32 k.ticks) d)))))) d

/-- TB_NOW_READ. -/
def execTbNowRead (req : Req) (s : State) : Host.Outcome State Fault Refusal := onDev s (nowRead req)

/-- A read of TB_SHORT_LO captures TB_SHORT_HI from the same tick (R21). -/
def shortRead (req : Req) (k : Clk) (d : Dev) : Dev :=
  accessRead Reg.TB_SHORT_LO (fun d =>
    ret (lo32 (shortOf (now k))) (snap req Reg.TB_SHORT_HI (hi32 (shortOf (now k))) d)) d

/-- TB_SHORT_READ. -/
def execTbShortRead (req : Req) (s : State) : Host.Outcome State Fault Refusal := onDev s (shortRead req)

/-- The time PLL loses lock: PLL_LOCK falls and PLL_UNLOCK is raised (R30, R43). -/
def pllUnlock (d : Dev) : Dev :=
  if d.pins.pllLock then raiseTb 6 { d with pins := { d.pins with pllLock := false } } else d

/-- The time PLL switches to the reference `ten` (true: REF10M_IN) and relocks (R30). -/
def switchRef (ten : Bool) (d : Dev) : Dev :=
  if d.pins.refActive == ten then d else pllUnlock { d with pins := { d.pins with refActive := ten } }

/-- REF10M_IN in use has no edge for 2 µs (R30). -/
def refLoss (d : Dev) : Dev :=
  if d.pins.refActive then raiseTb 5 (wrBit Reg.TB_CTL 2 false (switchRef false d)) else d

/-- REF_LOSS. -/
def execRefLoss (s : State) : Host.Outcome State Fault Refusal := onDev s fun _ => refLoss

/-- PLL_UNLOCK. -/
def execPllUnlock (s : State) : Host.Outcome State Fault Refusal := onDev s fun _ => pllUnlock

/-- PLL_RELOCK: PLL_LOCK rises again (R30). -/
def execPllRelock (s : State) : Host.Outcome State Fault Refusal :=
  onDev s fun _ d => { d with pins := { d.pins with pllLock := true } }

/-- The number of ticks that an input's edges must lie apart to be stamped: 8 ns (R406, R407). -/
def edgeGap : Nat := 10

/-- An edge follows a stamped one too closely (R407). (DESIGN CHOICE, log entry 81.) -/
def tooClose (k : Clk) (last : Option W64) : Bool :=
  match last with
  | none => false
  | some t => decide (since k t < edgeGap)

/-- A rising edge of PPS_IN is stamped, unless its pulse is narrower than 4 ns or it follows too closely (R31, R407). -/
def ppsEdge (narrow : Bool) (k : Clk) (d : Dev) : Dev :=
  if narrow || tooClose k d.pins.ppsLast then d
  else
    raiseTb 7 (wr64 Reg.TB_PPS_CAP_SEC_LO (secOf (now k)) (wr Reg.TB_PPS_CAP_NS (nsOf (now k))
      { d with pins := { d.pins with ppsLast := some k.ticks } }))

/-- PPS_IN_EDGE. -/
def execPpsInEdge (narrow : Bool) (s : State) : Host.Outcome State Fault Refusal := onDev s (ppsEdge narrow)

/-- No PPS_IN edge follows the previous one within 1.5 s (R31). -/
def ppsLost (k : Clk) (d : Dev) : Dev :=
  match d.pins.ppsLast with
  | some t =>
    if 1875000000 ≤ since k t then raiseTb 8 { d with pins := { d.pins with ppsLast := none } } else d
  | none => d

/-- PPS_IN_LOST. -/
def execPpsInLost (s : State) : Host.Outcome State Fault Refusal := onDev s ppsLost

/-- A read of TB_PPS_CAP_SEC_LO snapshots the other two capture registers (R31). -/
def ppsCapRead (req : Req) (d : Dev) : Dev :=
  accessRead Reg.TB_PPS_CAP_SEC_LO (fun d =>
    ret (rd d Reg.TB_PPS_CAP_SEC_LO)
      (snap req Reg.TB_PPS_CAP_SEC_HI (rd d Reg.TB_PPS_CAP_SEC_HI) (snap req Reg.TB_PPS_CAP_NS (rd d Reg.TB_PPS_CAP_NS) d))) d

/-- TB_PPS_CAP_READ. -/
def execTbPpsCapRead (req : Req) (s : State) : Host.Outcome State Fault Refusal := onDev s fun _ => ppsCapRead req

/-- The last whole second of show time (R31). -/
def wholeSecond (k : Clk) : Time := now k / sec1 * sec1

/-- PPS_OUT goes high at each whole second of show time, while it is enabled with a width and outputs are driven (R31, R43, R404). -/
def ppsRise (k : Clk) (d : Dev) : Dev :=
  if rb d Reg.TB_PPS_CTL 0 && rf d Reg.TB_PPS_CTL 16 10 != 0 && awake d && due k (wholeSecond k) then
    { d with pins := { d.pins with ppsOut := true, ppsRose := k.ticks } }
  else d

/-- PPS_OUT_RISE. -/
def execPpsOutRise (s : State) : Host.Outcome State Fault Refusal := onDev s ppsRise

/-- PPS_OUT falls when OUT_WIDTH milliseconds have passed, by the width as it stands then and whether or not OUT_EN is still 1; the span
is measured in ticks, so no step shortens it (R31). (DESIGN CHOICE, log entry 89.) -/
def ppsFall (k : Clk) (d : Dev) : Dev :=
  if d.pins.ppsOut
      && decide (min 999 (rf d Reg.TB_PPS_CTL 16 10) * 1000000 * 2 ^ 48 ≤ since k d.pins.ppsRose * k.tb.incr.toNat) then
    { d with pins := { d.pins with ppsOut := false } }
  else d

/-- PPS_OUT_FALL. -/
def execPpsOutFall (s : State) : Host.Outcome State Fault Refusal := onDev s ppsFall

/-- The capture queue of EVT_CAP[n]. -/
def evtCap (d : Dev) (n : Nat) : EvtCap := Tab.get {} d.pins.evtCap n

/-- Set the capture queue of EVT_CAP[n]. -/
def setEvtCap (n : Nat) (e : EvtCap) (d : Dev) : Dev :=
  { d with pins := { d.pins with evtCap := Tab.put {} d.pins.evtCap n e } }

/-- A stamp is dropped and counted (R32, R407). -/
def evtDrop (n : Nat) (d : Dev) : Dev := raiseTb 9 (bumpFld (Reg.TB_EVTCAP_STAT n) 16 16 1 d)

/-- An edge of EVT_CAP[n]: a selected one is stamped, or dropped when the queue of 16 is full or the edge follows a
stamped one within 8 ns (R32, R407). -/
def evtEdge (n : Nat) (rising narrow : Bool) (k : Clk) (d : Dev) : Dev :=
  if narrow || !rb d (Reg.TB_EVTCAP_CTL n) (if rising then 0 else 1) then d
  else
    let e := evtCap d n
    if tooClose k e.last || decide (16 ≤ e.queue.length) then evtDrop n d
    else setEvtCap n { queue := e.queue ++ [(now k, rising)], last := some k.ticks } d

/-- EVT_CAP_EDGE. -/
def execEvtCapEdge (n : Fin 4) (rising narrow : Bool) (s : State) : Host.Outcome State Fault Refusal :=
  onDev s (evtEdge n rising narrow)

/-- A read of TB_EVTCAP_SEC_LO[n] removes the oldest stamp, or reports EMPTY (R32). -/
def evtPop (req : Req) (n : Nat) (d : Dev) : Dev :=
  accessRead (Reg.TB_EVTCAP_SEC_LO n) (fun d =>
    match (evtCap d n).queue with
    | [] => ret 0 (snap req (Reg.TB_EVTCAP_SEC_HI n) 0 (snap req (Reg.TB_EVTCAP_NS n) 0x40000000 d))
    | (t, rising) :: r =>
      ret (lo32 (secOf t)) (snap req (Reg.TB_EVTCAP_SEC_HI n) (hi32 (secOf t))
        (snap req (Reg.TB_EVTCAP_NS n) (nsOf t ||| bitIf 31 rising) (setEvtCap n { evtCap d n with queue := r } d)))) d

/-- TB_EVTCAP_POP. -/
def execTbEvtcapPop (req : Req) (n : Fin 4) (s : State) : Host.Outcome State Fault Refusal := onDev s fun _ => evtPop req n

/-- Periodic output n. -/
def perOut (d : Dev) (n : Nat) : PerOut := Tab.get {} d.pins.perOut n

/-- Set periodic output n. -/
def setPerOut (n : Nat) (p : PerOut) (d : Dev) : Dev :=
  { d with pins := { d.pins with perOut := Tab.put {} d.pins.perOut n p } }

/-- The period of PER_OUT[n] in time mode; below 10 ns it acts as 10 ns (R33). -/
def perOutPeriod (d : Dev) (n : Nat) : Time :=
  (max 10 ((rd64 d (Reg.TB_PEROUT_PERIOD_LO n)).toNat % 2 ^ 48) : Nat) * ns1

/-- The active edge of PER_OUT[n] that falls due at this tick: its instant, the period, and the boundary it precedes in
frame mode with a negative offset (R33). START and PERIOD are read at every tick. (DESIGN CHOICE, log entry 89.) -/
def perOutEdge (n : Nat) (k : Clk) (d : Dev) : Option (Time × Time × Option Time) :=
  if !rb d (Reg.TB_PEROUT_CTL n) 0 then none
  else if !rb d (Reg.TB_PEROUT_CTL n) 1 then
    let start := timeOf (rd64 d (Reg.TB_PEROUT_START_SEC_LO n)) (rd d (Reg.TB_PEROUT_START_NS n))
    let x := start + (now k - start) / perOutPeriod d n * perOutPeriod d n
    if start ≤ now k ∧ due k x then some (x, perOutPeriod d n, none) else none
  else
    match d.frm.run with
    | none => none
    | some g =>
      let ofs := nsSigned (rd d (Reg.TB_PEROUT_FOFS n))
      if !running k d || d.frm.holding then none
      else if 0 ≤ ofs then
        (d.frm.emitted.find? fun b => due k (b + ofs)).map fun b => (b + ofs, g.period, none)
      else
        let i := g.firstFrom (now k - k.tb.incr.toNat - ofs + 1)
        if nextIndex d ≤ i ∧ due k (g.at i + ofs) ∧ !(perOut d n).served.contains (g.at i) then
          some (g.at i + ofs, g.period, some (g.at i))
        else none

/-- PER_OUT[n] becomes active, reading its width afresh: zero keeps it inactive, and one of at least the period keeps
it active (R33). Until start-up it stays inactive (R404). -/
def perOutActive (n : Nat) (k : Clk) (d : Dev) : Dev :=
  match (if awake d then perOutEdge n k d else none) with
  | none => d
  | some (x, period, b) =>
    let w := (rd d (Reg.TB_PEROUT_WIDTH n)).toNat * ns1
    let served := (perOut d n).served.filter (fun t => decide (d.frm.lastB < t)) ++ b.toList
    setPerOut n { active := decide (w ≠ 0), offAt := if w = 0 ∨ period ≤ w then none else some (x + w), served } d

/-- Show time has stepped back: edges that recur are produced again (R27). -/
def perOutRecur (d : Dev) : Dev := forEach (List.range 4) (fun n d => setPerOut n { perOut d n with served := [] } d) d

/-- PER_OUT_ACTIVE_EDGE. -/
def execPerOutActiveEdge (n : Fin 4) (s : State) : Host.Outcome State Fault Refusal := onDev s (perOutActive n)

/-- PER_OUT[n] returns to its inactive level when its width has passed (R33). An instant that a forward step passes over brings no return.
(DESIGN CHOICE, log entry 96.) -/
def perOutInactive (n : Nat) (k : Clk) (d : Dev) : Dev :=
  match (perOut d n).offAt with
  | some x => if due k x then setPerOut n { perOut d n with active := false, offAt := none } d else d
  | none => d

/-- PER_OUT_INACTIVE_EDGE. -/
def execPerOutInactiveEdge (n : Fin 4) (s : State) : Host.Outcome State Fault Refusal := onDev s (perOutInactive n)

/-- The level of PER_OUT[n] (R43: POL, EN): low from a reset to the start-up's first step, and after a trip (R404, R411). -/
def perOutLevel (d : Dev) (n : Nat) : Bool :=
  awake d && (rb d (Reg.TB_PEROUT_CTL n) 0 && (perOut d n).active) != rb d (Reg.TB_PEROUT_CTL n) 3

/-- Show time has passed the last boundary emitted again: the hold ends (R39, R40). -/
def holdEnd (k : Clk) (d : Dev) : Dev :=
  if d.frm.holding && decide (d.frm.lastB ≤ now k) then raiseFrm 1 { d with frm := { d.frm with holding := false } }
  else d

/-- HOLD_END. -/
def execHoldEnd (s : State) : Host.Outcome State Fault Refusal := onDev s holdEnd

/-- A read of FRM_NUMBER_LO snapshots FRM_NUMBER_HI and the FRM_LAST registers (R44). -/
def frmNumberRead (req : Req) (d : Dev) : Dev :=
  accessRead Reg.FRM_NUMBER_LO (fun d =>
    ret (lo32 d.frm.lastFrame)
      (snap req Reg.FRM_NUMBER_HI (hi32 d.frm.lastFrame)
        (snap req Reg.FRM_LAST_SEC_LO (lo32 (secOf d.frm.lastB))
          (snap req Reg.FRM_LAST_SEC_HI (hi32 (secOf d.frm.lastB))
            (snap req Reg.FRM_LAST_NS (nsOf d.frm.lastB) (snap req Reg.FRM_LAST_FRAC (fracOf d.frm.lastB) d)))))) d

/-- FRM_NUMBER_READ. -/
def execFrmNumberRead (req : Req) (s : State) : Host.Outcome State Fault Refusal := onDev s fun _ => frmNumberRead req

/-- FRM_HSYNC_PHASE for a stamp: the distance from the nearest boundary, within half a frame period either way, in
nanoseconds, rounded toward zero (R42). The phase is free where no boundary or no grid is there to measure from.
(DESIGN CHOICE, log entry 25; DESIGN CHOICE, log entry 89.) -/
def hsyncPhase (t : Time) (d : Dev) : W32 × Dev :=
  match d.frm.run with
  | some g =>
    if d.frm.everEmitted then
      let period : Int := g.den.toNat * sec1
      let r := (t - d.frm.lastB) * g.num.toNat % period
      let r := if period < 2 * r then r - period else r
      (BitVec.ofInt 32 (r.tdiv (g.num.toNat * ns1)), d)
    else ((free d).1.truncate 32, (free d).2)
  | none => ((free d).1.truncate 32, (free d).2)

/-- FRM_HSYNC_PERIOD for a stamp: the interval since the previous selected edge, the difference of their stamps in whole nanoseconds,
saturating at both ends (R42); free for the first edge. (DESIGN CHOICE, log entry 25; DESIGN CHOICE, log entry 89.) -/
def hsyncPeriod (t : Time) (d : Dev) : W32 × Dev :=
  match d.pins.hsyncLast with
  | some (p, _) => (w32 (min 0xFFFFFFFF ((t - p) / ns1).toNat), d)
  | none => ((free d).1.truncate 32, (free d).2)

/-- A selected edge of HOUSE_SYNC_IN is stamped and measured (R42, R407). -/
def hsyncEdge (rising narrow : Bool) (k : Clk) (d : Dev) : Dev :=
  if narrow || !rb d Reg.FRM_HSYNC_CTL 0 || rb d Reg.FRM_HSYNC_CTL 1 == rising
      || tooClose k (d.pins.hsyncLast.map (·.2)) then d
  else
    let a := hsyncPhase (now k) d
    let b := hsyncPeriod (now k) a.2
    let d := wr Reg.FRM_HSYNC_PERIOD b.1 (wr Reg.FRM_HSYNC_PHASE a.1 b.2)
    raiseFrm 6 { d with pins := { d.pins with hsyncLast := some (now k, k.ticks), hsyncSince := some k.ticks } }

/-- HOUSE_SYNC_EDGE. -/
def execHouseSyncEdge (rising narrow : Bool) (s : State) : Host.Outcome State Fault Refusal :=
  onDev s (hsyncEdge rising narrow)

/-- No house-sync edge arrives within 1 s (R42). -/
def hsyncLost (k : Clk) (d : Dev) : Dev :=
  match d.pins.hsyncSince with
  | some t =>
    if rb d Reg.FRM_HSYNC_CTL 0 && decide (1250000000 ≤ since k t) then
      raiseFrm 7 { d with pins := { d.pins with hsyncSince := none } }
    else d
  | none => d

/-- HSYNC_LOST. -/
def execHsyncLost (s : State) : Host.Outcome State Fault Refusal := onDev s hsyncLost

end Sys2Proof.Machine
end

