-- ==== Sys2Proof/Machine/Board.lean ====
section
/-!
DEFINITION. The board interfaces (R392) and the TAP (R341).
-/

namespace Sys2Proof.Machine

/-- An update of what is around the device. -/
def onSys (f : Sys → Sys) (d : Dev) : Dev := { d with sys := f d.sys }

/-! GPIO. -/

/-- The balls that the device drives: none once it has tripped (R392, R411). -/
def gpioDir (d : Dev) : W32 := if d.sys.tripped then 0 else rd d Reg.GPIO_DIR

/-- The level at each ball: an output's own, an input's as the board drives it. -/
def gpioLevel (d : Dev) : W32 :=
  let dir := gpioDir d
  rd d Reg.GPIO_OUT &&& dir ||| d.sys.gpioIn.setWidth 32 &&& ~~~ dir &&& 0xFFFF

/-- A GPIO_EVENT bit is set and enabled. -/
def gpioEvent (d : Dev) : Bool := rd d Reg.GPIO_EVENT &&& rd d Reg.GPIO_EVENT_EN != 0

/-- An update that may change a ball's level, with the edges that GPIO_EDGE selects. The board's event is raised at each selected edge of
an enabled ball (R308), and when the update brings an enabled bit that stands. -/
def gpioWatch (f : Dev → Dev) (d : Dev) : Dev :=
  let before := gpioLevel d
  let was := gpioEvent d
  let d := f d
  let after := gpioLevel d
  let edge := rd d Reg.GPIO_EDGE
  let hits := (after &&& ~~~ before &&& edge >>> 16 ||| before &&& ~~~ after &&& edge) &&& 0xFFFF
  let d := wr Reg.GPIO_EVENT (rd d Reg.GPIO_EVENT ||| hits) d
  when ((!was && gpioEvent d) || hits &&& rd d Reg.GPIO_EVENT_EN != 0) (raiseBoard 0) d

/-- GPIO_EDGE: the board drives ball i high or low. -/
def execGpioEdge (i : Fin 16) (rising : Bool) (s : State) : Host.Outcome State Fault Refusal :=
  onDev s fun _ => gpioWatch (onSys fun x => { x with gpioIn := setBit x.gpioIn i rising })

/-! I2C. -/

/-- Set the transfer of controller c. -/
def setI2c (c : Nat) (x : Option I2cRun) : Dev → Dev := onSys fun y => { y with i2c := Tab.put none y.i2c c x }

/-- The 32-byte buffer of controller c. -/
def i2cBuf (d : Dev) (c : Nat) : List W8 := regBytes d (Reg.I2C_BUF c) 8

/-- A write of I2C_XFER[c]. A GO while BUSY reads 1, or while EN is 0, is discarded, and one of a device that has tripped (R411).
(DEDUCED, log entry 78; DESIGN CHOICE, log entry 81.) -/
def i2cXferWrite (c : Nat) (v : W32) (d : Dev) : Dev :=
  let busy := (Tab.get none d.sys.i2c c).isSome
  let go := bit v 0 && !busy && rb d (Reg.I2C_CTL c) 31 && !d.sys.tripped
  let d := wr (Reg.I2C_XFER c) ((v &&& 0x7F3F3F00) ||| bitIf 0 (busy || go)) d
  if go then
    wr (Reg.I2C_STATUS c) 1
      (setI2c c (some { addr := fld v 24 7, out := (i2cBuf d c).take (min 32 (fld v 16 6)), rlen := min 32 (fld v 8 6) }) d)
  else d

/-- I2C_GO: a write of I2C_XFER[c] that sets GO. -/
def execI2cGo (_req : Req) (c : Fin 2) (v : W32) (s : State) : Host.Outcome State Fault Refusal :=
  onDev s fun _ => access (Reg.I2C_XFER c) (when (bit v 0) (i2cXferWrite c v))

/-- The transfer of controller c ends. -/
def i2cEnd (c : Nat) (outcome : I2cEnd) (data : List W8) (d : Dev) : Dev :=
  match Tab.get none d.sys.i2c c with
  | none => d
  | some x =>
    let d := setI2c c none d
    let d := when (outcome == .done) (putRegBytes (Reg.I2C_BUF c) 8 (splice (i2cBuf d c) 0 (data.take x.rlen))) d
    let status : W32 := match outcome with | .done => 0 | .nack => 4 | .arbLost => 2
    raiseBoard (1 + c) (wrBit (Reg.I2C_XFER c) 0 false (wr (Reg.I2C_STATUS c) status d))

/-- I2C_DONE: the transfer ends normally with the bytes read, with a NACK, or with lost arbitration. -/
def execI2cDone (c : Fin 2) (outcome : I2cEnd) (data : List W8) (s : State) : Host.Outcome State Fault Refusal :=
  onDev s fun _ => i2cEnd c outcome data

/-- I2C_STRETCH_TIMEOUT: a clock stretch longer than 10 ms ends as a NACK. -/
def execI2cStretchTimeout (c : Fin 2) (s : State) : Host.Outcome State Fault Refusal := onDev s fun _ => i2cEnd c .nack []

/-- I2C_ALERT. -/
def execI2cAlert (s : State) : Host.Outcome State Fault Refusal := onDev s fun _ => raiseBoard 7

/-! SPI. -/

/-- LEN of an SPI_OP. -/
def spiLen (op : W32) : Nat := min 4096 (fld op 0 13)

/-- SPI_CMD.GO. The manual does not say what an uncorrectable word sends to the flash: those bytes are free. A device that has tripped sends
nothing (R411). (DESIGN CHOICE, log entry 81.) -/
def spiGo (d : Dev) : Dev :=
  let op := rd d Reg.SPI_OP
  let mem := (rd64 d Reg.SPI_MEM_LO).toNat
  if rb d Reg.SPI_STATUS 2 || d.sys.spi.isSome || d.sys.tripped then d
  else if !(spiLen op == 0 || inShared d mem (spiLen op)) then raiseBoard 4 (wr Reg.SPI_STATUS 2 d)
  else
    let x := if !bit op 15 then ([], d) else match load mem (spiLen op) d with | (some bs, d) => (bs, d) | (none, d) => freeBytes (spiLen op) d
    wrBit Reg.SPI_CMD 0 true (wr Reg.SPI_STATUS 1
      (onSys (fun y => { y with spi := some { op, addr := rd d Reg.SPI_ADDR, mem, out := x.1 } }) x.2))

/-- SPI_GO. -/
def execSpiGo (_req : Req) (s : State) : Host.Outcome State Fault Refusal := onDev s fun _ => access Reg.SPI_CMD spiGo

/-- The transfer ends; a read's data enters memory. -/
def spiDone (data : List W8) (d : Dev) : Dev :=
  match d.sys.spi with
  | none => d
  | some x =>
    let d := onSys (fun y => { y with spi := none }) d
    let d := when (!bit x.op 15) (store x.mem (data.take (spiLen x.op))) d
    raiseBoard 4 (wrBit Reg.SPI_CMD 0 false (wr Reg.SPI_STATUS (rd d Reg.SPI_STATUS &&& 4) d))

/-- SPI_DONE: `data` is what the flash answered. -/
def execSpiDone (data : List W8) (s : State) : Host.Outcome State Fault Refusal := onDev s fun _ => spiDone data

/-! UART. -/

/-- Bytes a UART queue holds. -/
def uartSize : Nat := 64

/-- A write of UART_TX. -/
def uartTxWrite (v : W32) (d : Dev) : Dev :=
  if uartSize ≤ d.sys.uartTx.length then d else onSys (fun x => { x with uartTx := x.uartTx ++ [v.truncate 8] }) d

/-- UART_TX_WRITE. -/
def execUartTxWrite (_req : Req) (v : W32) (s : State) : Host.Outcome State Fault Refusal :=
  onDev s fun _ => access Reg.UART_TX (uartTxWrite v)

/-- UART_TX_BYTE: the oldest byte has been sent; a device that has tripped sends none (R411). -/
def execUartTxByte (s : State) : Host.Outcome State Fault Refusal :=
  onDev s fun _ d => if d.sys.tripped then d else onSys (fun x => { x with uartTx := x.uartTx.drop 1 }) d

/-- UART_RX_BYTE: a byte arrives; one that is dropped has arrived too, so UART_RX is raised beside UART_DROP. -/
def execUartRxByte (b : W8) (s : State) : Host.Outcome State Fault Refusal :=
  onDev s fun _ d =>
    if uartSize ≤ d.sys.uartRx.length then raiseBoard 6 (raiseBoard 5 (bumpFld Reg.UART_STAT 24 8 1 d))
    else raiseBoard 6 (onSys (fun x => { x with uartRx := x.uartRx ++ [b] }) d)

/-- A read of UART_RX. -/
def uartPop (d : Dev) : Dev :=
  accessRead Reg.UART_RX (fun d =>
    match d.sys.uartRx with
    | [] => ret 0x80000000 d
    | b :: r => ret (b.setWidth 32) (onSys (fun x => { x with uartRx := r }) d)) d

/-- UART_RX_POP. -/
def execUartRxPop (_req : Req) (s : State) : Host.Outcome State Fault Refusal := onDev s fun _ => uartPop

/-! MDIO. -/

/-- A write of MDIO_CMD[n]. A GO while BUSY reads 1, or while EN is 0, is discarded, and one of a device that has tripped (R411).
(DEDUCED, log entry 78; DESIGN CHOICE, log entry 81.) -/
def mdioCmdWrite (n : Nat) (v : W32) (d : Dev) : Dev :=
  let busy := (Tab.get none d.sys.mdio n).isSome
  let go := bit v 31 && !busy && rb d (Reg.MDIO_CTL n) 31 && !d.sys.tripped
  let d := wr (Reg.MDIO_CMD n) ((v &&& 0x73FFFFFF) ||| bitIf 31 (busy || go)) d
  if go then wrBit (Reg.MDIO_STATUS n) 31 true (onSys (fun x => { x with mdio := Tab.put none x.mdio n (some v) }) d) else d

/-- MDIO_GO: a write of MDIO_CMD[n] that sets GO. -/
def execMdioGo (_req : Req) (n : Fin 2) (v : W32) (s : State) : Host.Outcome State Fault Refusal :=
  onDev s fun _ => access (Reg.MDIO_CMD n) (when (bit v 31) (mdioCmdWrite n v))

/-- A frame that reads data. -/
def mdioReads (v : W32) : Bool := if bit v 30 then decide (2 ≤ fld v 28 2) else fld v 28 2 == 2

/-- MDIO_DONE: the frame completes; `data` is what the target answered to a read. -/
def execMdioDone (n : Fin 2) (data : W16) (s : State) : Host.Outcome State Fault Refusal :=
  onDev s fun _ d =>
    match Tab.get none d.sys.mdio n with
    | none => d
    | some v =>
      let d := onSys (fun x => { x with mdio := Tab.put none x.mdio n none }) d
      let last := rd d (Reg.MDIO_STATUS n) &&& 0xFFFF
      raiseBoard 3 (wrBit (Reg.MDIO_CMD n) 31 false
        (wr (Reg.MDIO_STATUS n) (if mdioReads v then data.setWidth 32 else last) d))

/-! The TAP. -/

/-- What an instruction in the TAP is decoded as: DEPLOYED decodes those that drive balls as BYPASS (R340, R359). -/
def tapDecode (lc : Lifecycle) (i : TapInstr) : TapInstr :=
  match i with
  | .bypass => .bypass
  | .idcode => .idcode
  | .sample => .sample
  | i => if lc = .deployed then .bypass else i

/-- The instruction in force at any moment: the lifecycle state of that moment decodes it (R340); in Test-Logic-Reset it is IDCODE.
(PRESUMED, log entry 95.) -/
def tapNow (d : Dev) : TapInstr := if d.sys.tapHeld then tapDecode d.scarab.lc d.sys.tap else .idcode

/-- IDCODE (R341): version 0x1, part number 0x9710, and the BSDL file's manufacturer field. -/
def tapIdcode : W32 := 0x19710000 ||| Config.idcodeLow.setWidth 32

/-- The register that an instruction selects, as a data scan captures it: the boundary register's cells sample the balls, which the board
drives too, so their values are free. (DESIGN CHOICE, log entry 95.) -/
def tapCapture (d : Dev) : List Bool × Dev :=
  match tapNow d with
  | .bypass => ([false], d)
  | .clamp => ([false], d)
  | .highz => ([false], d)
  | .idcode => ((List.range 32).map fun i => bit tapIdcode i, d)
  | _ => ((List.range Config.boundaryLength).map fun i => bit (Config.freeValue (d.freeIdx + i)) 0, { d with freeIdx := d.freeIdx + Config.boundaryLength })

/-- The instruction selects the boundary register. -/
def tapBoundary : TapInstr → Bool
  | .sample => true
  | .extest => true
  | .extestPulse => true
  | .extestTrain => true
  | _ => false

/-- A data scan: the captured register and then the bits shifted in leave at TDO, and a boundary register keeps what it ends with (R341). -/
def tapScan (bits : List Bool) (d : Dev) : Dev :=
  let x := tapCapture d
  let all := x.1 ++ bits
  onSys (fun s => { s with tdo := all.take bits.length, boundary := if tapBoundary (tapNow d) then all.drop bits.length else s.boundary }) x.2

/-- An external controller shifts an instruction in, and then the bits of a data scan, if there is one. -/
def tapShift (i : TapInstr) (held : Bool) (scan : Option (List Bool)) (d : Dev) : Dev :=
  let d := onSys (fun x => { x with tap := i, tapHeld := held }) d
  match scan with
  | some bits => tapScan bits d
  | none => d

/-- TAP_INSTRUCTION; `held`: the controller holds the TAP outside Test-Logic-Reset. -/
def execTapInstruction (ins : TapInstr × Option (List Bool)) (held : Bool) (s : State) : Host.Outcome State Fault Refusal :=
  onDev s fun _ => tapShift ins.1 held ins.2

end Sys2Proof.Machine
end

