-- ==== Sys2Proof/Machine/Operands.lean ====
section
/-!
DEFINITION. The operand forms of the instruction set: instruction fields (R55, R56), the registers of brews and control
cores (R45, R46, R82), and the memory spaces of both (R49 to R51, R83).
-/

namespace Sys2Proof.Machine

/-! Fields (R55). -/

/-- OP. -/
def opOf (w : W32) : Nat := fld w 26 6
/-- D, or V of format M, or A of format B. -/
def dOf (w : W32) : Nat := fld w 21 5
/-- A, or BASE of format M, or B of format B. -/
def aOf (w : W32) : Nat := fld w 16 5
/-- B, or IDX of format M. -/
def bOf (w : W32) : Nat := fld w 11 5
/-- P. -/
def pOf (w : W32) : Nat := fld w 8 3
/-- FUNC. -/
def funcOf (w : W32) : Nat := fld w 0 8
/-- IMM, or DISP of format B. -/
def immOf (w : W32) : Nat := fld w 0 16

/-- CLASS of a prefix. -/
def preClass (p : W32) : Nat := fld p 22 4

/-- Whether a word is a prefix. -/
def isPrefix (w : W32) : Bool := opOf w == 0x3F

/-- Length in bytes of an instruction with a prefix or without (R56). -/
def instrLen (pre : Option W32) : W64 := if pre.isSome then 8 else 4

/-- The immediate of the I and B formats: its width and its value (R56, R60). -/
def immediate (pre : Option W32) (w : W32) : Nat × Nat :=
  match pre with
  | some p => (38, fld p 0 22 * 2 ^ 16 + immOf w)
  | none => (16, immOf w)

/-- The sign-extended immediate. -/
def immSx (pre : Option W32) (w : W32) : W64 := sx (immediate pre w).1 (immediate pre w).2

/-- The fields D, A, B and P of a MISC instruction that it does not use are zero (R61). -/
def miscOk (w : W32) (useD useA : Bool) : Bool :=
  pOf w == 0 && bOf w == 0 && (useD || dOf w == 0) && (useA || aOf w == 0)

/-! Registers of a brew (R45, R46). -/

/-- g[n]; g0 reads zero. -/
def Brew.gReg (b : Brew) (n : Nat) : W64 := if n = 0 then 0 else Tab.get 0 b.g n
/-- v[n]. -/
def Brew.vReg (b : Brew) (n : Nat) : W512 := Tab.get 0 b.v n
/-- p[n]; p0 reads all ones. -/
def Brew.pReg (b : Brew) (n : Nat) : W32 := if n = 0 then 0xFFFFFFFF else Tab.get 0 b.p n
/-- l[n]. -/
def Brew.lReg (b : Brew) (n : Nat) : W64 := Tab.get 0 b.l n
/-- Write g[n]; a write of g0 is discarded. -/
def Brew.setG (n : Nat) (x : W64) (b : Brew) : Brew := if n = 0 then b else { b with g := Tab.put 0 b.g n x }
/-- Write v[n]. -/
def Brew.setV (n : Nat) (x : W512) (b : Brew) : Brew := { b with v := Tab.put 0 b.v n x }
/-- Write p[n]; a write of p0 is discarded. -/
def Brew.setP (n : Nat) (x : W32) (b : Brew) : Brew := if n = 0 then b else { b with p := Tab.put 0 b.p n x }
/-- Set flags (R76). -/
def Brew.raiseFl (x : W32) (b : Brew) : Brew := { b with fl := b.fl ||| x }

/-! Registers of a control core (R82). -/

/-- Control core c. -/
def coreAt (d : Dev) (c : Nat) : Core := Tab.get {} d.cores c
/-- Set control core c. -/
def setCore (c : Nat) (x : Core) (d : Dev) : Dev := { d with cores := Tab.put {} d.cores c x }
/-- g[n] of a core; g0 reads zero. -/
def Core.gReg (x : Core) (n : Nat) : W64 := if n = 0 then 0 else Tab.get 0 x.g n
/-- Write g[n] of a core; a write of g0 is discarded. -/
def Core.setG (n : Nat) (v : W64) (x : Core) : Core := if n = 0 then x else { x with g := Tab.put 0 x.g n v }

/-! Memory spaces (R49, R83). A private space lies above the 48-bit addresses in the model's memory. -/

/-- The place of slot i's cup window. -/
def cupPlace (i : Nat) : Nat := 2 ^ 48 * (1 + i)
/-- The place of swarm s's pot. -/
def potPlace (s : Nat) : Nat := 2 ^ 48 * 2000 + s * 2 ^ 32
/-- The place of core c's private SRAM. -/
def privPlace (c : Nat) : Nat := 2 ^ 48 * 3000 + c * 2 ^ 32
/-- The place of the shared control SRAM. -/
def ctlPlace : Nat := 2 ^ 48 * 4000

/-- First address of the pot. -/
def potBase : Nat := 0x1000000
/-- Size of the pot. -/
def potSize : Nat := 0x400000

/-- Where n bytes at an address of a brew in slot i lie; none: no space holds them all (R49). -/
def brewPlaceOf (d : Dev) (i a n : Nat) : Option Nat :=
  if a + n ≤ 0x8000 then some (cupPlace i + a)
  else if potBase ≤ a ∧ a + n ≤ potBase + potSize then some (potPlace (slotSwarm i) + (a - potBase))
  else if inShared d a n then some a
  else none

/-- First address of the CSR space of a control core (R83). -/
def csrBase : Nat := 0x10000000

/-- The bytes lie in the CSR space. -/
def inCsr (a n : Nat) : Bool := decide (csrBase ≤ a ∧ a + n ≤ csrBase + 0x1000000)

/-- Where n bytes at an address of core c lie, CSR space apart (R83). -/
def corePlaceOf (d : Dev) (c a n : Nat) : Option Nat :=
  if a + n ≤ 0x20000 then some (privPlace c + a)
  else if 0x2000000 ≤ a ∧ a + n ≤ 0x2200000 then some (ctlPlace + (a - 0x2000000))
  else if inShared d a n then some a
  else none

/-- Read spans of memory as one access: the first uncorrectable word's address, if any, and what the errors bring
(R159). -/
def readSpans (spans : List (Nat × Nat)) (d : Dev) : Option Nat × Dev :=
  let words := (spans.flatMap fun (a, n) => wordsOf a n).dedup
  ((words.find? fun w => errOf d w == .multi).map (· * 8), forEach words touchRead d)

end Sys2Proof.Machine
end

