-- ==== Sys2Proof/Machine/Float.lean ====
section
/-!
DEFINITION. FP16 and FP32 arithmetic (R68, R71, R77): exact integers and quotients, rounded once. Flags are a word in the
layout of fl (R76).
-/

namespace Sys2Proof.Machine

/-! Flags of fl (R76). -/

/-- NX. -/
def flNX : W32 := 1
/-- UF. -/
def flUF : W32 := 2
/-- OF. -/
def flOF : W32 := 4
/-- DZ. -/
def flDZ : W32 := 8
/-- NV. -/
def flNV : W32 := 16
/-- SAT. -/
def flSAT : W32 := 32

/-- A binary format: bits of the exponent and of the fraction. -/
structure FpFmt where
  eb : Nat
  mb : Nat

/-- binary16. -/
def fp16 : FpFmt := ⟨5, 10⟩
/-- binary32. -/
def fp32 : FpFmt := ⟨8, 23⟩
/-- Width in bits. -/
def FpFmt.width (f : FpFmt) : Nat := 1 + f.eb + f.mb
/-- The exponent bias. -/
def FpFmt.bias (f : FpFmt) : Int := 2 ^ (f.eb - 1) - 1
/-- The exponent of the unit of a subnormal. -/
def FpFmt.emin (f : FpFmt) : Int := 1 - f.bias - f.mb
/-- Subnormals are flushed: FP32 (R68). -/
def FpFmt.flush (f : FpFmt) : Bool := f.mb == 23
/-- The quiet NaN (R68). -/
def FpFmt.qnan (f : FpFmt) : Nat := (2 ^ f.eb - 1) * 2 ^ f.mb + 2 ^ (f.mb - 1)
/-- Infinity with a sign. -/
def FpFmt.inf (f : FpFmt) (s : Bool) : Nat := bnat s * 2 ^ (f.eb + f.mb) + (2 ^ f.eb - 1) * 2 ^ f.mb
/-- Zero with a sign. -/
def FpFmt.zero (f : FpFmt) (s : Bool) : Nat := bnat s * 2 ^ (f.eb + f.mb)
/-- The largest finite value with a sign. -/
def FpFmt.max (f : FpFmt) (s : Bool) : Nat := f.inf s - 1

/-- The value of a bit pattern: a NaN, quiet or signalling, an infinity, or (-1)^s × m × 2^e. -/
inductive Fp where
  | nan (signalling : Bool)
  | inf (s : Bool)
  | fin (s : Bool) (m : Nat) (e : Int)
  deriving DecidableEq, Repr

/-- The value of a bit pattern; FP32 subnormals read as zero (R68). -/
def unpack (f : FpFmt) (x : Nat) : Fp :=
  let s := x / 2 ^ (f.eb + f.mb) % 2 == 1
  let e := x / 2 ^ f.mb % 2 ^ f.eb
  let m := x % 2 ^ f.mb
  if e = 2 ^ f.eb - 1 then (if m = 0 then .inf s else .nan (decide (m < 2 ^ (f.mb - 1))))
  else if e = 0 then (if f.flush then .fin s 0 f.emin else .fin s m f.emin)
  else .fin s (2 ^ f.mb + m) (f.emin + (e - 1 : Nat))

/-- Whether a magnitude is rounded up: `lsb` its last kept bit, the discarded part compared with a half (R68). -/
def roundsUp (rnd : Nat) (s lsb : Bool) (half : Ordering) (exact : Bool) : Bool :=
  match rnd with
  | 0 => half == .gt || (half == .eq && lsb)
  | 1 => false
  | 2 => s && !exact
  | _ => !s && !exact

/-- n / d rounded to an integer in a mode, and whether it was exact. -/
def roundQuot (rnd : Nat) (s : Bool) (n d : Nat) : Nat × Bool :=
  let q := n / d
  let r := n % d
  (q + bnat (roundsUp rnd s (q % 2 == 1) (compare (2 * r) d) (r == 0)), r == 0)

/-- The floor of the binary logarithm of n / d, for n, d > 0. -/
def log2Quot (n d : Nat) : Int :=
  let k : Int := (Nat.log2 n : Int) - Nat.log2 d
  let below := if 0 ≤ k then decide (n < d * 2 ^ k.toNat) else decide (n * 2 ^ (-k).toNat < d)
  if below then k - 1 else k

/-- n / d × 2^e as a quotient in units of 2^q. -/
def inUnits (n d : Nat) (e q : Int) : Nat × Nat :=
  if q ≤ e then (n * 2 ^ (e - q).toNat, d) else (n, d * 2 ^ (q - e).toNat)

/-- The rounded result (-1)^s × n / d × 2^e, with its flags (R68). (DESIGN CHOICE, log entry 32.) -/
def packRound (f : FpFmt) (rnd : Nat) (s : Bool) (n d : Nat) (e : Int) : Nat × W32 :=
  if n = 0 then (f.zero s, 0)
  else
    let top := log2Quot n d + e
    let q := max (top - f.mb) f.emin
    let u := inUnits n d e q
    let r := roundQuot rnd s u.1 u.2
    let minNormal : Int := f.emin + f.mb
    -- tiny after rounding: rounded as if the exponent range had no lower bound, still below the smallest normal
    let free := roundQuot rnd s (inUnits n d e (top - f.mb)).1 (inUnits n d e (top - f.mb)).2
    let tiny := if Config.tinyBefore then decide (top < minNormal)
      else decide (top < minNormal) && !(free.1 == 2 ^ (f.mb + 1) && decide (top + 1 = minNormal))
    let m := r.1
    if m < 2 ^ f.mb then
      -- subnormal or zero
      if f.flush && m != 0 then (f.zero s, flUF ||| flNX)
      else (f.zero s + m, if r.2 then 0 else flNX ||| flUF)
    else
      let carry := m == 2 ^ (f.mb + 1)
      let q := if carry then q + 1 else q
      let m := if carry then 2 ^ f.mb else m
      let be := (q - f.emin).toNat + 1
      if 2 ^ f.eb - 1 ≤ be then
        (if rnd = 0 ∨ (rnd = 2 ∧ s) ∨ (rnd = 3 ∧ !s) then f.inf s else f.max s, flOF ||| flNX)
      else
        (f.zero s + be * 2 ^ f.mb + (m - 2 ^ f.mb), if r.2 then 0 else if tiny then flNX ||| flUF else flNX)

/-- The signed value of a finite number in units of 2^e0, for e0 at most its exponent. -/
def finInt (s : Bool) (m : Nat) (e e0 : Int) : Int := (if s then -1 else 1) * (m * 2 ^ (e - e0).toNat : Nat)

/-- The NaN result of operands of which one is a NaN (R68, R77). -/
def nanOf (f : FpFmt) (l : List Fp) : Nat × W32 :=
  (f.qnan, if l.any fun x => x == .nan true then flNV else 0)

/-- Whether a value is a NaN. -/
def Fp.isNan : Fp → Bool
  | .nan _ => true
  | _ => false

/-- The sum of two finite numbers or infinities. -/
def addFp (f : FpFmt) (rnd : Nat) (a b : Fp) : Nat × W32 :=
  match a, b with
  | .inf s, .inf t => if s == t then (f.inf s, 0) else (f.qnan, flNV)
  | .inf s, .fin .. => (f.inf s, 0)
  | .fin .., .inf t => (f.inf t, 0)
  | .fin s m e, .fin t n g =>
    let e0 := min e g
    let v := finInt s m e e0 + finInt t n g e0
    if v = 0 then
      (f.zero (if m = 0 ∧ n = 0 ∧ s = t then s else rnd == 2), 0)
    else packRound f rnd (decide (v < 0)) v.natAbs 1 e0
  | x, y => nanOf f [x, y]

/-- A product, exact. -/
def mulExact (a b : Fp) : Fp :=
  match a, b with
  | .fin s m e, .fin t n g => .fin (s != t) (m * n) (e + g)
  | .inf s, .inf t => .inf (s != t)
  | .inf s, .fin t n _ => if n = 0 then .nan true else .inf (s != t)
  | .fin s m _, .inf t => if m = 0 then .nan true else .inf (s != t)
  | _, _ => .nan false

/-- The other sign. -/
def Fp.neg : Fp → Fp
  | .inf s => .inf (!s)
  | .fin s m e => .fin (!s) m e
  | x => x

/-- MUL (R68). -/
def mulFp (f : FpFmt) (rnd : Nat) (a b : Fp) : Nat × W32 :=
  if a.isNan || b.isNan then nanOf f [a, b]
  else
    match mulExact a b with
    | .nan _ => (f.qnan, flNV)
    | .inf s => (f.inf s, 0)
    | .fin s m e => packRound f rnd s m 1 e

/-- a × b + c, rounded once (R68). -/
def fmaFp (f : FpFmt) (rnd : Nat) (a b c : Fp) : Nat × W32 :=
  if a.isNan || b.isNan || c.isNan then nanOf f [a, b, c]
  else
    match mulExact a b with
    | .nan _ => (f.qnan, flNV)
    | p => addFp f rnd p c

/-- A value as a bit pattern, for an operation that returns one of its operands. -/
def repack (f : FpFmt) : Fp → Nat
  | .nan _ => f.qnan
  | .inf s => f.inf s
  | .fin s m e => (packRound f 0 s m 1 e).1

/-- a < b, with -0 below +0 when `zeros` (R68); false for a NaN. -/
def lessFp (zeros : Bool) (a b : Fp) : Bool :=
  match a, b with
  | .nan _, _ => false
  | _, .nan _ => false
  | .inf s, .inf t => s && !t
  | .inf s, .fin .. => s
  | .fin .., .inf t => !t
  | .fin s m e, .fin t n g =>
    if m = 0 ∧ n = 0 then zeros && s && !t
    else decide (finInt s m e (min e g) < finInt t n g (min e g))

/-- MIN or MAX (R68). -/
def minMaxFp (f : FpFmt) (max : Bool) (a b : Fp) : Nat × W32 :=
  let nv := if a == .nan true || b == .nan true then flNV else 0
  match a, b with
  | .nan _, .nan _ => (f.qnan, nv)
  | .nan _, y => (repack f y, nv)
  | x, .nan _ => (repack f x, nv)
  | x, y => (repack f (if lessFp true x y != max then x else y), 0)

/-- The integer square root of n, by bits from 2^k down. -/
def isqrtFrom : Nat → Nat → Nat → Nat
  | 0, n, r => if (r + 1) * (r + 1) ≤ n then r + 1 else r
  | k + 1, n, r =>
    let t := r + 2 ^ (k + 1)
    isqrtFrom k n (if t * t ≤ n then t else r)

/-- The integer square root of n < 2^(2 × bits). -/
def isqrt (bits n : Nat) : Nat := isqrtFrom bits n 0

/-- The square root of m × 2^e to 100 bits and more, below it by less than a unit: root, exponent, whether it is exact.
No rounding boundary of the root or of its reciprocal lies that close to it. -/
def sqrtApprox (m : Nat) (e : Int) : Nat × Int × Bool :=
  let e1 := e - 200 - (e % 2)
  let n := m * 2 ^ (e - e1).toNat
  let r := isqrt 120 n
  (r, e1 / 2, r * r == n)

/-- RCP, RSQ and SQRT by their FUNC (R68, R77). A root that is not exact is rounded from its next bits with one below. -/
def rootFp (f : FpFmt) (rnd func : Nat) (a : Fp) : Nat × W32 :=
  match a with
  | .nan s => nanOf f [.nan s]
  | .inf s =>
    if func = 0x09 then (f.zero s, 0)
    else if s then (f.qnan, flNV)
    else if func = 0x0A then (f.zero false, 0) else (f.inf false, 0)
  | .fin s m e =>
    if m = 0 then (if func = 0x0B then (f.zero s, 0) else (f.inf s, flDZ))
    else if func = 0x09 then packRound f rnd s 1 m (-e)
    else if s then (f.qnan, flNV)
    else
      let r := sqrtApprox m e
      -- an inexact root lies strictly between r and r + 1: 2r + 1 over 2 rounds as it does
      let n := 2 * r.1 + bnat (!r.2.2)
      if func = 0x0B then packRound f rnd false n 1 (r.2.1 - 1) else packRound f rnd false 1 n (1 - r.2.1)

/-- The flags of a comparison: only a signalling NaN sets one (R77; DEDUCED, log entry 88). -/
def cmpFlags (a b : Fp) : W32 := if a == .nan true || b == .nan true then flNV else 0

/-- CMPEQ, CMPLT, CMPLE and CMPUN by their FUNC (R68). -/
def cmpFp (func : Nat) (a b : Fp) : Bool :=
  if a.isNan || b.isNan then func == 0x13
  else
    match func with
    | 0x10 => !lessFp false a b && !lessFp false b a
    | 0x11 => lessFp false a b
    | 0x12 => !lessFp false b a
    | _ => false

/-- A finite value times 2^k rounded to an integer, and whether it is exact. (DESIGN CHOICE, log entry 32.) -/
def toInteger (rnd : Nat) (s : Bool) (m : Nat) (e : Int) : Int × Bool :=
  let u := inUnits m 1 e 0
  let r := roundQuot rnd s u.1 u.2
  ((if s then -1 else 1) * (r.1 : Int), r.2)

/-- FP to an integer in [lo, hi], scaled by 2^k: CVTF and TOQ (R68, R77). -/
def convertFp (rnd : Nat) (k lo hi : Int) (a : Fp) : Int × W32 :=
  match a with
  | .nan _ => (0, flNV)
  | .inf s => (if s then lo else hi, flNV)
  | .fin s m e =>
    let r := toInteger rnd s m (e + k)
    if r.1 < lo then (lo, flNV)
    else if hi < r.1 then (hi, flNV)
    else (r.1, if !r.2 && Config.convertInexact then flNX else 0)

/-- A value converted to another format (R68). -/
def recode (f : FpFmt) (rnd : Nat) (a : Fp) : Nat × W32 :=
  match a with
  | .nan s => nanOf f [.nan s]
  | .inf s => (f.inf s, 0)
  | .fin s m e => packRound f rnd s m 1 e

/-- The sign of a bit pattern cleared or flipped: ABS and NEG (R68; DEDUCED, log entry 88, of a NaN and a subnormal). -/
def signFp (f : FpFmt) (negate : Bool) (a : Fp) : Nat :=
  match a with
  | .nan _ => f.qnan
  | .inf s => f.inf (negate && !s)
  | .fin s m e => repack f (.fin (negate && !s) m e)

/-- One FP32 addition rounded to nearest (R71). -/
def add32 (x y : Nat × W32) : Nat × W32 :=
  let r := addFp fp32 0 (unpack fp32 x.1) (unpack fp32 y.1)
  (r.1, x.2 ||| y.2 ||| r.2)

/-- One level of the pairwise tree (R71). -/
def addPairs : List (Nat × W32) → List (Nat × W32)
  | x :: y :: r => add32 x y :: addPairs r
  | l => l

/-- The fixed pairwise tree over the elements (R71). -/
def sumTree : Nat → List (Nat × W32) → Nat × W32
  | 0, l => l.headD (0, 0)
  | k + 1, l => sumTree k (addPairs l)

end Sys2Proof.Machine
end

