-- ==== Sys2Proof/Machine/Vector.lean ====
section
/-!
DEFINITION. The vector and predicate instructions (R48, R64 to R71, R76, R77) as functions of their operands.
-/

namespace Sys2Proof.Machine

/-- The elements of w bits of a vector (R48). -/
def elems (w : Nat) (v : W512) : List Nat := (List.range (512 / w)).map fun i => v.toNat / 2 ^ (w * i) % 2 ^ w

/-- A vector from its elements of w bits. -/
def ofElems (w : Nat) (l : List Nat) : W512 := BitVec.ofNat 512 (l.foldr (fun x acc => x % 2 ^ w + acc * 2 ^ w) 0)

/-- A vector with every element x. -/
def splat (w x : Nat) : W512 := ofElems w (List.replicate (512 / w) x)

/-- What a vector instruction computes: a vector, a predicate or a scalar, and the flags it sets. -/
inductive VRes where
  | vec (v : W512) (fl : W32)
  | pred (p : W32)
  | predFl (p : W32) (fl : W32)
  | scalar (x : W64) (fl : W32)
  deriving DecidableEq, Repr

/-- The operands of a vector instruction: FUNC [5:0] and TYPE, the fields A and B, the old v[D], v[A], the second operand
vector, the accumulator (v[D], or v[C] under VX), g[A] and g[B], the governing predicate, RND and ZERO (R64). -/
structure VArgs where
  func : Nat
  type : Nat
  bField : Nat
  old : W512
  a : W512
  b : W512
  acc : W512
  ga : W64
  gb : W64
  pred : W32
  rnd : Nat
  zero : Bool
  deriving DecidableEq, Repr

/-- Active elements take the new values, inactive ones keep theirs or become zero (R64). -/
def mergeElems (pred : W32) (zero : Bool) (old new : List Nat) : List Nat :=
  new.zipIdx.map fun (x, i) => if bit pred i then x else if zero then 0 else old.getD i 0

/-- The flags of the active elements. -/
def activeFlags (pred : W32) (l : List W32) : W32 :=
  l.zipIdx.foldl (fun acc (x, i) => if bit pred i then acc ||| x else acc) 0

/-- The common frame of an operation with results of w bits and their flags (R64). -/
def framed (x : VArgs) (w : Nat) (r : List (Nat × W32)) : VRes :=
  .vec (ofElems w (mergeElems x.pred x.zero (elems w x.old) (r.map (·.1)))) (activeFlags x.pred (r.map (·.2)))

/-- An operation on the elements of both operands and the accumulator. -/
def mapElems (x : VArgs) (w : Nat) (f : Nat → Nat → Nat → Nat × W32) : VRes :=
  framed x w ((List.range (512 / w)).map fun i =>
    f ((elems w x.a).getD i 0) ((elems w x.b).getD i 0) ((elems w x.acc).getD i 0))

/-- A comparison: a bit for every active element (R64). -/
def mapPred (x : VArgs) (w : Nat) (f : Nat → Nat → Bool) : W32 :=
  (List.range (512 / w)).foldl (fun acc i =>
    acc ||| bitIf i (bit x.pred i && f ((elems w x.a).getD i 0) ((elems w x.b).getD i 0))) 0

/-- An integer clamped into [lo, hi], as a field of w bits; SAT on a clamp. -/
def clampTo (w : Nat) (lo hi v : Int) : Nat × W32 :=
  if v < lo then ((lo % 2 ^ w).toNat, flSAT) else if hi < v then ((hi % 2 ^ w).toNat, flSAT) else ((v % 2 ^ w).toNat, 0)

/-- The element arithmetic of VINT (R65). -/
def vintElem (func w a b : Nat) : Option (Nat × W32) :=
  let sa := signExt w a
  let sb := signExt w b
  let top : Int := 2 ^ (w - 1)
  let wrap (v : Int) : Nat × W32 := ((v % 2 ^ w).toNat, 0)
  match func with
  | 0x00 => some (wrap (a + b))
  | 0x01 => some (wrap ((a : Int) - b))
  | 0x02 => some (clampTo w (-top) (top - 1) (sa + sb))
  | 0x03 => some (clampTo w 0 (2 ^ w - 1) (a + b))
  | 0x04 => some (clampTo w (-top) (top - 1) (sa - sb))
  | 0x05 => some (clampTo w 0 (2 ^ w - 1) ((a : Int) - b))
  | 0x06 => some (wrap (a * b))
  | 0x07 => some (wrap (sa * sb / 2 ^ w))
  | 0x08 => some (wrap (a * b / 2 ^ w))
  | 0x09 => some (if sa ≤ sb then a else b, 0)
  | 0x0A => some (if sa ≤ sb then b else a, 0)
  | 0x0B => some (min a b, 0)
  | 0x0C => some (max a b, 0)
  | 0x0D => some (a &&& b, 0)
  | 0x0E => some (a ||| b, 0)
  | 0x0F => some (a ^^^ b, 0)
  | 0x10 => some (a &&& (2 ^ w - 1 - b), 0)
  | 0x11 => some (wrap (a * 2 ^ (b % w)))
  | 0x12 => some (a / 2 ^ (b % w), 0)
  | 0x13 => some (wrap (sa / 2 ^ (b % w)))
  | 0x14 => some (wrap (if sa < 0 then -sa else sa))
  | 0x15 => some (wrap (-sa))
  | 0x16 => some ((a + b + 1) / 2, 0)
  | _ => none

/-- The comparisons of VINT (R65). -/
def vintCmp (func w a b : Nat) : Option Bool :=
  let sa := signExt w a
  let sb := signExt w b
  match func with
  | 0x20 => some (a == b)
  | 0x21 => some (a != b)
  | 0x22 => some (decide (sa < sb))
  | 0x23 => some (decide (sa ≤ sb))
  | 0x24 => some (decide (a < b))
  | 0x25 => some (decide (a ≤ b))
  | _ => none

/-- VINT; none is ILLEGAL (R58, R64, R65). -/
def vint (x : VArgs) : Option VRes :=
  let w := if x.type = 0 then 16 else 32
  if 1 < x.type ∨ x.rnd ≠ 0 ∨ ((x.func = 0x14 ∨ x.func = 0x15) ∧ x.bField ≠ 0) then none
  else if (vintElem x.func w 0 0).isSome then some (mapElems x w fun a b _ => (vintElem x.func w a b).getD (0, 0))
  else if (vintCmp x.func w 0 0).isSome then some (.pred (mapPred x w fun a b => (vintCmp x.func w a b).getD false))
  else none

/-- rnd(p, s) (R67). -/
def rndQ (mode : Nat) (p : Int) (s : Nat) : Int :=
  if s = 0 then p
  else
    match mode with
    | 0 => (p + 2 ^ (s - 1)) / 2 ^ s
    | 1 => p / 2 ^ s
    | _ =>
      let q := p / 2 ^ s
      let r := p % 2 ^ s
      if 2 * r < 2 ^ s then q else if (2 : Int) ^ s < 2 * r then q + 1 else q + q % 2

/-- The value of a 16-bit pattern in a fixed-point format: TYPE 0 Q1.15, 1 UQ0.16 (R66). -/
def qVal (type x : Nat) : Int := if type = 0 then signExt 16 x else (x : Int)

/-- Saturated to the format's range (R67). -/
def qSat (type : Nat) (v : Int) : Nat × W32 :=
  if type = 0 then clampTo 16 (-32768) 32767 v else clampTo 16 0 65535 v

/-- The element arithmetic of VFIX (R67). -/
def vfixElem (func type rnd a b acc : Nat) : Option (Nat × W32) :=
  let va := qVal type a
  let vb := qVal type b
  let vc := qVal type acc
  let s := if type = 0 then 15 else 16
  match func with
  | 0x00 => some (qSat type (rndQ rnd (va * vb) s))
  | 0x01 => some (qSat type (vc + rndQ rnd (va * vb) s))
  | 0x02 => some (qSat type (vc - rndQ rnd (va * vb) s))
  | 0x03 => if type = 1 then some (qSat type (va + rndQ rnd ((vb - va) * vc) 16)) else none
  | 0x04 => some (qSat type (va + vb))
  | 0x05 => some (qSat type (va - vb))
  | 0x06 => some (qSat type (rndQ rnd va (b % 16)))
  | 0x07 => some (if type = 1 then qSat 1 (if signExt 16 a < 0 then -1 else 2 * (a : Int)) else qSat 0 (rndQ rnd a 1))
  | _ => none

/-- VFIX; none is ILLEGAL (R58, R66, R67). -/
def vfix (x : VArgs) : Option VRes :=
  if 1 < x.type ∨ x.rnd = 3 ∨ (x.func = 0x07 ∧ x.bField ≠ 0) then none
  else if (vfixElem x.func x.type x.rnd 0 0 0).isSome then
    some (mapElems x 16 fun a b c => (vfixElem x.func x.type x.rnd a b c).getD (0, 0))
  else none

/-- The element arithmetic of VFP, operations with results of the same width (R68). -/
def vfpElem (f : FpFmt) (func rnd a b acc : Nat) : Option (Nat × W32) :=
  let fa := unpack f a
  let fb := unpack f b
  let fc := unpack f acc
  let w := f.width
  let asField (r : Int × W32) : Nat × W32 := ((r.1 % 2 ^ w).toNat, r.2)
  match func with
  | 0x00 => some (addFp f rnd fa fb)
  | 0x01 => some (if fb.isNan then nanOf f [fa, fb] else addFp f rnd fa fb.neg)
  | 0x02 => some (mulFp f rnd fa fb)
  | 0x03 => some (fmaFp f rnd fa fb fc)
  | 0x04 => some (fmaFp f rnd fa.neg fb fc)
  | 0x05 => some (minMaxFp f false fa fb)
  | 0x06 => some (minMaxFp f true fa fb)
  | 0x07 => some (signFp f false fa, 0)
  | 0x08 => some (signFp f true fa, 0)
  | 0x09 => some (rootFp f rnd 0x09 fa)
  | 0x0A => some (rootFp f rnd 0x0A fa)
  | 0x0B => some (rootFp f rnd 0x0B fa)
  | 0x20 => some (packRound f rnd (decide (signExt w a < 0)) (signExt w a).natAbs 1 0)
  | 0x21 => some (asField (convertFp rnd 0 (-(2 : Int) ^ (w - 1)) (2 ^ (w - 1) - 1) fa))
  | 0x22 => some (packRound f rnd false (a % 2 ^ 16) 1 (-16))
  | 0x23 => some (asField (convertFp rnd 16 0 65535 fa))
  | _ => none

/-- VFP; none is ILLEGAL (R58, R68). -/
def vfp (x : VArgs) : Option VRes :=
  let f := if x.type = 0 then fp16 else fp32
  if 1 < x.type ∨ (0x07 ≤ x.func ∧ x.func ≤ 0x0B ∧ x.bField ≠ 0) then none
  else if x.func = 0x24 then
    if x.type = 1 ∧ x.bField < 2 then
      some (framed x 32 ((List.range 16).map fun i =>
        recode fp32 x.rnd (unpack fp16 ((elems 16 x.a).getD (i + 16 * x.bField) 0))))
    else none
  else if x.func = 0x25 then
    if x.type = 0 then
      some (framed x 16 ((elems 32 x.a ++ elems 32 x.b).map fun e => recode fp16 x.rnd (unpack fp32 e)))
    else none
  else if 0x10 ≤ x.func ∧ x.func ≤ 0x13 then
    let n := 512 / f.width
    let fl := (List.range n).map fun i =>
      cmpFlags (unpack f ((elems f.width x.a).getD i 0)) (unpack f ((elems f.width x.b).getD i 0))
    some (.predFl (mapPred x f.width fun a b => cmpFp x.func (unpack f a) (unpack f b)) (activeFlags x.pred fl))
  else if (vfpElem f x.func x.rnd 0 0 0).isSome then
    some (mapElems x f.width fun a b c => (vfpElem f x.func x.rnd a b c).getD (0, 0))
  else none

/-- The second operand of a VFP NARROW is FP32 whatever TYPE holds, that of a VFIX 16-bit. -/
def operandWidth (isNarrow : Bool) (type : Nat) : Nat := if isNarrow then 32 else if type = 0 then 16 else 32

/-- Active elements of v[A]. -/
def activeElems (x : VArgs) (w : Nat) : List Nat := (elems w x.a).zipIdx.filterMap fun (e, i) => if bit x.pred i then some e else none

/-- VMOVE; none is ILLEGAL; `pField` is the field P (R58, R70, R71, R77). In VNARROW and VNARROWU all 32 bits of the
predicate govern, one a destination element. (DEDUCED, log entry 92.) -/
def vmove (pField : Nat) (x : VArgs) : Option VRes :=
  let w := if x.type = 0 then 16 else 32
  let n := 512 / w
  let keep (l : List Nat) : VRes := framed x w (l.map fun e => (e, 0))
  if 1 < x.type ∨ x.rnd ≠ 0 then none
  else
    match x.func with
    | 0x00 => some (keep (elems w x.a))
    | 0x01 => some (keep (List.replicate n (x.ga.toNat % 2 ^ w)))
    | 0x02 =>
      if pField = 0 then some (.vec (ofElems w ((elems w x.old).set (x.gb.toNat % n) (x.ga.toNat % 2 ^ w))) 0) else none
    | 0x03 => if pField = 0 then some (.scalar (sx w ((elems w x.a).getD (x.gb.toNat % n) 0)) 0) else none
    | 0x04 => if pField = 0 then some (.scalar (w64 ((elems w x.a).getD (x.gb.toNat % n) 0)) 0) else none
    | 0x05 => some (.vec (ofElems w (mergeElems x.pred false (elems w x.b) (elems w x.a))) 0)
    | 0x06 => some (keep ((elems w x.b).map fun i => (elems w x.a).getD (i % n) 0))
    | 0x08 => some (.scalar ((activeElems x w).foldl (fun acc e => acc + sx w e) 0) 0)
    | 0x09 => some (.scalar (BitVec.ofInt 64 ((activeElems x w).foldl (fun acc e => min acc (signExt w e)) (2 ^ (w - 1) - 1))) 0)
    | 0x0A => some (.scalar (BitVec.ofInt 64 ((activeElems x w).foldl (fun acc e => max acc (signExt w e)) (-(2 : Int) ^ (w - 1)))) 0)
    | 0x0B =>
      let leaf (e i : Nat) : Nat × W32 :=
        if !bit x.pred i then (0x80000000, 0) else if w = 16 then recode fp32 0 (unpack fp16 e) else (e, 0)
      let r := sumTree (if w = 16 then 5 else 4) ((elems w x.a).zipIdx.map fun (e, i) => leaf e i)
      some (.scalar (w64 (r.1 % 2 ^ 32)) r.2)
    | 0x10 =>
      if x.type = 1 then
        some (framed x 16 ((elems 32 x.a ++ elems 32 x.b).map fun e => clampTo 16 (-32768) 32767 (signExt 32 e)))
      else none
    | 0x11 =>
      if x.type = 1 then
        some (framed x 16 ((elems 32 x.a ++ elems 32 x.b).map fun e => clampTo 16 0 65535 (signExt 32 e)))
      else none
    | _ =>
      if 0x0C ≤ x.func ∧ x.func ≤ 0x0F ∧ x.type = 0 then
        let src := (List.range 16).map fun i => (elems 16 x.a).getD (i + 16 * ((x.func - 0x0C) % 2)) 0
        some (framed x 32 (src.map fun e => (if x.func < 0x0E then (signExt 16 e % 2 ^ 32).toNat else e, 0)))
      else none

/-- What a VPRED writes: a predicate or a scalar; none is ILLEGAL (R69). -/
def vpred (func bField : Nat) (pa pb : W32) (ga : W64) : Option VRes :=
  match func with
  | 0x00 => some (.pred (pa &&& pb))
  | 0x01 => some (.pred (pa ||| pb))
  | 0x02 => some (.pred (pa ^^^ pb))
  | 0x03 => some (.pred (pa &&& ~~~ pb))
  | 0x04 => if bField = 0 then some (.pred (~~~ pa)) else none
  | 0x08 => some (.pred (w32 (2 ^ min ga.toNat 32 - 1)))
  | 0x09 => some (.pred (lo32 ga))
  | 0x0A => some (.scalar (w64 pa.toNat) 0)
  | 0x0B => some (.scalar (w64 (popcount pa)) 0)
  | 0x0C => some (.scalar (w64 ((firstIdx (fun i => bit pa i) (List.range 32) 0).getD 32)) 0)
  | _ => none

end Sys2Proof.Machine
end

