-- ==== Sys2Proof/Machine/Infuser.lean ====
section
/-!
DEFINITION. The infuser: the SAMPLE family's encodings, faults and results (R138 to R156).
-/

namespace Sys2Proof.Machine

/-- A SAMPLE-family instruction is well formed (R58, R141, R142). -/
def sampleLegal (pre : Option W32) (w : W32) : Bool :=
  let even (n : Nat) : Bool := n % 2 == 0
  let surf := match pre with | some p => preClass p == 2 && fld p 0 9 == 0 | none => false
  match opOf w with
  | 0x30 => surf && funcOf w == 0 && even (dOf w)
  | 0x31 => surf && funcOf w == 0 && even (dOf w) && even (aOf w)
  | 0x32 =>
    pre.isNone && even (dOf w) && even (aOf w)
      && (funcOf w == 0x10 || (decide (funcOf w < 8) && decide (dOf w + (funcOf w + 2) / 2 ≤ 32)))
  | _ => pre.isNone && decide (funcOf w < 2)

/-- What the infuser makes of an instruction: a fault before any read, the memory it reads, the vector registers it leaves,
and the flags. -/
structure Infused where
  fault : Option (Nat × W64)
  spans : List (Nat × Nat)
  v : Tab W512
  fl : W32
  count : Nat

/-- The active elements of n under a predicate. -/
def activeIdx (p : W32) (n : Nat) : List Nat := (List.range n).filter fun i => bit p i

/-- Write 16-bit element e of register n. -/
def putElem (n e x : Nat) (v : Tab W512) : Tab W512 :=
  Tab.put 0 v n (ofElems 16 ((elems 16 (Tab.get 0 v n)).set e x))

/-- Write channel c of sample i of the pair at register n (R143). -/
def putChannel (n c i x : Nat) (v : Tab W512) : Tab W512 := putElem (n + c / 2) (c % 2 * 16 + i) x v

/-- Channel c of sample i of the pair at register n (R143). -/
def getChannel (v : Tab W512) (n c i : Nat) : Nat := (elems 16 (Tab.get 0 v (n + c / 2))).getD (c % 2 * 16 + i) 0

/-- S15.16 coordinate i of a register (R143). -/
def coord (v : Tab W512) (n i : Nat) : Int := signExt 32 ((elems 32 (Tab.get 0 v n)).getD i 0)

/-- A surface that SAMPLE2 or SAMPLE3 accepts (R144). -/
def surfAccepted (three : Bool) (s : List W32) : Bool :=
  let f := descFormat s
  descValid s && (if three then f == 3 || f == 5 || f == 6 else fmtKnown f && descDepth s == 1)

/-- The Kettle blocks that a sample reads, by offset / 64: those of the luma or packed channels, then of chroma (R140). -/
def sampleBlocks (s : List W32) (taps : Nat → List (Option (Nat × Nat × Nat) × Nat)) : List Nat :=
  ((List.range 4).filter (channelStored (descFormat s))).flatMap fun c =>
    (tapSpans s c (taps c)).flatMap fun (o, n) => ketBlocks o n

/-- The whole 64-byte blocks that the samples of one instruction fetch, each once (R140). -/
def blockSpans (blocks : List Nat) : List (Nat × Nat) := blocks.dedup.map fun b => (ketBase + b * 64, 64)

/-- SAMPLE2 and SAMPLE3 (R144 to R149). (DEDUCED, log entry 37.) -/
def infuseSample (three : Bool) (d : Dev) (b : Brew) (pre w : W32) : Infused :=
  let surf := fld pre 12 10
  let s := surfDesc d surf
  let mode := fld pre 10 2
  let nearest := bit pre 9
  let act := activeIdx (b.pReg (pOf w)) 16
  if kettleOut d || !surfAccepted three s then { fault := some (0x20, w64 surf), spans := [], v := b.v, fl := 0, count := 0 }
  else
    let taps (i c : Nat) : List (Option (Nat × Nat × Nat) × Nat) :=
      if three then taps3 s nearest mode (coord b.v (aOf w) i) (coord b.v (aOf w + 1) i) (coord b.v (bOf w) i)
      else taps2 s nearest mode (coord b.v (aOf w) i) (coord b.v (bOf w) i) c
    { fault := none
      spans := blockSpans (act.flatMap fun i => sampleBlocks s (taps i))
      v := act.foldl (fun v i => (List.range 4).foldl (fun v c =>
        putChannel (dOf w) c i (mixTaps d s c (if three then 36 else 24) (taps i c)) v) v) b.v
      fl := 0
      count := act.length }

/-- 16-bit word of pot memory at offset o of a table at address a (R150 to R152). -/
def potWord (d : Dev) (s a o : Nat) : Nat := ofLe (getBytes d (potPlace s + (a - potBase) + o) 2)

/-- The span of pot memory of a table part. -/
def potSpan (s a o n : Nat) : Nat × Nat := (potPlace s + (a - potBase) + o, n)

/-- A table of n bytes at address a is aligned and lies in the pot (R154). -/
def tableOk (a n : Nat) : Bool := decide (a % 64 = 0 ∧ potBase ≤ a ∧ a + n ≤ potBase + potSize)

/-- MATRIX (R150): it reads the rows of its N outputs, and no row for no pixel. (DESIGN CHOICE, log entry 97.) -/
def infuseMatrix (d : Dev) (b : Brew) (s : Nat) (w : W32) : Infused :=
  let a := (b.gReg (bOf w)).toNat
  let n := funcOf w + 1
  let act := activeIdx (b.pReg (pOf w)) 16
  if !tableOk a 64 then { fault := some (0x21, w64 a), spans := [], v := b.v, fl := 0, count := 0 }
  else
    let coef (e j : Nat) : Int := s16 (potWord d s a (8 * e + 2 * j))
    let out (e i : Nat) : Nat × Bool :=
      matrixRow (coef e 0) (coef e 1) (coef e 2) (coef e 3) (getChannel b.v (aOf w) 0 i) (getChannel b.v (aOf w) 1 i)
        (getChannel b.v (aOf w) 2 i)
    { fault := none
      spans := if act.isEmpty then [] else [potSpan s a 0 (8 * n)]
      v := act.foldl (fun v i => (List.range n).foldl (fun v e => putChannel (dOf w) e i (out e i).1 v) v) b.v
      fl := if act.any (fun i => (List.range n).any fun e => (out e i).2) then flSAT else 0
      count := act.length }

/-- LUT3 (R151). -/
def infuseLut (d : Dev) (b : Brew) (s : Nat) (w : W32) : Infused :=
  let a := (b.gReg (bOf w)).toNat
  let act := activeIdx (b.pReg (pOf w)) 16
  if !tableOk a 287496 then { fault := some (0x21, w64 a), spans := [], v := b.v, fl := 0, count := 0 }
  else
    let node (r g bl : Nat) : Nat := ((bl * 33 + g) * 33 + r) * 8
    let inp (c i : Nat) : Nat := getChannel b.v (aOf w) c i
    let idx (c i : Nat) : Nat := (nodeOf 32 31 (inp c i)).1
    { fault := none
      spans := act.flatMap fun i => [0, 1].flatMap fun z => [0, 1].flatMap fun y => [0, 1].map fun x =>
        potSpan s a (node (idx 0 i + x) (idx 1 i + y) (idx 2 i + z)) 8
      v := act.foldl (fun v i => (List.range 3).foldl (fun v c => putChannel (dOf w) c i
        (lut3 (fun r g bl => potWord d s a (node r g bl + 2 * c)) (inp 0 i) (inp 1 i) (inp 2 i)) v) v) b.v
      fl := 0
      count := act.length }

/-- CURVE (R152). -/
def infuseCurve (d : Dev) (b : Brew) (s : Nat) (w : W32) : Infused :=
  let a := (b.gReg (bOf w)).toNat
  let act := activeIdx (b.pReg (pOf w)) 32
  if !tableOk a 8192 then { fault := some (0x21, w64 a), spans := [], v := b.v, fl := 0, count := 0 }
  else
    let inp (i : Nat) : Nat := (elems 16 (b.vReg (aOf w))).getD i 0
    { fault := none
      spans := act.map fun i => potSpan s a (2 * (nodeOf 4095 4094 (inp i)).1) 4
      v := act.foldl (fun v i => putElem (dOf w) i (curve (fun e => potWord d s a (2 * e)) (inp i)) v) b.v
      fl := 0
      count := act.length }

/-- DITHER (R153). -/
def infuseDither (b : Brew) (w : W32) : Infused :=
  let act := activeIdx (b.pReg (pOf w)) 32
  let q := fld (b.gReg (bOf w)) 0 16
  { fault := none, spans := []
    v := act.foldl (fun v i => putElem (dOf w) i (dither q i ((elems 16 (b.vReg (aOf w))).getD i 0)) v) b.v
    fl := 0
    count := act.length }

/-- The infuser's work on an instruction of a brew of swarm s. (DEDUCED, log entry 37.) -/
def infuse (d : Dev) (b : Brew) (s : Nat) (x : Infusion) : Infused :=
  match opOf x.word with
  | 0x30 => infuseSample false d b (x.pre.getD 0) x.word
  | 0x31 => infuseSample true d b (x.pre.getD 0) x.word
  | 0x32 => if funcOf x.word = 0x10 then infuseLut d b s x.word else infuseMatrix d b s x.word
  | _ => if funcOf x.word = 0 then infuseCurve d b s x.word else infuseDither b x.word

/-- The address of a firefly for a place that the infuser of swarm s reads (R154). -/
def infuserAddr (s p : Nat) : W64 := w64 (if potPlace s ≤ p then p - potPlace s + potBase else p)

/-- The queue of swarm s's infuser. -/
def infuserQueue (d : Dev) (s : Nat) : List Infusion := Tab.get [] d.arr.infuser s
/-- Set the queue of swarm s's infuser. -/
def setInfuserQueue (s : Nat) (l : List Infusion) : Dev → Dev :=
  onArr fun a => { a with infuser := Tab.put [] a.infuser s l }

/-- A SAMPLE-family instruction of slot i is queued, or the slot stalls (R138). A free place goes to the instruction that issues, whether or
not others are stalled. (DESIGN CHOICE, log entry 97.) -/
def infuserIssue (i : Nat) (x : Infusion) (d : Dev) : Dev :=
  match brewAt d i with
  | none => d
  | some b =>
    if (infuserQueue d (slotSwarm i)).length < 64 then
      setInfuserQueue (slotSwarm i) (infuserQueue d (slotSwarm i) ++ [x]) (setBrew i (some { b with wait := .infuser }) d)
    else
      onArr (fun a => { a with infuserStalled := a.infuserStalled ++ [x] })
        (setBrew i (some { b with wait := .infuserPlace }) d)

/-- The oldest instruction stalled on the full queue of swarm s takes a freed place (R138). (DESIGN CHOICE, log entry 97.) -/
def infuserAccept (s : Nat) (d : Dev) : Dev :=
  if 64 ≤ (infuserQueue d s).length then d
  else
    match d.arr.infuserStalled.find? fun x => slotSwarm x.slotId == s with
    | none => d
    | some x =>
      infuserIssue x.slotId x (onArr (fun a => { a with infuserStalled := a.infuserStalled.filter (fun y => y != x) }) d)

/-- INFUSER_QUEUE_ACCEPT. -/
def execInfuserQueueAccept (s : Fin 8) (st : State) : Host.Outcome State Fault Refusal :=
  onDev st fun k d => settle k (infuserAccept s d)

/-- The infuser of swarm s completes its oldest instruction (R138, R139, R154, R155). It reads its descriptor, tables and texels at this
one instant, and names the first uncorrectable word of them in the order sample, channel, tap.
(DESIGN CHOICE, log entries 91 and 97.) -/
def infuserResult (s : Nat) (d : Dev) : Dev :=
  match infuserQueue d s with
  | [] => d
  | x :: r =>
    let d := setInfuserQueue s r d
    match brewAt d x.slotId with
    | none => d
    | some b =>
      let y := infuse d b s x
      match y.fault with
      | some (code, addr) => killBrew x.slotId code addr 0xFF d
      | none =>
        let z := readSpans y.spans d
        match z.1 with
        | some p => killBrew x.slotId 0x05 (infuserAddr s p) 0xFF z.2
        | none =>
          bumpSat64 (Reg.SWARM_INF_SAMPLES_LO s) y.count (setBrew x.slotId
            (some ({ b with v := y.v, wait := .none, pc := b.pc + instrLen x.pre }.raiseFl y.fl)) z.2)

/-- INFUSER_RESULT. -/
def execInfuserResult (s : Fin 8) (st : State) : Host.Outcome State Fault Refusal :=
  onDev st fun k d => settle k (infuserResult s d)

end Sys2Proof.Machine
end

