-- ==== Sys2Proof/Machine/Fetch.lean ====
section
/-!
DEFINITION. What runs an instruction (a brew slot or a control core), how it fetches and classifies words (R54 to R58, R82, R83), how it
reaches memory, and how a fault is taken (R78 to R81, R84).
-/

namespace Sys2Proof.Machine

/-- What runs an instruction, with its registers: brew slot number i, or control core c. -/
inductive Runner where
  | slot (i : Nat) (b : Brew)
  | core (c : Nat) (x : Core)
  deriving DecidableEq, Repr

/-- g[n]. -/
def Runner.g : Runner → Nat → W64
  | .slot _ b, n => b.gReg n
  | .core _ x, n => x.gReg n

/-- Write g[n]. -/
def Runner.setG (n : Nat) (v : W64) : Runner → Runner
  | .slot i b => .slot i (b.setG n v)
  | .core c x => .core c (x.setG n v)

/-- pc. -/
def Runner.pc : Runner → W64
  | .slot _ b => b.pc
  | .core _ x => x.pc

/-- Continue at pc. -/
def Runner.jump (pc : W64) : Runner → Runner
  | .slot i b => .slot i { b with pc := pc }
  | .core c x => .core c { x with pc := pc }

/-- The runner is a control core. -/
def Runner.isCore : Runner → Bool
  | .slot _ _ => false
  | .core _ _ => true

/-- The address of the instruction after this one. -/
def Runner.after (r : Runner) (pre : Option W32) : W64 := r.pc + instrLen pre

/-- The device with the runner's registers as they are now. -/
def Runner.put : Runner → Dev → Dev
  | .slot i b, d => setBrew i (some b) d
  | .core c x, d => setCore c x d

/-- The runner that a command names, if an instruction of it can issue now: a brew that waits for nothing, within its limit, on a swarm whose
clock runs (R101, R102, R383); a core that runs and does not doze. -/
def runnerOf (w : Who) (k : Clk) (d : Dev) : Option Runner :=
  match w with
  | .slot x =>
    let i := slotNum x
    match brewAt d i with
    | some b => if b.wait = .none ∧ swarmRuns d (slotSwarm i) ∧ brewCycles k d i b ≤ cycleLimit d then some (.slot i (b.issue k)) else none
    | none => none
  | .core c => if (coreAt d c).running && !(coreAt d c).dozing then some (.core c (coreAt d c)) else none

/-! Areas of a control core (R84). -/

/-- MODE of CORE_STATE. -/
def Core.privileged (x : Core) : Bool := bit x.st 1

/-- IEN of CORE_STATE. -/
def Core.ien (x : Core) : Bool := bit x.st 0

/-- The kinds of access, each the bit of AREA_BASE that grants it. -/
inductive Access where
  | read
  | write
  | run
  deriving DecidableEq, Repr

/-- The bit of AREA_BASE that grants a kind. -/
def Access.index : Access → Nat
  | .read => 0
  | .write => 1
  | .run => 2

/-- The areas of a core grant n bytes at an address. -/
def Core.grants (x : Core) (kind : Access) (a n : Nat) : Bool :=
  x.privileged ||
    match (List.range 8).find? fun i =>
      decide (fld (Tab.get 0 x.areaBase i) 12 36 ≤ a / 4096 ∧ a / 4096 ≤ fld (Tab.get 0 x.areaLimit i) 12 36) with
    | some i => bit (Tab.get 0 x.areaBase i) kind.index && decide ((a + n - 1) / 4096 ≤ fld (Tab.get 0 x.areaLimit i) 12 36)
    | none => false

/-! Memory as a runner sees it (R49 to R51, R83, R84). -/

/-- Where an access lies, or the fault it takes: ACCESS is checked before MISALIGN (R51). -/
def Runner.spot (r : Runner) (kind : Access) (a n align : Nat) (d : Dev) : Except Nat Nat :=
  let place := match r with
    | .slot i _ => brewPlaceOf d i a n
    | .core c x => if x.grants kind a n then corePlaceOf d c a n else none
  match place with
  | none => .error 0x03
  | some p => if a % align = 0 then .ok p else .error 0x02

/-- Read n bytes at a place; none: an uncorrectable error. -/
def Runner.readAt (r : Runner) (p n : Nat) (d : Dev) : Option (List W8) × Dev :=
  match r with
  | .slot _ _ => load p n d
  | .core _ _ => loadOutside p n d

/-- Write bytes at a place. -/
def Runner.writeAt (r : Runner) (p : Nat) (bs : List W8) (d : Dev) : Dev :=
  match r with
  | .slot _ _ => store p bs d
  | .core _ _ => storeOutside p bs d

/-! Fetch (R54, R56, R83). -/

/-- The key of an instruction cache's word: firefly and address. -/
def icacheKey (i a : Nat) : Nat := (i / 8) * 2 ^ 48 + a

/-- A word of DRAM is read into slot i's instruction cache. (DESIGN CHOICE, log entry 28.) -/
def cacheFill (i a : Nat) (d : Dev) : Option W32 × Dev :=
  let x := load a 4 d
  let w := x.1.map fun bs => w32 (ofLe bs)
  (w, onArr (fun s => { s with icache := Tab.put none s.icache (icacheKey i a) w }) x.2)

/-- A firefly fetches a word. The cache does not observe stores: of a word that has changed since it was cached, the manual leaves open which
of the two is fetched. (DESIGN CHOICE, log entry 28.) -/
def fireflyFetch (i a : Nat) (d : Dev) : Option W32 × Dev :=
  if a % 4 = 0 ∧ inDram d a 4 then
    match Tab.get none d.arr.icache (icacheKey i a) with
    | none => cacheFill i a d
    | some w =>
      if getBytes d a 4 = leBytes 4 w.toNat then (some w, d)
      else if bit (free d).1 0 then (some w, (free d).2)
      else cacheFill i a (free d).2
  else (none, d)

/-- A core fetches a word, from its private SRAM, the shared SRAM or DRAM. -/
def coreFetch (c : Nat) (x : Core) (a : Nat) (d : Dev) : Except Nat W32 × Dev :=
  match corePlaceOf d c a 4 with
  | none => (.error 0x04, d)
  | some p =>
    if a % 4 ≠ 0 ∨ inKet a 4 then (.error 0x04, d)
    else if x.grants .run a 4 then
      let y := loadOutside p 4 d
      match y.1 with
      | some bs => (.ok (w32 (ofLe bs)), y.2)
      | none => (.error 0x04, y.2)
    else (.error 0x03, d)

/-- A runner fetches a word: the word, or the code of the fault. -/
def Runner.fetchWord (r : Runner) (a : W64) (d : Dev) : Except Nat W32 × Dev :=
  match r with
  | .slot i _ =>
    let x := fireflyFetch i a.toNat d
    (match x.1 with | some w => .ok w | none => .error 0x04, x.2)
  | .core c x => coreFetch c x a.toNat d

/-- What a fetch gives: a fault and the address it reports, or an instruction. -/
inductive Fetched where
  | fault (code : Nat) (addr : W64)
  | instr (pre : Option W32) (w : W32)
  deriving DecidableEq, Repr

/-- An instruction with its prefix is fetched; a prefix of a reserved class needs no second word to be ILLEGAL (R56). -/
def Runner.fetch (r : Runner) (d : Dev) : Fetched × Dev :=
  let x := r.fetchWord r.pc d
  match x.1 with
  | .error e => (.fault e r.pc, x.2)
  | .ok w =>
    if !isPrefix w then (.instr none w, x.2)
    else if 2 < preClass w then (.instr (some w) 0, x.2)
    else
      let y := r.fetchWord (r.pc + 4) x.2
      (match y.1 with | .error e => .fault e (r.pc + 4) | .ok v => .instr (some w) v, y.2)

/-! The classes of words (R56 to R58, R61, R82, R85, R103, R142). -/

/-- What a word's major opcode and function select: one for each row of instructions. -/
inductive Op where
  | alu | immediate | lui | shifti | nop | movl | movk | movfl | clrfl | trap | branch | jal | jalr | load | store
  | vint | vfix | vfp | vpred | vmove | vld | vst | vgather | vscatter | atom | fence
  | getc | setc | resume | doze | callp
  | emit | emitv | pour | delay | endBrew | cancel | kmake | ksetf | kaddf | kaddi | ksett | kgett | kgetf | kgeti
  | sample2 | sample3 | matrix | lut3 | curve | dither
  deriving DecidableEq, Repr

/-- MISC by FUNC. -/
def miscOp (func : Nat) : Option Op :=
  match func with
  | 0 => some .nop | 1 => some .movl | 2 => some .movk | 3 => some .movfl | 4 => some .clrfl | 5 => some .trap
  | _ => none

/-- PRIV by IMM [15:12]. -/
def privOp (n : Nat) : Option Op :=
  match n with
  | 0 => some .getc | 1 => some .setc | 2 => some .resume | 3 => some .doze | 4 => some .callp
  | _ => none

/-- Opcode 0x2F by FUNC. -/
def keyOp (func : Nat) : Option Op :=
  match func with
  | 0x00 => some .endBrew | 0x01 => some .cancel
  | 0x08 => some .kmake | 0x09 => some .ksetf | 0x0A => some .kaddf | 0x0B => some .kaddi | 0x0C => some .ksett
  | 0x0D => some .kgett | 0x0E => some .kgetf | 0x0F => some .kgeti
  | _ => none

/-- The class of a word; none is ILLEGAL on every runner. -/
def opOfWord (w : W32) : Option Op :=
  match opOf w with
  | 0x01 => some .alu
  | 0x02 => some .immediate | 0x03 => some .immediate | 0x04 => some .immediate | 0x05 => some .immediate
  | 0x06 => some .lui
  | 0x07 => some .shifti
  | 0x08 => some .immediate | 0x09 => some .immediate
  | 0x0A => miscOp (funcOf w)
  | 0x0C => some .load | 0x0D => some .load | 0x0E => some .load | 0x0F => some .load
  | 0x10 => some .load | 0x11 => some .load | 0x12 => some .load
  | 0x14 => some .store | 0x15 => some .store | 0x16 => some .store | 0x17 => some .store
  | 0x18 => some .branch | 0x19 => some .branch | 0x1A => some .branch
  | 0x1B => some .branch | 0x1C => some .branch | 0x1D => some .branch
  | 0x1E => some .jal
  | 0x1F => some .jalr
  | 0x20 => some .vint | 0x21 => some .vfix | 0x22 => some .vfp | 0x23 => some .vpred | 0x24 => some .vmove
  | 0x25 => some .vld | 0x26 => some .vst | 0x27 => some .vgather | 0x28 => some .vscatter
  | 0x29 => some .atom
  | 0x2A => some .fence
  | 0x2B => privOp (fld w 12 4)
  | 0x2C => if funcOf w = 0 then some .emit else if funcOf w = 1 then some .emitv else none
  | 0x2D => if funcOf w = 0 then some .pour else none
  | 0x2E => some .delay
  | 0x2F => keyOp (funcOf w)
  | 0x30 => some .sample2
  | 0x31 => some .sample3
  | 0x32 => if funcOf w = 0x10 then some .lut3 else if funcOf w < 8 then some .matrix else none
  | 0x33 => if funcOf w = 0 then some .curve else if funcOf w = 1 then some .dither else none
  | _ => none

/-- The class runs on a control core, or on a firefly (R82). -/
def Op.runsOn (core : Bool) : Op → Bool
  | .alu | .immediate | .lui | .shifti | .nop | .trap | .branch | .jal | .jalr | .load | .store | .atom | .fence => true
  | .getc | .setc | .resume | .doze | .callp => core
  | _ => !core

/-- The class accepts a LIMM prefix. -/
def Op.takesLimm : Op → Bool
  | .immediate | .lui | .branch | .jalr | .load | .store | .vld | .vst => true
  | _ => false

/-- A VX prefix that the word accepts: its reserved bits are zero, and C is zero unless the operation has a fourth operand (R56). -/
def vxOk (op : Op) (p w : W32) : Bool :=
  fld p 9 13 == 0
    && match op with
      | .vfix => fld p 0 5 == 0 || [1, 2, 3].contains (fld w 0 6)
      | .vfp => fld p 0 5 == 0 || [3, 4].contains (fld w 0 6)
      | .vint => fld p 0 5 == 0
      | .vmove => fld p 0 5 == 0
      | _ => false

/-- A prefix and the class of the word it is followed by agree (R56, R141). -/
def prefixOk (op : Op) (pre : Option W32) (w : W32) : Bool :=
  match pre with
  | none => true
  | some p =>
    match preClass p with
    | 0 => op.takesLimm
    | 1 => vxOk op p w
    | 2 => op == .sample2 || op == .sample3
    | _ => false

/-- The class of an instruction for a runner; none: ILLEGAL (R56, R58, R82). (DEDUCED, log entry 27.) -/
def classify (core : Bool) (pre : Option W32) (w : W32) : Option Op :=
  (opOfWord w).filter fun op => op.runsOn core && prefixOk op pre w

/-! What an instruction comes to. -/

/-- A fault with its code, ADDR and LANE, or the clock and device after it. -/
inductive Res where
  | fault (code : Nat) (addr : W64) (lane : Nat) (d : Dev)
  | done (k : Clk) (d : Dev)

/-- ILLEGAL (R78). (DEDUCED, log entry 27.) -/
def illegal (d : Dev) : Res := .fault 0x01 0 0xFF d

/-- The instruction completes: the runner r goes on after it. -/
def goOn (r : Runner) (pre : Option W32) (k : Clk) (d : Dev) : Res := .done k ((r.jump (r.after pre)).put d)

/-- A trap of a control core (R84): KIND, code or line, the pc saved, and for a fault its address. -/
def Core.trap (x : Core) (kind code : Nat) (saved : W64) (addr : Option W64) : Core :=
  { x with
    savedSt := x.st, savedPc := saved, cause := w64 (kind * 256 + code), faultAddr := addr.getD x.faultAddr
    st := 2, pc := x.trapBase + w64 (0x100 * kind), dozing := false }

/-- A fault is taken: a brew ends with a record, a core traps. -/
def takeFault (r : Runner) (code : Nat) (addr : W64) (lane : Nat) (k : Clk) (d : Dev) : Dev :=
  match r with
  | .slot i _ => settle k (killBrew i code addr lane d)
  | .core c x => setCore c (x.trap 0 code x.pc (some addr)) d

/-- The end of an instruction. -/
def Res.close (r : Runner) (k : Clk) : Res → Clk × Dev
  | .fault code addr lane d => (k, takeFault r code addr lane k d)
  | .done k d => (k, d)

/-- A runner runs its next instruction, if that is of the class a command names. A fetch that faults and a word of no class belong to no one
class: whichever command comes takes the fault. (DEDUCED, log entry 26.) -/
def runAs (op : Op) (who : Who) (f : Runner → Option W32 → W32 → Clk → Dev → Res) (k : Clk) (d : Dev) : Clk × Dev :=
  match runnerOf who k d with
  | none => (k, d)
  | some r =>
    let y := r.fetch d
    match y.1 with
    | .fault code addr => (k, takeFault r code addr 0xFF k y.2)
    | .instr pre w =>
      match classify r.isCore pre w with
      | none => (k, takeFault r 0x01 0 0xFF k y.2)
      | some o => if o = op then (f r pre w k y.2).close r k else (k, d)

/-- A command that runs an instruction of a class on a runner. (DEDUCED, log entry 26.) -/
def runClass (op : Op) (who : Who) (f : Runner → Option W32 → W32 → Clk → Dev → Res) (s : State) : Host.Outcome State Fault Refusal :=
  onClk s (runAs op who f)

/-- A step that only a brew takes. -/
def onBrew (f : Nat → Brew → Option W32 → W32 → Clk → Dev → Res) : Runner → Option W32 → W32 → Clk → Dev → Res
  | .slot i b, pre, w, k, d => f i b pre w k d
  | .core _ _, _, _, _, d => illegal d

/-- A step that only a control core takes. -/
def onCore (f : Nat → Core → W32 → Clk → Dev → Res) : Runner → Option W32 → W32 → Clk → Dev → Res
  | .slot _ _, _, _, _, d => illegal d
  | .core c x, _, w, k, d => f c x w k d

end Sys2Proof.Machine
end

