-- ==== Sys2Proof/Machine/CoreOps.lean ====
section
/-!
DEFINITION. The PRIV operations of a control core, and its interrupts (R82 to R85).
-/

namespace Sys2Proof.Machine

/-- IRQ_PEND: the event lines routed to the control firmware (R85, R388). -/
def irqPend (d : Dev) : W64 :=
  (List.range 64).foldl (fun v n => v ||| bitIf n (lineLevel d n && rb d (Reg.SYS_EVT_ROUTE n) 30)) 0

/-- The lowest line that is pending and that a core enables. -/
def irqLine (d : Dev) (x : Core) : Option Nat := (List.range 64).find? fun n => bit (irqPend d &&& x.irqEn) n

/-- A core register; none: no such number (R85). -/
def coreRead (n c : Nat) (x : Core) (k : Clk) (d : Dev) : Option W64 :=
  match n with
  | 0x00 => some x.st
  | 0x01 => some x.savedSt
  | 0x02 => some x.savedPc
  | 0x03 => some x.trapBase
  | 0x04 => some x.cause
  | 0x05 => some x.faultAddr
  | 0x06 => some (irqPend d)
  | 0x07 => some x.irqEn
  | 0x08 => some (w64 c)
  | 0x09 => some (shortOf (now k))
  | _ =>
    if 0x20 ≤ n ∧ n < 0x28 then some (Tab.get 0 x.areaBase (n - 0x20))
    else if 0x28 ≤ n ∧ n < 0x30 then some (Tab.get 0 x.areaLimit (n - 0x28))
    else none

/-- The page field of an area register. -/
def pageMask : W64 := 0xFFFFFFFFF000

/-- A write of a core register; none: no such number, or a read-only one (R85). Reserved bits stay zero. -/
def coreWrite (n : Nat) (v : W64) (x : Core) : Option Core :=
  match n with
  | 0x00 => some { x with st := v &&& 3 }
  | 0x01 => some { x with savedSt := v &&& 3 }
  | 0x02 => some { x with savedPc := v }
  | 0x03 => some { x with trapBase := v &&& ~~~ 0x3FF }
  | 0x04 => some { x with cause := v &&& 0x3FF }
  | 0x05 => some { x with faultAddr := v }
  | 0x07 => some { x with irqEn := v }
  | _ =>
    if 0x20 ≤ n ∧ n < 0x28 then some { x with areaBase := Tab.put 0 x.areaBase (n - 0x20) (v &&& (pageMask ||| 7)) }
    else if 0x28 ≤ n ∧ n < 0x30 then some { x with areaLimit := Tab.put 0 x.areaLimit (n - 0x28) (v &&& pageMask) }
    else none

/-- A well-formed PRIV operation is checked for its mode: in TASK mode every one but CALLP takes PRIV_VIOL (R84). -/
def privileged (x : Core) (legal : Bool) (d : Dev) (r : Res) : Res :=
  if !legal then illegal d else if x.privileged then r else .fault 0x07 0 0xFF d

/-- IMM [11:8] is zero. -/
def privFields (w : W32) : Bool := fld w 8 4 == 0

/-- D, A and IMM [11:0] are zero. -/
def privEmpty (w : W32) : Bool := dOf w == 0 && aOf w == 0 && fld w 0 12 == 0

/-- GETC. -/
def execGetc (c : Fin 4) (s : State) : Host.Outcome State Fault Refusal :=
  runClass .getc (.core c) (onCore fun c x w k d =>
    match coreRead (fld w 0 8) c x k d with
    | some v => privileged x (privFields w) d (goOn (.core c (x.setG (dOf w) v)) none k d)
    | none => illegal d) s

/-- SETC. -/
def execSetc (c : Fin 4) (s : State) : Host.Outcome State Fault Refusal :=
  runClass .setc (.core c) (onCore fun c x w k d =>
    match coreWrite (fld w 0 8) (x.gReg (aOf w)) x with
    | some y => privileged x (privFields w) d (goOn (.core c y) none k d)
    | none => illegal d) s

/-- RESUME. -/
def execResume (c : Fin 4) (s : State) : Host.Outcome State Fault Refusal :=
  runClass .resume (.core c) (onCore fun c x w k d =>
    privileged x (privEmpty w) d (.done k (setCore c { x with st := x.savedSt, pc := x.savedPc } d))) s

/-- DOZE: an enabled line that is pending already ends it at once, and with IEN set the core takes the interrupt (R85). -/
def execDoze (c : Fin 4) (s : State) : Host.Outcome State Fault Refusal :=
  runClass .doze (.core c) (onCore fun c x w k d =>
    privileged x (privEmpty w) d (match irqLine d x with
      | some n => if x.ien then .done k (setCore c (x.trap 2 n (x.pc + 4) none) d) else goOn (.core c x) none k d
      | none => goOn (.core c { x with dozing := true }) none k d)) s

/-- CALLP: KIND 1 with code 0x08. -/
def execCallp (c : Fin 4) (s : State) : Host.Outcome State Fault Refusal :=
  runClass .callp (.core c) (onCore fun c x w k d =>
    if privEmpty w then .done k (setCore c (x.trap 1 0x08 (x.pc + 4) none) d) else illegal d) s

/-- A line that is pending and enabled ends a core's doze; with IEN set the core takes the interrupt (R85). -/
def dozeWake (c : Nat) (d : Dev) : Dev :=
  let x := coreAt d c
  match irqLine d x with
  | some n =>
    if x.running && x.dozing then
      setCore c (if x.ien then x.trap 2 n x.pc none else { x with dozing := false }) d
    else d
  | none => d

/-- DOZE_WAKE. -/
def execDozeWake (c : Fin 4) (s : State) : Host.Outcome State Fault Refusal := onDev s fun _ => dozeWake c

/-- Between instructions a core with IEN set takes the lowest line that is pending and enabled (R84). -/
def coreInterrupt (c : Nat) (d : Dev) : Dev :=
  let x := coreAt d c
  match irqLine d x with
  | some n => if x.running && x.ien then setCore c (x.trap 2 n x.pc none) d else d
  | none => d

/-- CORE_INTERRUPT. -/
def execCoreInterrupt (c : Fin 4) (s : State) : Host.Outcome State Fault Refusal := onDev s fun _ => coreInterrupt c

end Sys2Proof.Machine
end

