-- ==== Sys2Proof/Machine/Delay.lean ====
section
/-!
DEFINITION. Delay lists (R130 to R137).
-/

namespace Sys2Proof.Machine

/-- Insert a delay entry after every entry due no later (R130). (DEDUCED, log entry 24.) -/
def insertDelay (e : DelayEntry) : List DelayEntry → List DelayEntry
  | [] => [e]
  | y :: r => if earlier e.due y.due then e :: y :: r else y :: insertDelay e r

/-- DELAY into list j of the key's home swarm; a full list stores nothing (R107, R130, R133). -/
def delayInsert (j : Nat) (key : W64) (slot : Nat) (value due : W64) (k : Clk) (d : Dev) : Dev :=
  let s := homeOf d key
  let l := delayList d (4 * s + j)
  if 4096 ≤ l.length then raiseRel 6 (bumpFld (Reg.SWARM_DLY_DROP s) 16 16 1 d)
  else setDelayList (4 * s + j) (insertDelay
    { key, slot, value, due, policy := fld (tmplWord d (keyTmpl key) 3) 19 2, wasLate := earlier due (shortOf (now k)) } l) d

/-- The tick period in nanoseconds (R136). -/
def tickPeriod (d : Dev) : Nat := min 1000000 (max 100 (rd d Reg.SCHED_TICK_PERIOD).toNat)

/-- W (R133): one frame period when the register is 0. (DEDUCED, log entry 24.) -/
def lateWindow (d : Dev) : Nat :=
  let w := (rd d Reg.SCHED_LATE_WINDOW).toNat
  if w = 0 then ((d.frm.run.getD (gridRegs d)).period / ns1).toNat else w

/-- The tick period in force at instant x (R131). (DEDUCED, log entry 24.) -/
def tickStep (x : Time) (d : Dev) : Nat :=
  match d.arr.tickOld with
  | some (p, start) => if x < start then p else tickPeriod d
  | none => tickPeriod d

/-- A write of SCHED_TICK_PERIOD: the period in force goes on up to the first multiple of the new one from now on (R131). -/
def tickPeriodWrite (f : Dev → Dev) (k : Clk) (d : Dev) : Dev :=
  let old := tickStep (now k) d
  let d := f d
  let p : Int := tickPeriod d
  let n := (now k + (ns1 - 1)) / ns1
  let s := n % 2 ^ 64
  onArr (fun a => { a with tickOld := some (old, (n + min ((p - s % p) % p) (2 ^ 64 - s)) * ns1) }) d

/-- The verdict on an entry that is due at tick t, with ticks p apart: released on time, fired late, or dropped (R132, R133). -/
def delayFires (d : Dev) (p : Nat) (t : W64) (e : DelayEntry) : Bool × Bool :=
  let isLate := e.wasLate || earlier e.due (t - w64 p)
  let fires := !isLate || e.policy == 0 || e.policy == 3 || (e.policy == 2 && decide ((t - e.due).toNat ≤ lateWindow d))
  (isLate, fires)

/-- Tick t judges the entries of one list that are due (R132, R133). -/
def judgeList (s j p : Nat) (t : W64) (d : Dev) : Dev :=
  let isDue (e : DelayEntry) : Bool := !e.ready && !later e.due t
  let l := delayList d (4 * s + j)
  let verdicts := (l.filter isDue).map (delayFires d p t)
  let fired := (verdicts.filter fun v => v.1 && v.2).length
  let dropped := (verdicts.filter fun v => !v.2).length
  let d := setDelayList (4 * s + j) ((l.filter fun e => !isDue e || (delayFires d p t e).2).map fun e =>
    if isDue e then { e with ready := true } else e) d
  let d := when (0 < fired) (fun d => raiseRel 7 (bumpFld (Reg.SWARM_DLY_LATE s) 0 16 fired d)) d
  when (0 < dropped) (fun d => raiseRel 8 (bumpFld (Reg.SWARM_DLY_DROP s) 0 16 dropped d)) d

/-- The last tick instant that show time has reached: its short time is a multiple of the period (R131). -/
def tickInstant (k : Clk) (d : Dev) : Time :=
  let n := now k / ns1
  (n - n % 2 ^ 64 % (tickStep (now k) d : Int)) * ns1

/-- Show time reaches a tick instant: every swarm's lists are judged (R131, R132). -/
def delayTick (k : Clk) (d : Dev) : Dev :=
  let t := tickInstant k d
  if due k t then
    forEach (List.range 8) (fun s => forEach (List.range 4) fun j => judgeList s j (tickStep t d) (shortOf t)) d
  else d

/-- DELAY_TICK. -/
def execDelayTick (s : State) : Host.Outcome State Fault Refusal := onDev s delayTick

/-- DELAY_DEFERRED_RELEASE: the entry that waits at its list's head is released when a place is free and the table port comes to the delay
entries (R95, R132). -/
def execDelayDeferredRelease (s : Fin 8) (st : State) : Host.Outcome State Fault Refusal := onDev st fun k d => settle k (serveTurn 1 s d)

/-- A write of SWARM_DLY_CMD[s] (R135). -/
def delayFlush (s : Nat) (lists : Nat) (d : Dev) : Dev :=
  forEach (List.range 4) (fun j d => if lists.testBit j then setDelayList (4 * s + j) [] d else d) d

/-- DELAY_FLUSH. -/
def execDelayFlush (_req : Req) (s : Fin 8) (lists : BitVec 4) (st : State) : Host.Outcome State Fault Refusal :=
  onDev st fun _ => access (Reg.SWARM_DLY_CMD s) (delayFlush s lists.toNat)

/-- The earliest due short time of swarm s (R137). -/
def delayHead (d : Dev) (s : Nat) : W64 :=
  ((List.range 4).filterMap fun j => (delayList d (4 * s + j)).head?).foldl
    (fun (acc : Option W64) e => match acc with
      | some x => if earlier e.due x then some e.due else some x
      | none => some e.due) none |>.getD (-1)

end Sys2Proof.Machine
end

