-- ==== Sys2Proof/Machine/HandOn.lean ====
section
/-!
DEFINITION. The hand-on of released records to their destinations (R126, R127).
-/

namespace Sys2Proof.Machine

/-- A surface record or a queue entry that its destination refuses (R126). (DEDUCED, log entry 36.) -/
def destErr (d : Dev) : Dev := raiseRel 3 (bumpSat Reg.SCHED_DEST_ERR 1 d)

/-- A Kettle surface record is checked against the descriptor in force and written (R126). A descriptor with V = 0 has no
plane and fails the check (DEDUCED). (DEDUCED, log entry 36.) -/
def surfaceRecord (r : Rec) (d : Dev) : Dev :=
  let s := surfDesc d (fld r.dest 48 10)
  let plane := fld r.dest 58 2
  let row := fld r.dest 30 18
  let byte := fld r.dest 0 30
  if descValid s && decide (row < descRows s plane ∧ byte + r.data.length ≤ descPitch s plane) then
    store (ketBase + descRowAt s plane row + byte) r.data d
  else destErr d

/-- The bytes of a record for a queue, as entries of 32 bytes. -/
def queueRecord (r : Rec) (d : Dev) : Dev :=
  forEach (List.range (r.data.length / 32)) (fun i d =>
    let x := quePush (fld r.dest 0 10) (slice r.data (32 * i) 32) d
    if x.1 then x.2 else destErr x.2) d

/-- The destination takes a record; none: it cannot accept it now (R126). -/
def handOn (r : Rec) (k : Clk) (d : Dev) : Option Dev :=
  match fld r.dest 60 4 with
  | 1 => if sacnAccepts k d r then some (onPack (fun p => { p with inbox := p.inbox ++ [r] }) d) else none
  | 2 => some (surfaceRecord r d)
  | 3 => some (queueRecord r d)
  | 4 => some (store (fld r.dest 0 48) r.data d)
  | 5 =>
    let n := fld r.dest 16 4
    if dmxAccepts k d r then some (setDmx n { dmx d n with inbox := (dmx d n).inbox ++ [r] } d) else none
  | 6 => some (rheadCommit (fld r.dest 0 2) d)
  | _ => some d

/-- The first record of a list that its destination accepts, with none of its own brew's before it, is handed on: the list that
is left and the device. -/
def handFirst (k : Clk) (d : Dev) : List W64 → List Rec → Option (List Rec × Dev)
  | _, [] => none
  | held, r :: rest =>
    match (if held.contains r.key then none else handOn r k d) with
    | some d => some (rest, d)
    | none => (handFirst k d (r.key :: held) rest).map fun (l, d) => (r :: l, d)

/-- The oldest released record of flow f, or one of the brews of no flow, goes to its destination when that accepts it
(R121, R126, R127). -/
def recordHandOn (f : Option Nat) (k : Clk) (d : Dev) : Dev :=
  match f with
  | some f =>
    match (flow d f).out with
    | [] => d
    | r :: rest => match handOn r k d with | some d => setFlow f { flow d f with out := rest } d | none => d
  | none =>
    match handFirst k d [] d.arr.loose with
    | some (l, d) => onArr (fun a => { a with loose := l }) d
    | none => d

/-- RECORD_HAND_ON: flow f's oldest released record, or the first record of the brews of no flow that can go. -/
def execRecordHandOn (f : Option (Fin 4096)) (s : State) : Host.Outcome State Fault Refusal :=
  onDev s fun k d => settle k (recordHandOn (f.map Fin.val) k d)

end Sys2Proof.Machine
end

