-- ==== Sys2Proof/Machine/Timecode.lean ====
section
/-!
DEFINITION. Timecode and MIDI (R265 to R267, R270). The LTC and MIDI waveforms are not drawn: a frame or byte is named by its content and
the tick at which it begins.
-/

namespace Sys2Proof.Machine

/-- An update of the timecode and MIDI state. -/
def onSlow (f : Slow → Slow) (d : Dev) : Dev := { d with slow := f d.slow }

/-! Receive queues (R265, R267). -/

/-- LTC_RX_FRAME: a frame has been decoded whose bit 0 began `ago` ns ago. -/
def execLtcRxFrame (tc user : W32) (ago : Nat) (s : State) : Host.Outcome State Fault Refusal :=
  onDev s fun k d =>
    if !rb d Reg.LTC_RX_CTL 0 then d
    else if 16 ≤ d.slow.ltcRx.length then raiseLtc 1 (bumpFld Reg.LTC_RX_STAT 16 16 1 d)
    else
      raiseLtc 0 (onSlow (fun x => { x with ltcRx := x.ltcRx ++
        [{ value := tc &&& 0x7F3F3F3F, user, stamp := now k - ago * ns1 }] }) d)

/-- A read of LTC_RX_TC removes the oldest entry and snapshots the rest (R265). -/
def ltcPop (req : Req) (d : Dev) : Dev :=
  let give (v user : W32) (t : W64) (d : Dev) : Dev :=
    ret v (snap req Reg.LTC_RX_USER user (snap req Reg.LTC_RX_TIME_LO (lo32 t) (snap req Reg.LTC_RX_TIME_HI (hi32 t) d)))
  match d.slow.ltcRx with
  | [] => give 0x80000000 0 0 d
  | e :: r => give e.value e.user (shortOf e.stamp) (onSlow (fun x => { x with ltcRx := r }) d)

/-- LTC_RX_POP. -/
def execLtcRxPop (req : Req) (s : State) : Host.Outcome State Fault Refusal :=
  onDev s fun _ => accessRead Reg.LTC_RX_TC (ltcPop req)

/-- MIDI_RX_BYTE: a byte has been received whose start bit began `ago` ns ago. -/
def execMidiRxByte (b : W8) (ago : Nat) (s : State) : Host.Outcome State Fault Refusal :=
  onDev s fun k d =>
    if !rb d Reg.MIDI_CTL 0 then d
    else if 256 ≤ d.slow.midiRx.length then raiseMidi 1 (bumpFld Reg.MIDI_RX_STAT 16 16 1 d)
    else
      raiseMidi 0 (onSlow (fun x => { x with midiRx := x.midiRx ++ [{ value := b.setWidth 32, stamp := now k - ago * ns1 }] }) d)

/-- A read of MIDI_RX removes the oldest byte and snapshots its stamp (R267). -/
def midiPop (req : Req) (d : Dev) : Dev :=
  let give (v : W32) (t : W64) (d : Dev) : Dev :=
    ret v (snap req Reg.MIDI_RX_TIME_LO (lo32 t) (snap req Reg.MIDI_RX_TIME_HI (hi32 t) d))
  match d.slow.midiRx with
  | [] => give 0x80000000 0 d
  | e :: r => give e.value (shortOf e.stamp) (onSlow (fun x => { x with midiRx := r }) d)

/-- MIDI_RX_POP. -/
def execMidiRxPop (req : Req) (s : State) : Host.Outcome State Fault Refusal :=
  onDev s fun _ => accessRead Reg.MIDI_RX (midiPop req)

/-! Sending MIDI (R267). -/

/-- A write of MIDI_TX queues a byte, or is discarded and counted (R267). -/
def midiTxWrite (v : W32) (d : Dev) : Dev :=
  if 256 ≤ d.slow.midiTx.length then raiseMidi 2 (bumpFld Reg.MIDI_TX_STAT 16 16 1 d)
  else onSlow (fun x => { x with midiTx := x.midiTx ++ [v.truncate 8] }) d

/-- MIDI_TX_WRITE. -/
def execMidiTxWrite (_req : Req) (v : W32) (s : State) : Host.Outcome State Fault Refusal :=
  onDev s fun _ => access Reg.MIDI_TX (midiTxWrite v)

/-- The next byte goes out: a quarter-frame message before the queue, 320 µs after the byte before (R267). -/
def midiSend (k : Clk) (d : Dev) : Dev :=
  let free := d.slow.midiLast.elim true fun y => decide (400000 ≤ since k y.2)
  if rb d Reg.MIDI_CTL 0 && free && !d.sys.tripped then
    onSlow (fun x =>
      match x.mtc, x.midiTx with
      | b :: r, _ => { x with mtc := r, midiLast := some (b, k.ticks) }
      | [], b :: r => { x with midiTx := r, midiLast := some (b, k.ticks) }
      | [], [] => x) d
  else d

/-- MIDI_TX_BYTE. -/
def execMidiTxByte (s : State) : Host.Outcome State Fault Refusal := onDev s midiSend

/-! The LTC generator (R266). -/

/-- Frames per second by RATE, as the count of frames in a second. -/
def ltcRate (d : Dev) : Nat := match rf d Reg.LTC_TX_CTL 28 2 with | 0 => 24 | 1 => 25 | _ => 30
/-- DIV; 0 means 16. -/
def ltcDiv (d : Dev) : Nat := let v := rf d Reg.LTC_TX_CTL 24 4; if v = 0 then 16 else v
/-- Drop-frame counting: DF at 30. -/
def ltcDrop (d : Dev) : Bool := rb d Reg.LTC_TX_CTL 23 && ltcRate d == 30

/-- The frame count of a timecode word. -/
def tcCount (rate : Nat) (drop : Bool) (w : W32) : Nat :=
  let m := fld w 24 6 * 60 + fld w 16 6
  (m * 60 + fld w 8 6) * rate + fld w 0 6 - if drop then 2 * (m - m / 10) else 0

/-- The timecode word of a frame count, modulo a day. -/
def tcWord (rate : Nat) (drop : Bool) (n : Nat) : W32 :=
  let n := n % if drop then 2589408 else 86400 * rate
  let ten := n % 17982
  let n := if drop then n + 18 * (n / 17982) + 2 * ((ten - 2) / 1798) else n
  w32 (bnat drop * 2 ^ 30 + n / (rate * 3600) % 24 * 2 ^ 24 + n / (rate * 60) % 60 * 2 ^ 16 + n / rate % 60 * 2 ^ 8 + n % rate)

/-- The frame rate divided by DIV is one that FRAME mode supports. -/
def ltcRateOk (d : Dev) (g : Grid) : Bool :=
  let n := g.num.toNat
  let m := g.den.toNat * ltcDiv d
  n * 1001 == 24000 * m || n == 24 * m || n == 25 * m || n * 1001 == 30000 * m || n == 30 * m

/-- An LTC frame begins. (DEDUCED, log entry 51.) -/
def ltcBegin (w : W32) (x : Time) (k : Clk) (d : Dev) : Dev :=
  if d.sys.tripped then d
  else onSlow (fun y => { y with ltcTick := some k.ticks, ltcWord := w, ltcUser := rd d Reg.LTC_TX_USER, ltcInstant := x, quarter := 0 }) d

/-- Boundaries to come near this tick less the offset, with their numbers and instants. -/
def ltcAhead (k : Clk) (d : Dev) : List (W64 × Time) :=
  match emitting k d, d.frm.run with
  | true, some g =>
    let i := g.firstFrom (now k - nsSigned (rd d Reg.LTC_TX_OFS) - k.tb.incr.toNat)
    ((List.range 2).filter fun j => decide (nextIndex d ≤ i + j)).map fun j => (numberFor d (i + j), g.at (i + j))
  | _, _ => []

/-- The boundary whose LTC frame falls due at this tick, and the instant of its frame (R266). -/
def ltcDue (k : Clk) (d : Dev) : Option (W64 × Time) :=
  let ofs := nsSigned (rd d Reg.LTC_TX_OFS)
  ((d.slow.ltcBounds ++ ltcAhead k d).map fun (f, b) => (f, b + ofs)).find? fun (f, x) =>
    f.toNat % ltcDiv d == 0 && due k x && d.slow.ltcFrame.elim true (fun g => decide (g < f))

/-- Boundary f is emitted at instant b: F0 is the first after the enable with F mod DIV = 0, and its LTC frame may be to come (R266). -/
def ltcBoundary (f : W64) (b : Time) (k : Clk) (d : Dev) : Dev :=
  if rb d Reg.LTC_TX_CTL 31 && f.toNat % ltcDiv d == 0 then
    onSlow (fun x => { x with
      ltcFirst := x.ltcFirst <|> some f
      ltcBounds := (x.ltcBounds.filter fun y => decide (now k - k.tb.incr.toNat < y.2 + nsSigned (rd d Reg.LTC_TX_OFS))) ++ [(f, b)] }) d
  else d

/-- FRAME mode: the frame of a boundary begins (R266). -/
def ltcFrameMode (k : Clk) (d : Dev) : Dev :=
  match d.frm.run with
  | none => d
  | some g =>
    if !ltcRateOk d g then raiseLtc 2 (onSlow (fun x => { x with ltcStopped := true, ltcTick := none }) d)
    else if d.frm.holding then d
    else
      match ltcDue k d with
      | none => d
      | some (f, x) =>
        let f0 := d.slow.ltcFirst.getD f
        let n := tcCount (ltcRate d) (ltcDrop d) (rd d Reg.LTC_TX_START) + (f - f0).toNat / ltcDiv d
        ltcBegin (tcWord (ltcRate d) (ltcDrop d) n) x k (onSlow (fun y => { y with
          ltcFirst := some f0, ltcFrame := some f, ltcBounds := y.ltcBounds.filter fun z => z.1 != f }) d)

/-- TIME mode: a frame begins at a whole multiple of the frame time of show time plus TOD (R266). -/
def ltcTimeMode (k : Clk) (d : Dev) : Dev :=
  let r := ltcRate d
  let tod : Time := (rd d Reg.LTC_TX_TOD).toInt * sec1
  let i := (now k + tod) * r / sec1
  let x := i * sec1 / r - tod
  if due k x then ltcBegin (tcWord r false (i % (86400 * r)).toNat ||| bitIf 30 (rb d Reg.LTC_TX_CTL 23)) x k d else d

/-- LTC_TX_FRAME: the generator begins a frame when one falls due. -/
def execLtcTxFrame (s : State) : Host.Outcome State Fault Refusal :=
  onDev s fun k d =>
    if !rb d Reg.LTC_TX_CTL 31 || d.slow.ltcStopped then d
    else if rb d Reg.LTC_TX_CTL 30 then ltcTimeMode k d
    else ltcFrameMode k d

/-- A write of LTC_TX_CTL: EN going to 1 begins afresh (R266). -/
def ltcCtlWrite (v : W32) (d : Dev) : Dev :=
  let was := rb d Reg.LTC_TX_CTL 31
  let d := putReg Reg.LTC_TX_CTL v d
  if bit v 31 != was then onSlow (fun x => { x with ltcFirst := none, ltcBounds := [], ltcFrame := none, ltcTick := none, ltcStopped := false }) d else d

/-- Ticks of an LTC frame. (DEDUCED, log entry 51.) -/
def ltcTicks (d : Dev) : Nat :=
  if rb d Reg.LTC_TX_CTL 30 then 1250000000 / ltcRate d
  else let g := d.frm.run.getD (gridRegs d); g.den.toNat * ltcDiv d * 1250000000 / g.num.toNat

/-- The data byte of quarter-frame piece p of a time address (MIDI timecode). -/
def mtcByte (d : Dev) (w : W32) (p : Nat) : W8 :=
  let kind := match ltcRate d with | 24 => 0 | 25 => 1 | _ => if bit w 30 then 2 else 3
  let v := match p with
    | 0 => fld w 0 4 | 1 => fld w 4 2 | 2 => fld w 8 4 | 3 => fld w 12 2 | 4 => fld w 16 4 | 5 => fld w 20 2 | 6 => fld w 24 4
    | _ => fld w 28 1 + 2 * kind
  BitVec.ofNat 8 (p * 16 + v)

/-- A quarter of the LTC frame period has come: its message goes ahead of the queue (R267). -/
def mtcQuarter (k : Clk) (d : Dev) : Dev :=
  match d.slow.ltcTick with
  | some t =>
    let x := d.slow
    if rb d Reg.MIDI_CTL 1 && rb d Reg.LTC_TX_CTL 31 && decide (x.quarter < 4) && decide (x.quarter * ltcTicks d ≤ 4 * since k t) then
      let w := if x.piece = 0 then x.ltcWord else x.mtcWord
      onSlow (fun x => { x with
        mtc := x.mtc ++ [0xF1, mtcByte d w x.piece], mtcWord := w, piece := (x.piece + 1) % 8, quarter := x.quarter + 1 }) d
    else d
  | none => d

/-- MTC_QUARTER_FRAME. -/
def execMtcQuarterFrame (s : State) : Host.Outcome State Fault Refusal := onDev s mtcQuarter

end Sys2Proof.Machine
end

