-- ==== Sys2Proof/Machine/Frame.lean ====
section
/-!
DEFINITION. Steps and sets of show time (R24 to R27), the frame clock (R34 to R41, R414), and what a boundary brings.
-/

namespace Sys2Proof.Machine

/-- An update of the frame clock. -/
def onFrm (f : Frm → Frm) (d : Dev) : Dev := { d with frm := f d.frm }

/-! What the active tells its partner (R279). -/

/-- The frame-clock state of the grid in use, as the TIME channel carries it. (DEDUCED, log entry 23.) -/
def frameState (d : Dev) : Option (List W8) :=
  d.frm.run.map fun g => messageBytes 13 [biasNow d, w64 (bnat d.frm.holding), g.sec, g.ns.setWidth 64, g.num.setWidth 64,
    g.den.setWidth 64, (rd d Reg.FRM_STEP_POLICY).setWidth 64, (rd d Reg.FRM_HOLD_MAX).setWidth 64]

/-- The active sends its frame-clock state (R279). -/
def tellFrame (k : Clk) (d : Dev) : Dev :=
  match d.pair.mode == .active, frameState d with
  | true, some l => cricketSend 0 l k d
  | _, _ => d

/-- The active sends a step or a set, 6 or 9, by its seconds, nanoseconds and FRAC, and its frame-clock state (R279). -/
def tellStep (kind : Nat) (t : Time) (k : Clk) (d : Dev) : Dev :=
  if d.pair.mode == .active then
    tellFrame k (cricketSend 0 (messageBytes kind [secOf t, (nsOf t).setWidth 64, (fracOf t).setWidth 64]) k d)
  else d

/-! Steps (R24 to R27, R39 to R41, R414). -/

/-- Frames that a skip suppressed and that are numbered again, since no boundary has followed the skip, are no longer skipped. -/
def forgetSkip (x : Frm) : Frm := if x.skipped then { x with skipped := false, gaps := x.gaps.dropLast } else x

/-- The first boundary of the run is chosen afresh from the grid in use and show time (R37, R414). (DEDUCED, log entry 22.) -/
def chooseFirst (k : Clk) (d : Dev) : Dev :=
  match d.frm.run with
  | some g => onFrm (fun x => { x with next := g.firstFrom (now k) }) d
  | none => d

/-- A renumbering: the next boundary is the first grid instant from now on, one above the last frame number (R39, R40). -/
def renumber (g : Grid) (k : Clk) (d : Dev) : Dev :=
  let d := when d.frm.holding (fun d => raiseFrm 1 (onFrm (fun x => { x with holding := false }) d)) d
  let i := g.firstFrom (now k)
  let d := onFrm (fun x => { forgetSkip x with next := i, bias := x.lastFrame + 1 - w64 i }) d
  let d := raiseFrm 2 (bump Reg.FRM_RENUMBER_COUNT 1 d)
  forEach (List.range 10) (fun p => calDiscard p 0x10 (fun _ => true)) d

/-- The frame clock after a backward step of a run with a boundary (R39, R40). Instants that a forward skip has passed since the last
boundary stay skipped. (DESIGN CHOICE, log entry 89.) -/
def stepBack (g : Grid) (k : Clk) (d : Dev) : Dev :=
  let span := d.frm.lastB - now k
  if span ≤ 0 then d
  else if !rb d Reg.FRM_STEP_POLICY 0 && decide (span ≤ (rd d Reg.FRM_HOLD_MAX).toNat * 1000 * ns1) then
    if d.frm.holding then d
    else raiseFrm 0 (bump Reg.FRM_HOLD_COUNT 1 (onFrm (fun x => { x with holding := true }) d))
  else renumber g k d

/-- The frame clock after a forward step of a run with a boundary: grid instants before the new show time are skipped (R41). -/
def stepOver (g : Grid) (k : Clk) (d : Dev) : Dev :=
  let i := g.firstFrom (now k)
  let x := d.frm
  if i ≤ x.next then d
  else
    let n := i - x.next
    let first := BitVec.ofNat 18 (w64 x.next + x.bias + 1).toNat
    let gaps := match x.skipped, x.gaps.getLast? with
      | true, some (f, m) => x.gaps.dropLast ++ [(f, m + n)]
      | _, _ => x.gaps ++ [(first, n)]
    let d := raiseFrm 3 (bump Reg.FRM_FRAMES_SKIPPED n (onFrm (fun x => { x with next := i, skipped := true, gaps }) d))
    dmxSkip x.lastFrame (w64 i + x.bias) (sacnSkip x.lastFrame (w64 i + x.bias) d)

/-- What a step from show time `old` to the present show time does to the scheduled work and the frame clock (R27, R39 to R41, R414);
`valid` says that TIME_VALID was 1 before it. (DEDUCED, log entry 22.) -/
def afterStep (old : Time) (valid : Bool) (k : Clk) (d : Dev) : Dev :=
  let d := when (decide (old < now k)) (forEach (List.range 10) (fun p =>
    calDiscard p 0x10 (fun a => decide (a.ws < nowW k)))) d
  let d := when (decide (now k < old)) (fun d => perOutRecur (dmxStepBack k d)) d
  match d.frm.run with
  | none => d
  | some g =>
    if !d.frm.firstDone then (if now k = old ∧ valid then d else chooseFirst k d)
    else if now k < old then stepBack g k d
    else if old < now k then stepOver g k d
    else d

/-- A signed count of nanoseconds, truncated toward zero and saturating (R24, R43). -/
def stepSize (diff : Time) : W64 :=
  BitVec.ofInt 64 (max (-(2 ^ 63 - 1)) (min (2 ^ 63 - 1) (diff.tdiv ns1)))

/-- Show time moves at this tick to what the timebase `tb` gives (R24, R26). -/
def moveTime (tb : Timebase) (k : Clk) (d : Dev) : Clk × Dev :=
  let k' : Clk := { k with tb := { tb with timeValid := true } }
  let k' : Clk := { k' with tb := { k'.tb with floor := now k' } }
  let d := wr64 Reg.TB_STEP_LAST_LO (stepSize (now k' - now k)) d
  let d := raiseTb 0 (bump Reg.TB_STEP_COUNT 1 d)
  (k', afterStep (now k) k.tb.timeValid k' d)

/-- A signed step of show time, applied or rejected (R24, R25). -/
def stepTime (diff : Time) (k : Clk) (d : Dev) : Clk × Dev :=
  if diff = 0 then
    let k' : Clk := { k with tb := { k.tb with timeValid := true } }
    (k', afterStep (now k) k.tb.timeValid k' d)
  else if now k + diff < 0 then (k, raiseTb 3 d)
  else moveTime { k.tb with offset := k.tb.offset + diff } k d

/-- A set of show time (R24). -/
def setTime (t : Time) (k : Clk) (d : Dev) : Clk × Dev := moveTime { k.tb with offset := t, anchor := k.ticks } k d

/-- TB_CMD.STEP: the step is the committed value (R24, R25). -/
def tbStep (k : Clk) (d : Dev) : Clk × Dev :=
  let diff := (rd64 d Reg.TB_STEP_LO).toInt * ns1
  let x := stepTime diff k d
  if now k + diff < 0 then x else (x.1, tellStep 6 diff x.1 x.2)

/-- TB_CMD.SET (R24, R25). -/
def tbSet (k : Clk) (d : Dev) : Clk × Dev :=
  if 999999999 < (rd d Reg.TB_SET_NS).toNat then (k, raiseTb 3 d)
  else
    let t := timeOf (rd64 d Reg.TB_SET_SEC_LO) (rd d Reg.TB_SET_NS)
    let x := setTime t k d
    (x.1, tellStep 9 t x.1 x.2)

/-- A write of TB_CMD by a requester: SET takes the place of STEP when both are written (R25, R28, R29). -/
def tbCmd (req : Req) (v : W32) (k : Clk) (d : Dev) : Clk × Dev :=
  if csrShut d Reg.TB_CMD then (k, d)
  else if foreign d req then (k, raiseTb 4 d)
  else if bit v 0 then tbSet k d
  else if bit v 1 then tbStep k d
  else (k, d)

/-- TB_CMD_STEP. -/
def execTbCmdStep (req : Req) (s : State) : Host.Outcome State Fault Refusal := onClk s (tbCmd req 2)

/-- TB_CMD_SET. -/
def execTbCmdSet (req : Req) (alsoStep : Bool) (s : State) : Host.Outcome State Fault Refusal :=
  onClk s (tbCmd req (if alsoStep then 3 else 1))

/-! Applies (R36 to R38, R414). -/

/-- A run begins with the grid that the registers name (R36, R37, R414). -/
def runStart (g : Grid) (k : Clk) (d : Dev) : Dev :=
  let d := onFrm (fun x => { x with run := some g, firstDone := false, next := g.firstFrom (now k), holding := false, emitted := [] }) d
  rasterRegrid (dmxRun (sacnRun (onFrm forgetSkip d)))

/-- FRM_CTL.EN goes to 1: an enabling apply (R36). A slaved unit discards its own applies (R44). (DEDUCED, log entry 23.) -/
def frmEnable (k : Clk) (d : Dev) : Dev :=
  let d := wrBit Reg.FRM_CTL 0 true d
  if d.pins.pairSlaved then d
  else if (gridRegs d).ok then tellFrame k (runStart (gridRegs d) k d)
  else raiseFrm 5 (wrBit Reg.FRM_CTL 0 false d)

/-- FRM_CTL.EN goes to 0: the run ends at once (R38). -/
def frmDisable (d : Dev) : Dev :=
  onFrm (fun x => { x with run := none, firstDone := false, holding := false, emitted := [] }) (wrBit Reg.FRM_CTL 0 false d)

/-- A write of FRM_CTL. -/
def frmCtlWrite (v : W32) (k : Clk) (d : Dev) : Dev :=
  if bit v 0 && !rb d Reg.FRM_CTL 0 then frmEnable k d
  else if !bit v 0 && rb d Reg.FRM_CTL 0 then frmDisable d
  else d

/-- A grid replaces the one in use (R38, R414). Instants are compared as R34 states them, floored to 2^-32 ns. (DESIGN CHOICE, log
entry 89.) -/
def regrid (g : Grid) (k : Clk) (d : Dev) : Dev :=
  let x := d.frm
  let d :=
    if x.firstDone then
      let i := g.firstFrom (max (now k) (x.lastB + (g.den.toNat * 500000000 * 2 ^ 48 / g.num.toNat : Nat)))
      onFrm (fun x => { forgetSkip x with run := some g, next := i, bias := x.lastFrame + 1 - w64 i }) d
    else onFrm (fun x => { x with run := some g, next := g.firstFrom (now k) }) d
  rasterRegrid (raiseFrm 4 d)

/-- FRM_CMD.APPLY (R36, R38, R414). -/
def frmApply (k : Clk) (d : Dev) : Dev :=
  if d.pins.pairSlaved || d.frm.run.isNone then d
  else if (gridRegs d).ok then tellFrame k (regrid (gridRegs d) k d)
  else raiseFrm 5 d

/-- FRM_ENABLE: a write of FRM_CTL with EN at 1. -/
def execFrmEnable (_req : Req) (s : State) : Host.Outcome State Fault Refusal :=
  onDev s fun k => access Reg.FRM_CTL (frmCtlWrite 1 k)

/-- FRM_DISABLE: a write of FRM_CTL with EN at 0. -/
def execFrmDisable (_req : Req) (s : State) : Host.Outcome State Fault Refusal :=
  onDev s fun k => access Reg.FRM_CTL (frmCtlWrite 0 k)

/-- FRM_APPLY: a write of FRM_CMD with APPLY at 1. -/
def execFrmApply (_req : Req) (s : State) : Host.Outcome State Fault Refusal :=
  onDev s fun k => access Reg.FRM_CMD (frmApply k)

/-! Boundaries (R9, R10, R35, R91, R387). -/

/-- The templates that subscribe to frame leaves, in ascending order (R88, R91). -/
def subscribers (d : Dev) : List Nat :=
  d.arr.tmpl.filterMap fun (a, w) => if a % 4 = 3 ∧ bit w 31 ∧ bit w 29 then some (a / 4) else none

/-- What the array receives at boundary n of instant b: inputs that arrived before it (R9), frame leaves, and the moments that boundaries
count (R91, R98, R111, R124). (DEDUCED, log entry 34; DESIGN CHOICE, log entry 90.) -/
def arrayBoundary (n : W64) (b : Time) (k : Clk) (d : Dev) : Dev :=
  let d := if straddled b k d then onFrm (fun x => { x with latching := some (n, b) }) d else latchInputs n b k d
  let early (x : Push) : Bool := decide (now k - since k x.tick * k.tb.incr.toNat < b)
  let d := onArr (fun a => { a with inputs := a.inputs ++ a.latched.filter early, latched := a.latched.filter fun x => !early x }) d
  let leaves := (subscribers d).map fun t => (t, n + 1)
  let d := onArr (fun a => { a with frameLeaves := a.frameLeaves ++ leaves }) d
  flowsTakeFrame (sweep (ageMarkers d))

/-- PMON's actions at boundary n, before its increments (R387). -/
def pmonBoundary (n : W64) (d : Dev) : Dev :=
  let ctl := rd d Reg.PMON_CTL
  let d := when (bit ctl 3) (fun d =>
    wr64 Reg.PMON_SNAP_FRAME_LO n (forEach (List.range 32) (fun i d =>
      wr64 (Reg.PMON_SNAP_LO i) (rd64 d (Reg.PMON_CNT_LO i)) d) d)) d
  let en := (bit ctl 0 || bit ctl 1) && !bit ctl 2
  wr Reg.PMON_CTL (setBit (setFld ctl 1 2 0) 0 en) d

/-- The next boundary is emitted (R35, R37, R414), PMON's actions first (R387). A first boundary that is renumbered does not count in
FRM_RENUMBER_COUNT. (DESIGN CHOICE, log entry 96.) -/
def emitBoundary (g : Grid) (k : Clk) (d : Dev) : Dev :=
  let i := nextIndex d
  let n := numberFor d i
  let d := latchNow k (pmonBoundary n (settleCounts k d))
  let was := d.frm
  let b := g.at i
  let first := !d.frm.firstDone
  let d := when (first && !d.pins.pairSlaved && n != w64 i) (raiseFrm 2) d
  let c := BitVec.ofNat 18 (n + 1).toNat
  let d := onFrm (fun x => { x with
    firstDone := true, next := i + 1, lastB := b, everEmitted := true, lastFrame := n, bias := n - w64 i, skipped := false
    emitted := if x.emitted.contains b then x.emitted else x.emitted ++ [b]
    cur := c, leavesIssued := true
    gaps := x.gaps.filter fun y => decide ((c - y.1).toNat < 2 ^ 17 ∨ (y.1 - c).toNat < 2) }) d
  let d := arrayBoundary n b k d
  let d := syncBoundary n was.lastFrame was.lastB d
  let d := ltcBoundary n b k (when first (fun d => dmxFirst n (sacnFirst n b d)) d)
  tellFrame k (pairBoundary n b k (calBoundary (pmon 2 1 d)))

/-- BOUNDARY_EMIT: the frame clock emits its next boundary at the first tick at or after its instant (R35). -/
def execBoundaryEmit (s : State) : Host.Outcome State Fault Refusal :=
  onDev s fun k d =>
    match nextBoundary k d, d.frm.run with
    | some (_, b), some g => if b ≤ now k then emitBoundary g k d else d
    | _, _ => d

end Sys2Proof.Machine
end

