-- ==== Sys2Proof/Machine/PairTime.lean ====
section
/-!
DEFINITION. Time transfer on the slaved unit of a pair (R278, R279).
-/

namespace Sys2Proof.Machine

/-- PAIR_TT_OFFSET: a signed count of picoseconds, saturating (R278, R303). -/
def ttOffset (ps : Int) : W32 := BitVec.ofInt 32 (max (-(2 ^ 31 - 1)) (min (2 ^ 31 - 1) ps))

/-- The increments that R23 accepts: the least, and how many there are. -/
def incrLeast : Nat := (7992 * 2 ^ 48 + 9999) / 10000
/-- How many increments R23 accepts. -/
def incrCount : Nat := 8008 * 2 ^ 48 / 10000 + 1 - incrLeast

/-- TB_INCR is adjusted to the partner's clock (R278): how far is open, the limit of R23 holds. (DESIGN CHOICE, log entry 59.) -/
def ttAdjust (k : Clk) (d : Dev) : Clk × Dev :=
  let x := free d
  (reanchor (BitVec.ofNat 56 (incrLeast + x.1.toNat % incrCount)) k, x.2)

/-- TT_LOCK after an exchange with twice its offset θ (R278): every 16 consecutive exchanges beyond 1 ns raise TT_UNLOCK.
(DEDUCED, log entry 54.) -/
def ttJudge (twice : Time) (d : Dev) : Dev :=
  if twice.natAbs ≤ 2 ^ 49 then onPair (fun p => { p with ttLock := true, ttOver := 0 }) d
  else if d.pair.ttOver + 1 < 16 then onPair (fun p => { p with ttOver := p.ttOver + 1 }) d
  else raisePair 13 (onPair (fun p => { p with ttOver := 0, ttLock := false }) d)

/-- A stamp as the words of a message: seconds, nanoseconds and units of 2^-48 ns. -/
def stampWords (t : Time) : List W64 := [secOf t, (nsOf t).setWidth 64, w64 (t % ns1).toNat]

/-- The slaved unit sends a TIME exchange every 10 µs (R278). -/
def timeAsk (k : Clk) (d : Dev) : Dev :=
  if d.pins.pairSlaved && d.pair.trained && decide (12500 ≤ since k d.pair.ttTick) then
    let t1 := blockOut k d
    cricketSend 0 (messageBytes 14 (stampWords t1)) k (onPair (fun p => { p with ttTick := k.ticks, ttAsk := some t1 }) d)
  else d

/-- A time exchange is complete with its four stamps: offset and delay are reported, and the timebase is stepped or adjusted (R278).
(DESIGN CHOICE, log entry 59.) -/
def timeJudge (t1 t2 t3 t4 : Time) (k : Clk) (d : Dev) : Clk × Dev :=
  let o := roundFree (((t2 - t1) - (t4 - t3)) * 1000) (2 ^ 49) d
  let y := roundFree (((t2 - t1) + (t4 - t3)) * 1000) (2 ^ 49) o.2
  let d := wr Reg.PAIR_TT_OFFSET (ttOffset o.1) (wr Reg.PAIR_TT_DELAY (BitVec.ofInt 32 y.1) y.2)
  let twice := (t2 - t1) - (t4 - t3)
  let d := ttJudge twice d
  if 2000 * 2 ^ 48 < twice.natAbs then
    let theta := roundFree twice 2 d
    stepTime (-theta.1) k theta.2
  else ttAdjust k d

/-- The active's answer with t1, t2 and t3 has come; t4 is the stamp of its block. An answer to an exchange that is not the last one sent
counts for nothing (R278). -/
def timeAnswer (t1 t2 t3 : Time) (k : Clk) (d : Dev) : Clk × Dev :=
  let t4 := d.pair.stamps.headD 0
  match takeMessage 0 (messageBytes 15 (stampWords t1 ++ stampWords t2 ++ stampWords t3)) d with
  | none => (k, d)
  | some d =>
    if d.pins.pairSlaved && d.pair.ttAsk == some t1 then timeJudge t1 t2 t3 t4 k (onPair (fun p => { p with ttAsk := none }) d)
    else (k, d)

/-- TIME_EXCHANGE: one is sent, or the answer to one completes it. -/
def execTimeExchange (answer : Bool) (t1 t2 t3 : Time) (s : State) : Host.Outcome State Fault Refusal :=
  onClk s fun k d => if answer then timeAnswer t1 t2 t3 k d else (k, timeAsk k d)

/-- The holding flag comes from the active, with its events (R39, R279). -/
def takeHolding (h : Bool) (d : Dev) : Dev :=
  if h == d.frm.holding then d
  else
    let d := onFrm (fun x => { x with holding := h }) d
    if h then raiseFrm 0 (bump Reg.FRM_HOLD_COUNT 1 d) else raiseFrm 1 d

/-- The active's frame-clock state is taken (R44, R279). -/
def takeFrame (bias : W64) (holding : Bool) (g : Grid) (policy holdMax : W32) (k : Clk) (d : Dev) : Dev :=
  let d := wr64 Reg.FRM_EPOCH_SEC_LO g.sec (wr Reg.FRM_EPOCH_NS g.ns (wr Reg.FRM_RATE_NUM g.num (wr Reg.FRM_RATE_DEN g.den d)))
  let d := wr Reg.FRM_STEP_POLICY policy (wr Reg.FRM_HOLD_MAX holdMax d)
  let d :=
    if !rb d Reg.FRM_CTL 0 then d
    else
      match d.frm.run with
      | none => runStart g k d
      | some g' => if g = g' then d else regrid g k d
  takeHolding (holding && d.frm.run.isSome) (onFrm (fun x => { x with bias }) d)

/-- The active answers a TIME exchange with its stamps of the exchange's arrival and of the answer's departure (R278). -/
def timeReply (t1 t2 : Time) (k : Clk) (d : Dev) : Dev :=
  if d.pair.mode == .active || d.pair.mode == .taking then
    cricketSend 0 (messageBytes 15 (stampWords t1 ++ stampWords t2 ++ stampWords (blockOut k d))) k d
  else d

/-- A message of the TIME channel that has arrived: the active answers an exchange, and the slaved unit applies a step, a set or a state
at once (R278, R279). -/
def timeMessage (m : TimeMessage) (k : Clk) (d : Dev) : Clk × Dev :=
  let content : Nat × List W64 := match m with
    | .ask t1 => (14, stampWords t1)
    | .step sec ns frac => (6, [sec, ns.setWidth 64, frac.setWidth 64])
    | .set sec ns frac => (9, [sec, ns.setWidth 64, frac.setWidth 64])
    | .frame bias h sec ns num den policy holdMax => (13, [bias, w64 (bnat h), sec, ns.setWidth 64, num.setWidth 64, den.setWidth 64,
        policy.setWidth 64, holdMax.setWidth 64])
  let t2 := d.pair.stamps.headD 0
  match takeMessage 0 (messageBytes content.1 content.2) d with
  | none => (k, d)
  | some d =>
    match m, d.pins.pairSlaved with
    | .ask t1, _ => (k, timeReply t1 t2 k d)
    | _, false => (k, d)
    | .step sec ns frac, _ => stepTime (sec.toInt * sec1 + ns.toNat * ns1 + frac.toNat * 2 ^ 16) k d
    | .set sec ns frac, _ => setTime (timeOf sec ns + frac.toNat * 2 ^ 16) k d
    | .frame bias h sec ns num den policy holdMax, _ => (k, takeFrame bias h ⟨sec, ns, num, den⟩ policy holdMax k d)

/-- TIME_MESSAGE. -/
def execTimeMessage (m : TimeMessage) (s : State) : Host.Outcome State Fault Refusal := onClk s (timeMessage m)

end Sys2Proof.Machine
end

