-- ==== Sys2Proof/Machine/System.lean ====
section
/-!
DEFINITION. Resets and start-up (R376 to R380), clocks (R383), temperature (R384, R385, R411), performance monitors (R387) and the
host's interrupts (R388 to R390).
-/

namespace Sys2Proof.Machine

/-! Resets (R377 to R379). -/

/-- The resets that reach every chapter. -/
inductive ResetKind where
  | powerOn
  | pin
  | system
  | recovery
  deriving DecidableEq, Repr

/-- CAUSE of SYS_RESET_CAUSE (R393). -/
def ResetKind.cause : ResetKind → W32
  | .powerOn => 1
  | .pin => 2
  | .system => 3
  | .recovery => 4

/-- The registers that a reset keeps (R378): the timebase's with their snapshots, SYS_STRAPS and the MSI-X table after a RECOVERY reset, and the pair key's.
(DEDUCED, log entry 20.) -/
def keptReg (kind : ResetKind) (a : Nat) : Bool :=
  let tb := [0, snapOf .host 0, snapOf .fw 0].any fun o => decide (o + 0x10000 ≤ a ∧ a < o + 0x18000)
  let key := a == Reg.SCARAB_PAIR_ID_LO || a == Reg.SCARAB_PAIR_ID_HI || decide (Reg.SCARAB_PAIR_PUB 0 ≤ a ∧ a < Reg.SCARAB_PAIR_PUB 25)
  match kind with
  | .powerOn => key
  | .pin => tb || key
  | .system => tb || key
  | .recovery => tb || key || a == Reg.SYS_STRAPS || decide (Reg.MSIX_TABLE 0 ≤ a ∧ a < Reg.MSIX_TABLE 256)

/-- A DRAM address (R49). -/
def isDram (a : Nat) : Bool := decide (dramBase ≤ a ∧ a < dramBase + 2 ^ 36)

/-- A reset ends a move to RETIRED in the new state, with the pair key erased (R360, R361). -/
def resetErases (s : Scarab) (draw : Bool) : Bool := s.move == some .retired && !lcWaits s && draw

/-- Scarab through a reset (R361, R378): fuses and sealed keys stay; a protected window waits for its zeroing, except at power-on. A
move that has not written its fuse ends in the old state, or in the new one where its other actions are complete. (DESIGN CHOICE, log entry
72.) -/
def scarabReset (kind : ResetKind) (s : Scarab) (draw : Bool) : Scarab :=
  let late := draw && !lcWaits s
  let erased := resetErases s draw
  let lc := if late then s.move.getD s.lc else s.lc
  { lc, orderE := s.orderE, uid := s.uid, lot := s.lot, diePos := s.diePos, svn := s.svn, pins := s.pins
    ownerFused := s.ownerFused || (late && s.move == some .deployed && s.lc == .provisioned
      && (List.range 12).any fun w => Tab.get 0 s.pins (96 + w) != 0)
    huk := s.huk
    keyHeld := s.keyHeld && !erased, keyId := if erased then 0 else s.keyId
    pakSealed := if erased then [] else s.pakSealed, pairSig := if erased then [] else s.pairSig
    phase := if kind = .powerOn then .closed
      else match s.phase with
      | .closed => .closed
      | .failing r => .stopping (windowPassed r) none
      | .stopping z _ => .stopping z none
      | _ => .zeroing none
    base := if kind = .powerOn then 0 else s.base, size := if kind = .powerOn then 0 else s.size }

/-- The fused values that registers report at reset (R251, R393). -/
def fusedRegs (d : Dev) : Dev :=
  let id := (d.scarab.uid &&& ~~~ (0xF000C000000000000000 : BitVec 128)) ||| 0x80008000000000000000
  let d := forEach (List.range 4) (fun w => wr (Reg.PACK_CID w) (w32 (id.toNat / 2 ^ (32 * (3 - w))))) d
  when d.scarab.orderE (wr Reg.SYS_THERM_CTL 0x80007369) d

/-- A reset (R378). It happens while every output is silent. (DEDUCED, log entry 20; DESIGN CHOICE, log entry 72.) -/
def devReset (kind : ResetKind) (req : Req) (d : Dev) : Dev :=
  let power := kind = .powerOn
  let e : Dev := { regs := d.regs.filter fun x => keptReg kind x.1
                   mem := if power then [] else d.mem.filter fun x => isDram x.1
                   ecc := if power then [] else d.ecc.filter fun x => isDram (x.1 * 8)
                   dramMiB := d.dramMiB, freeIdx := (free d).2.freeIdx
                   msix := if kind = .recovery then { config := d.msix.config, masked := d.msix.masked, pba := d.msix.pba, sent := d.msix.sent } else { sent := d.msix.sent }
                   pins := if power then {} else { d.pins with
                     pairSlaved := false, ppsOut := false, perOut := [], hsyncLast := none, hsyncSince := none }
                   scarab := scarabReset kind d.scarab (bit (free d).1 0)
                   calib := { mram := d.calib.mram }
                   sys := { gpioIn := d.sys.gpioIn, tap := d.sys.tap, tapHeld := d.sys.tapHeld, boundary := d.sys.boundary, tdo := d.sys.tdo, tripped := d.sys.tripped && !power
                            pcieDown := d.sys.pcieDown && !power } }
  let pcie := kind = .recovery ∧ rb d Reg.SYS_STARTUP_STATUS 1
  let e := wr Reg.SYS_STARTUP_STATUS (bitIf 1 (decide pcie)) e
  let e := wr Reg.SYS_RESET_CAUSE (kind.cause ||| bitIf 8 (req == .fw && decide (kind = .system ∨ kind = .recovery))) e
  let e := when (resetErases d.scarab (bit (free d).1 0)) pairRegsClear e
  let e := fusedRegs e
  { e with bus := { e.bus with sealRun := { start := e.regs } } }

/-- POWER_ON: the tick counter and the timebase are cleared too (R16, R19, R378). -/
def execPowerOn (s : State) : Host.Outcome State Fault Refusal :=
  onClk s fun _ d => (Clk.reset, devReset .powerOn .host d)

/-- SYS_RESET_N: a SYSTEM reset by the ball. -/
def execSysResetN (s : State) : Host.Outcome State Fault Refusal := onDev s fun _ => devReset .pin .host

/-- A write of SYS_RESET_CMD (R393). -/
def resetCmd (req : Req) (v : W32) (d : Dev) : Dev :=
  match fld v 0 2 with
  | 1 => devReset .system req d
  | 2 => devReset .recovery req d
  | _ => putReg Reg.SYS_RESET_CMD v d

/-- SYS_RESET_SYSTEM: SYS_RESET_CMD with KIND SYSTEM. -/
def execSysResetSystem (req : Req) (s : State) : Host.Outcome State Fault Refusal :=
  onDev s fun k => guarded req k Reg.SYS_RESET_CMD 1 (resetCmd req 1)

/-- SYS_RESET_RECOVERY: SYS_RESET_CMD with KIND RECOVERY. -/
def execSysResetRecovery (req : Req) (s : State) : Host.Outcome State Fault Refusal :=
  onDev s fun k => guarded req k Reg.SYS_RESET_CMD 2 (resetCmd req 2)

/-- A LINK reset begins (R377, R378, R390): the DMA channels are aborted and cleared, vectors return to idle, table and PBA clear. -/
def linkResetBegin (d : Dev) : Dev :=
  let d := dmaLinkReset d
  let d := { d with
    msix := { sent := d.msix.sent }
    regs := d.regs.filter fun x => !decide (Reg.MSIX_TABLE 0 ≤ x.1 ∧ x.1 < Reg.MSIX_TABLE 256) }
  raiseSys 0 (bumpSat Reg.SYS_LINK_RESET_COUNT 1 (wrBit Reg.SYS_STARTUP_STATUS 1 false (onSys (fun x => { x with pcieDown := true }) d)))

/-- A LINK reset has ended: the endpoint answers again, in a device that has started (R377, R380, R393). -/
def linkResetEnd (d : Dev) : Dev :=
  when (rb d Reg.SYS_STARTUP_STATUS 10) (stepDone 1) (onSys (fun x => { x with pcieDown := false }) d)

/-- LINK_RESET: it begins, or has ended. -/
def execLinkReset (ended : Bool) (s : State) : Host.Outcome State Fault Refusal :=
  onDev s fun _ => if ended then linkResetEnd else linkResetBegin

/-! Start-up (R376, R380). -/

/-! Secure boot (R364). -/

/-- A field of an image, by its offset and length. -/
abbrev Image := Nat → Nat → List W8

/-- A number in an image. -/
def imageNum (f : Image) (o n : Nat) : Nat := ofLe (f o n)

/-- The number of the first check that an image fails, 0 when it is accepted (R364). -/
def imageCheck (svn : W16) (f : Image) : Nat :=
  let len := imageNum f 8 4
  let entry := imageNum f 12 4
  if !(imageNum f 0 4 == 0x5A424657 && decide (4 ≤ len ∧ len ≤ 1835008 ∧ len % 4 = 0 ∧ entry % 4 = 0 ∧ entry < len)) then 1
  else if Config.sha384 (f 0x108 97) ≠ Config.rootHash then 2
  else if !Config.ecdsaOk (f 0x108 97) (f 0x40 97) (f 0xA8 96) then 3
  else if !Config.ecdsaOk (f 0x40 97) (f 0 0x170) (f 0x170 96) then 4
  else if imageNum f 4 2 < svn.toNat then 5
  else if Config.sha384 (f 0x200 len) ≠ f 0x10 48 then 6
  else 0

/-- SCARAB_BOOT_STATUS (R375): SOURCE, RESULT and the version running. (DEDUCED, log entry 75.) -/
def bootStatus (src result svn : Nat) : W32 := w32 (src * 2 ^ 30 + result * 2 ^ 24 + svn)

/-- An accepted image runs: its body lies in the control SRAM and the cores leave reset at ENTRY (R364, R380). -/
def bootRun (src : Nat) (f : Image) (d : Dev) : Dev :=
  let d := putBytes ctlPlace (f 0x200 (imageNum f 8 4)) d
  let core : Core := { running := true, pc := w64 (0x2000000 + imageNum f 12 4) }
  let d := forEach (List.range 4) (fun c => setCore c core) d
  let d := onScarab (fun s => { s with measurement := Config.sha384 (f 0 0x1D0), runningSvn := BitVec.ofNat 16 (imageNum f 4 2) }) d
  stepDone 6 (wr Reg.SCARAB_BOOT_STATUS (bootStatus src 0 (imageNum f 4 2)) d)

/-- Scarab gives up the SPI controller (R392). -/
def spiRelease (d : Dev) : Dev := wrBit Reg.SPI_STATUS 2 false d

/-- Secure boot tries images in order, and start-up goes on with the first that is accepted (R364, R380). (DEDUCED, log entry 75.) -/
def bootTry (reports : List SliceReport) (k : Clk) : List (Nat × Image) → Dev → Dev
  | [], d => raiseSys 2 (stepDone 30 (spiRelease d))
  | (src, f) :: r, d =>
    let c := imageCheck d.scarab.svn f
    if c = 0 then startupGoOn k (onSys (fun x => { x with startReports := some reports }) (spiRelease (bootRun src f d)))
    else bootTry reports k r (wr Reg.SCARAB_BOOT_STATUS (bootStatus src c 0) d)

/-- A field of an image in SPI NOR. -/
def flashImage (l : List W8) : Image := fun o n => slice l o n

/-- A field of the image that the host placed; zero where no DRAM is installed. -/
def hostImage (d : Dev) : Image := fun o n =>
  let a := (rd64 d Reg.SCARAB_BOOT_ADDR_LO).toNat + o
  if inDram d a n then getBytes d a n else List.replicate n 0

/-- Steps 1 to 7 of start-up (R162, R163, R368, R376, R380). (DESIGN CHOICE, log entry 84.) -/
def startupBegin (bootSrc pairId spiFast : Bool) (reports : List SliceReport) (k : Clk) (d : Dev) : Dev :=
  let recovery := rf d Reg.SYS_RESET_CAUSE 0 4 == 4
  let d := when (!recovery) (wr Reg.SYS_STRAPS (bitIf 0 bootSrc ||| bitIf 1 pairId ||| bitIf 2 spiFast)) (wrBit Reg.SPI_STATUS 2 true d)
  let d := stepDone 0 { stepDone 10 d with pins := { d.pins with pllLock := true } }
  let d := stepDone 2 (wrBit Reg.SPI_CTL 1 true d)
  let d := stepDone 9 (startupSlices 0 2 3 64 reports k (startupSlices 0 1 1 96 reports k d))
  let d := stepDone 3 { d with ket := { d.ket with initDone := !kettleOut d } }
  let d := when (!d.sys.pcieDown) (stepDone 1) (stepDone 4 (zeroDone d))
  calStartup recovery d

/-- Start-up from t0 (R380): in host mode it waits for GO. (DESIGN CHOICE, log entry 84.) -/
def startup (bootSrc pairId spiFast : Bool) (reports : List SliceReport) (primary secondary : List W8) (k : Clk) (d : Dev) : Dev :=
  if rb d Reg.SYS_STARTUP_STATUS 10 then d
  else
    let d := startupBegin bootSrc pairId spiFast reports k d
    if rb d Reg.SYS_STRAPS 0 then bootTry reports k [(0, flashImage primary), (1, flashImage secondary)] d
    else stepDone 5 d

/-- STARTUP: the levels of the straps, what start-up slices found, and the two images in SPI NOR. -/
def execStartup (bootSrc pairId spiFast : Bool) (reports : List SliceReport) (primary secondary : List W8) (s : State) :
    Host.Outcome State Fault Refusal :=
  onDev s (startup bootSrc pairId spiFast reports primary secondary)

/-- A write of SYS_BOOT_CMD.GO, which acts in host mode while no image runs and ends the wait for it; after a rejected image another may
follow (R380). -/
def bootGo (reports : List SliceReport) (k : Clk) (d : Dev) : Dev :=
  if rb d Reg.SYS_STARTUP_STATUS 10 && !rb d Reg.SYS_STRAPS 0 && !rb d Reg.SYS_STARTUP_STATUS 6 then
    bootTry reports k [(2, hostImage d)] (wrBit Reg.SYS_STARTUP_STATUS 5 false d)
  else d

/-- SYS_BOOT_GO. -/
def execSysBootGo (_req : Req) (reports : List SliceReport) (s : State) : Host.Outcome State Fault Refusal :=
  onDev s fun k => access Reg.SYS_BOOT_CMD (bootGo reports k)

/-! Clocks (R383, R384). -/

/-- Swarm s gets the clock step `step`: what its brews and meters counted stands (R383). -/
def setStep (s step : Nat) (k : Clk) (d : Dev) : Dev :=
  let d := settleCounts k d
  let d := forEach (busySlots d) (fun (i, b) =>
    when (slotSwarm i == s) (setBrew i (some { b with cycles := brewCycles k d i b, cycTick := k.ticks }))) d
  settle k (wr (Reg.SWARM_CLK_CTL s) (w32 step) d)

/-- A write of SWARM_CLK_CTL[s]: one that stops the clock of a swarm in the route set, or of one with a brew running, is rejected. -/
def clkWrite (s : Nat) (v : W32) (k : Clk) (d : Dev) : Dev :=
  if fld v 0 3 = 4 ∧ ((routeSet d).testBit s ∨ (busySlots d).any (fun x => slotSwarm x.1 == s)) then raiseSwarm s 0 d
  else setStep s (fld v 0 3) k d

/-- SWARM_CLK_WRITE. -/
def execSwarmClkWrite (req : Req) (sw : Fin 8) (v : W32) (s : State) : Host.Outcome State Fault Refusal :=
  onDev s fun k => guarded req k (Reg.SWARM_CLK_CTL sw) v (clkWrite sw v k)

/-! Temperature. -/

/-- The reading of sensor i in 1/16 °C. -/
def sensor (d : Dev) (i : Nat) : Int := signExt 16 (rf d (Reg.SYS_TEMP i) 0 16)

/-- Some sensor exceeds a limit in °C. (DEDUCED, log entry 77.) -/
def anyAbove (d : Dev) (limit : Nat) : Bool := (List.range 30).any fun i => decide ((16 * limit : Nat) < sensor d i)

/-- Δ of R385 in 1/16 °C. -/
def ketDelta (d : Dev) : Nat :=
  [(26, 1), (27, 8), (28, 6), (29, 24)].foldl (fun m (a, b) => max m (sensor d a - sensor d b).natAbs) 0

/-- The Kettle is derated or released (R385). -/
def derate (d : Dev) : Dev :=
  if 16 * 15 < ketDelta d ∧ !d.ket.derated then raiseKet 4 { d with ket := { d.ket with derated := true } }
  else if ketDelta d < 16 * 12 then { d with ket := { d.ket with derated := false } }
  else d

/-- A sensor exceeds 125 °C: THERM_TRIP_N is driven low, and from then on every output is silent (R411). (DESIGN CHOICE, log entry 81.) -/
def thermTrip (k : Clk) (d : Dev) : Dev :=
  if !anyAbove d 125 || d.sys.tripped then d
  else
    let d := cricketDrop (latchSettle k (forEach (List.range 10) (fun p => linkDown p k) d))
    let d := forEach (List.range 4) (fun h d => setHead h { head d h with trained := false } d) d
    let d := forEach (List.range 16) (fun n d => setDmx n { dmx d n with line := none, staged := [] } d) d
    gpioWatch (fun d => { d with pins := { d.pins with ppsOut := false }, sys := { d.sys with tripped := true, i2c := [], spi := none, mdio := [] } }) d

/-- The sensors are read, and warnings, throttling, derating and the trip are judged (R384, R385, R411). (DEDUCED, log entry 77.) -/
def tempSample (temps : List W16) (k : Clk) (d : Dev) : Dev :=
  let d := forEach (temps.zipIdx.take 30) (fun (t, i) => wr (Reg.SYS_TEMP i) (t.setWidth 32)) d
  let ctl := rd d Reg.SYS_THERM_CTL
  let warn := anyAbove d (fld ctl 0 8)
  let crit := anyAbove d (fld ctl 8 8) && bit ctl 31
  let newWarn := warn && !d.sys.warnAbove
  let newCrit := crit && !d.sys.critAbove
  let d := onSys (fun x => { x with warnAbove := warn, critAbove := crit }) d
  let d := when newWarn (raiseSys 3) d
  let d := if newCrit then
      raiseSys 4 (forEach (List.range 8) (fun s d => if swarmRuns d s then setStep s 3 k d else d) d)
    else d
  thermTrip k (derate d)

/-- TEMP_SAMPLE: the readings of the sensors, from sensor 0 on. -/
def execTempSample (temps : List W16) (s : State) : Host.Outcome State Fault Refusal := onDev s (tempSample temps)

/-! Performance monitors. -/

/-- A write of PMON_CTL: counts made under the old EN stand (R387). -/
def pmonCtlWrite (v : W32) (k : Clk) (d : Dev) : Dev := putReg Reg.PMON_CTL v (settleCounts k d)

/-- PMON_START_NEXT: a write of PMON_CTL that sets START_NEXT. -/
def execPmonStartNext (_req : Req) (v : W32) (s : State) : Host.Outcome State Fault Refusal :=
  onDev s fun k => accessSealed Reg.PMON_CTL (when (bit v 1) (pmonCtlWrite v k))

/-- PMON_FREEZE_NEXT: a write of PMON_CTL that sets FREEZE_NEXT. -/
def execPmonFreezeNext (_req : Req) (v : W32) (s : State) : Host.Outcome State Fault Refusal :=
  onDev s fun k => accessSealed Reg.PMON_CTL (when (bit v 2) (pmonCtlWrite v k))

/-! Interrupts. -/

/-- Some line routed to vector v reads 1. -/
def vectorLine (d : Dev) (v : Nat) : Bool :=
  (List.range 64).any fun n =>
    bit (rd d (Reg.SYS_EVT_ROUTE n)) 31 && rf d (Reg.SYS_EVT_ROUTE n) 0 6 == v && lineLevel d n

/-- Vector v is acknowledged (R389). (DEDUCED, log entry 80.) -/
def ackVector (v : Nat) (d : Dev) : Dev :=
  let d := { d with msix := { d.msix with inService := setBit d.msix.inService v false } }
  if vectorLine d v then msixSend v d else d

/-- A write of SYS_MSIX_ACK_HI commits the staged half (R310, R389). -/
def msixAck (req : Req) (hi : W32) (d : Dev) : Dev :=
  let v := pair64 ((stagedLo d req Reg.SYS_MSIX_ACK_LO).getD 0) hi
  forEach ((List.range 64).filter (bit v)) ackVector (unstage req Reg.SYS_MSIX_ACK_LO d)

/-- MSIX_ACK. -/
def execMsixAck (req : Req) (hi : W32) (s : State) : Host.Outcome State Fault Refusal :=
  onDev s fun _ => access Reg.SYS_MSIX_ACK_HI (msixAck req hi)

/-- Pending vectors that nothing masks send their messages (R390). (DEDUCED, log entry 80.) -/
def msixRelease (d : Dev) : Dev := forEach ((List.range 64).filter (bit d.msix.pba)) msixSend d

/-- MSIX_UNMASK: the host sets the function mask to a level (R389, R390). -/
def execMsixUnmask (masked : Bool) (s : State) : Host.Outcome State Fault Refusal :=
  onDev s fun _ d => msixRelease { d with msix := { d.msix with masked } }

/-- A write of SYS_SW_SET (R388). -/
def swSet (v : W32) (d : Dev) : Dev :=
  forEach ((List.range 16).filter (bit v)) (fun j => raiseAt (48 + j) Reg.SYS_SW_EVENT (bitIf j true)) d

/-- SYS_SW_SET. -/
def execSysSwSet (_req : Req) (v : W32) (s : State) : Host.Outcome State Fault Refusal :=
  onDev s fun _ => access Reg.SYS_SW_SET (swSet v)

end Sys2Proof.Machine
end

