-- ==== Sys2Proof/Machine/Csr.lean ====
section
/-!
DEFINITION. The register bus as a whole (R304 to R320): what a read or a write of any place does, pairs, indirect spaces, the guard and
the configuration seal.
-/

namespace Sys2Proof.Machine

/-- An access to no register, or a partial write, is counted (R305). (DEDUCED, log entry 16.) -/
def badAccess (d : Dev) : Dev := raiseGuard 4 (bumpSat Reg.GUARD_BAD_ACCESS_COUNT 1 d)

/-! Registers that show another piece of state. -/

/-- A word of fields, each a value at a bit. -/
def fields (l : List (Nat × Nat)) : W32 := w32 (l.map fun (x, lo) => x * 2 ^ lo).sum

/-- Ready entries of swarm s by priority (R117). -/
def readyCount (d : Dev) (s prio : Nat) : Nat := ((steepOf d s).entries.filter fun e => e.isReady && e.prio == prio).length

/-- Slots of swarm s with a brew that satisfies f. -/
def slotCount (d : Dev) (s : Nat) (f : Brew → Bool) : Nat := ((busySlots d).filter fun (i, b) => slotSwarm i == s && f b).length

/-- RHEAD_STATUS[h] (R179, R192). -/
def headStatus (d : Dev) (h : Nat) : W32 :=
  let x := head d (governor d h)
  fields [(x.line, 16), (bnat (splitOdd d h), 5), (bnat x.pending.isSome, 4), (bnat (scanning x), 3), (bnat x.free, 2), (bnat x.locked, 1),
    (bnat (head d h).running, 0)]

/-- Some TXQ of a port is stopped (R210). -/
def Port.paused (x : Port) : Bool := x.pause.any fun (_, y) => y.any fun s => s.began.isSome

/-- SPORT_STATUS[p] (R216). Its locks follow the link; without RS-FEC, which runs at 25 Gbit/s alone, nothing locks (R194).
(DEDUCED, log entry 17.) -/
def portStatus (d : Dev) (p : Nat) : W32 :=
  let x := port d p
  fields [(bnat (preemptActive d p), 5), (bnat x.paused, 3), (bnat (x.link && bit x.ctl 2 && decide (2 ≤ fld x.ctl 4 2)), 2), (bnat x.link, 1), (bnat x.link, 0)]

/-- LPORT_STATUS[n] of port p (R217). -/
def legacyStatus (d : Dev) (p : Nat) : W32 :=
  let x := port d p
  fields [(x.rate, 4), (bnat x.half, 3), (bnat x.paused, 2), (bnat x.link, 0)]

/-- PAIR_STATUS (R303); OWN_N is low while this unit drives it. -/
def pairStatus (k : Clk) (d : Dev) : W32 :=
  let p := d.pair
  fields [(bnat p.idClash, 16), (bnat (p.ownHigh && !ownOut d), 15), (bnat (ownOut d), 14), (bnat (heartbeatsCurrent k d), 13), (bnat (linkUp d), 12),
    (bnat p.ttLock, 11), (bnat (selOut d), 10), (bnat (rb d Reg.SYS_STRAPS 1), 9), (bnat p.wdogExpired, 8), (bnat p.handover.isSome, 7),
    (pairCode p.mode, 0)]

/-- SCARAB_PKG_STATUS (R375): OPEN and BUSY by the phase. -/
def pkgStatus (d : Dev) : W32 :=
  let on (o b : Bool) : W32 := bitIf 31 o ||| bitIf 30 b ||| rd d Reg.SCARAB_PKG_STATUS &&& 0xFF
  match d.scarab.phase with
  | .closed => on false false
  | .failing _ => on false true
  | .opening => on false true
  | .opened => on true false
  | .zeroing r => on r.isNone true
  | .stopping _ _ => on false true

/-- An open runs: its checks, or the steps from 7 on (R367). -/
def pkgRuns (d : Dev) : Bool := match d.scarab.phase with | .failing _ => true | .opening => true | _ => false

/-- The words of key bytes, byte 4w in [7:0]. -/
def keyWord (l : List W8) (w : Nat) : W32 := w32 (ofLe (slice l (4 * w) 4))

/-- CAL_PATH_INFO of path p (R358). -/
def pathInfo (d : Dev) (p : Nat) : W32 :=
  let tm := (measuredFor d p).elim 0 fun v => (BitVec.ofInt 16 v.temp).toNat
  fields [(pathSource d p, 30), ((calPath d p).mode % 4, 24), (tm, 0)]

/-- What a register shows that holds no word of its own, or not all of it: `u` is its instance, `n` its index. -/
def csrView (h : Hook) (u n : Nat) (k : Clk) (d : Dev) : Option W32 :=
  match h with
  | .sysIdent => some (0x9710A100 + w32 (8 * bnat d.scarab.orderE + d.scarab.lc.code))
  | .msixPba => some (if n = 0 then lo32 d.msix.pba else hi32 d.msix.pba)
  | .guardStatus => some (bitIf 1 d.bus.fwArmed ||| bitIf 0 d.bus.hostArmed)
  | .sealCapture => some (bitIf 0 d.bus.sealRun.capture)
  | .tbStatus => some (bitIf 3 d.pins.pairSlaved ||| bitIf 2 d.pins.refActive ||| bitIf 1 d.pins.pllLock ||| bitIf 0 k.tb.timeValid)
  | .tbEvtcapStat => some (rd d (Reg.TB_EVTCAP_STAT n) &&& 0xFFFF0000 ||| w32 (evtCap d n).queue.length)
  | .frmStatus =>
    let run := d.frm.run.isSome && !d.frm.firstDone
    some (bitIf 3 d.frm.holding ||| bitIf 2 (run && k.tb.timeValid && !running k d) ||| bitIf 1 (run && !k.tb.timeValid)
      ||| bitIf 0 (running k d))
  | .schedStatus => some (bitIf 1 (schedIdle d) ||| bitIf 0 (rb d Reg.SCHED_CTL 0))
  | .schedLeafSpace => some (w32 (hostPortSize n - (hostPort d n).length))
  | .schedPourBlocks => some (w32 (pourBlocks d))
  | .schedPourPlaces => some (w32 (pourPlaces d))
  | .swarmSteepStatus => some (fields [((steepOf d u).places, 16), ((steepOf d u).markers.length, 0)])
  | .swarmReady01 => some (fields [(readyCount d u 1, 16), (readyCount d u 0, 0)])
  | .swarmReady23 => some (fields [(readyCount d u 3, 16), (readyCount d u 2, 0)])
  | .swarmSlotStatus => some (fields [(slotCount d u Brew.stalled, 16), (slotCount d u (fun _ => true), 0)])
  | .swarmDlyFill01 => some (fields [((delayList d (4 * u + 1)).length, 16), ((delayList d (4 * u)).length, 0)])
  | .swarmDlyFill23 => some (fields [((delayList d (4 * u + 3)).length, 16), ((delayList d (4 * u + 2)).length, 0)])
  | .swarmInfStatus => some (w32 (infuserQueue d u).length)
  | .ketStatus => some (bitIf 1 d.ket.initDone ||| bitIf 0 d.ket.derated)
  | .rheadStatus => some (headStatus d u)
  | .rheadDpStatus => some (bitIf 2 (head d u).hpd ||| bitIf 1 (head d u).trained ||| bitIf 0 (dpSends d u))
  | .sportStatus => some (portStatus d u)
  | .lportStatus => some (legacyStatus d u)
  | .sportLqStatus => some (fields [((port d u).stageUse, 16), ((port d u).cal.length, 0)])
  | .lportLqStatus => some (fields [((port d u).stageUse, 16), ((port d u).cal.length, 0)])
  | .sportRxWmLevel => some ((List.range 8).foldl (fun v q => v ||| bitIf q ((port d u).rxRing q).above) 0)
  | .sportSaucerStatus => some (w32 (port d u).saucer.length)
  | .packSlowSummary => some (slowSummary d)
  | .packLateData => none
  | .queCount => some (w32 (queue d n).depth)
  | .dmaStatus => some (rd d (Reg.DMA_STATUS n) ||| bitIf 0 (dmaDesc d n).isSome)
  | .pairStatus => some (pairStatus k d)
  | .pairLinkStatus => some (if d.pair.trained then 0xFF else 0)
  | .weevilStatus => some ((List.range 4).foldl (fun v r => v ||| bitIf r (runner d r).isSome) 0)
  | .weevilRun => some (rd d (Reg.WEEVIL_RUN n) ||| bitIf 31 ((runner d n).any fun s => decide (s.origin = .host)))
  | .weevilMarkData =>
    let m := targetMark d (rf d Reg.WEEVIL_MARK_IDX 0 16)
    some (fields [(min 0xFF m.timeouts, 16), (min 0xFF m.repairs, 8), (m.mark, 0)])
  | .weevilUnusableCount => some (w32 (d.weevil.marks.filter fun m => m.2.mark == 2).length)
  | .calStatus => some (bitIf 31 (measuring d || d.calib.storing) ||| w32 d.calib.slot)
  | .calCmd => some (bitIf 1 d.calib.storing ||| bitIf 0 d.calib.asked)
  | .calPathInfo => some (pathInfo d (rf d Reg.CAL_PATH_IDX 0 5))
  | .scarabLcState => some (fields [(scopesNow d, 8), (d.scarab.lc.code, 0)])
  | .scarabSvn => some (d.scarab.svn.setWidth 32)
  | .scarabTokenStatus => some (bitIf 1 d.scarab.held.isSome ||| bitIf 0 (d.scarab.chal.any fun t => decide (since k t < chalLife)))
  | .scarabPkgCmd => some (bitIf 1 d.scarab.closing ||| bitIf 0 (pkgRuns d))
  | .scarabPkgStatus => some (pkgStatus d)
  | .scarabPairCmd => some (bitIf 0 (d.scarab.forming != 0 && !roleOne d))
  | .scarabPairStatus => some (bitIf 31 d.scarab.keyValid ||| bitIf 30 d.scarab.attested)
  | .scarabDiePos => some d.scarab.diePos
  | .scarabUid => some (w32 (fld d.scarab.uid (32 * n) 32))
  | .scarabDikPub => some (keyWord (dikPub d) n)
  | .scarabDakPub => some (keyWord (dakPub d) n)
  | .dmxStatus => some (fields [(bnat (dmx d u).pending, 2), (bnat (dmxSending d u k), 1), (bnat (dmxController d u || responding d u), 0)])
  | .dmxRdmCmd => some (bitIf 1 ((dmx d u).pending && (dmx d u).noResp) ||| bitIf 0 (dmx d u).pending)
  | .ltcRxStat => some (rd d Reg.LTC_RX_STAT &&& 0xFFFF0000 ||| w32 d.slow.ltcRx.length)
  | .midiRxStat => some (rd d Reg.MIDI_RX_STAT &&& 0xFFFF0000 ||| w32 d.slow.midiRx.length)
  | .midiTxStat => some (rd d Reg.MIDI_TX_STAT &&& 0xFFFF0000 ||| w32 d.slow.midiTx.length)
  | .gpioIn => some (gpioLevel d)
  | .uartStat => some (rd d Reg.UART_STAT &&& 0xFF000000 ||| fields [(d.sys.uartTx.length, 16), (d.sys.uartRx.length, 0)])
  | .hidden => some 0
  | _ => none

/-- What a pair shows that holds no words of its own. -/
def csrView64 (h : Hook) (u : Nat) (k : Clk) (d : Dev) : Option W64 :=
  match h with
  | .evtSummaryLo => some ((List.range 64).foldl (fun v n => v ||| bitIf n (lineLevel d n)) 0)
  | .sysMsixInserviceLo => some d.msix.inService
  | .tbTicksLo => some k.ticks
  | .tbIncrLo => some (k.tb.incr.setWidth 64)
  | .frmBiasLo => some d.frm.bias
  | .dmxBreakTime => some (dmxBreakTime d u k)
  | .swarmDlyHeadLo => some (delayHead d u)
  | .scarabPairIdLo => some d.scarab.keyId
  | .scarabLotIdLo => some d.scarab.lot
  | _ => none

/-- SCHED_FLOW_STATE[f] (R136): HELD, and F in FRAMED mode. (DESIGN CHOICE, log entry 91.) -/
def flowState (d : Dev) (f : Nat) : W32 :=
  let x := flow d f
  bitIf 31 (!x.closed.isEmpty && !x.isClosed 0) ||| (if x.stream then 0 else (x.frame.getD 0).setWidth 32)

/-! Reads (R305, R306, R310). -/

/-- A read of a register of block rows `row`, with its indices i, at place a: the word goes to `bus.data`. A negative TB_OFFSET reads as its
seconds rounded down, in two's complement, with NS and FRAC counted up from there (R43). (DESIGN CHOICE, log entry 96.) -/
def csrShow (req : Req) (row : RegRow) (i : List Nat) (a : Nat) (k : Clk) (d : Dev) : Dev :=
  let u := Reg.unitAt a
  let n := i.headD 0
  match row.hook with
  | .tbNowSecLo => nowRead req k d
  | .tbShortLo => shortRead req k d
  | .tbPpsCapSecLo => ppsCapRead req d
  | .tbEvtcapSecLo => evtPop req n d
  | .tbOffsetSecLo =>
    ret (lo32 (secOf k.tb.offset)) (snap req Reg.TB_OFFSET_SEC_HI (hi32 (secOf k.tb.offset)) (snap req Reg.TB_OFFSET_NS (nsOf k.tb.offset)
      (snap req Reg.TB_OFFSET_FRAC (fracOf k.tb.offset) (snap req Reg.TB_ANCHOR_LO (lo32 k.tb.anchor) (snap req Reg.TB_ANCHOR_HI (hi32 k.tb.anchor) d)))))
  | .frmNumberLo => frmNumberRead req d
  | .schedFlowNext => ret (flow d n).next (snap req (Reg.SCHED_FLOW_STATE n) (flowState d n) d)
  | .sportSaucerSecLo => saucerPop req u d
  | .packLateData => ret (Tab.get 0 d.pack.late (rf d (ownOf req Reg.PACK_LATE_IDX) 0 12)) d
  | .ltcRxTc => ltcPop req d
  | .midiRx => midiPop req d
  | .uartRx => uartPop d
  | .calPathValue =>
    let x := roundFree (valueInForce d (rf d Reg.CAL_PATH_IDX 0 5)) 480 d
    ret (BitVec.ofInt 32 x.1) x.2
  | .snapshot => ret (rd d (snapOf req a)) d
  | h =>
    let d := if h = .metered then settleCounts k d else d
    let own := if h = .own then ownOf req a else a
    match row.half with
    | .lo =>
      let v := (csrView64 h u k d).getD (rd64 d own)
      ret (lo32 v) (snap req (a + 4) (hi32 v) d)
    | .hi => ret (rd d (snapOf req a)) d
    | .none => ret ((csrView h u n k d).getD (rd d own)) d

/-! Writes (R305 to R310). -/

/-- The lines on whose level the register at place a bears (R388). -/
def linesOf (a : Nat) : List Nat :=
  if a = Reg.SYS_SW_EVENT ∨ a = Reg.SYS_SW_EVENT_EN then (List.range 16).map (48 + ·)
  else if a = Reg.PACK_SLOW_SUMMARY_EN ∨ 0x1000000 ≤ a then [30]
  else (List.range 48).filter fun n => (lineSources n).any fun (ev, en) => a == ev || a == en

/-- An update that may change the level of lines, with what each rise brings (R389). -/
def watchLines (l : List Nat) (f : Dev → Dev) (d : Dev) : Dev :=
  forEach (l.filter fun n => !lineLevel d n && lineLevel (f d) n) lineRise (f d)

/-- A write of the _HI register of the pair at places p - 4 and p commits the pair: the staged _LO half with it (R310). -/
def commitPair (req : Req) (a p : Nat) (v : W32) (d : Dev) : Dev :=
  let e := match stagedLo d req (a - 4) with
    | some l => putReg (p - 4) l d
    | none => d
  unstage req (a - 4) (putReg p v e)

/-- A write of a register that acts by its access type alone. -/
def plainWrite (req : Req) (row : RegRow) (a p : Nat) (v : W32) (d : Dev) : Dev :=
  match row.half with
  | .lo => if row.w = 0 then d else stage req a v d
  | .hi => if row.w = 0 then d else commitPair req a p v d
  | .none => putReg p v d

/-- SWARM_ICACHE_CMD.INV of swarm s: the instruction caches of its 17 fireflies hold nothing (R54, R81). -/
def icacheInv (s : Nat) (d : Dev) : Dev :=
  onArr (fun a => { a with icache := a.icache.filter fun x => x.1 / 2 ^ 48 / 17 != s }) d

/-- SWARM_ICACHE_INV. -/
def execSwarmIcacheInv (_req : Req) (sw : Fin 8) (s : State) : Host.Outcome State Fault Refusal :=
  onDev s fun _ => access (Reg.SWARM_ICACHE_CMD sw) (icacheInv sw)

/-- A write of GUARD_EVENT that clears LOCK_VIOLATION or GUARD_DENIED leaves its tick (R316). -/
def noteClear (a : Nat) (v : W32) (k : Clk) (d : Dev) : Dev :=
  if a = Reg.GUARD_EVENT then
    { d with bus := { d.bus with
      lockClear := if bit v 0 then some k.ticks else d.bus.lockClear, denyClear := if bit v 1 then some k.ticks else d.bus.denyClear } }
  else d

/-- A write of v to a register of the block rows, past the guard: `row` with its indices i, at place a. (DEDUCED, log entry 13.) -/
def csrEffect (req : Req) (row : RegRow) (i : List Nat) (a : Nat) (v : W32) (k : Clk) (d : Dev) : Dev :=
  let u := Reg.unitAt a
  let n := i.headD 0
  let plain := plainWrite req row a a v
  match row.hook with
  | .own => plainWrite req row a (ownOf req a) v d
  | .hidden => wr a v d
  | .line => watchLines (linesOf a) (fun d => noteClear a v k (plain d)) d
  | .metered => plain (settleCounts k d)
  | .gpio => gpioWatch plain d
  | .cert => if d.scarab.lc = .blank then plain d else lockViolation req 0 a k d
  | .sysResetCmd => resetCmd req v d
  | .sysBootCmd => if bit v 0 then bootGo [] k d else d
  | .sysAbort => abortWrite req v k d
  | .sysMsixAckLo => stage req a v d
  | .sysMsixAckHi => msixAck req v d
  | .sysSwSet => swSet v d
  | .msixTable => if bit v 0 then plain d else msixRelease (plain d)
  | .sealCapture =>
    if bit v 0 && !d.bus.sealRun.capture then { d with bus := { d.bus with sealRun := { d.bus.sealRun with capture := true, fresh := false } } } else d
  | .tbCtl => switchRef (bit v 2) (plain d)
  | .tbIncrLo => if foreign d req then raiseTb 4 d else plain d
  | .tbOwned => if foreign d req then raiseTb 4 d else plain d
  | .tbPeroutCtl => if bit v 0 then plain d else setPerOut n {} (plain d)
  | .frmCtl => frmCtlWrite v k d
  | .frmCmd => if bit v 0 then frmApply k d else d
  | .frmGrid => if d.pins.pairSlaved then d else plain d
  | .frmPolicy => if d.pins.pairSlaved then d else tellFrame k (plain d)
  | .frmHsyncCtl =>
    let was := rb d Reg.FRM_HSYNC_CTL 0
    let d := plain d
    if bit v 0 = was then d
    else { d with pins := { d.pins with hsyncLast := none, hsyncSince := if bit v 0 then some k.ticks else none } }
  | .schedRouteSet => routeSetWrite v d
  | .schedTmplCmd => tmplCmd req v d
  | .schedLeafPush => leafPush req n v k d
  | .schedFlowCmd => settle k (flowCmd v d)
  | .schedTickPeriod => tickPeriodWrite plain k d
  | .swarmSteepPeak => notePeak u (plain d)
  | .schedFlowCfg => settle k (flowCfgWrite n v d)
  | .swarmDlyCmd => delayFlush u (fld v 0 4) d
  | .swarmSpareCmd => settle k (spareGo u v d)
  | .swarmClkCtl => clkWrite u v k d
  | .swarmIcacheCmd => if bit v 0 then icacheInv u d else d
  | .ketSurfCmd => surfCmd req v d
  | .rheadCtl => rheadCtlWrite u v k d
  | .rheadCmd => if bit v 0 then timingApply u d else d
  | .rheadCommit => if bit v 0 then rheadCommit u d else d
  | .rheadOutCtl => putReg a (if dpLanes d u = 0 then setBit v 0 false else v) d
  | .rheadLayerCtl => putReg a (if n = 0 then v else setBit v 30 false) d
  | .sportCtl => latchSettle k (portCtlWrite u v k d)
  | .sportPreemptCtl =>
    if bit v 0 then plain d else onPort u (fun x => { x with preempt := false, verifyFails := 0 }) (plain d)
  | .sportTxqCtl => txqCtlWrite u n v d
  | .sportRxqCtl => rxqCtlWrite u n v d
  | .sportRxqTail => rxqTailWrite u n v d
  | .sportRxqWm => ringWmWrite u n v d
  | .packCtl =>
    let v := if unusable d 0x7000 then setBit v 0 false else v
    if bit v 0 && !rb d Reg.PACK_CTL 0 then sacnRestart k (putReg a v d) else putReg a v d
  | .packPortSync => if bit v 31 && !rb d a 31 then syncRestart n k (plain d) else plain d
  | .packUnivCmd => univCmd req v k d
  | .packLateData => onPack (fun p => { p with late := Tab.put 0 p.late (rf d (ownOf req Reg.PACK_LATE_IDX) 0 12) v }) d
  | .packInCmd => packInCmd req v k d
  | .quePushCmd => quePushCmd req (fld v 0 10) d
  | .quePopCmd => quePop req (fld v 0 10) d
  | .queCfg => queCfgWrite n v d
  | .dmaCtl => dmaCtlWrite n v d
  | .dmaHead => dmaHeadWrite n v d
  | .pairCtl => pairCtlWrite req v k d
  | .pairCmd => pairCmd v k d
  | .pairWdogKick => wdogKick req k d
  | .weevilRun => weevilRun n v k d
  | .calCmd => calCmd v k d
  | .scarabLcCmd => lcCmd v d
  | .scarabSvnCmd => svnCmd (v.setWidth 16) d
  | .scarabChalCmd => if bit v 0 then chalNew k d else d
  | .scarabTokenCmd => if bit v 0 then tokenGo k d else d
  | .scarabPkgCmd => pkgCmd v d
  | .scarabPinCmd => pinCmd v d
  | .scarabPairCmd => if bit v 0 then pairForm k d else d
  | .pmonCtl => pmonCtlWrite v k d
  | .dmxCtl => dmxCtlWrite u v k d
  | .dmxRdmCmd => if bit v 0 then rdmGo u (bit v 1) k d else d
  | .ltcTxCtl => ltcCtlWrite v d
  | .midiTx => midiTxWrite v d
  | .i2cXfer => i2cXferWrite n v d
  | .spiCmd => if bit v 0 then spiGo d else d
  | .uartTx => uartTxWrite v d
  | .mdioCmd => mdioCmdWrite n v d
  | _ =>
    let e := plain d
    if a = Reg.SEAL_MASK ∧ rd d a = 0 then { e with bus := { e.bus with sealRun := { e.bus.sealRun with start := e.regs, seen := [], fresh := e.bus.sealRun.capture } } } else e

/-! The indirect spaces (R311 to R313). -/

/-- The size of space IND_SEL in bytes; 0 where it selects none. -/
def indSize (sel : Nat) : Nat :=
  match sel with
  | 1 => 0x8000
  | 2 => 0x100
  | 3 => 0x7000
  | 4 => 0x10000
  | 5 => 0x10000
  | 6 => 0x800
  | _ => 0

/-- IND_SEL of a requester. -/
def indSel (d : Dev) (req : Req) : Nat := rf d (ownOf req Reg.IND_SEL) 0 3
/-- IND_ADDR of a requester. -/
def indAddr (d : Dev) (req : Req) : Nat := rf d (ownOf req Reg.IND_ADDR) 2 22 * 4
/-- IND_SEL and IND_ADDR name a word of a space. (DEDUCED, log entry 79.) -/
def indKnown (d : Dev) (req : Req) : Bool := decide (indAddr d req < indSize (indSel d req))

/-- IND_ADDR advances, and IND_STATUS describes the access. -/
def indNext (req : Req) (status : W32) (d : Dev) : Dev :=
  wr (ownOf req Reg.IND_STATUS) status (wr (ownOf req Reg.IND_ADDR) (w32 ((indAddr d req + 4) % 2 ^ 24)) d)

/-- An access fails: BAD_ADDR (1) or TIMEOUT (2), and IND_ERR. (DEDUCED, log entry 79.) -/
def indFail (req : Req) (status : W32) (d : Dev) : Dev := raiseGuard 3 (indNext req status d)

/-- A read of the word at address a of a space. -/
def indShow (req : Req) (sel a : Nat) (k : Clk) (d : Dev) : Dev :=
  match sel with
  | 4 => ret (w32 (mramNum d a 4)) d
  | 5 => ret (Tab.get 0 d.weevil.results (a / 4)) d
  | _ =>
    match Reg.rowAt (sel * 2 ^ 24 + a) with
    | some (row, i) => csrShow req row i (sel * 2 ^ 24 + a) k d
    | none => ret 0 (badAccess d)

/-- The factory region lists the word at a (R353); every other byte of it reads zero. -/
def factoryListed (a : Nat) : Bool :=
  decide (a < 4 ∨ 0x3FFC ≤ a ∨ (0x40 ≤ a ∧ (a - 0x40) / 0x20 < 104 ∧ (a - 0x40) % 0x20 < 20))

/-- A write of the word at address a of a space. Of the calibration store the host alone writes the factory region, in BLANK (R353). -/
def indEffect (req : Req) (sel a : Nat) (v : W32) (k : Clk) (d : Dev) : Dev :=
  match sel with
  | 4 =>
    if 0xC000 ≤ a then d
    else if a < 0x4000 ∧ d.scarab.lc = .blank ∧ req = .host then when (factoryListed a) (mramPut a (leBytes 4 v.toNat)) d
    else lockViolation req 4 a k d
  | 5 => d
  | _ =>
    match Reg.rowAt (sel * 2 ^ 24 + a) with
    | some (row, i) => csrEffect req row i (sel * 2 ^ 24 + a) v k d
    | none => badAccess d

/-- A read of IND_DATA (R312, R313). -/
def indRead (req : Req) (k : Clk) (d : Dev) : Dev :=
  if indKnown d req then indNext req 0 (indShow req (indSel d req) (indAddr d req) k d) else ret 0 (indFail req 1 d)

/-- IND_DATA_READ. -/
def execIndDataRead (req : Req) (s : State) : Host.Outcome State Fault Refusal :=
  onDev s fun k => accessRead Reg.IND_DATA (indRead req k)

/-- A write of IND_DATA (R312, R313). -/
def indWrite (req : Req) (v : W32) (k : Clk) (d : Dev) : Dev :=
  if indKnown d req then indNext req 0 (indEffect req (indSel d req) (indAddr d req) v k d) else indFail req 1 d

/-- IND_DATA_WRITE. -/
def execIndDataWrite (req : Req) (v : W32) (s : State) : Host.Outcome State Fault Refusal :=
  onDev s fun k => access Reg.IND_DATA (indWrite req v k)

/-- IND_ERR: an IND_DATA access of a requester whose target has not answered within 50 µs (R313). -/
def execIndErr (req : Req) (write : Bool) (s : State) : Host.Outcome State Fault Refusal :=
  onDev s fun _ => access Reg.IND_DATA fun d =>
    if indKnown d req then (if write then id else ret 0) (indFail req 2 d) else d

/-! Any register. -/

/-- A read of the CSR place a by a requester (R305). -/
def csrRead (req : Req) (a : Nat) (k : Clk) (d : Dev) : Dev :=
  if csrShut d a then ret 0 d
  else
    match Reg.rowAt a with
    | none => ret 0 (badAccess d)
    | some (row, i) => if row.hook = .indData then indRead req k d else csrShow req row i a k d

/-- The unlock of a requester is armed, restarted or disarmed by a write of GUARD_UNLOCK (R314, R315). (DEDUCED, log entry 18.) -/
def unlockWrite (req : Req) (v : W32) (k : Clk) (d : Dev) : Dev :=
  if v = 0x7EA5C0DE then
    let d := setArmed req true d
    { d with bus := match req with | .host => { d.bus with hostTick := k.ticks } | .fw => { d.bus with fwTick := k.ticks } }
  else guardDeny req 3 Reg.GUARD_UNLOCK k (setArmed req false d)

/-- A whole-word write of v to the CSR place a by a requester. (DEDUCED, log entry 13.) -/
def csrWrite (req : Req) (a : Nat) (v : W32) (k : Clk) (d : Dev) : Clk × Dev :=
  if csrShut d a then (k, d)
  else
    match Reg.rowAt a with
    | none => (k, badAccess d)
    | some (row, i) =>
      match row.hook with
      | .tbCmd => tbCmd req v k d
      | .tbIncrHi => incrCommit req v k d
      | .indData => (k, indWrite req v k d)
      | .guardUnlock => (k, unlockWrite req v k d)
      | _ => (k, sealing a (if row.gk then guarded req k a v (csrEffect req row i a v k) else csrEffect req row i a v k) d)

/-- CSR_WRITE: a write of a place of the CSR window; `whole`: its byte enables cover the word (R305). -/
def execCsrWrite (req : Req) (a : BitVec 24) (v : W32) (whole : Bool) (s : State) : Host.Outcome State Fault Refusal :=
  onClk s fun k d => if whole then csrWrite req a.toNat v k d else (k, badAccess d)

/-- The register at place a is that half of a pair. -/
def halfAt (h : Half) (a : Nat) : Bool := (Reg.rowAt a).any fun (row, _) => decide (row.half = h)

/-- PAIR_LO_WRITE: a write of the _LO register at place a. -/
def execPairLoWrite (req : Req) (a : BitVec 24) (v : W32) (s : State) : Host.Outcome State Fault Refusal :=
  onClk s fun k d => if halfAt .lo a.toNat then csrWrite req a.toNat v k d else (k, d)

/-- PAIR_HI_WRITE: a write of the _HI register at place a. -/
def execPairHiWrite (req : Req) (a : BitVec 24) (v : W32) (s : State) : Host.Outcome State Fault Refusal :=
  onClk s fun k d => if halfAt .hi a.toNat then csrWrite req a.toNat v k d else (k, d)

/-- PAIR_LO_READ: a read of the _LO register at place a. -/
def execPairLoRead (req : Req) (a : BitVec 24) (s : State) : Host.Outcome State Fault Refusal :=
  onDev s fun k d => if halfAt .lo a.toNat then csrRead req a.toNat k d else d

/-! The guard and the seal (R314, R318, R319). -/

/-- GUARD_UNLOCK_WRITE. -/
def execGuardUnlockWrite (req : Req) (v : W32) (s : State) : Host.Outcome State Fault Refusal :=
  onDev s fun k => access Reg.GUARD_UNLOCK (unlockWrite req v k)

/-- UNLOCK_EXPIRE: 1,024 CSR cycles have passed since the unlock was armed: 5,120 ticks (R314). (DEDUCED, log entry 18.) -/
def execUnlockExpire (req : Req) (s : State) : Host.Outcome State Fault Refusal :=
  onDev s fun k d =>
    let t := match req with | .host => d.bus.hostTick | .fw => d.bus.fwTick
    if armed d req && decide (5120 ≤ since k t) then setArmed req false d else d

/-- The sealed bits of the register at place a (R318). -/
def sealedBits (d : Dev) (a : Nat) : W32 :=
  match Reg.blockAt a, Reg.rowAt a with
  | some (b, _), some (row, _) =>
    match b.sealBit with
    | some n => if rb d Reg.SEAL_MASK n && !(row.hook == .cert && d.scarab.lc != .blank) then row.w &&& ~~~ row.unsealed else 0
    | none => 0
  | _, _ => 0

/-- The values that a pass may read of the sealed bits m of the register at place a: those it has held since the pass began (R316). -/
def sealValues (d : Dev) (a : Nat) (m : W32) : List W32 :=
  ((Tab.get (Reg.resetOf a) d.bus.sealRun.start a :: Tab.get [] d.bus.sealRun.seen a ++ [rd d a]).map (· &&& m)).dedup

/-- The words that a pass reads, in ascending offset. A register written since the pass began shows one of the values that it has held
(R316): which, the manual does not say. (DESIGN CHOICE, log entry 19.) -/
def sealWords (d : Dev) : List W32 × Dev :=
  ((List.range 0x48000).map (· * 4)).foldl (fun (x : List W32 × Dev) a =>
    let m := sealedBits d a
    if m = 0 then x
    else
      match sealValues d a m with
      | [w] => (x.1 ++ [w], x.2)
      | l => (x.1 ++ [l.getD ((free x.2).1.toNat % l.length) 0], (free x.2).2)) ([], d)

/-- A pass ends, and the next begins (R319). (DESIGN CHOICE, log entry 19.) -/
def sealPassEnd (d : Dev) : Dev :=
  if rd d Reg.SEAL_MASK = 0 then d
  else
    let x := sealWords d
    let crc := crc32c (x.1.flatMap fun w => leBytes 4 w.toNat)
    let run := d.bus.sealRun
    let d := bump Reg.SEAL_PASSES 1 (wr Reg.SEAL_RESULT crc x.2)
    let done := run.capture && run.fresh
    let d := if done then wr Reg.SEAL_REF crc d
      else if !run.capture && rb d Reg.SEAL_CTL 0 && crc != rd d Reg.SEAL_REF then raiseGuard 2 (bumpSat Reg.SEAL_MISMATCH_COUNT 1 d)
      else d
    { d with bus := { d.bus with sealRun := { capture := run.capture && !done, fresh := run.capture && !done, start := d.regs } } }

/-- SEAL_PASS_END. -/
def execSealPassEnd (s : State) : Host.Outcome State Fault Refusal := onDev s fun _ => sealPassEnd

/-- SEAL_CAPTURE: a write of SEAL_CAPTURE with GO at 1. -/
def execSealCapture (req : Req) (s : State) : Host.Outcome State Fault Refusal :=
  onDev s fun k => guarded req k Reg.SEAL_CAPTURE 1 fun d =>
    if d.bus.sealRun.capture then d
    else { d with bus := { d.bus with sealRun := { d.bus.sealRun with capture := true, fresh := false } } }

end Sys2Proof.Machine
end

