-- ==== Sys2Proof/Machine/Isa.lean ====
section
/-!
DEFINITION. The scalar instructions, on brew slots and control cores (R59 to R63, R74, R75).
-/

namespace Sys2Proof.Machine

/-- g[D] takes a value, if there is one; none is ILLEGAL. -/
def writeD (r : Runner) (pre : Option W32) (w : W32) (v : Option W64) (k : Clk) (d : Dev) : Res :=
  match v with
  | some x => goOn (r.setG (dOf w) x) pre k d
  | none => illegal d

/-- The value of an ALU instruction (R59). -/
def aluStep (r : Runner) (pre : Option W32) (w : W32) (k : Clk) (d : Dev) : Res :=
  writeD r pre w (if pOf w = 0 then alu (funcOf w) (bOf w) (r.g (aOf w)) (r.g (bOf w)) else none) k d

/-- ALU. -/
def execAlu (who : Who) (s : State) : Host.Outcome State Fault Refusal := runClass .alu who aluStep s

/-- ADDI, ANDI, ORI, XORI, SLTI, SLTIU (R60). -/
def immediateStep (r : Runner) (pre : Option W32) (w : W32) (k : Clk) (d : Dev) : Res :=
  writeD r pre w (some (immediateOp (opOf w) (immediate pre w).1 (immediate pre w).2 (r.g (aOf w)))) k d

/-- IMMEDIATE_OP. -/
def execImmediateOp (who : Who) (s : State) : Host.Outcome State Fault Refusal := runClass .immediate who immediateStep s

/-- LUI (R60). -/
def luiStep (r : Runner) (pre : Option W32) (w : W32) (k : Clk) (d : Dev) : Res :=
  writeD r pre w (if aOf w = 0 then some (luiValue (immediate pre w).1 (immediate pre w).2) else none) k d

/-- LUI. -/
def execLui (who : Who) (s : State) : Host.Outcome State Fault Refusal := runClass .lui who luiStep s

/-- SHIFTI (R60). -/
def shiftiStep (r : Runner) (pre : Option W32) (w : W32) (k : Clk) (d : Dev) : Res :=
  writeD r pre w (if fld w 8 8 = 0 then some (shift64 (fld w 6 2) (r.g (aOf w)) (fld w 0 6)) else none) k d

/-- SHIFTI. -/
def execShifti (who : Who) (s : State) : Host.Outcome State Fault Refusal := runClass .shifti who shiftiStep s

/-- NOP (R61). -/
def nopStep (r : Runner) (pre : Option W32) (w : W32) (k : Clk) (d : Dev) : Res :=
  if miscOk w false false then goOn r pre k d else illegal d

/-- NOP. -/
def execNop (who : Who) (s : State) : Host.Outcome State Fault Refusal := runClass .nop who nopStep s

/-- TRAP (R61). -/
def trapStep (r : Runner) (_pre : Option W32) (w : W32) (_k : Clk) (d : Dev) : Res :=
  if miscOk w false true then .fault 0x06 (r.g (aOf w)) 0xFF d else illegal d

/-- TRAP. -/
def execTrap (who : Who) (s : State) : Host.Outcome State Fault Refusal := runClass .trap who trapStep s

/-! Branches and jumps (R62). -/

/-- A branch. -/
def branchStep (r : Runner) (pre : Option W32) (w : W32) (k : Clk) (d : Dev) : Res :=
  if branchTaken (opOf w) (r.g (dOf w)) (r.g (aOf w)) then .done k ((r.jump (r.pc + immSx pre w * 4)).put d) else goOn r pre k d

/-- BRANCH. -/
def execBranch (who : Who) (s : State) : Host.Outcome State Fault Refusal := runClass .branch who branchStep s

/-- JAL. -/
def jalStep (r : Runner) (pre : Option W32) (w : W32) (k : Clk) (d : Dev) : Res :=
  .done k (((r.setG 31 (r.after pre)).jump (r.pc + sx 26 (fld w 0 26) * 4)).put d)

/-- JAL. -/
def execJal (who : Who) (s : State) : Host.Outcome State Fault Refusal := runClass .jal who jalStep s

/-- JALR. -/
def jalrStep (r : Runner) (pre : Option W32) (w : W32) (k : Clk) (d : Dev) : Res :=
  let target := r.g (aOf w) + immSx pre w
  if target.toNat % 4 = 0 then .done k (((r.setG (dOf w) (r.after pre)).jump target).put d) else .fault 0x02 target 0xFF d

/-- JALR. -/
def execJalr (who : Who) (s : State) : Host.Outcome State Fault Refusal := runClass .jalr who jalrStep s

/-! Loads and stores (R63, R83). -/

/-- Bytes of a scalar load by major opcode. -/
def loadSize (op : Nat) : Nat := 2 ^ (if op < 0x10 then op - 0x0C else op - 0x10)

/-- The register value of loaded bytes: LB, LH, LW and LD extend the sign. -/
def loadValue (op : Nat) (bs : List W8) : W64 := if op < 0x10 then sx (8 * loadSize op) (ofLe bs) else w64 (ofLe bs)

/-- A word of the CSR space: a core reaches it only with LW and SW, aligned (R83). (DEDUCED, log entry 31.) -/
def Runner.csrWord (r : Runner) (kind : Access) (word : Bool) (a : Nat) : Bool :=
  match r with
  | .slot _ _ => false
  | .core _ x => word && inCsr a 4 && a % 4 == 0 && x.grants kind a 4

/-- A load. (DEDUCED, log entry 31.) -/
def loadStep (r : Runner) (pre : Option W32) (w : W32) (k : Clk) (d : Dev) : Res :=
  let a := r.g (aOf w) + immSx pre w
  let n := loadSize (opOf w)
  if r.csrWord .read (opOf w == 0x0E) a.toNat then
    let e := csrRead .fw (a.toNat - csrBase) k d
    goOn (r.setG (dOf w) (sx 32 e.bus.data.toNat)) pre k e
  else
    match r.spot .read a.toNat n n d with
    | .error code => .fault code a 0xFF d
    | .ok p =>
      match r.readAt p n d with
      | (none, e) => .fault 0x05 a 0xFF e
      | (some bs, e) => goOn (r.setG (dOf w) (loadValue (opOf w) bs)) pre k e

/-- LOAD. -/
def execLoad (who : Who) (s : State) : Host.Outcome State Fault Refusal := runClass .load who loadStep s

/-- A store. -/
def storeStep (r : Runner) (pre : Option W32) (w : W32) (k : Clk) (d : Dev) : Res :=
  let a := r.g (aOf w) + immSx pre w
  let n := 2 ^ (opOf w - 0x14)
  let v := r.g (dOf w)
  let e := (r.jump (r.after pre)).put d
  if r.csrWord .write (opOf w == 0x16) a.toNat then
    let y := csrWrite .fw (a.toNat - csrBase) (lo32 v) k e
    .done y.1 y.2
  else
    match r.spot .write a.toNat n n d with
    | .error code => .fault code a 0xFF d
    | .ok p => .done k (r.writeAt p (leBytes n v.toNat) e)

/-- STORE. -/
def execStore (who : Who) (s : State) : Host.Outcome State Fault Refusal := runClass .store who storeStep s

/-! Atomics and fences (R74, R75). -/

/-- The old value of an atomic as g[D] takes it, and the bytes of the new one. -/
def atomicResult (func size old : Nat) (b d : W64) : Option (W64 × List W8) :=
  if size = 4 then (atomic func (w32 old) (lo32 b) (lo32 d)).map fun x => (sx 32 old, leBytes 4 x.toNat)
  else (atomic func (w64 old) b d).map fun x => (w64 old, leBytes 8 x.toNat)

/-- ATOM (R74): in TASK mode its area must grant both reads and writes. (DESIGN CHOICE, log entry 97.) -/
def atomStep (r : Runner) (pre : Option W32) (w : W32) (k : Clk) (d : Dev) : Res :=
  let a := r.g (aOf w)
  let func := fld w 0 6
  let size := if fld w 6 2 = 2 then 4 else 8
  if pOf w ≠ 0 ∨ fld w 6 2 < 2 ∨ 9 < func then illegal d
  else
    match r.spot .read a.toNat size 1 d, r.spot .write a.toNat size size d with
    | .error code, _ => .fault code a 0xFF d
    | _, .error code => .fault code a 0xFF d
    | .ok p, .ok _ =>
      match r.readAt p size d with
      | (none, e) => .fault 0x05 a 0xFF e
      | (some bs, e) =>
        match atomicResult func size (ofLe bs) (r.g (bOf w)) (r.g (dOf w)) with
        | none => illegal d
        | some (old, new) => .done k (r.writeAt p new (((r.setG (dOf w) old).jump (r.after pre)).put e))

/-- ATOM. -/
def execAtom (who : Who) (s : State) : Host.Outcome State Fault Refusal := runClass .atom who atomStep s

/-- FENCE: every earlier access of this machine has been performed, so it only goes on. -/
def fenceStep (r : Runner) (pre : Option W32) (w : W32) (k : Clk) (d : Dev) : Res :=
  if dOf w = 0 ∧ aOf w = 0 ∧ fld w 6 10 = 0 ∧ fld w 4 2 ≠ 0 then goOn r pre k d else illegal d

/-- FENCE. -/
def execFence (who : Who) (s : State) : Host.Outcome State Fault Refusal := runClass .fence who fenceStep s

end Sys2Proof.Machine
end

