-- ==== Sys2Proof/Machine/IsaBrew.lean ====
section
/-!
DEFINITION. The brew instructions (R103 to R111).
-/

namespace Sys2Proof.Machine

/-- The brew in slot i goes on after its instruction. -/
def brewNext (i : Nat) (b : Brew) (k : Clk) (d : Dev) : Res := goOn (.slot i b) none k d

/-- A leaf that EMIT, EMITV or DELAY may not send: its fault (R104, R109). (DEDUCED, log entry 30.) -/
def leafFault (d : Dev) (key : W64) (slot : Nat) : Option Nat :=
  if !tmplValid d (keyTmpl key) then some 0x11 else if tmplLeaves d (keyTmpl key) ≤ slot then some 0x12 else none

/-- The brew in slot i hands leaves or a cancel on and waits until they are accepted; with none it goes on at once. -/
def sendAll (i : Nat) (b : Brew) (l : List Sent) (k : Clk) (d : Dev) : Res :=
  if l.isEmpty then brewNext i b k d
  else .done k (settle k (onArr (fun a => { a with sends := a.sends ++ l }) (setBrew i (some { b with wait := .leaves }) d)))

/-- The leaves of an EMIT or EMITV; those of a cancelled brew are suppressed without any check (R111). (DEDUCED, log entry 30.) -/
def emitAll (i : Nat) (b : Brew) (w : W32) (l : List (W64 × W64)) (k : Clk) (d : Dev) : Res :=
  let slot := fld (dOf w |> w32) 0 3
  if b.cancelled then brewNext i b k d
  else
    match leafFault d (b.gReg (aOf w)) slot with
    | some code => .fault code (b.gReg (aOf w)) 0xFF d
    | none => sendAll i b (l.map fun x => { slotId := some i, key := x.1, slot, value := x.2, cancel := false }) k d

/-- EMIT. -/
def execEmit (x : SlotId) (s : State) : Host.Outcome State Fault Refusal :=
  runClass .emit (.slot x) (onBrew fun i b _ w k d =>
    if pOf w = 0 ∧ dOf w < 8 then emitAll i b w [(b.gReg (aOf w), b.gReg (bOf w))] k d else illegal d) s

/-- EMITV. -/
def execEmitv (x : SlotId) (s : State) : Host.Outcome State Fault Refusal :=
  runClass .emitv (.slot x) (onBrew fun i b _ w k d =>
    if dOf w < 8 then
      emitAll i b w ((activeIdx (b.pReg (pOf w)) 16).map fun e =>
        (kaddi (b.gReg (aOf w)) (w64 e), w64 ((elems 32 (b.vReg (bOf w))).getD e 0))) k d
    else illegal d) s

/-- The first limit that a POUR breaks: code and ADDR (R106). -/
def pourFault (d : Dev) (b : Brew) (addr len dest : W64) : Option (Nat × W64) :=
  if 4096 < len.toNat then some (0x13, len)
  else if addr.toNat % 64 ≠ 0 then some (0x02, addr)
  else if 0x8000 ≤ addr.toNat ∨ 0x8000 < addr.toNat + len.toNat then some (0x03, addr)
  else if 16 ≤ b.pours then some (0x14, 0)
  else if !destOk d dest len.toNat then some (0x15, dest)
  else none

/-- POUR. -/
def execPour (x : SlotId) (s : State) : Host.Outcome State Fault Refusal :=
  runClass .pour (.slot x) (onBrew fun i b _ w k d =>
    let addr := b.gReg (aOf w)
    let len := b.gReg (bOf w)
    let dest := b.gReg (dOf w)
    if pOf w ≠ 0 then illegal d
    else
      match pourFault d b addr len dest with
      | some (code, a) => .fault code a 0xFF d
      | none =>
        match load (cupPlace i + addr.toNat) len.toNat d with
        | (none, e) => .fault 0x05 addr 0xFF e
        | (some data, e) =>
          let b := { b with pours := b.pours + 1 }
          let r : Rec := { key := b.key, dest, data }
          let y := pourStep i b r (setBrew i (some b) e)
          .done k (settle k (if y.1 then finishWait i y.2 else setBrew i (some { b with wait := .pour r }) e))) s

/-- DELAY. -/
def execDelay (x : SlotId) (s : State) : Host.Outcome State Fault Refusal :=
  runClass .delay (.slot x) (onBrew fun i b _ w k d =>
    let key := b.gReg (aOf w)
    let slot := fld w 0 3
    if pOf w ≠ 0 ∨ fld w 5 3 ≠ 0 then illegal d
    else if b.cancelled then brewNext i b k d
    else
      match leafFault d key slot with
      | some code => .fault code key 0xFF d
      | none => brewNext i b k (delayInsert (fld w 3 2) key slot (b.gReg (dOf w)) (b.gReg (bOf w)) k d)) s

/-- END. -/
def execEndBrew (x : SlotId) (s : State) : Host.Outcome State Fault Refusal :=
  runClass .endBrew (.slot x) (onBrew fun i b _ w k d =>
    if pOf w = 0 ∧ dOf w = 0 ∧ aOf w = 0 ∧ bOf w = 0 then
      let y := endStep i b d
      .done k (settle k (if y.1 then y.2 else setBrew i (some { b with wait := .ending }) d))
    else illegal d) s

/-- CANCEL. -/
def execCancel (x : SlotId) (s : State) : Host.Outcome State Fault Refusal :=
  runClass .cancel (.slot x) (onBrew fun i b _ w k d =>
    if pOf w = 0 ∧ dOf w = 0 ∧ bOf w = 0 then
      (if b.cancelled then brewNext i b k d
      else sendAll i b [{ slotId := some i, key := b.gReg (aOf w), slot := 0, value := 0, cancel := true }] k d)
    else illegal d) s

/-! Key operations (R103): they never fault on any key. -/

/-- g[D] takes a key or a field of one; `useB`: the instruction uses B. -/
def keyStep (useB : Bool) (f : Brew → W64 → W64 → W64) : Runner → Option W32 → W32 → Clk → Dev → Res :=
  onBrew fun i b _ w k d =>
    if pOf w = 0 ∧ (useB ∨ bOf w = 0) then brewNext i (b.setG (dOf w) (f b (b.gReg (aOf w)) (b.gReg (bOf w)))) k d else illegal d

/-- KMAKE. -/
def execKmake (x : SlotId) (s : State) : Host.Outcome State Fault Refusal :=
  runClass .kmake (.slot x) (keyStep true fun b a c => kmake b.key a c) s
/-- KSETF. -/
def execKsetf (x : SlotId) (s : State) : Host.Outcome State Fault Refusal :=
  runClass .ksetf (.slot x) (keyStep true fun _ a c => ksetf a c) s
/-- KADDF. -/
def execKaddf (x : SlotId) (s : State) : Host.Outcome State Fault Refusal :=
  runClass .kaddf (.slot x) (keyStep true fun _ a c => kaddf a c) s
/-- KADDI. -/
def execKaddi (x : SlotId) (s : State) : Host.Outcome State Fault Refusal :=
  runClass .kaddi (.slot x) (keyStep true fun _ a c => kaddi a c) s
/-- KSETT. -/
def execKsett (x : SlotId) (s : State) : Host.Outcome State Fault Refusal :=
  runClass .ksett (.slot x) (keyStep true fun _ a c => ksett a c) s
/-- KGETT. -/
def execKgett (x : SlotId) (s : State) : Host.Outcome State Fault Refusal :=
  runClass .kgett (.slot x) (keyStep false fun _ a _ => w64 (keyTmpl a)) s
/-- KGETF. -/
def execKgetf (x : SlotId) (s : State) : Host.Outcome State Fault Refusal :=
  runClass .kgetf (.slot x) (keyStep false fun _ a _ => w64 (keyFrame a)) s
/-- KGETI. -/
def execKgeti (x : SlotId) (s : State) : Host.Outcome State Fault Refusal :=
  runClass .kgeti (.slot x) (keyStep false fun _ a _ => w64 (keyInst a)) s

end Sys2Proof.Machine
end

