-- ==== Sys2Proof/Machine/IsaVector.lean ====
section
/-!
DEFINITION. The instructions over a brew's vector, predicate, leaf, key and flag registers (R61, R64 to R73), and the issue of the SAMPLE
family to the infuser (R138).
-/

namespace Sys2Proof.Machine

/-- The brew in slot i goes on after its instruction. -/
def brewOn (i : Nat) (b : Brew) (pre : Option W32) (k : Clk) (d : Dev) : Res := goOn (.slot i b) pre k d

/-- Flags as a predicate-register field: bits [4:3] are zero (R55). -/
def predField (n : Nat) : Bool := decide (n < 8)

/-! MISC of a brew (R61). -/

/-- MOVL. -/
def execMovl (x : SlotId) (s : State) : Host.Outcome State Fault Refusal :=
  runClass .movl (.slot x) (onBrew fun i b pre w k d =>
    if miscOk w true true && decide (aOf w < 8) then brewOn i (b.setG (dOf w) (b.lReg (aOf w))) pre k d else illegal d) s

/-- MOVK. -/
def execMovk (x : SlotId) (s : State) : Host.Outcome State Fault Refusal :=
  runClass .movk (.slot x) (onBrew fun i b pre w k d =>
    if miscOk w true false then brewOn i (b.setG (dOf w) b.key) pre k d else illegal d) s

/-- MOVFL. -/
def execMovfl (x : SlotId) (s : State) : Host.Outcome State Fault Refusal :=
  runClass .movfl (.slot x) (onBrew fun i b pre w k d =>
    if miscOk w true false then brewOn i (b.setG (dOf w) (b.fl.setWidth 64)) pre k d else illegal d) s

/-- CLRFL. -/
def execClrfl (x : SlotId) (s : State) : Host.Outcome State Fault Refusal :=
  runClass .clrfl (.slot x) (onBrew fun i b pre w k d =>
    if miscOk w false true then
      brewOn i { b with fl := b.fl &&& ~~~ w32 (fld (b.gReg (aOf w)) 0 6) } pre k d
    else illegal d) s

/-! Vector arithmetic (R64 to R71). -/

/-- RND of a VX prefix. -/
def vxRnd (pre : Option W32) : Nat := pre.elim 0 (fld · 6 2)

/-- The operands of a vector instruction whose second operand has elements of `width` bits (R64). With C = 0 the fourth operand is vd.
(DEDUCED, log entry 92.) -/
def vArgs (b : Brew) (pre : Option W32) (w : W32) (width : Nat) : VArgs where
  func := fld w 0 6
  type := fld w 6 2
  bField := bOf w
  old := b.vReg (dOf w)
  a := b.vReg (aOf w)
  b := if pre.any (bit · 8) then splat width ((b.gReg (bOf w)).toNat % 2 ^ width) else b.vReg (bOf w)
  acc := if pre.elim 0 (fld · 0 5) = 0 then b.vReg (dOf w) else b.vReg (pre.elim 0 (fld · 0 5))
  ga := b.gReg (aOf w)
  gb := b.gReg (bOf w)
  pred := b.pReg (pOf w)
  rnd := vxRnd pre
  zero := pre.any (bit · 5)

/-- A vector instruction writes its result; none is ILLEGAL. -/
def vWrite (i : Nat) (b : Brew) (pre : Option W32) (w : W32) (r : Option VRes) (k : Clk) (d : Dev) : Res :=
  match r with
  | none => illegal d
  | some (.vec v fl) => brewOn i ((b.setV (dOf w) v).raiseFl fl) pre k d
  | some (.pred p) => if predField (dOf w) then brewOn i (b.setP (dOf w) p) pre k d else illegal d
  | some (.predFl p fl) => if predField (dOf w) then brewOn i ((b.setP (dOf w) p).raiseFl fl) pre k d else illegal d
  | some (.scalar x fl) => brewOn i ((b.setG (dOf w) x).raiseFl fl) pre k d

/-- VINT. -/
def execVint (x : SlotId) (s : State) : Host.Outcome State Fault Refusal :=
  runClass .vint (.slot x) (onBrew fun i b pre w k d =>
    vWrite i b pre w (vint (vArgs b pre w (operandWidth false (fld w 6 2)))) k d) s

/-- VFIX. -/
def execVfix (x : SlotId) (s : State) : Host.Outcome State Fault Refusal :=
  runClass .vfix (.slot x) (onBrew fun i b pre w k d => vWrite i b pre w (vfix (vArgs b pre w 16)) k d) s

/-- VFP. -/
def execVfp (x : SlotId) (s : State) : Host.Outcome State Fault Refusal :=
  runClass .vfp (.slot x) (onBrew fun i b pre w k d =>
    vWrite i b pre w (vfp (vArgs b pre w (operandWidth (fld w 0 6 == 0x25) (fld w 6 2)))) k d) s

/-- VMOVE. -/
def execVmove (x : SlotId) (s : State) : Host.Outcome State Fault Refusal :=
  runClass .vmove (.slot x) (onBrew fun i b pre w k d =>
    vWrite i b pre w (vmove (pOf w) (vArgs b pre w (operandWidth false (fld w 6 2)))) k d) s

/-- The fields of a VPRED that name predicate registers do (R55, R69). -/
def vpredFields (w : W32) : Bool :=
  match funcOf w with
  | 0x04 => predField (aOf w)
  | 0x08 => true
  | 0x09 => true
  | 0x0A => predField (aOf w)
  | 0x0B => predField (aOf w)
  | 0x0C => predField (aOf w)
  | _ => predField (aOf w) && predField (bOf w)

/-- VPRED. -/
def execVpred (x : SlotId) (s : State) : Host.Outcome State Fault Refusal :=
  runClass .vpred (.slot x) (onBrew fun i b pre w k d =>
    if pOf w = 0 ∧ vpredFields w then
      vWrite i b pre w (vpred (funcOf w) (bOf w) (b.pReg (aOf w)) (b.pReg (bOf w)) (b.gReg (aOf w))) k d
    else illegal d) s

/-! Vector memory (R72, R73). -/

/-- The bytes of an element in memory by W. -/
def memBytes (w : W32) : Nat := match fld w 6 2 with | 0 => 2 | 1 => 4 | _ => 1
/-- The bits of an element in a register by W. -/
def regBits (w : W32) : Nat := if fld w 6 2 = 1 then 32 else 16

/-- The active elements of a VLD or VST with their addresses (R72). -/
def lineElems (b : Brew) (pre : Option W32) (w : W32) : List (Nat × W64) :=
  let size := memBytes w
  let n := 512 / regBits w
  let ofs := match pre with
    | some p => sx 28 (fld p 0 22 * 2 ^ 6 + fld w 0 6)
    | none => sx 6 (fld w 0 6)
  (activeIdx (b.pReg (pOf w)) n).map fun i => (i, b.gReg (aOf w) + ofs * w64 (n * size) + w64 (i * size))

/-- The active elements of a VGATHER or VSCATTER with their addresses (R73). -/
def indexElems (b : Brew) (w : W32) : List (Nat × W64) :=
  let n := 512 / regBits w
  (activeIdx (b.pReg (pOf w)) n).map fun i =>
    (i, b.gReg (aOf w) + w64 ((elems (regBits w) (b.vReg (bOf w))).getD i 0 * 2 ^ fld w 4 2))

/-- The lowest element that fails its check: its fault, address and number (R72, R73, R80). (DEDUCED, log entry 29.) -/
def firstFault (r : Runner) (kind : Access) (size : Nat) (l : List (Nat × W64)) (d : Dev) : Option (Nat × W64 × Nat) :=
  l.findSome? fun (i, a) =>
    match r.spot kind a.toNat size size d with
    | .error code => some (code, a, i)
    | .ok _ => none

/-- The place of an element that has passed its check. (DEDUCED, log entry 29.) -/
def spotOf (r : Runner) (kind : Access) (size : Nat) (a : W64) (d : Dev) : Nat :=
  match r.spot kind a.toNat size size d with
  | .error _ => 0
  | .ok p => p

/-- Load elements into v[D]; the others keep their values. -/
def loadElems (i : Nat) (b : Brew) (pre : Option W32) (w : W32) (l : List (Nat × W64)) (k : Clk) (d : Dev) : Res :=
  let r := Runner.slot i b
  let size := memBytes w
  match firstFault r .read size l d with
  | some (code, a, lane) => .fault code a lane d
  | none =>
    let at' := l.map fun (e, a) => (e, a, spotOf r .read size a d)
    let e := (readSpans (at'.map fun x => (x.2.2, size)) d).2
    match at'.find? fun x => uncorrectable d x.2.2 size with
    | some (lane, a, _) => .fault 0x05 a lane e
    | none =>
      let v := at'.foldl (fun v x => v.set x.1 (ofLe (getBytes d x.2.2 size))) (elems (regBits w) (b.vReg (dOf w)))
      brewOn i (b.setV (dOf w) (ofElems (regBits w) v)) pre k e

/-- An element as it is stored, and whether it was clamped (R72). -/
def storedElem (w : W32) (x : Nat) : List W8 × Bool :=
  if fld w 6 2 = 2 then
    let v := signExt 16 x
    let c := if v < 0 then 0 else if 255 < v then 255 else v
    (leBytes 1 c.toNat, c != v)
  else (leBytes (memBytes w) x, false)

/-- Store elements of v[D] in ascending order, as one write. -/
def storeElems (i : Nat) (b : Brew) (pre : Option W32) (w : W32) (l : List (Nat × W64)) (k : Clk) (d : Dev) : Res :=
  let r := Runner.slot i b
  let size := memBytes w
  match firstFault r .write size l d with
  | some (code, a, lane) => .fault code a lane d
  | none =>
    let xs := l.map fun (e, a) => (spotOf r .write size a d, storedElem w ((elems (regBits w) (b.vReg (dOf w))).getD e 0))
    let b := if xs.any (·.2.2) then b.raiseFl flSAT else b
    brewOn i b pre k (storeRanges (joinRanges (xs.map fun x => (x.1, x.2.1))) d)

/-- VLD. -/
def execVld (x : SlotId) (s : State) : Host.Outcome State Fault Refusal :=
  runClass .vld (.slot x) (onBrew fun i b pre w k d =>
    if bOf w = 0 ∧ fld w 6 2 ≠ 3 then loadElems i b pre w (lineElems b pre w) k d else illegal d) s

/-- VST. -/
def execVst (x : SlotId) (s : State) : Host.Outcome State Fault Refusal :=
  runClass .vst (.slot x) (onBrew fun i b pre w k d =>
    if bOf w = 0 ∧ fld w 6 2 ≠ 3 then storeElems i b pre w (lineElems b pre w) k d else illegal d) s

/-- VGATHER. -/
def execVgather (x : SlotId) (s : State) : Host.Outcome State Fault Refusal :=
  runClass .vgather (.slot x) (onBrew fun i b pre w k d =>
    if fld w 0 4 = 0 ∧ fld w 6 2 ≠ 3 then loadElems i b pre w (indexElems b w) k d else illegal d) s

/-- VSCATTER. -/
def execVscatter (x : SlotId) (s : State) : Host.Outcome State Fault Refusal :=
  runClass .vscatter (.slot x) (onBrew fun i b pre w k d =>
    if fld w 0 4 = 0 ∧ fld w 6 2 ≠ 3 then storeElems i b pre w (indexElems b w) k d else illegal d) s

/-! The SAMPLE family (R138, R141, R142). -/

/-- A SAMPLE-family instruction is handed to the infuser; its result and its faults come from there. -/
def sampleStep (i : Nat) (b : Brew) (pre : Option W32) (w : W32) (k : Clk) (d : Dev) : Res :=
  if sampleLegal pre w then .done k (settle k (infuserIssue i { slotId := i, pre, word := w } (setBrew i (some b) d))) else illegal d

/-- SAMPLE2. -/
def execSample2 (x : SlotId) (s : State) : Host.Outcome State Fault Refusal :=
  runClass .sample2 (.slot x) (onBrew fun i b pre w k d => sampleStep i b pre w k d) s
/-- SAMPLE3. -/
def execSample3 (x : SlotId) (s : State) : Host.Outcome State Fault Refusal :=
  runClass .sample3 (.slot x) (onBrew fun i b pre w k d => sampleStep i b pre w k d) s
/-- MATRIX. -/
def execMatrix (x : SlotId) (s : State) : Host.Outcome State Fault Refusal :=
  runClass .matrix (.slot x) (onBrew fun i b pre w k d => sampleStep i b pre w k d) s
/-- LUT3. -/
def execLut3 (x : SlotId) (s : State) : Host.Outcome State Fault Refusal :=
  runClass .lut3 (.slot x) (onBrew fun i b pre w k d => sampleStep i b pre w k d) s
/-- CURVE. -/
def execCurve (x : SlotId) (s : State) : Host.Outcome State Fault Refusal :=
  runClass .curve (.slot x) (onBrew fun i b pre w k d => sampleStep i b pre w k d) s
/-- DITHER. -/
def execDither (x : SlotId) (s : State) : Host.Outcome State Fault Refusal :=
  runClass .dither (.slot x) (onBrew fun i b pre w k d => sampleStep i b pre w k d) s

end Sys2Proof.Machine
end

