-- ==== Sys2Proof/Machine/Dispatch.lean ====
section
/-!
DEFINITION. One arm for each command: a direct call of its meaning, or its rejection by name.
-/

namespace Sys2Proof.Machine

/-- The effect of a command on everything but the queue of waiting commands. -/
def exec (i : Instr) (s : State) : Host.Outcome State Fault Refusal :=
  match i with
  | .tick => Sys2Proof.Machine.execTick s
  | .tbIncrCommit req v => Sys2Proof.Machine.execTbIncrCommit req v s
  | .tbCmdStep req => Sys2Proof.Machine.execTbCmdStep req s
  | .tbCmdSet req alsoStep => Sys2Proof.Machine.execTbCmdSet req alsoStep s
  | .tbNowRead req => Sys2Proof.Machine.execTbNowRead req s
  | .tbShortRead req => Sys2Proof.Machine.execTbShortRead req s
  | .refLoss => Sys2Proof.Machine.execRefLoss s
  | .pllUnlock => Sys2Proof.Machine.execPllUnlock s
  | .ppsInEdge narrow => Sys2Proof.Machine.execPpsInEdge narrow s
  | .ppsInLost => Sys2Proof.Machine.execPpsInLost s
  | .tbPpsCapRead req => Sys2Proof.Machine.execTbPpsCapRead req s
  | .ppsOutRise => Sys2Proof.Machine.execPpsOutRise s
  | .ppsOutFall => Sys2Proof.Machine.execPpsOutFall s
  | .evtCapEdge n rising narrow => Sys2Proof.Machine.execEvtCapEdge n rising narrow s
  | .tbEvtcapPop req n => Sys2Proof.Machine.execTbEvtcapPop req n s
  | .perOutActiveEdge n => Sys2Proof.Machine.execPerOutActiveEdge n s
  | .perOutInactiveEdge n => Sys2Proof.Machine.execPerOutInactiveEdge n s
  | .frmEnable req => Sys2Proof.Machine.execFrmEnable req s
  | .frmDisable req => Sys2Proof.Machine.execFrmDisable req s
  | .frmApply req => Sys2Proof.Machine.execFrmApply req s
  | .boundaryEmit => Sys2Proof.Machine.execBoundaryEmit s
  | .holdEnd => Sys2Proof.Machine.execHoldEnd s
  | .frmNumberRead req => Sys2Proof.Machine.execFrmNumberRead req s
  | .houseSyncEdge rising narrow => Sys2Proof.Machine.execHouseSyncEdge rising narrow s
  | .hsyncLost => Sys2Proof.Machine.execHsyncLost s
  | .alu who => Sys2Proof.Machine.execAlu who s
  | .immediateOp who => Sys2Proof.Machine.execImmediateOp who s
  | .lui who => Sys2Proof.Machine.execLui who s
  | .shifti who => Sys2Proof.Machine.execShifti who s
  | .nop who => Sys2Proof.Machine.execNop who s
  | .movl x => Sys2Proof.Machine.execMovl x s
  | .movk x => Sys2Proof.Machine.execMovk x s
  | .movfl x => Sys2Proof.Machine.execMovfl x s
  | .clrfl x => Sys2Proof.Machine.execClrfl x s
  | .trap who => Sys2Proof.Machine.execTrap who s
  | .branch who => Sys2Proof.Machine.execBranch who s
  | .jal who => Sys2Proof.Machine.execJal who s
  | .jalr who => Sys2Proof.Machine.execJalr who s
  | .load who => Sys2Proof.Machine.execLoad who s
  | .store who => Sys2Proof.Machine.execStore who s
  | .vint x => Sys2Proof.Machine.execVint x s
  | .vfix x => Sys2Proof.Machine.execVfix x s
  | .vfp x => Sys2Proof.Machine.execVfp x s
  | .vpred x => Sys2Proof.Machine.execVpred x s
  | .vmove x => Sys2Proof.Machine.execVmove x s
  | .vld x => Sys2Proof.Machine.execVld x s
  | .vst x => Sys2Proof.Machine.execVst x s
  | .vgather x => Sys2Proof.Machine.execVgather x s
  | .vscatter x => Sys2Proof.Machine.execVscatter x s
  | .atom who => Sys2Proof.Machine.execAtom who s
  | .fence who => Sys2Proof.Machine.execFence who s
  | .getc c => Sys2Proof.Machine.execGetc c s
  | .setc c => Sys2Proof.Machine.execSetc c s
  | .resume c => Sys2Proof.Machine.execResume c s
  | .doze c => Sys2Proof.Machine.execDoze c s
  | .dozeWake c => Sys2Proof.Machine.execDozeWake c s
  | .callp c => Sys2Proof.Machine.execCallp c s
  | .coreInterrupt c => Sys2Proof.Machine.execCoreInterrupt c s
  | .swarmIcacheInv req sw => Sys2Proof.Machine.execSwarmIcacheInv req sw s
  | .emit x => Sys2Proof.Machine.execEmit x s
  | .emitv x => Sys2Proof.Machine.execEmitv x s
  | .pour x => Sys2Proof.Machine.execPour x s
  | .delay x => Sys2Proof.Machine.execDelay x s
  | .endBrew x => Sys2Proof.Machine.execEndBrew x s
  | .cancel x => Sys2Proof.Machine.execCancel x s
  | .kmake x => Sys2Proof.Machine.execKmake x s
  | .ksetf x => Sys2Proof.Machine.execKsetf x s
  | .kaddf x => Sys2Proof.Machine.execKaddf x s
  | .kaddi x => Sys2Proof.Machine.execKaddi x s
  | .ksett x => Sys2Proof.Machine.execKsett x s
  | .kgett x => Sys2Proof.Machine.execKgett x s
  | .kgetf x => Sys2Proof.Machine.execKgetf x s
  | .kgeti x => Sys2Proof.Machine.execKgeti x s
  | .leafArrive sw => Sys2Proof.Machine.execLeafArrive sw s
  | .waitingLeafDeliver sw => Sys2Proof.Machine.execWaitingLeafDeliver sw s
  | .dispatch sw => Sys2Proof.Machine.execDispatch sw s
  | .brewOvertime x => Sys2Proof.Machine.execBrewOvertime x s
  | .cancelArrive sw => Sys2Proof.Machine.execCancelArrive sw s
  | .markerExpire sw => Sys2Proof.Machine.execMarkerExpire sw s
  | .schedTmplWrite req => Sys2Proof.Machine.execSchedTmplWrite req s
  | .schedTmplRead req => Sys2Proof.Machine.execSchedTmplRead req s
  | .schedLeafPushLeaf req p slot => Sys2Proof.Machine.execSchedLeafPushLeaf req p slot s
  | .schedLeafPushCancel req p => Sys2Proof.Machine.execSchedLeafPushCancel req p s
  | .hostPortRelease => Sys2Proof.Machine.execHostPortRelease s
  | .schedRouteSetWrite req v => Sys2Proof.Machine.execSchedRouteSetWrite req v s
  | .pourResume x => Sys2Proof.Machine.execPourResume x s
  | .flowTombstone => Sys2Proof.Machine.execFlowTombstone s
  | .flowRelease f => Sys2Proof.Machine.execFlowRelease f s
  | .recordHandOn f => Sys2Proof.Machine.execRecordHandOn f s
  | .flowExpiry f => Sys2Proof.Machine.execFlowExpiry f s
  | .flowEnable req f v => Sys2Proof.Machine.execFlowEnable req f v s
  | .flowDisable req f v => Sys2Proof.Machine.execFlowDisable req f v s
  | .flowSkip req f => Sys2Proof.Machine.execFlowSkip req f s
  | .flowReset req f => Sys2Proof.Machine.execFlowReset req f s
  | .delayTick => Sys2Proof.Machine.execDelayTick s
  | .delayDeferredRelease sw => Sys2Proof.Machine.execDelayDeferredRelease sw s
  | .delayFlush req sw lists => Sys2Proof.Machine.execDelayFlush req sw lists s
  | .sample2 x => Sys2Proof.Machine.execSample2 x s
  | .sample3 x => Sys2Proof.Machine.execSample3 x s
  | .matrix x => Sys2Proof.Machine.execMatrix x s
  | .lut3 x => Sys2Proof.Machine.execLut3 x s
  | .curve x => Sys2Proof.Machine.execCurve x s
  | .dither x => Sys2Proof.Machine.execDither x s
  | .infuserQueueAccept sw => Sys2Proof.Machine.execInfuserQueueAccept sw s
  | .infuserResult sw => Sys2Proof.Machine.execInfuserResult sw s
  | .kettleScrub => Sys2Proof.Machine.execKettleScrub s
  | .kettleWindowRead off len => Sys2Proof.Machine.execKettleWindowRead off len s
  | .kettleWindowWrite off data => Sys2Proof.Machine.execKettleWindowWrite off data s
  | .ketSurfWrite req => Sys2Proof.Machine.execKetSurfWrite req s
  | .ketSurfRead req => Sys2Proof.Machine.execKetSurfRead req s
  | .rheadEnable req h v => Sys2Proof.Machine.execRheadEnable req h v s
  | .rheadDisable req h v => Sys2Proof.Machine.execRheadDisable req h v s
  | .timingApply req h => Sys2Proof.Machine.execTimingApply req h s
  | .vsyncStart h => Sys2Proof.Machine.execVsyncStart h s
  | .abandonedWait h => Sys2Proof.Machine.execAbandonedWait h s
  | .latchInstant h => Sys2Proof.Machine.execLatchInstant h s
  | .rheadCommit req h => Sys2Proof.Machine.execRheadCommit req h s
  | .scanLate h block => Sys2Proof.Machine.execScanLate h block s
  | .hpd h high trained => Sys2Proof.Machine.execHpd h high trained s
  | .sportEnable req p v => Sys2Proof.Machine.execSportEnable req p v s
  | .sportDisable req p v => Sys2Proof.Machine.execSportDisable req p v s
  | .linkUp p rate half => Sys2Proof.Machine.execLinkUp p rate half s
  | .linkDown p => Sys2Proof.Machine.execLinkDown p s
  | .lportDuplexChange n => Sys2Proof.Machine.execLportDuplexChange n s
  | .txqEnable req p q v => Sys2Proof.Machine.execTxqEnable req p q v s
  | .txqDisable req p q v => Sys2Proof.Machine.execTxqDisable req p q v s
  | .txqTailWrite req p q v => Sys2Proof.Machine.execTxqTailWrite req p q v s
  | .txDescRead p q got => Sys2Proof.Machine.execTxDescRead p q got s
  | .lqOffer p => Sys2Proof.Machine.execLqOffer p s
  | .packerOffer p => Sys2Proof.Machine.execPackerOffer p s
  | .timedLaunch p => Sys2Proof.Machine.execTimedLaunch p s
  | .windowEnd p => Sys2Proof.Machine.execWindowEnd p s
  | .untimedStart p => Sys2Proof.Machine.execUntimedStart p s
  | .txFrameEnd p timed => Sys2Proof.Machine.execTxFrameEnd p timed s
  | .txUnderrun p => Sys2Proof.Machine.execTxUnderrun p s
  | .pauseReceive p data => Sys2Proof.Machine.execPauseReceive p data s
  | .pauseExpire p => Sys2Proof.Machine.execPauseExpire p s
  | .preemptVerify p ok => Sys2Proof.Machine.execPreemptVerify p ok s
  | .preemptResume p => Sys2Proof.Machine.execPreemptResume p s
  | .collision n => Sys2Proof.Machine.execCollision n s
  | .backoffExpire n => Sys2Proof.Machine.execBackoffExpire n s
  | .rxSfd p => Sys2Proof.Machine.execRxSfd p s
  | .rxBufferNeed p data => Sys2Proof.Machine.execRxBufferNeed p data s
  | .rxFrameEnd p data err => Sys2Proof.Machine.execRxFrameEnd p data err s
  | .rxqEnable req p q v => Sys2Proof.Machine.execRxqEnable req p q v s
  | .rxqDisable req p q v => Sys2Proof.Machine.execRxqDisable req p q v s
  | .rxqTailWrite req p q v => Sys2Proof.Machine.execRxqTailWrite req p q v s
  | .ringWmWrite req p q v => Sys2Proof.Machine.execRingWmWrite req p q v s
  | .saucerPop req p => Sys2Proof.Machine.execSaucerPop req p s
  | .packUnivWrite req => Sys2Proof.Machine.execPackUnivWrite req s
  | .packUnivRead req => Sys2Proof.Machine.execPackUnivRead req s
  | .sacnRecord => Sys2Proof.Machine.execSacnRecord s
  | .recordDeadline u => Sys2Proof.Machine.execRecordDeadline u s
  | .syncPacketBuild p => Sys2Proof.Machine.execSyncPacketBuild p s
  | .discovery => Sys2Proof.Machine.execDiscovery s
  | .sacnInPacket => Sys2Proof.Machine.execSacnInPacket s
  | .inLoss e => Sys2Proof.Machine.execInLoss e s
  | .packInWrite req => Sys2Proof.Machine.execPackInWrite req s
  | .packInRead req => Sys2Proof.Machine.execPackInRead req s
  | .st2110Packet => Sys2Proof.Machine.execSt2110Packet s
  | .trazhCompose h => Sys2Proof.Machine.execTrazhCompose h s
  | .dmxRecord n => Sys2Proof.Machine.execDmxRecord n s
  | .dmxRecordDeadline n => Sys2Proof.Machine.execDmxRecordDeadline n s
  | .dmxBreak n => Sys2Proof.Machine.execDmxBreak n s
  | .dmxFrameEnd n => Sys2Proof.Machine.execDmxFrameEnd n s
  | .rdmGo req n noResp => Sys2Proof.Machine.execRdmGo req n noResp s
  | .rdmRequestSend n => Sys2Proof.Machine.execRdmRequestSend n s
  | .rdmReply n data => Sys2Proof.Machine.execRdmReply n data s
  | .rdmTimeout n => Sys2Proof.Machine.execRdmTimeout n s
  | .dmxRxFrame n breakNs ago data framing => Sys2Proof.Machine.execDmxRxFrame n breakNs ago data framing s
  | .rdmRequestRx n data => Sys2Proof.Machine.execRdmRequestRx n data s
  | .rdmLate n => Sys2Proof.Machine.execRdmLate n s
  | .ltcRxFrame tc user ago => Sys2Proof.Machine.execLtcRxFrame tc user ago s
  | .ltcRxPop req => Sys2Proof.Machine.execLtcRxPop req s
  | .ltcTxFrame => Sys2Proof.Machine.execLtcTxFrame s
  | .midiRxByte b ago => Sys2Proof.Machine.execMidiRxByte b ago s
  | .midiRxPop req => Sys2Proof.Machine.execMidiRxPop req s
  | .midiTxWrite req v => Sys2Proof.Machine.execMidiTxWrite req v s
  | .mtcQuarterFrame => Sys2Proof.Machine.execMtcQuarterFrame s
  | .pairEnable req v => Sys2Proof.Machine.execPairEnable req v s
  | .cricketBlockRx block => Sys2Proof.Machine.execCricketBlockRx block s
  | .cricketResendTimeout => Sys2Proof.Machine.execCricketResendTimeout s
  | .cricketLinkUp attested => Sys2Proof.Machine.execCricketLinkUp attested s
  | .timeExchange answer t1 t2 t3 => Sys2Proof.Machine.execTimeExchange answer t1 t2 t3 s
  | .timeMessage m => Sys2Proof.Machine.execTimeMessage m s
  | .mirrorFrameRx m => Sys2Proof.Machine.execMirrorFrameRx m s
  | .markRx f => Sys2Proof.Machine.execMarkRx f s
  | .mirrorLate => Sys2Proof.Machine.execMirrorLate s
  | .heartbeatSend => Sys2Proof.Machine.execHeartbeatSend s
  | .heartbeatRx hb => Sys2Proof.Machine.execHeartbeatRx hb s
  | .linkLost => Sys2Proof.Machine.execLinkLost s
  | .claim highNs => Sys2Proof.Machine.execClaim highNs s
  | .claimVerify high => Sys2Proof.Machine.execClaimVerify high s
  | .digestSend f => Sys2Proof.Machine.execDigestSend f s
  | .digestRx => Sys2Proof.Machine.execDigestRx s
  | .digestMissing f => Sys2Proof.Machine.execDigestMissing f s
  | .mismatchMessageRx cls index f => Sys2Proof.Machine.execMismatchMessageRx cls index f s
  | .adjResult partnerFail => Sys2Proof.Machine.execAdjResult partnerFail s
  | .pairWdogKick req => Sys2Proof.Machine.execPairWdogKick req s
  | .wdogExpired => Sys2Proof.Machine.execWdogExpired s
  | .handover req => Sys2Proof.Machine.execHandover req s
  | .handoverMessageRx f => Sys2Proof.Machine.execHandoverMessageRx f s
  | .handoverRelease => Sys2Proof.Machine.execHandoverRelease s
  | .handoverCheck high => Sys2Proof.Machine.execHandoverCheck high s
  | .rejoin req => Sys2Proof.Machine.execRejoin req s
  | .healthRx => Sys2Proof.Machine.execHealthRx s
  | .csrWrite req a v whole => Sys2Proof.Machine.execCsrWrite req a v whole s
  | .pairLoWrite req a v => Sys2Proof.Machine.execPairLoWrite req a v s
  | .pairHiWrite req a v => Sys2Proof.Machine.execPairHiWrite req a v s
  | .pairLoRead req a => Sys2Proof.Machine.execPairLoRead req a s
  | .indDataRead req => Sys2Proof.Machine.execIndDataRead req s
  | .indDataWrite req v => Sys2Proof.Machine.execIndDataWrite req v s
  | .indErr req write => Sys2Proof.Machine.execIndErr req write s
  | .guardUnlockWrite req v => Sys2Proof.Machine.execGuardUnlockWrite req v s
  | .unlockExpire req => Sys2Proof.Machine.execUnlockExpire req s
  | .sealPassEnd => Sys2Proof.Machine.execSealPassEnd s
  | .sealCapture req => Sys2Proof.Machine.execSealCapture req s
  | .quePush req q => Sys2Proof.Machine.execQuePush req q s
  | .quePop req q => Sys2Proof.Machine.execQuePop req q s
  | .queSpill q => Sys2Proof.Machine.execQueSpill q s
  | .queRefill q => Sys2Proof.Machine.execQueRefill q s
  | .queuePtrMismatch q => Sys2Proof.Machine.execQueuePtrMismatch q s
  | .queEnable req q v => Sys2Proof.Machine.execQueEnable req q v s
  | .queDisable req q v => Sys2Proof.Machine.execQueDisable req q v s
  | .dmaEnable req c v => Sys2Proof.Machine.execDmaEnable req c v s
  | .dmaTailWrite req c v => Sys2Proof.Machine.execDmaTailWrite req c v s
  | .dmaDescDone c hostData pcieErr => Sys2Proof.Machine.execDmaDescDone c hostData pcieErr s
  | .sysAbortSportTxq req inst => Sys2Proof.Machine.execSysAbortSportTxq req inst s
  | .sysAbortLportTxq req inst => Sys2Proof.Machine.execSysAbortLportTxq req inst s
  | .sysAbortSportRxq req inst => Sys2Proof.Machine.execSysAbortSportRxq req inst s
  | .sysAbortLportRxq req inst => Sys2Proof.Machine.execSysAbortLportRxq req inst s
  | .sysAbortDma req inst => Sys2Proof.Machine.execSysAbortDma req inst s
  | .sysAbortHead req inst => Sys2Proof.Machine.execSysAbortHead req inst s
  | .sysAbortSwarm req inst => Sys2Proof.Machine.execSysAbortSwarm req inst s
  | .sysAbortFlow req inst => Sys2Proof.Machine.execSysAbortFlow req inst s
  | .sysAbortPacker req inst => Sys2Proof.Machine.execSysAbortPacker req inst s
  | .sysAbortWeevil req inst => Sys2Proof.Machine.execSysAbortWeevil req inst s
  | .sysAbortCricket req inst => Sys2Proof.Machine.execSysAbortCricket req inst s
  | .abortDone => Sys2Proof.Machine.execAbortDone s
  | .weevilRun req r v => Sys2Proof.Machine.execWeevilRun req r v s
  | .serviceSliceStart r kind target => Sys2Proof.Machine.execServiceSliceStart r kind target s
  | .adjSliceStart => Sys2Proof.Machine.execAdjSliceStart s
  | .sliceEnd r pass repairs errors detail => Sys2Proof.Machine.execSliceEnd r pass repairs errors detail s
  | .sliceTimeout r => Sys2Proof.Machine.execSliceTimeout r s
  | .swarmSpareGo req sw v => Sys2Proof.Machine.execSwarmSpareGo req sw v s
  | .calMeasure req => Sys2Proof.Machine.execCalMeasure req s
  | .calAutoTrigger path => Sys2Proof.Machine.execCalAutoTrigger path s
  | .calMeasurementEnd path m1 t1 m2 t2 => Sys2Proof.Machine.execCalMeasurementEnd path m1 t1 m2 t2 s
  | .calStore req => Sys2Proof.Machine.execCalStore req s
  | .calStoreDone ok => Sys2Proof.Machine.execCalStoreDone ok s
  | .lcMoveProvisioned req => Sys2Proof.Machine.execLcMoveProvisioned req s
  | .lcMoveDeployed req => Sys2Proof.Machine.execLcMoveDeployed req s
  | .lcMoveDiagnostic req => Sys2Proof.Machine.execLcMoveDiagnostic req s
  | .lcMoveRetired req => Sys2Proof.Machine.execLcMoveRetired req s
  | .lcChange => Sys2Proof.Machine.execLcChange s
  | .svnRaise req v => Sys2Proof.Machine.execSvnRaise req v s
  | .pkgOpen req => Sys2Proof.Machine.execPkgOpen req s
  | .pkgOpenDone => Sys2Proof.Machine.execPkgOpenDone s
  | .pkgClose req => Sys2Proof.Machine.execPkgClose req s
  | .windowZeroDone => Sys2Proof.Machine.execWindowZeroDone s
  | .dramWindowAccess write off len data => Sys2Proof.Machine.execDramWindowAccess write off len data s
  | .pinWrite req => Sys2Proof.Machine.execPinWrite req s
  | .pinRead req => Sys2Proof.Machine.execPinRead req s
  | .pairForm req => Sys2Proof.Machine.execPairForm req s
  | .scarabMessageRx m => Sys2Proof.Machine.execScarabMessageRx m s
  | .sessCmd req op => Sys2Proof.Machine.execSessCmd req op s
  | .chalNew req => Sys2Proof.Machine.execChalNew req s
  | .chalExpire => Sys2Proof.Machine.execChalExpire s
  | .tokenGo req => Sys2Proof.Machine.execTokenGo req s
  | .powerOn => Sys2Proof.Machine.execPowerOn s
  | .sysResetN => Sys2Proof.Machine.execSysResetN s
  | .sysResetSystem req => Sys2Proof.Machine.execSysResetSystem req s
  | .sysResetRecovery req => Sys2Proof.Machine.execSysResetRecovery req s
  | .linkReset ended => Sys2Proof.Machine.execLinkReset ended s
  | .startup bootSrc pairId spiFast reports primary secondary => Sys2Proof.Machine.execStartup bootSrc pairId spiFast reports primary secondary s
  | .sysBootGo req reports => Sys2Proof.Machine.execSysBootGo req reports s
  | .swarmClkWrite req sw v => Sys2Proof.Machine.execSwarmClkWrite req sw v s
  | .tempSample temps => Sys2Proof.Machine.execTempSample temps s
  | .pmonStartNext req v => Sys2Proof.Machine.execPmonStartNext req v s
  | .pmonFreezeNext req v => Sys2Proof.Machine.execPmonFreezeNext req v s
  | .msixAck req hi => Sys2Proof.Machine.execMsixAck req hi s
  | .sysSwSet req v => Sys2Proof.Machine.execSysSwSet req v s
  | .gpioEdge pin rising => Sys2Proof.Machine.execGpioEdge pin rising s
  | .i2cGo req c v => Sys2Proof.Machine.execI2cGo req c v s
  | .i2cDone c outcome data => Sys2Proof.Machine.execI2cDone c outcome data s
  | .i2cStretchTimeout c => Sys2Proof.Machine.execI2cStretchTimeout c s
  | .i2cAlert => Sys2Proof.Machine.execI2cAlert s
  | .spiGo req => Sys2Proof.Machine.execSpiGo req s
  | .spiDone data => Sys2Proof.Machine.execSpiDone data s
  | .uartTxWrite req v => Sys2Proof.Machine.execUartTxWrite req v s
  | .uartRxByte b => Sys2Proof.Machine.execUartRxByte b s
  | .uartRxPop req => Sys2Proof.Machine.execUartRxPop req s
  | .mdioGo req n v => Sys2Proof.Machine.execMdioGo req n v s
  | .mdioDone n data => Sys2Proof.Machine.execMdioDone n data s
  | .pllRelock => Sys2Proof.Machine.execPllRelock s
  | .lineStart h => Sys2Proof.Machine.execLineStart h s
  | .tapInstruction ins held => Sys2Proof.Machine.execTapInstruction ins held s
  | .fabricLinkFatal n => Sys2Proof.Machine.execFabricLinkFatal n s
  | .midiTxByte => Sys2Proof.Machine.execMidiTxByte s
  | .uartTxByte => Sys2Proof.Machine.execUartTxByte s
  | .msixUnmask masked => Sys2Proof.Machine.execMsixUnmask masked s

end Sys2Proof.Machine
end

