-- ==== Sys2Proof/Machine/Balls.lean ====
section
/-!
DEFINITION. The levels that the device drives at its balls (R341, R378, R404, R411): what a command changes is in its own file, and here
a ball's level follows from the state.
-/

namespace Sys2Proof.Machine

/-- Legacy port n uses RGMII (R213). -/
def usesRgmii (d : Dev) (n : Nat) : Bool := rb d (Reg.SPORT_CTL (8 + n)) 7

/-- The MIDI byte sent last is still on the line: a start bit, 8 data bits and a stop bit at 31,250 bit/s (R406). -/
def midiBusy (k : Clk) (d : Dev) : Bool := d.slow.midiLast.any fun y => decide (since k y.2 < 400000)

/-- The level that a ball's own function drives in a device whose outputs are driven; none while it is released or an input (R404). Of an
interface that runs the manual gives no waveform, and one that rests holds its state in reset. (DESIGN CHOICE, log entry 102.) -/
def ballAwake (b : Ball) (k : Clk) (d : Dev) : Option Bool :=
  let runs (on : Bool) (rest : Bool) : Option Bool := some (if on then Config.lineLevel b k.ticks else rest)
  let drives (on : Bool) : Option Bool := if on then Config.lineDrive b k.ticks else none
  match b with
  | .ownN => if ownOut d then some false else none
  | .pairSelOut => some (selOut d)
  | .thermTripN => if d.sys.tripped then some false else none
  | .ppsOut => some d.pins.ppsOut
  | .perOut n => some (perOutLevel d n)
  | .dmxDe n => some (dmxDe d n k)
  | .dmxTxd n => runs (dmxDe d n k && dmxSending d n k) true
  | .gpio n => if bit (gpioDir d) n then some (bit (rd d Reg.GPIO_OUT) n) else none
  | .spiClk => runs d.sys.spi.isSome false
  | .spiCsN => some d.sys.spi.isNone
  | .spiWpN => some (rb d Reg.SPI_CTL 2)
  | .spiResetN => some (rb d Reg.SPI_CTL 1)
  | .spiIo _ => drives d.sys.spi.isSome
  | .i2cScl n => drives (Tab.get none d.sys.i2c n).isSome
  | .i2cSda n => drives (Tab.get none d.sys.i2c n).isSome
  | .uartTxd => runs (!d.sys.uartTx.isEmpty) true
  | .ltcOut => runs (rb d Reg.LTC_TX_CTL 31 && !d.slow.ltcStopped) false
  | .midiOut => runs (midiBusy k d) true
  | .lportRefclk _ => runs true false
  | .mdc n => runs (Tab.get none d.sys.mdio n).isSome false
  | .mdio n => drives (Tab.get none d.sys.mdio n).isSome
  | .rgmii n _ => runs (usesRgmii d n) false
  | .sgmii n => drives (!usesRgmii d n)
  | _ => drives true

/-- The level that a ball takes in reset, until start-up, and after a trip (R378, R404, R411): OWN_N and THERM_TRIP_N follow their own
rules. -/
def ballAsleep (b : Ball) (d : Dev) : Option Bool :=
  match b with
  | .thermTripN => if d.sys.tripped then some false else none
  | .pairSelOut => some false
  | .ppsOut => some false
  | .perOut _ => some false
  | .dmxDe _ => some false
  | .dmxTxd _ => some true
  | .spiClk => some false
  | .spiCsN => some true
  | .spiWpN => some false
  | .spiResetN => some false
  | .uartTxd => some true
  | .ltcOut => some false
  | .midiOut => some true
  | .lportRefclk _ => some false
  | .mdc _ => some false
  | .rgmii _ _ => some false
  | _ => none

/-- The level that a ball's own function drives (R404). -/
def ballFunction (b : Ball) (k : Clk) (d : Dev) : Option Bool := if awake d then ballAwake b k d else ballAsleep b d

/-- The ball is an AC-coupled lane, which EXTEST_PULSE and EXTEST_TRAIN drive (R341). -/
def acLane : Ball → Bool
  | .lane _ => true
  | .sgmii _ => true
  | .pcieLane _ => true
  | _ => false

/-- BALL_WRAP drives this CMOS ball's boundary cell (R336). -/
def wrapBall : Ball → Bool
  | .ownN => false
  | .pairSelOut => false
  | .thermTripN => false
  | .dmxDe _ => false
  | .dmxTxd _ => false
  | .lane _ => false
  | .sgmii _ => false
  | .pcieLane _ => false
  | .dpAux _ => false
  | .lp5x _ => false
  | _ => true

/-- The level that the device drives at a ball: under EXTEST and CLAMP its cell of the boundary register, under HIGHZ none, and the cell too
while a BALL_WRAP slice runs (R336, R341); else its own function's. -/
def ballLevel (b : Ball) (k : Clk) (d : Dev) : Option Bool :=
  let cell := d.sys.boundary.getD (Config.boundaryCell b) false
  match tapNow d with
  | .extest => some cell
  | .extestPulse => some (cell != (acLane b && Config.acInverse false b k.ticks))
  | .extestTrain => some (cell != (acLane b && Config.acInverse true b k.ticks))
  | .clamp => some cell
  | .highz => none
  | _ => if wrapping d && !d.sys.tapHeld && wrapBall b then some cell else ballFunction b k d

end Sys2Proof.Machine
end

