-- ==== Sys2Proof/Safety.lean ====
section
/-!
DEFINITION. What counts as a safe step, and the terms that statements are made in: invariants, and what an update leaves as it was.
-/

namespace Sys2Proof.Machine

/-- A step is safe when it stops in no fault and no refusal. -/
def Safe (s : State) : Prop := ∃ t, step s = .next t

/-- The increment in use lies in the range of R23. -/
def rateInRange (s : State) : Prop := incrOk s.clk.tb.incr = true

/-- A table is in canonical form: its numbers rise strictly, and no entry holds what an unlisted number reads as. -/
def Tab.canonical {α : Type} [DecidableEq α] (d : α) (t : Tab α) : Prop := Tab.rising 0 t = true ∧ ∀ x ∈ t, x.2 ≠ d

/-- The memory's list is in canonical form (Host.Cell): equal memories are equal lists. -/
abbrev Memory.wf (m : List Host.Cell) : Prop := Tab.canonical 0 m

/-- Every register word at a place outside the list reads in e as it does in d. -/
def sameRegsBut (l : List Nat) (d e : Dev) : Prop := ∀ a, a ∉ l → rd e a = rd d a

/-- From d to e only registers and the MSI-X state may differ. -/
def onlyRegs (d e : Dev) : Prop := e = { d with regs := e.regs, msix := e.msix }

/-- From d to e nothing but the registers listed and the MSI-X state may differ. -/
def onlyThese (l : List Nat) (d e : Dev) : Prop := onlyRegs d e ∧ sameRegsBut l d e

/-- d with the values that e's seal pass still knows: what a write of a sealed register leaves beside its effect (R316). -/
def noted (e d : Dev) : Dev := { d with bus := { d.bus with sealRun := { d.bus.sealRun with seen := e.bus.sealRun.seen } } }

/-- The outcome that only changes the device, to e. -/
abbrev nextDev (s : State) (e : Dev) : Host.Outcome State Fault Refusal := .next { s with dev := e }

/-- The runner r that `who` names can issue, and what it fetches is the instruction `pre`, `w` of the class op; e is the device after the
fetch. -/
def Issues (op : Op) (who : Who) (r : Runner) (pre : Option W32) (w : W32) (s : State) (e : Dev) : Prop :=
  runnerOf who s.clk s.dev = some r ∧ r.fetch s.dev = (.instr pre w, e) ∧ classify r.isCore pre w = some op

/-- The device d once the runner, changed to r, has gone on after its instruction. -/
def Runner.next (r : Runner) (pre : Option W32) (d : Dev) : Dev := (r.jump (r.after pre)).put d

/-- Every byte of memory outside the n bytes at p reads in e as it does in d. -/
def sameOutside (p n : Nat) (d e : Dev) : Prop := ∀ x, (x < p ∨ p + n ≤ x) → getByte e x = getByte d x

/-- Memory reads the same everywhere. -/
def sameMemory (d e : Dev) : Prop := ∀ x, getByte e x = getByte d x

/-- The n bytes at address a lie in one space of the runner: those of R49 for a brew, those of R83 for a control core, its CSR space apart; p is
where the model keeps them. -/
def Runner.holds (r : Runner) (d : Dev) (a n p : Nat) : Prop :=
  (match r with
    | .slot i _ => (a + n ≤ 0x8000 ∧ p = cupPlace i + a)
        ∨ (0x1000000 ≤ a ∧ a + n ≤ 0x1400000 ∧ p = potPlace (slotSwarm i) + (a - 0x1000000))
    | .core c _ => (a + n ≤ 0x20000 ∧ p = privPlace c + a) ∨ (0x2000000 ≤ a ∧ a + n ≤ 0x2200000 ∧ p = ctlPlace + (a - 0x2000000)))
  ∨ (p = a ∧ ((0x1000000000 ≤ a ∧ a + n ≤ 0x1020000000) ∨ (0x10000000000 ≤ a ∧ a + n ≤ 0x10000000000 + d.dramMiB * 0x100000)))

/-- The first byte lies in area i of a control core (R84). -/
def Core.inArea (x : Core) (i a : Nat) : Prop :=
  fld (Tab.get 0 x.areaBase i) 12 36 ≤ a / 4096 ∧ a / 4096 ≤ fld (Tab.get 0 x.areaLimit i) 12 36

/-- A brew may make any access; a control core in TASK mode one that the first area with its first byte grants and holds whole (R84). -/
def Runner.allows (r : Runner) (kind : Access) (a n : Nat) : Prop :=
  match r with
  | .slot _ _ => True
  | .core _ x => bit x.st 1 = true ∨ ∃ i < 8, x.inArea i a ∧ (∀ j < i, ¬ x.inArea j a) ∧ bit (Tab.get 0 x.areaBase i) kind.index = true
      ∧ (a + n - 1) / 4096 ≤ fld (Tab.get 0 x.areaLimit i) 12 36

/-- The fault of an access of n bytes at address a that is to be aligned to n: ACCESS, checked first, or MISALIGN (R49, R51, R84). -/
def Runner.refuses (r : Runner) (kind : Access) (d : Dev) (a n code : Nat) : Prop :=
  (code = 0x03 ∧ ((∀ p, ¬ r.holds d a n p) ∨ ¬ r.allows kind a n))
    ∨ (code = 0x02 ∧ (∃ p, r.holds d a n p) ∧ r.allows kind a n ∧ a % n ≠ 0)

/-- No two windows of the calendar overlap (R200, R201). -/
def Port.calDisjoint (x : Port) : Prop := x.cal.Pairwise fun a b => a.we ≤ b.ws ∨ b.we ≤ a.ws

/-- From s to t a message leaves on a channel of the Cricket link, in blocks of R274, when no block waits and the replay buffer has room. -/
def Sends (chan : Nat) (bytes : List W8) (s t : State) : Prop :=
  let p := s.dev.pair
  let l := t.dev.pair.replay.drop p.replay.length
  openChannel s.dev chan = true → p.outbox = [] → p.seq < 4096 → p.replay.length + bytes.length / 244 + 1 ≤ 512 →
    t.dev.pair.replay.take p.replay.length = p.replay ∧ l.flatMap Cell.data = bytes ∧ l ≠ []
      ∧ (∀ i < l.length, (l.map Cell.seq)[i]? = some ((p.seq + i) % 4096)) ∧ t.dev.pair.seq = (p.seq + l.length) % 4096
      ∧ (∀ c ∈ l, c.chan = chan ∧ c.data.length ≤ 244 ∧ c.sends = 1)
      ∧ l.map Cell.first = true :: List.replicate (l.length - 1) false ∧ l.map Cell.last = List.replicate (l.length - 1) false ++ [true]

/-- What a caddy queue holds, oldest first: head, caddy, tail (R322). -/
def Queue.contents (x : Queue) (d : Dev) : List (List W8) :=
  x.head ++ ((List.range x.held).map fun i => getBytes d (x.base + (x.first + i) % x.spill * 32) 32) ++ x.tail

/-- A queue as its operations keep it: entries of 32 bytes, and a caddy in DRAM filled in blocks of 8 (R321, R322). -/
def Queue.ok (x : Queue) (d : Dev) : Prop :=
  (∀ e ∈ x.head ++ x.tail, e.length = 32) ∧ x.held ≤ x.spill ∧ x.spill % 8 = 0 ∧ x.held % 8 = 0 ∧ x.first % 8 = 0
    ∧ (0 < x.spill → x.first < x.spill ∧ inDram d x.base (x.spill * 32) = true)

/-- OWN_N is driven low in TAKING and ACTIVE alone (R272, R292), and a unit whose PAIR_CTL has not been written is in SOLO (R271). -/
def ownershipKept (s : State) : Prop :=
  (s.dev.pair.ownDrive = true → s.dev.pair.mode = .taking ∨ s.dev.pair.mode = .active) ∧ (s.dev.pair.written = false → s.dev.pair.mode = .solo)

end Sys2Proof.Machine
end

