-- ==== Sys2Proof/WellFormed.lean ====
section
/-!
DEFINITION. Well-formed commands: what the rules say of an operand that its type does not.
-/

namespace Sys2Proof

/-- A CSR place is a word's: 4-byte aligned (R305). -/
def wordPlace (a : BitVec 24) : Bool := a.toNat % 4 == 0

/-- n bytes, at least one, from an offset on lie in a window of `size` bytes (R49, R162). -/
def inWindow (size off n : Nat) : Bool := decide (0 < n ∧ off + n ≤ size)

/-- A command whose operands the rules allow: an access names a word or bytes of its window, a Cricket block is 256 bytes
(R274), a DMX frame its start code and at most 512 slots (R264), a sampling reads every sensor (R384). -/
def Instr.wellFormed (i : Instr) : Bool :=
  match i with
  | .kettleWindowRead off len => inWindow (2 ^ 29) off.toNat len
  | .kettleWindowWrite off data => inWindow (2 ^ 29) off.toNat data.length
  | .dmxRxFrame _ _ _ data _ => decide (1 ≤ data.length ∧ data.length ≤ 513)
  | .cricketBlockRx block => decide (block.length = 256)
  | .csrWrite _ a _ _ => wordPlace a
  | .pairLoWrite _ a _ => wordPlace a
  | .pairHiWrite _ a _ => wordPlace a
  | .pairLoRead _ a => wordPlace a
  | .dramWindowAccess write off len data => inWindow (2 ^ 36) off.toNat (if write then data.length else len)
  | .tempSample temps => decide (temps.length = 30)
  | .tick | .tbIncrCommit .. | .tbCmdStep .. | .tbCmdSet .. | .tbNowRead .. | .tbShortRead .. | .refLoss |
    .pllUnlock | .ppsInEdge .. | .ppsInLost | .tbPpsCapRead .. | .ppsOutRise | .ppsOutFall | .evtCapEdge .. |
    .tbEvtcapPop .. | .perOutActiveEdge .. | .perOutInactiveEdge .. | .frmEnable .. | .frmDisable .. |
    .frmApply .. | .boundaryEmit | .holdEnd | .frmNumberRead .. | .houseSyncEdge .. | .hsyncLost | .alu .. |
    .immediateOp .. | .lui .. | .shifti .. | .nop .. | .movl .. | .movk .. | .movfl .. | .clrfl .. | .trap .. |
    .branch .. | .jal .. | .jalr .. | .load .. | .store .. | .vint .. | .vfix .. | .vfp .. | .vpred .. | .vmove ..
    | .vld .. | .vst .. | .vgather .. | .vscatter .. | .atom .. | .fence .. | .getc .. | .setc .. | .resume .. |
    .doze .. | .dozeWake .. | .callp .. | .coreInterrupt .. | .swarmIcacheInv .. | .emit .. | .emitv .. | .pour ..
    | .delay .. | .endBrew .. | .cancel .. | .kmake .. | .ksetf .. | .kaddf .. | .kaddi .. | .ksett .. | .kgett ..
    | .kgetf .. | .kgeti .. | .leafArrive .. | .waitingLeafDeliver .. | .dispatch .. | .brewOvertime .. |
    .cancelArrive .. | .markerExpire .. | .schedTmplWrite .. | .schedTmplRead .. | .schedLeafPushLeaf .. |
    .schedLeafPushCancel .. | .hostPortRelease | .schedRouteSetWrite .. | .pourResume .. | .flowTombstone |
    .flowRelease .. | .recordHandOn .. | .flowExpiry .. | .flowEnable .. | .flowDisable .. | .flowSkip .. |
    .flowReset .. | .delayTick | .delayDeferredRelease .. | .delayFlush .. | .sample2 .. | .sample3 .. |
    .matrix .. | .lut3 .. | .curve .. | .dither .. | .infuserQueueAccept .. | .infuserResult .. | .kettleScrub |
    .ketSurfWrite .. | .ketSurfRead .. | .rheadEnable .. | .rheadDisable .. | .timingApply .. | .vsyncStart .. |
    .abandonedWait .. | .latchInstant .. | .rheadCommit .. | .scanLate .. | .hpd .. | .sportEnable .. |
    .sportDisable .. | .linkUp .. | .linkDown .. | .lportDuplexChange .. | .txqEnable .. | .txqDisable .. |
    .txqTailWrite .. | .txDescRead .. | .lqOffer .. | .packerOffer .. | .timedLaunch .. | .windowEnd .. |
    .untimedStart .. | .txFrameEnd .. | .txUnderrun .. | .pauseReceive .. | .pauseExpire .. | .preemptVerify .. |
    .preemptResume .. | .collision .. | .backoffExpire .. | .rxSfd .. | .rxBufferNeed .. | .rxFrameEnd .. |
    .rxqEnable .. | .rxqDisable .. | .rxqTailWrite .. | .ringWmWrite .. | .saucerPop .. | .packUnivWrite .. |
    .packUnivRead .. | .sacnRecord | .recordDeadline .. | .syncPacketBuild .. | .discovery | .sacnInPacket |
    .inLoss .. | .packInWrite .. | .packInRead .. | .st2110Packet | .trazhCompose .. | .dmxRecord .. |
    .dmxRecordDeadline .. | .dmxBreak .. | .dmxFrameEnd .. | .rdmGo .. | .rdmRequestSend .. | .rdmReply .. |
    .rdmTimeout .. | .rdmRequestRx .. | .rdmLate .. | .ltcRxFrame .. | .ltcRxPop .. | .ltcTxFrame | .midiRxByte ..
    | .midiRxPop .. | .midiTxWrite .. | .mtcQuarterFrame | .pairEnable .. | .cricketResendTimeout |
    .cricketLinkUp .. | .timeExchange .. | .timeMessage .. | .mirrorFrameRx .. | .markRx .. | .mirrorLate |
    .heartbeatSend | .heartbeatRx .. | .linkLost | .claim .. | .claimVerify .. | .digestSend .. | .digestRx |
    .digestMissing .. | .mismatchMessageRx .. | .adjResult .. | .pairWdogKick .. | .wdogExpired | .handover .. |
    .handoverMessageRx .. | .handoverRelease | .handoverCheck .. | .rejoin .. | .healthRx | .indDataRead .. |
    .indDataWrite .. | .indErr .. | .guardUnlockWrite .. | .unlockExpire .. | .sealPassEnd | .sealCapture .. |
    .quePush .. | .quePop .. | .queSpill .. | .queRefill .. | .queuePtrMismatch .. | .queEnable .. |
    .queDisable .. | .dmaEnable .. | .dmaTailWrite .. | .dmaDescDone .. | .sysAbortSportTxq .. |
    .sysAbortLportTxq .. | .sysAbortSportRxq .. | .sysAbortLportRxq .. | .sysAbortDma .. | .sysAbortHead .. |
    .sysAbortSwarm .. | .sysAbortFlow .. | .sysAbortPacker .. | .sysAbortWeevil .. | .sysAbortCricket .. |
    .abortDone | .weevilRun .. | .serviceSliceStart .. | .adjSliceStart | .sliceEnd .. | .sliceTimeout .. |
    .swarmSpareGo .. | .calMeasure .. | .calAutoTrigger .. | .calMeasurementEnd .. | .calStore .. |
    .calStoreDone .. | .lcMoveProvisioned .. | .lcMoveDeployed .. | .lcMoveDiagnostic .. | .lcMoveRetired .. |
    .lcChange | .svnRaise .. | .pkgOpen .. | .pkgOpenDone | .pkgClose .. | .windowZeroDone | .pinWrite .. |
    .pinRead .. | .pairForm .. | .scarabMessageRx .. | .sessCmd .. | .chalNew .. | .chalExpire | .tokenGo .. |
    .powerOn | .sysResetN | .sysResetSystem .. | .sysResetRecovery .. | .linkReset .. | .startup .. |
    .sysBootGo .. | .swarmClkWrite .. | .pmonStartNext .. | .pmonFreezeNext .. | .msixAck .. | .sysSwSet .. |
    .gpioEdge .. | .i2cGo .. | .i2cDone .. | .i2cStretchTimeout .. | .i2cAlert | .spiGo .. | .spiDone .. |
    .uartTxWrite .. | .uartRxByte .. | .uartRxPop .. | .mdioGo .. | .mdioDone .. | .pllRelock | .lineStart .. |
    .tapInstruction .. | .fabricLinkFatal .. | .midiTxByte | .uartTxByte | .msixUnmask .. => true

end Sys2Proof
end

