-- ==== Sys2Proof/Certificates/Slice0/Obligations.lean ====
section
/-!
DEFINITION. The statements for the provers. Each is about every state and every operand that meets its hypotheses, states no run reaches among
them; a statement says of a command that exec answers a next state, what that state holds, and what it leaves as it was.
-/

open Sys2Proof
open Sys2Proof.Machine

/-- A step takes the command at the front of the queue and runs it on the rest; on an empty queue the block idles (log entry 1). -/
def Obligations.StepTakesFront : Prop :=
  (∀ (c : Instr) (s : State), step { s with pending := c :: s.pending } = exec c s) ∧
  (∀ s : State, s.pending = [] → step s = .next s)

/-- exec leaves the queue to step: the queue of waiting commands, which the manual does not have, is the model's choice (log entry 1). -/
def Obligations.QueueUntouched : Prop :=
  ∀ (c : Instr) (s t : State), exec c s = .next t → t.pending = s.pending

/-- Every command completes in every state and leaves the queue; the clock of R16 and R17 is moved by the commands of the timebase, by the time
transfer of a pair, by register writes and by a power-on reset, and by no other. -/
def Obligations.EveryCommandCompletes : Prop :=
  ∀ (c : Instr) (s : State), ∃ t, exec c s = .next t ∧ t.pending = s.pending ∧
    ((t.clk = s.clk) ∨ c = .tick ∨ c = .powerOn ∨ (∃ req v, c = .tbIncrCommit req v) ∨ (∃ req, c = .tbCmdStep req)
      ∨ (∃ req also, c = .tbCmdSet req also) ∨ (∃ a t1 t2 t3, c = .timeExchange a t1 t2 t3) ∨ (∃ m, c = .timeMessage m)
      ∨ (∃ req a v whole, c = .csrWrite req a v whole) ∨ (∃ req a v, c = .pairLoWrite req a v) ∨ (∃ req a v, c = .pairHiWrite req a v)
      ∨ (∃ who, c = .store who))

/-- R16: only a power-on reset clears the counter; no register write, step or other reset changes it. -/
def Obligations.TickCounterKept : Prop :=
  ∀ (c : Instr) (s t : State), exec c s = .next t →
    t.clk.ticks = match c with
      | .tick => s.clk.ticks + 1
      | .powerOn => 0
      | _ => s.clk.ticks

/-- R23 as an invariant of every step: an increment outside the range is never adopted. -/
def Obligations.RateStaysInRange : Prop :=
  ∀ s t : State, rateInRange s → step s = .next t → rateInRange t

/-- R19: the TIME_VALID status survives everything but a power-on reset. -/
def Obligations.TimeValidStays : Prop :=
  ∀ (c : Instr) (s t : State), c ≠ .powerOn → s.clk.tb.timeValid = true → exec c s = .next t → t.clk.tb.timeValid = true

/-- What the manual gives for reset: the clock (R16, R19, R43), the frame clock (R44) and two registers with reset values of their own. That no
command waits, and that memory nothing has written reads as zero, is the model's choice (log entries 1 and 2). -/
def Obligations.ResetState : Prop :=
  State.reset.clk.ticks = 0 ∧ now State.reset.clk = 0 ∧ State.reset.clk.tb.timeValid = false
    ∧ State.reset.clk.tb.incr = 0x00CCCCCCCCCCCD ∧ rateInRange State.reset
    ∧ State.reset.pending = [] ∧ State.reset.dev.mem = [] ∧ Memory.wf State.reset.dev.mem ∧ State.reset.dev.frm.run = none
    ∧ rd State.reset.dev Reg.FRM_RATE_NUM = 60 ∧ rd State.reset.dev Reg.FRM_RATE_DEN = 1
    ∧ rd State.reset.dev Reg.FRM_HOLD_MAX = 2000000 ∧ rd State.reset.dev Reg.TB_PPS_CTL = 0x00640000
    ∧ rd State.reset.dev Reg.SCHED_CYCLE_LIMIT = 0x00100000

/-- R17, R22 and R23 for TICK and TB_INCR_COMMIT. A boundary that waits for frames on their way to a port may be latched at a tick, which is
the model's choice (log entry 90). -/
def Obligations.TickAndRateCommit : Prop :=
  (∀ s : State, rateInRange s → (s.clk.ticks - s.clk.tb.anchor).toNat + 1 < 2 ^ 64 →
    ∃ t, exec .tick s = .next t ∧ (s.dev.frm.latching = none → t.dev = s.dev)
      ∧ (∀ n b, s.dev.frm.latching = some (n, b) → t.dev = if straddled b t.clk s.dev then s.dev else latchNow t.clk s.dev) ∧ t.clk.tb = s.clk.tb ∧ t.clk.ticks = s.clk.ticks + 1
      ∧ now t.clk = now s.clk + s.clk.tb.incr.toNat ∧ now s.clk < now t.clk) ∧
  (∀ (req : Req) (v lo : W32) (s : State), csrShut s.dev Reg.TB_INCR_HI = false → foreign s.dev req = false →
    stagedLo s.dev req Reg.TB_INCR_LO = some lo →
    ∃ t, exec (.tbIncrCommit req v) s = .next t ∧ t.pending = s.pending ∧ t.clk.ticks = s.clk.ticks ∧ now t.clk = now s.clk
      ∧ (incrOk (v.truncate 24 ++ lo) = true → t.clk.tb.incr = v.truncate 24 ++ lo ∧ t.clk.tb.anchor = s.clk.ticks
          ∧ t.clk.tb.offset = now s.clk ∧ t.dev = unstage req Reg.TB_INCR_LO s.dev)
      ∧ (incrOk (v.truncate 24 ++ lo) = false → t.clk = s.clk ∧ rb t.dev Reg.TB_EVENT 2 = true
          ∧ onlyThese [Reg.TB_EVENT] (unstage req Reg.TB_INCR_LO s.dev) t.dev))

/-- R24, R25, R27, R28, R29 and R39 to R41 for TB_CMD_STEP, TB_CMD_SET and writes of the clock's registers. A move of show time before the
first boundary of a run chooses that boundary afresh (DEDUCED, log entry 22: the model's reading of R414). -/
def Obligations.StepAndSet : Prop :=
  (∀ (req : Req) (alsoStep : Bool) (c : Instr) (x : Time) (s : State), csrShut s.dev Reg.TB_CMD = false → foreign s.dev req = false →
    (c = .tbCmdStep req ∧ rd64 s.dev Reg.TB_STEP_LO ≠ 0 ∧ x = now s.clk + (rd64 s.dev Reg.TB_STEP_LO).toInt * ns1 ∧ 0 ≤ x)
      ∨ (c = .tbCmdSet req alsoStep ∧ (rd s.dev Reg.TB_SET_NS).toNat ≤ 999999999
          ∧ x = timeOf (rd64 s.dev Reg.TB_SET_SEC_LO) (rd s.dev Reg.TB_SET_NS)) →
    let old := now s.clk
    let f := s.dev.frm
    let ran := f.run.isSome && f.firstDone
    let holds := ran && decide (x < old) && decide (x < f.lastB) && !rb s.dev Reg.FRM_STEP_POLICY 0
      && decide (f.lastB - x ≤ (rd s.dev Reg.FRM_HOLD_MAX).toNat * 1000 * ns1)
    let renumbers := ran && decide (x < old) && decide (x < f.lastB) && !holds
    let passed (a : Admitted) : Bool := a.fate == .waiting && (renumbers || (decide (old < x) && decide (a.ws < fine * x)))
    ∃ t, exec c s = .next t ∧ now t.clk = x ∧ t.clk.tb.timeValid = true ∧ t.clk.ticks = s.clk.ticks ∧ t.clk.tb.incr = s.clk.tb.incr
      ∧ t.pending = s.pending
      ∧ rb t.dev Reg.TB_EVENT 0 = true ∧ rd t.dev Reg.TB_STEP_COUNT = rd s.dev Reg.TB_STEP_COUNT + 1
      ∧ (rd64 t.dev Reg.TB_STEP_LAST_LO).toInt = max (-(2 ^ 63 - 1)) (min (2 ^ 63 - 1) ((x - old).tdiv ns1))
      ∧ (∀ p < 10, (port t.dev p).cal = (port s.dev p).cal.filter (fun a => !passed a)
          ∧ (rd t.dev (Reg.SPORT_LQ_DISCARD p)).toNat
              = min (2 ^ 32 - 1) ((rd s.dev (Reg.SPORT_LQ_DISCARD p)).toNat + ((port s.dev p).cal.filter passed).length))
      ∧ (f.run = none → t.dev.frm = f)
      ∧ (∀ g, f.run = some g → f.firstDone = false →
          t.dev.frm = if x = old ∧ s.clk.tb.timeValid = true then f else { f with next := g.firstFrom x })
      ∧ (∀ g, f.run = some g → f.firstDone = true →
          (x < old → f.lastB ≤ x → t.dev.frm = f ∧ rd t.dev Reg.FRM_EVENT = rd s.dev Reg.FRM_EVENT
            ∧ rd t.dev Reg.FRM_HOLD_COUNT = rd s.dev Reg.FRM_HOLD_COUNT ∧ rd t.dev Reg.FRM_RENUMBER_COUNT = rd s.dev Reg.FRM_RENUMBER_COUNT)
          ∧ (holds = true → t.dev.frm = { f with holding := true }
              ∧ (f.holding = false → rb t.dev Reg.FRM_EVENT 0 = true ∧ rd t.dev Reg.FRM_HOLD_COUNT = rd s.dev Reg.FRM_HOLD_COUNT + 1)
              ∧ (f.holding = true → rd t.dev Reg.FRM_EVENT = rd s.dev Reg.FRM_EVENT
                  ∧ rd t.dev Reg.FRM_HOLD_COUNT = rd s.dev Reg.FRM_HOLD_COUNT))
          ∧ (renumbers = true → t.dev.frm.next = g.firstFrom x ∧ t.dev.frm.bias = f.lastFrame + 1 - w64 (g.firstFrom x)
              ∧ t.dev.frm.run = some g ∧ t.dev.frm.lastFrame = f.lastFrame ∧ t.dev.frm.lastB = f.lastB ∧ t.dev.frm.holding = false
              ∧ rb t.dev Reg.FRM_EVENT 2 = true ∧ rd t.dev Reg.FRM_RENUMBER_COUNT = rd s.dev Reg.FRM_RENUMBER_COUNT + 1
              ∧ (f.holding = true → rb t.dev Reg.FRM_EVENT 1 = true))
          ∧ (old < x → g.firstFrom x ≤ f.next → t.dev.frm = f ∧ rd t.dev Reg.FRM_EVENT = rd s.dev Reg.FRM_EVENT)
          ∧ (old < x → f.next < g.firstFrom x → t.dev.frm.next = g.firstFrom x ∧ t.dev.frm.bias = f.bias ∧ t.dev.frm.run = some g
              ∧ t.dev.frm.lastFrame = f.lastFrame ∧ t.dev.frm.lastB = f.lastB ∧ t.dev.frm.holding = f.holding ∧ t.dev.frm.skipped = true
              ∧ rb t.dev Reg.FRM_EVENT 3 = true
              ∧ rd t.dev Reg.FRM_FRAMES_SKIPPED = rd s.dev Reg.FRM_FRAMES_SKIPPED + w32 (g.firstFrom x - f.next)))) ∧
  (∀ (p desc : Nat) (a : Admitted) (sel : Admitted → Bool) (d : Dev), p < 10 →
    (port d p).cal.filter (fun x => x.fate == .waiting && sel x) = [a] → a.frame.origin = .ring 8 desc →
    calDiscard p 0x10 sel d = writeBack desc 0x10 a.frame.coll (raiseTx p 4 (bumpSat (Reg.SPORT_LQ_DISCARD p) 1
      (onPort p (fun x => { x with cal := x.cal.filter fun y => !(y.fate == .waiting && sel y) }) d)))) ∧
  (∀ (req : Req) (s : State), csrShut s.dev Reg.TB_CMD = false → foreign s.dev req = false → rd64 s.dev Reg.TB_STEP_LO = 0 → 0 ≤ now s.clk →
    ∃ t, exec (.tbCmdStep req) s = .next t ∧ now t.clk = now s.clk ∧ t.clk.tb.timeValid = true ∧ t.clk.ticks = s.clk.ticks
      ∧ rd t.dev Reg.TB_EVENT = rd s.dev Reg.TB_EVENT ∧ rd t.dev Reg.TB_STEP_COUNT = rd s.dev Reg.TB_STEP_COUNT
      ∧ rd64 t.dev Reg.TB_STEP_LAST_LO = rd64 s.dev Reg.TB_STEP_LAST_LO) ∧
  (∀ (req : Req) (alsoStep : Bool) (v : W32) (a : Nat) (c : Instr) (s : State),
    (a ∈ [Reg.TB_INCR_LO, Reg.TB_INCR_HI, Reg.TB_STEP_LO, Reg.TB_STEP_HI, Reg.TB_SET_SEC_LO, Reg.TB_SET_SEC_HI, Reg.TB_SET_NS, Reg.TB_CMD]
        ∧ c = .csrWrite req (BitVec.ofNat 24 a) v true)
      ∨ (a ∈ [Reg.TB_INCR_LO, Reg.TB_STEP_LO, Reg.TB_SET_SEC_LO] ∧ c = .pairLoWrite req (BitVec.ofNat 24 a) v)
      ∨ (a ∈ [Reg.TB_INCR_HI, Reg.TB_STEP_HI, Reg.TB_SET_SEC_HI] ∧ c = .pairHiWrite req (BitVec.ofNat 24 a) v)
      ∨ (a = Reg.TB_INCR_HI ∧ c = .tbIncrCommit req v) ∨ (a = Reg.TB_CMD ∧ (c = .tbCmdStep req ∨ c = .tbCmdSet req alsoStep)) →
    csrShut s.dev a = false → s.dev.pins.pairSlaved = true ∨ req ≠ servoOwner s.dev →
    exec c s = nextDev s (raiseTb 4 s.dev) ∧ rb (raiseTb 4 s.dev) Reg.TB_EVENT 4 = true
      ∧ onlyThese [Reg.TB_EVENT] s.dev (raiseTb 4 s.dev)) ∧
  (∀ (req : Req) (d : Dev), (servoOwner d = .host ↔ rf d Reg.TB_CTL 0 2 = 1 ∧ rb d Reg.SYS_STRAPS 0 = false)
    ∧ (foreign d req = false ↔ d.pins.pairSlaved = false ∧ req = servoOwner d)) ∧
  (∀ (req : Req) (s : State), csrShut s.dev Reg.TB_CMD = false → foreign s.dev req = false →
    0 ≤ now s.clk → 0 ≤ now s.clk + (rd64 s.dev Reg.TB_STEP_LO).toInt * ns1 →
    ∃ t, exec (.tbCmdStep req) s = .next t ∧ now t.clk = now s.clk + (rd64 s.dev Reg.TB_STEP_LO).toInt * ns1
      ∧ t.clk.tb.timeValid = true ∧ t.clk.ticks = s.clk.ticks ∧ t.clk.tb.incr = s.clk.tb.incr ∧ t.pending = s.pending) ∧
  (∀ (req : Req) (s : State), csrShut s.dev Reg.TB_CMD = false → foreign s.dev req = false →
    now s.clk + (rd64 s.dev Reg.TB_STEP_LO).toInt * ns1 < 0 → (rd64 s.dev Reg.TB_STEP_LO) ≠ 0 →
    ∃ t, exec (.tbCmdStep req) s = .next t ∧ t.clk = s.clk ∧ rb t.dev Reg.TB_EVENT 3 = true ∧ onlyThese [Reg.TB_EVENT] s.dev t.dev) ∧
  (∀ (req : Req) (alsoStep : Bool) (s : State), csrShut s.dev Reg.TB_CMD = false → foreign s.dev req = false →
    (rd s.dev Reg.TB_SET_NS).toNat ≤ 999999999 →
    ∃ t, exec (.tbCmdSet req alsoStep) s = .next t ∧ now t.clk = timeOf (rd64 s.dev Reg.TB_SET_SEC_LO) (rd s.dev Reg.TB_SET_NS)
      ∧ t.clk.tb.timeValid = true ∧ t.clk.ticks = s.clk.ticks ∧ t.clk.tb.anchor = s.clk.ticks ∧ t.clk.tb.incr = s.clk.tb.incr
      ∧ t.pending = s.pending) ∧
  (∀ (req : Req) (alsoStep : Bool) (s : State), csrShut s.dev Reg.TB_CMD = false → foreign s.dev req = false →
    999999999 < (rd s.dev Reg.TB_SET_NS).toNat →
    ∃ t, exec (.tbCmdSet req alsoStep) s = .next t ∧ t.clk = s.clk ∧ rb t.dev Reg.TB_EVENT 3 = true
      ∧ onlyThese [Reg.TB_EVENT] s.dev t.dev)

/-- R21, R31, R32 and R44 for TB_NOW_READ, TB_SHORT_READ, TB_PPS_CAP_READ, TB_EVTCAP_POP and FRM_NUMBER_READ: each completes in every state,
with the value and the snapshots of its own rule, or with zero while R379 shuts the register. -/
def Obligations.CapturingReads : Prop :=
  (∀ (req : Req) (s : State), csrShut s.dev Reg.TB_NOW_SEC_LO = false →
    ∃ t, exec (.tbNowRead req) s = .next t ∧ t.clk = s.clk ∧ t.dev.bus.data = lo32 (secOf (now s.clk))
      ∧ rd t.dev (snapOf req Reg.TB_NOW_SEC_HI) = hi32 (secOf (now s.clk)) ∧ rd t.dev (snapOf req Reg.TB_NOW_NS) = nsOf (now s.clk)
      ∧ rd t.dev (snapOf req Reg.TB_NOW_FRAC) = fracOf (now s.clk) ∧ rd t.dev (snapOf req Reg.TB_NOW_TICKS_LO) = lo32 s.clk.ticks
      ∧ rd t.dev (snapOf req Reg.TB_NOW_TICKS_HI) = hi32 s.clk.ticks
      ∧ onlyThese [snapOf req Reg.TB_NOW_SEC_HI, snapOf req Reg.TB_NOW_NS, snapOf req Reg.TB_NOW_FRAC, snapOf req Reg.TB_NOW_TICKS_LO,
          snapOf req Reg.TB_NOW_TICKS_HI] (ret t.dev.bus.data s.dev) t.dev) ∧
  (∀ (req : Req) (s : State), csrShut s.dev Reg.TB_SHORT_LO = false →
    ∃ t, exec (.tbShortRead req) s = .next t ∧ t.clk = s.clk ∧ t.dev.bus.data = lo32 (shortOf (now s.clk))
      ∧ rd t.dev (snapOf req Reg.TB_SHORT_HI) = hi32 (shortOf (now s.clk))
      ∧ onlyThese [snapOf req Reg.TB_SHORT_HI] (ret t.dev.bus.data s.dev) t.dev) ∧
  (∀ (req : Req) (s : State), csrShut s.dev Reg.TB_PPS_CAP_SEC_LO = false →
    ∃ t, exec (.tbPpsCapRead req) s = .next t ∧ t.clk = s.clk ∧ t.dev.bus.data = rd s.dev Reg.TB_PPS_CAP_SEC_LO
      ∧ rd t.dev (snapOf req Reg.TB_PPS_CAP_SEC_HI) = rd s.dev Reg.TB_PPS_CAP_SEC_HI
      ∧ rd t.dev (snapOf req Reg.TB_PPS_CAP_NS) = rd s.dev Reg.TB_PPS_CAP_NS
      ∧ onlyThese [snapOf req Reg.TB_PPS_CAP_SEC_HI, snapOf req Reg.TB_PPS_CAP_NS] (ret t.dev.bus.data s.dev) t.dev) ∧
  (∀ (req : Req) (n : Fin 4) (x : Time) (rising : Bool) (r : List (Time × Bool)) (s : State),
    csrShut s.dev (Reg.TB_EVTCAP_SEC_LO n) = false → (evtCap s.dev n).queue = (x, rising) :: r →
    ∃ t, exec (.tbEvtcapPop req n) s = .next t ∧ t.clk = s.clk ∧ t.dev.bus.data = lo32 (secOf x)
      ∧ rd t.dev (snapOf req (Reg.TB_EVTCAP_SEC_HI n)) = hi32 (secOf x)
      ∧ rd t.dev (snapOf req (Reg.TB_EVTCAP_NS n)) = (nsOf x ||| bitIf 31 rising)
      ∧ (evtCap t.dev n).queue = r ∧ (∀ m : Fin 4, m ≠ n → evtCap t.dev m = evtCap s.dev m)
      ∧ onlyThese [snapOf req (Reg.TB_EVTCAP_SEC_HI n), snapOf req (Reg.TB_EVTCAP_NS n)]
          (ret t.dev.bus.data { s.dev with pins := { s.dev.pins with evtCap := t.dev.pins.evtCap } }) t.dev) ∧
  (∀ (req : Req) (n : Fin 4) (s : State), csrShut s.dev (Reg.TB_EVTCAP_SEC_LO n) = false → (evtCap s.dev n).queue = [] →
    ∃ t, exec (.tbEvtcapPop req n) s = .next t ∧ t.clk = s.clk ∧ t.dev.bus.data = 0
      ∧ rd t.dev (snapOf req (Reg.TB_EVTCAP_NS n)) = 0x40000000 ∧ rd t.dev (snapOf req (Reg.TB_EVTCAP_SEC_HI n)) = 0
      ∧ onlyThese [snapOf req (Reg.TB_EVTCAP_SEC_HI n), snapOf req (Reg.TB_EVTCAP_NS n)] (ret 0 s.dev) t.dev) ∧
  (∀ (req : Req) (s : State), csrShut s.dev Reg.FRM_NUMBER_LO = false →
    ∃ t, exec (.frmNumberRead req) s = .next t ∧ t.clk = s.clk ∧ t.dev.bus.data = lo32 s.dev.frm.lastFrame
      ∧ rd t.dev (snapOf req Reg.FRM_NUMBER_HI) = hi32 s.dev.frm.lastFrame
      ∧ rd t.dev (snapOf req Reg.FRM_LAST_SEC_LO) = lo32 (secOf s.dev.frm.lastB)
      ∧ rd t.dev (snapOf req Reg.FRM_LAST_SEC_HI) = hi32 (secOf s.dev.frm.lastB)
      ∧ rd t.dev (snapOf req Reg.FRM_LAST_NS) = nsOf s.dev.frm.lastB ∧ rd t.dev (snapOf req Reg.FRM_LAST_FRAC) = fracOf s.dev.frm.lastB
      ∧ onlyThese [snapOf req Reg.FRM_NUMBER_HI, snapOf req Reg.FRM_LAST_SEC_LO, snapOf req Reg.FRM_LAST_SEC_HI, snapOf req Reg.FRM_LAST_NS,
          snapOf req Reg.FRM_LAST_FRAC] (ret t.dev.bus.data s.dev) t.dev) ∧
  (∀ (req : Req) (n : Fin 4) (s : State) (c : Instr) (a : Nat),
    (c, a) ∈ [(Instr.tbNowRead req, Reg.TB_NOW_SEC_LO), (.tbShortRead req, Reg.TB_SHORT_LO), (.tbPpsCapRead req, Reg.TB_PPS_CAP_SEC_LO),
      (.tbEvtcapPop req n, Reg.TB_EVTCAP_SEC_LO n), (.frmNumberRead req, Reg.FRM_NUMBER_LO)] →
    csrShut s.dev a = true → exec c s = nextDev s (ret 0 s.dev))

/-- R30 and R31 for REF_LOSS, PLL_UNLOCK, PLL_RELOCK, PPS_IN_EDGE, PPS_IN_LOST, PPS_OUT_RISE and PPS_OUT_FALL. That PPS_OUT falls by the
width as it stands at the fall, and whether or not OUT_EN is still 1, is the model's choice (log entry 89). -/
def Obligations.ReferencesAndPps : Prop :=
  (∀ s : State, s.dev.pins.refActive = true →
    ∃ t, exec .refLoss s = .next t ∧ t.clk = s.clk ∧ t.dev.pins.refActive = false ∧ rb t.dev Reg.TB_CTL 2 = false
      ∧ rb t.dev Reg.TB_EVENT 5 = true ∧ onlyThese [Reg.TB_CTL, Reg.TB_EVENT] { s.dev with pins := t.dev.pins } t.dev) ∧
  (∀ s : State, s.dev.pins.pllLock = true →
    ∃ t, exec .pllUnlock s = .next t ∧ t.clk = s.clk ∧ t.dev.pins = { s.dev.pins with pllLock := false } ∧ rb t.dev Reg.TB_EVENT 6 = true
      ∧ onlyThese [Reg.TB_EVENT] { s.dev with pins := t.dev.pins } t.dev) ∧
  (∀ s : State, exec .pllRelock s = .next { s with dev := { s.dev with pins := { s.dev.pins with pllLock := true } } }) ∧
  (∀ s : State, (∀ x, s.dev.pins.ppsLast = some x → 10 ≤ since s.clk x) →
    ∃ t, exec (.ppsInEdge false) s = .next t ∧ t.clk = s.clk ∧ rd64 t.dev Reg.TB_PPS_CAP_SEC_LO = secOf (now s.clk)
      ∧ rd t.dev Reg.TB_PPS_CAP_NS = nsOf (now s.clk) ∧ rb t.dev Reg.TB_EVENT 7 = true
      ∧ t.dev.pins = { s.dev.pins with ppsLast := some s.clk.ticks }
      ∧ onlyThese [Reg.TB_PPS_CAP_SEC_LO, Reg.TB_PPS_CAP_SEC_HI, Reg.TB_PPS_CAP_NS, Reg.TB_EVENT] { s.dev with pins := t.dev.pins } t.dev) ∧
  (∀ (x : W64) (s : State), s.dev.pins.ppsLast = some x → 1875000000 ≤ since s.clk x →
    ∃ t, exec .ppsInLost s = .next t ∧ t.clk = s.clk ∧ rb t.dev Reg.TB_EVENT 8 = true ∧ t.dev.pins = { s.dev.pins with ppsLast := none }
      ∧ onlyThese [Reg.TB_EVENT] { s.dev with pins := t.dev.pins } t.dev) ∧
  (∀ s : State, rb s.dev Reg.TB_PPS_CTL 0 = true → rf s.dev Reg.TB_PPS_CTL 16 10 ≠ 0 → s.dev.sys.tripped = false →
    rb s.dev Reg.SYS_STARTUP_STATUS 10 = true → due s.clk (wholeSecond s.clk) = true →
    exec .ppsOutRise s = .next { s with dev := { s.dev with pins := { s.dev.pins with ppsOut := true, ppsRose := s.clk.ticks } } }) ∧
  (∀ s : State, s.dev.pins.ppsOut = true →
    min 999 (rf s.dev Reg.TB_PPS_CTL 16 10) * 1000000 * 2 ^ 48 ≤ since s.clk s.dev.pins.ppsRose * s.clk.tb.incr.toNat →
    exec .ppsOutFall s = .next { s with dev := { s.dev with pins := { s.dev.pins with ppsOut := false } } }) ∧
  (∀ s : State, exec (.ppsInEdge true) s = .next s) ∧
  (∀ (x : W64) (s : State), s.dev.pins.ppsLast = some x →
    (since s.clk x < 10 → exec (.ppsInEdge false) s = .next s) ∧ (since s.clk x < 1875000000 → exec .ppsInLost s = .next s)) ∧
  (∀ s : State, due s.clk (wholeSecond s.clk) = false ∨ rb s.dev Reg.TB_PPS_CTL 0 = false ∨ rf s.dev Reg.TB_PPS_CTL 16 10 = 0
      ∨ rb s.dev Reg.SYS_STARTUP_STATUS 10 = false ∨ s.dev.sys.tripped = true →
    exec .ppsOutRise s = .next s) ∧
  (∀ s : State, s.dev.pins.ppsOut = false → exec .ppsOutFall s = .next s)

/-- R32, R33 and R42 for EVT_CAP_EDGE, PER_OUT_ACTIVE_EDGE, PER_OUT_INACTIVE_EDGE, HOUSE_SYNC_EDGE and HSYNC_LOST. FRM_HSYNC_PERIOD in whole
nanoseconds, and 0 for a negative interval, is the model's choice (log entry 89). -/
def Obligations.CaptureAndPeriodic : Prop :=
  (∀ (n : Fin 4) (rising : Bool) (s : State), rb s.dev (Reg.TB_EVTCAP_CTL n) (if rising then 0 else 1) = true →
    (∀ x, (evtCap s.dev n).last = some x → 10 ≤ since s.clk x) → (evtCap s.dev n).queue.length < 16 →
    ∃ t, exec (.evtCapEdge n rising false) s = .next t ∧ t.clk = s.clk
      ∧ (evtCap t.dev n).queue = (evtCap s.dev n).queue ++ [(now s.clk, rising)]
      ∧ t.dev = { s.dev with pins := t.dev.pins } ∧ ∀ m : Fin 4, m ≠ n → evtCap t.dev m = evtCap s.dev m) ∧
  (∀ (n : Fin 4) (rising : Bool) (s : State), rb s.dev (Reg.TB_EVTCAP_CTL n) (if rising then 0 else 1) = true →
    16 ≤ (evtCap s.dev n).queue.length →
    ∃ t, exec (.evtCapEdge n rising false) s = .next t ∧ t.clk = s.clk ∧ rb t.dev Reg.TB_EVENT 9 = true
      ∧ rf t.dev (Reg.TB_EVTCAP_STAT n) 16 16 = min 0xFFFF (rf s.dev (Reg.TB_EVTCAP_STAT n) 16 16 + 1)
      ∧ onlyThese [Reg.TB_EVENT, Reg.TB_EVTCAP_STAT n] s.dev t.dev) ∧
  (∀ (n : Fin 4) (m : Nat) (s : State), rb s.dev (Reg.TB_PEROUT_CTL n) 0 = true → rb s.dev (Reg.TB_PEROUT_CTL n) 1 = false →
    (rd s.dev (Reg.TB_PEROUT_WIDTH n)) ≠ 0 → (rd s.dev (Reg.TB_PEROUT_WIDTH n)).toNat * ns1 < perOutPeriod s.dev n →
    timeOf (rd64 s.dev (Reg.TB_PEROUT_START_SEC_LO n)) (rd s.dev (Reg.TB_PEROUT_START_NS n)) + m * perOutPeriod s.dev n ≤ now s.clk →
    now s.clk - s.clk.tb.incr.toNat
      < timeOf (rd64 s.dev (Reg.TB_PEROUT_START_SEC_LO n)) (rd s.dev (Reg.TB_PEROUT_START_NS n)) + m * perOutPeriod s.dev n →
    s.clk.tb.floor ≤ timeOf (rd64 s.dev (Reg.TB_PEROUT_START_SEC_LO n)) (rd s.dev (Reg.TB_PEROUT_START_NS n)) + m * perOutPeriod s.dev n →
    s.clk.tb.incr.toNat < 10 * 2 ^ 48 → s.dev.sys.tripped = false → rb s.dev Reg.SYS_STARTUP_STATUS 10 = true →
    ∃ t, exec (.perOutActiveEdge n) s = .next t ∧ t.clk = s.clk ∧ (perOut t.dev n).active = true
      ∧ (perOut t.dev n).offAt = some (timeOf (rd64 s.dev (Reg.TB_PEROUT_START_SEC_LO n)) (rd s.dev (Reg.TB_PEROUT_START_NS n))
          + m * perOutPeriod s.dev n + (rd s.dev (Reg.TB_PEROUT_WIDTH n)).toNat * ns1)
      ∧ t.dev = { s.dev with pins := t.dev.pins } ∧ ∀ i : Fin 4, i ≠ n → perOut t.dev i = perOut s.dev i) ∧
  (∀ (n : Fin 4) (s : State), s.dev.sys.tripped = true ∨ rb s.dev Reg.SYS_STARTUP_STATUS 10 = false →
    exec (.perOutActiveEdge n) s = .next s) ∧
  (∀ (n : Fin 4) (x : Time) (s : State), (perOut s.dev n).offAt = some x → due s.clk x = true →
    ∃ t, exec (.perOutInactiveEdge n) s = .next t ∧ t.clk = s.clk ∧ (perOut t.dev n).active = false
      ∧ t.dev = { s.dev with pins := t.dev.pins } ∧ ∀ i : Fin 4, i ≠ n → perOut t.dev i = perOut s.dev i) ∧
  (∀ (rising : Bool) (p : Time) (x : W64) (s : State), rb s.dev Reg.FRM_HSYNC_CTL 0 = true → rb s.dev Reg.FRM_HSYNC_CTL 1 = !rising →
    s.dev.pins.hsyncLast = some (p, x) → 10 ≤ since s.clk x →
    ∃ t, exec (.houseSyncEdge rising false) s = .next t ∧ t.clk = s.clk
      ∧ rd t.dev Reg.FRM_HSYNC_PERIOD = w32 (min 0xFFFFFFFF ((now s.clk - p) / ns1).toNat) ∧ rb t.dev Reg.FRM_EVENT 6 = true
      ∧ t.dev.frm = s.dev.frm ∧ t.dev.mem = s.dev.mem
      ∧ sameRegsBut [Reg.FRM_HSYNC_PERIOD, Reg.FRM_HSYNC_PHASE, Reg.FRM_EVENT] s.dev t.dev) ∧
  (∀ (x : W64) (s : State), s.dev.pins.hsyncSince = some x → rb s.dev Reg.FRM_HSYNC_CTL 0 = true → 1250000000 ≤ since s.clk x →
    ∃ t, exec .hsyncLost s = .next t ∧ t.clk = s.clk ∧ rb t.dev Reg.FRM_EVENT 7 = true ∧ t.dev.frm = s.dev.frm
      ∧ onlyThese [Reg.FRM_EVENT] { s.dev with pins := t.dev.pins } t.dev)

/-- R35 to R39 and R414 for FRM_ENABLE, FRM_DISABLE, FRM_APPLY, BOUNDARY_EMIT and HOLD_END: each completes with its effect, or, where it has
nothing to do, with none. FRM_ENABLE on a slaved unit sets EN alone (DEDUCED, log entry 23: the model's reading of R44). A boundary brings its
frame leaves (R91), C (R87), the sweeps (R98), its count (R386) and the pushes of the latched host port that came before it (R9, R116); it
waits to be latched while a frame stamped before it may still come (log entry 90: the model's choice). -/
def Obligations.FrameClockCommands : Prop :=
  (∀ (req : Req) (s : State), csrShut s.dev Reg.FRM_CTL = false → rb s.dev Reg.FRM_CTL 0 = false → s.dev.pins.pairSlaved = false →
    ∃ t, exec (.frmEnable req) s = .next t ∧ t.clk = s.clk
      ∧ ((gridRegs s.dev).ok = true → t.dev.frm.run = some (gridRegs s.dev) ∧ t.dev.frm.firstDone = false ∧ t.dev.frm.holding = false
          ∧ t.dev.frm.next = (gridRegs s.dev).firstFrom (now s.clk) ∧ t.dev.frm.lastFrame = s.dev.frm.lastFrame
          ∧ t.dev.frm.bias = s.dev.frm.bias ∧ rb t.dev Reg.FRM_CTL 0 = true)
      ∧ ((gridRegs s.dev).ok = false → t.dev.frm = s.dev.frm ∧ rb t.dev Reg.FRM_CTL 0 = false ∧ rb t.dev Reg.FRM_EVENT 5 = true
          ∧ onlyThese [Reg.FRM_CTL, Reg.FRM_EVENT] s.dev t.dev)) ∧
  (∀ (req : Req) (s : State), csrShut s.dev Reg.FRM_CTL = false → rb s.dev Reg.FRM_CTL 0 = false → s.dev.pins.pairSlaved = true →
    ∃ t, exec (.frmEnable req) s = .next t ∧ t.clk = s.clk ∧ rb t.dev Reg.FRM_CTL 0 = true ∧ onlyThese [Reg.FRM_CTL] s.dev t.dev) ∧
  (∀ (req : Req) (s : State), (rb s.dev Reg.FRM_CTL 0 = true → exec (.frmEnable req) s = .next s) ∧
    (rb s.dev Reg.FRM_CTL 0 = false → exec (.frmDisable req) s = .next s) ∧
    (s.dev.pins.pairSlaved = true ∨ s.dev.frm.run = none → exec (.frmApply req) s = .next s) ∧
    (nextBoundary s.clk s.dev = none → exec .boundaryEmit s = .next s) ∧
    (∀ n b, nextBoundary s.clk s.dev = some (n, b) → now s.clk < b → exec .boundaryEmit s = .next s) ∧
    (s.dev.frm.holding = false ∨ now s.clk < s.dev.frm.lastB → exec .holdEnd s = .next s)) ∧
  (∀ (req : Req) (s : State), csrShut s.dev Reg.FRM_CTL = false → rb s.dev Reg.FRM_CTL 0 = true →
    ∃ t, exec (.frmDisable req) s = .next t ∧ t.clk = s.clk ∧ t.dev.frm.run = none ∧ t.dev.frm.holding = false
      ∧ t.dev.frm.lastFrame = s.dev.frm.lastFrame ∧ rb t.dev Reg.FRM_CTL 0 = false
      ∧ onlyThese [Reg.FRM_CTL] { s.dev with frm := t.dev.frm } t.dev) ∧
  (∀ (req : Req) (s : State), csrShut s.dev Reg.FRM_CMD = false → s.dev.pins.pairSlaved = false → s.dev.frm.run.isSome = true →
    ∃ t, exec (.frmApply req) s = .next t ∧ t.clk = s.clk
      ∧ ((gridRegs s.dev).ok = true → t.dev.frm.run = some (gridRegs s.dev) ∧ rb t.dev Reg.FRM_EVENT 4 = true
          ∧ t.dev.frm.lastFrame = s.dev.frm.lastFrame ∧ t.dev.frm.firstDone = s.dev.frm.firstDone
          ∧ (s.dev.frm.firstDone = true → t.dev.frm.bias = s.dev.frm.lastFrame + 1 - w64 t.dev.frm.next)
          ∧ (s.dev.frm.firstDone = false → t.dev.frm.next = (gridRegs s.dev).firstFrom (now s.clk) ∧ t.dev.frm.bias = s.dev.frm.bias))
      ∧ ((gridRegs s.dev).ok = false → t.dev.frm = s.dev.frm ∧ rb t.dev Reg.FRM_EVENT 5 = true ∧ onlyThese [Reg.FRM_EVENT] s.dev t.dev)) ∧
  (∀ (n : W64) (b : Time) (g : Grid) (s : State), nextBoundary s.clk s.dev = some (n, b) → s.dev.frm.run = some g → b ≤ now s.clk →
    ∃ t, exec .boundaryEmit s = .next t ∧ t.clk = s.clk ∧ t.dev.frm.lastFrame = n ∧ t.dev.frm.lastB = b ∧ t.dev.frm.run = some g
      ∧ t.dev.frm.next = s.dev.frm.next + 1 ∧ t.dev.frm.bias = n - w64 s.dev.frm.next ∧ t.dev.frm.firstDone = true
      ∧ b = g.at s.dev.frm.next ∧ (s.dev.frm.firstDone = true → n = w64 s.dev.frm.next + s.dev.frm.bias)
      ∧ (s.dev.frm.firstDone = false → s.dev.pins.pairSlaved = false →
          n = (if s.dev.frm.everEmitted ∧ s.dev.frm.next ≤ s.dev.frm.lastFrame.toNat then s.dev.frm.lastFrame + 1 else w64 s.dev.frm.next)
          ∧ (n ≠ w64 s.dev.frm.next → rb t.dev Reg.FRM_EVENT 2 = true))
      ∧ t.dev.frm.cur = BitVec.ofNat 18 (n + 1).toNat ∧ t.dev.frm.leavesIssued = true
      ∧ t.dev.frm.latching = (if straddled b s.clk s.dev then some (n, b) else none)
      ∧ t.dev.arr.frameLeaves = s.dev.arr.frameLeaves ++ (subscribers s.dev).map (fun x => (x, n + 1))
      ∧ (∀ w < 8, (steepOf t.dev w).sweepDue = true ∨ ∀ e ∈ (steepOf t.dev w).entries, stale t.dev e = false)
      ∧ (∀ i < 32, rf s.dev (Reg.PMON_SEL i) 0 10 = 2 →
          rd64 t.dev (Reg.PMON_CNT_LO i) = rd64 s.dev (Reg.PMON_CNT_LO i) + if rb t.dev Reg.PMON_CTL 0 then 1 else 0)
      ∧ (let early (x : Push) : Bool := decide (now s.clk - since s.clk x.tick * s.clk.tb.incr.toNat < b)
         t.dev.arr.latched = s.dev.arr.latched.filter (fun x => !early x)
          ∧ ∃ l m, t.dev.arr.inputs = s.dev.arr.inputs ++ l ++ s.dev.arr.latched.filter early ++ m)) ∧
  (∀ (d : Dev) (x : Nat), Tab.canonical 0 d.arr.tmpl → (x ∈ subscribers d ↔ bit (tmplWord d x 3) 31 = true ∧ bit (tmplWord d x 3) 29 = true)) ∧
  (∀ s : State, s.dev.frm.holding = true → s.dev.frm.lastB ≤ now s.clk →
    ∃ t, exec .holdEnd s = .next t ∧ t.clk = s.clk ∧ t.dev.frm = { s.dev.frm with holding := false } ∧ rb t.dev Reg.FRM_EVENT 1 = true
      ∧ onlyThese [Reg.FRM_EVENT] { s.dev with frm := t.dev.frm } t.dev)

/-- R59, with R77's corners of DIV and REM. -/
def Obligations.AluRule : Prop :=
  ∀ (who : Who) (s : State) (r : Runner) (w : W32) (e : Dev), Issues .alu who r none w s e →
    let a := r.g (aOf w)
    let b := r.g (bOf w)
    let f := funcOf w
    let n := b.toNat % 64
    let done (v : W64) : Prop := exec (.alu who) s = nextDev s ((r.setG (dOf w) v).next none e)
    (pOf w = 0 →
      (f = 0x00 → done (a + b)) ∧ (f = 0x01 → done (a - b)) ∧ (f = 0x02 → done (a &&& b)) ∧ (f = 0x03 → done (a ||| b))
      ∧ (f = 0x04 → done (a ^^^ b)) ∧ (f = 0x05 → done (a &&& ~~~ b))
      ∧ (f = 0x08 → done (a <<< n)) ∧ (f = 0x09 → done (a >>> n)) ∧ (f = 0x0A → done (a.sshiftRight n)) ∧ (f = 0x0B → done (a.rotateRight n))
      ∧ (f = 0x10 → done (a * b))
      ∧ (f = 0x11 → done (((a.signExtend 128 * b.signExtend 128) >>> 64).setWidth 64))
      ∧ (f = 0x12 → done (((a.setWidth 128 * b.setWidth 128) >>> 64).setWidth 64))
      ∧ (f = 0x14 → done (if b = 0 then -1 else a.sdiv b)) ∧ (f = 0x15 → done (if b = 0 then -1 else a / b))
      ∧ (f = 0x16 → done (if b = 0 then a else a.srem b)) ∧ (f = 0x17 → done (if b = 0 then a else a % b))
      ∧ (f = 0x18 → done (if a = b then 1 else 0)) ∧ (f = 0x19 → done (if a = b then 0 else 1))
      ∧ (f = 0x1A → done (if a.slt b then 1 else 0)) ∧ (f = 0x1B → done (if a < b then 1 else 0))
      ∧ (f = 0x1C → done (if a.slt b then a else b)) ∧ (f = 0x1D → done (if a.slt b then b else a))
      ∧ (f = 0x1E → done (if a < b then a else b)) ∧ (f = 0x1F → done (if a < b then b else a))
      ∧ (f = 0x20 → bOf w = 0 → ∀ z ≤ 64, (∀ i < z, a.getLsbD (63 - i) = false) → (z < 64 → a.getLsbD (63 - z) = true) → done (w64 z))
      ∧ (f = 0x21 → bOf w = 0 → ∀ z ≤ 64, (∀ i < z, a.getLsbD i = false) → (z < 64 → a.getLsbD z = true) → done (w64 z))
      ∧ (f = 0x22 → bOf w = 0 → done (w64 ((List.range 64).map fun i => bnat (a.getLsbD i)).sum))
      ∧ (f = 0x24 → (bOf w = 0 → done ((a.setWidth 8).signExtend 64)) ∧ (bOf w = 1 → done ((a.setWidth 16).signExtend 64))
          ∧ (bOf w = 2 → done ((a.setWidth 32).signExtend 64)))
      ∧ (f = 0x25 → (bOf w = 0 → done ((a.setWidth 8).setWidth 64)) ∧ (bOf w = 1 → done ((a.setWidth 16).setWidth 64))
          ∧ (bOf w = 2 → done ((a.setWidth 32).setWidth 64)))) ∧
    (pOf w ≠ 0 ∨ f ∈ [0x06, 0x07, 0x0C, 0x0D, 0x0E, 0x0F, 0x13, 0x23] ∨ 0x26 ≤ f ∨ (f ∈ [0x20, 0x21, 0x22] ∧ bOf w ≠ 0) ∨ (f ∈ [0x24, 0x25] ∧ 2 < bOf w) →
      exec (.alu who) s = nextDev s (takeFault r 0x01 0 0xFF s.clk e))

/-- R60, R61, R62 and R75, with the immediates of R56. -/
def Obligations.ImmediatesAndJumps : Prop :=
  ∀ (who : Who) (s : State) (r : Runner) (pre : Option W32) (w : W32) (e : Dev),
    let a := r.g (aOf w)
    let x := r.g (dOf w)
    let imm : W64 := pre.elim ((w.setWidth 16).signExtend 64) fun p => (p.setWidth 22 ++ w.setWidth 16 : BitVec 38).signExtend 64
    let zimm : W64 := pre.elim ((w.setWidth 16).setWidth 64) fun p => (p.setWidth 22 ++ w.setWidth 16 : BitVec 38).setWidth 64
    let take (v : W64) : Dev := (r.setG (dOf w) v).next pre e
    (Issues .immediate who r pre w s e →
      exec (.immediateOp who) s = nextDev s (take (match opOf w with
        | 0x02 => a + imm | 0x03 => a &&& zimm | 0x04 => a ||| zimm | 0x05 => a ^^^ zimm
        | 0x08 => if a.slt imm then 1 else 0 | _ => if a < imm then 1 else 0))) ∧
    (Issues .lui who r pre w s e → aOf w = 0 → exec (.lui who) s = nextDev s (take (imm <<< (if pre.isSome then 26 else 16)))) ∧
    (Issues .shifti who r pre w s e → fld w 8 8 = 0 →
      exec (.shifti who) s = nextDev s (take (match fld w 6 2 with
        | 0 => a <<< fld w 0 6 | 1 => a >>> fld w 0 6 | 2 => a.sshiftRight (fld w 0 6) | _ => a.rotateRight (fld w 0 6)))) ∧
    (Issues .nop who r pre w s e → pOf w = 0 → dOf w = 0 → aOf w = 0 → bOf w = 0 → exec (.nop who) s = nextDev s (r.next pre e)) ∧
    (Issues .trap who r pre w s e → pOf w = 0 → dOf w = 0 → bOf w = 0 →
      exec (.trap who) s = nextDev s (takeFault r 0x06 a 0xFF s.clk e)) ∧
    (∀ i i' b, who = .slot i → r = .slot i' b → pOf w = 0 → bOf w = 0 →
      (Issues .movl who r pre w s e → aOf w < 8 → exec (.movl i) s = nextDev s (take (Tab.get 0 b.l (aOf w)))) ∧
      (Issues .movk who r pre w s e → aOf w = 0 → exec (.movk i) s = nextDev s (take b.key)) ∧
      (Issues .movfl who r pre w s e → aOf w = 0 → exec (.movfl i) s = nextDev s (take (b.fl.setWidth 64))) ∧
      (Issues .clrfl who r pre w s e → dOf w = 0 →
        exec (.clrfl i) s = nextDev s ((Runner.slot i' { b with fl := b.fl &&& ~~~ ((a.setWidth 6).setWidth 32) }).next pre e))) ∧
    (Issues .branch who r pre w s e →
      let taken := match opOf w with
        | 0x18 => x == a | 0x19 => x != a | 0x1A => x.slt a | 0x1B => !x.slt a | 0x1C => decide (x < a) | _ => !decide (x < a)
      exec (.branch who) s = nextDev s (if taken then (r.jump (r.pc + imm * 4)).put e else r.next pre e)) ∧
    (Issues .jal who r pre w s e →
      exec (.jal who) s = nextDev s (((r.setG 31 (r.pc + 4)).jump (r.pc + (w.setWidth 26).signExtend 64 * 4)).put e)) ∧
    (Issues .jalr who r pre w s e →
      exec (.jalr who) s = nextDev s (if (a + imm).toNat % 4 = 0 then ((r.setG (dOf w) (r.after pre)).jump (a + imm)).put e
        else takeFault r 0x02 (a + imm) 0xFF s.clk e)) ∧
    (Issues .fence who r pre w s e → dOf w = 0 → aOf w = 0 → fld w 6 10 = 0 → fld w 4 2 ≠ 0 → exec (.fence who) s = nextDev s (r.next pre e))

/-- R63, R74 and R83 with the checks of R49, R51 and R84 and MEM_ECC (R79): ACCESS where no space of the runner holds the bytes or no area grants
them, MISALIGN of an address that is no multiple of the size, and an uncorrectable word of what is read. Inside the window that R368 protects a
control core reads zeros and writes nothing. That an ATOM in TASK mode needs R and W
of its area is the model's choice (log entry 97). -/
def Obligations.LoadsStoresAtomics : Prop :=
  ∀ (who : Who) (s : State) (r : Runner) (pre : Option W32) (w : W32) (e : Dev),
    let imm : W64 := pre.elim ((w.setWidth 16).signExtend 64) fun p => (p.setWidth 22 ++ w.setWidth 16 : BitVec 38).signExtend 64
    let a := r.g (aOf w) + imm
    let inside (p n : Nat) : Prop := r.isCore = true ∧ protects e = true ∧ e.scarab.base ≤ p ∧ p + n ≤ e.scarab.base + e.scarab.size
    let apart (p n : Nat) : Prop := r.isCore = true → protHit e p n = false
    (Issues .load who r pre w s e → r.csrWord .read (opOf w == 0x0E) a.toNat = false → ∀ n p,
      (opOf w = 0x0C ∨ opOf w = 0x10 → n = 1) → (opOf w = 0x0D ∨ opOf w = 0x11 → n = 2) → (opOf w = 0x0E ∨ opOf w = 0x12 → n = 4) →
      (opOf w = 0x0F → n = 8) →
      (r.holds e a.toNat n p → r.allows .read a.toNat n → a.toNat % n = 0 → apart p n → uncorrectable e p n = false →
        let m := ofLe (getBytes s.dev p n)
        let v : W64 := match opOf w with
          | 0x0C => (BitVec.ofNat 8 m).signExtend 64 | 0x0D => (BitVec.ofNat 16 m).signExtend 64
          | 0x0E => (BitVec.ofNat 32 m).signExtend 64 | _ => BitVec.ofNat 64 m
        ∃ t, exec (.load who) s = .next t ∧ t.clk = s.clk ∧ t.dev = (r.setG (dOf w) v).next pre (r.readAt p n e).2 ∧ sameMemory s.dev t.dev) ∧
      (r.holds e a.toNat n p → r.allows .read a.toNat n → a.toNat % n = 0 → inside p n →
        ∃ t, exec (.load who) s = .next t ∧ t.clk = s.clk ∧ t.dev = (r.setG (dOf w) 0).next pre (r.readAt p n e).2
          ∧ sameMemory s.dev t.dev ∧ rb t.dev Reg.SCARAB_EVENT 5 = true) ∧
      (r.holds e a.toNat n p → r.allows .read a.toNat n → a.toNat % n = 0 → apart p n → uncorrectable e p n = true →
        exec (.load who) s = nextDev s (takeFault r 0x05 a 0xFF s.clk (r.readAt p n e).2)) ∧
      (∀ code, r.refuses .read e a.toNat n code → exec (.load who) s = nextDev s (takeFault r code a 0xFF s.clk e))) ∧
    (Issues .store who r pre w s e → r.csrWord .write (opOf w == 0x16) a.toNat = false → ∀ n p,
      (opOf w = 0x14 → n = 1) → (opOf w = 0x15 → n = 2) → (opOf w = 0x16 → n = 4) → (opOf w = 0x17 → n = 8) →
      (r.holds e a.toNat n p → r.allows .write a.toNat n → a.toNat % n = 0 → ∃ t, exec (.store who) s = .next t ∧ t.clk = s.clk
        ∧ t.dev = r.writeAt p (leBytes n (r.g (dOf w)).toNat) (r.next pre e) ∧ sameOutside p n s.dev t.dev
        ∧ (apart p n → getBytes t.dev p n = leBytes n (r.g (dOf w)).toNat)
        ∧ (inside p n → sameMemory s.dev t.dev ∧ rb t.dev Reg.SCARAB_EVENT 5 = true)) ∧
      (∀ code, r.refuses .write e a.toNat n code → exec (.store who) s = nextDev s (takeFault r code a 0xFF s.clk e))) ∧
    (∀ kind word, r.csrWord kind word a.toNat = true ↔ r.isCore = true ∧ word = true ∧ 0x10000000 ≤ a.toNat ∧ a.toNat + 4 ≤ 0x11000000
      ∧ a.toNat % 4 = 0 ∧ r.allows kind a.toNat 4) ∧
    (∀ c x, r = .core c x → 0x10000000 ≤ a.toNat → a.toNat + 4 ≤ 0x11000000 → a.toNat % 4 = 0 →
      (Issues .load who r pre w s e → opOf w = 0x0E → r.allows .read a.toNat 4 →
        let d := csrRead .fw (a.toNat - csrBase) s.clk e
        exec (.load who) s = nextDev s ((r.setG (dOf w) (d.bus.data.signExtend 64)).next pre d)) ∧
      (Issues .store who r pre w s e → opOf w = 0x16 → r.allows .write a.toNat 4 →
        exec (.store who) s = onClk { s with dev := r.next pre e } (csrWrite .fw (a.toNat - csrBase) (lo32 (r.g (dOf w)))))) ∧
    (Issues .atom who r pre w s e → pOf w ≠ 0 ∨ fld w 6 2 < 2 ∨ 9 < fld w 0 6 →
      exec (.atom who) s = nextDev s (takeFault r 0x01 0 0xFF s.clk e)) ∧
    (Issues .atom who r pre w s e → pOf w = 0 → 2 ≤ fld w 6 2 → fld w 0 6 ≤ 9 → ∀ p,
      let x := r.g (aOf w)
      let n := if fld w 6 2 = 2 then 4 else 8
      let old : W64 := if n = 4 then (BitVec.ofNat 32 (ofLe (getBytes s.dev p n))).signExtend 64 else BitVec.ofNat 64 (ofLe (getBytes s.dev p n))
      let b : W64 := if n = 4 then ((r.g (bOf w)).setWidth 32).signExtend 64 else r.g (bOf w)
      let c : W64 := if n = 4 then ((r.g (dOf w)).setWidth 32).signExtend 64 else r.g (dOf w)
      let new : W64 := match fld w 0 6 with
        | 0 => b | 1 => old + b | 2 => old &&& b | 3 => old ||| b | 4 => old ^^^ b
        | 5 => if old.slt b then old else b | 6 => if old.slt b then b else old
        | 7 => if old < b then old else b | 8 => if old < b then b else old | _ => if old = c then b else old
      (r.holds e x.toNat n p → r.allows .read x.toNat n → r.allows .write x.toNat n → x.toNat % n = 0 →
        (inside p n → ∃ t, exec (.atom who) s = .next t ∧ t.clk = s.clk ∧ sameMemory s.dev t.dev ∧ rb t.dev Reg.SCARAB_EVENT 5 = true) ∧
        (apart p n → uncorrectable e p n = false → ∃ t, exec (.atom who) s = .next t ∧ t.clk = s.clk
          ∧ t.dev = r.writeAt p (leBytes n new.toNat) ((r.setG (dOf w) old).next pre (r.readAt p n e).2)
          ∧ getBytes t.dev p n = leBytes n new.toNat ∧ sameOutside p n s.dev t.dev) ∧
        (apart p n → uncorrectable e p n = true → exec (.atom who) s = nextDev s (takeFault r 0x05 x 0xFF s.clk (r.readAt p n e).2))) ∧
      (∀ code kind, kind ≠ .run → r.refuses kind e x.toNat n code → (code = 0x02 → r.allows .read x.toNat n ∧ r.allows .write x.toNat n) →
        exec (.atom who) s = nextDev s (takeFault r code x 0xFF s.clk e)))

/-- R64 to R71 for VINT, VFIX, VFP and VMOVE; the arithmetic of an element is in Machine/Vector.lean and Machine/Float.lean. -/
def Obligations.VectorResults : Prop :=
  (∀ (i : SlotId) (i' : Nat) (b : Brew) (s : State) (pre : Option W32) (w : W32) (e : Dev) (c : Instr) (op : Op) (res : Option VRes),
    (c = .vint i ∧ op = .vint ∧ res = vint (vArgs b pre w (operandWidth false (fld w 6 2))))
      ∨ (c = .vfix i ∧ op = .vfix ∧ res = vfix (vArgs b pre w 16))
      ∨ (c = .vfp i ∧ op = .vfp ∧ res = vfp (vArgs b pre w (operandWidth (fld w 0 6 == 0x25) (fld w 6 2))))
      ∨ (c = .vmove i ∧ op = .vmove ∧ res = vmove (pOf w) (vArgs b pre w (operandWidth false (fld w 6 2)))) →
    Issues op (.slot i) (.slot i' b) pre w s e →
    (∀ v fl, res = some (.vec v fl) →
      exec c s = nextDev s ((Runner.slot i' { b with v := Tab.put 0 b.v (dOf w) v, fl := b.fl ||| fl }).next pre e)) ∧
    (∀ v fl, res = some (.scalar v fl) → exec c s = nextDev s ((Runner.slot i' ((b.setG (dOf w) v).raiseFl fl)).next pre e)) ∧
    (∀ p, res = some (.pred p) → dOf w < 8 → exec c s = nextDev s ((Runner.slot i' (b.setP (dOf w) p)).next pre e)) ∧
    (∀ p fl, res = some (.predFl p fl) → dOf w < 8 → exec c s = nextDev s ((Runner.slot i' ((b.setP (dOf w) p).raiseFl fl)).next pre e)) ∧
    (res = none → exec c s = nextDev s (takeFault (.slot i' b) 0x01 0 0xFF s.clk e))) ∧
  (∀ (x : VArgs) (v : W512) (fl : W32) (j : Nat),
    bit x.pred j = false →
    (vint x = some (.vec v fl) ∨ vfp x = some (.vec v fl) →
      let n := if x.type = 0 then 16 else 32
      j < 512 / n → (elems n v).getD j 0 = if x.zero then 0 else (elems n x.old).getD j 0) ∧
    (vfix x = some (.vec v fl) → j < 32 → (elems 16 v).getD j 0 = if x.zero then 0 else (elems 16 x.old).getD j 0)) ∧
  (∀ (x : VArgs) (j : Nat), x.type < 2 → x.rnd = 0 → bit x.pred j = true →
    let n := if x.type = 0 then 16 else 32
    let a := (elems n x.a).getD j 0
    let b := (elems n x.b).getD j 0
    j < 512 / n →
    (x.func = 0 → ∃ v, vint x = some (.vec v 0) ∧ (elems n v).getD j 0 = (a + b) % 2 ^ n) ∧
    (x.func = 3 → ∃ v fl, vint x = some (.vec v fl) ∧ (elems n v).getD j 0 = min (2 ^ n - 1) (a + b))) ∧
  (∀ (rnd a b acc : Nat), rnd < 3 → a < 2 ^ 16 → b < 2 ^ 16 → acc < 2 ^ 16 →
    ∃ v, vfixElem 3 1 rnd a b acc = some (v, 0) ∧ min a b ≤ v ∧ v ≤ max a b) ∧
  (∀ rnd acc : Nat, rnd < 3 → vfixElem 0 0 rnd 0x8000 0x8000 acc = some (0x7FFF, flSAT))

/-- R69; a predicate-register field whose bits [4:3] are not zero, P not 0 and an undefined FUNC are ILLEGAL (R55, R58). -/
def Obligations.PredicateRule : Prop :=
  ∀ (i : SlotId) (i' : Nat) (b : Brew) (s : State) (w : W32) (e : Dev), Issues .vpred (.slot i) (.slot i' b) none w s e →
    let pa := b.pReg (aOf w)
    let pb := b.pReg (bOf w)
    let ga := b.gReg (aOf w)
    let toP (p : W32) : Prop := exec (.vpred i) s = nextDev s ((Runner.slot i' (b.setP (dOf w) p)).next none e)
    let toG (v : W64) : Prop := exec (.vpred i) s = nextDev s ((Runner.slot i' (b.setG (dOf w) v)).next none e)
    let bad : Prop := exec (.vpred i) s = nextDev s (takeFault (.slot i' b) 0x01 0 0xFF s.clk e)
    (pOf w ≠ 0 → bad) ∧ (funcOf w ∈ [0x05, 0x06, 0x07] ∨ 0x0D ≤ funcOf w → bad) ∧
    (pOf w = 0 →
      (funcOf w < 4 → 8 ≤ dOf w ∨ 8 ≤ aOf w ∨ 8 ≤ bOf w → bad) ∧ (funcOf w = 4 → 8 ≤ dOf w ∨ 8 ≤ aOf w ∨ bOf w ≠ 0 → bad) ∧
      (funcOf w = 8 ∨ funcOf w = 9 → 8 ≤ dOf w → bad) ∧ (10 ≤ funcOf w → 8 ≤ aOf w → bad) ∧
      (dOf w < 8 → aOf w < 8 → bOf w < 8 → (funcOf w = 0 → toP (pa &&& pb)) ∧ (funcOf w = 1 → toP (pa ||| pb))
        ∧ (funcOf w = 2 → toP (pa ^^^ pb)) ∧ (funcOf w = 3 → toP (pa &&& ~~~ pb)) ∧ (funcOf w = 4 → bOf w = 0 → toP (~~~ pa))) ∧
      (dOf w < 8 → funcOf w = 8 → ∀ p : W32, (∀ j < 32, p.getLsbD j = decide (j < ga.toNat)) → toP p) ∧
      (dOf w < 8 → funcOf w = 9 → toP (ga.setWidth 32)) ∧
      (aOf w < 8 → (funcOf w = 0x0A → toG (pa.setWidth 64))
        ∧ (funcOf w = 0x0B → toG (w64 ((List.range 32).map fun j => bnat (pa.getLsbD j)).sum))
        ∧ (funcOf w = 0x0C → ∀ z ≤ 32, (∀ j < z, pa.getLsbD j = false) → (z < 32 → pa.getLsbD z = true) → toG (w64 z))))

/-- R72 and R73, with the checks of R49 and R51 and MEM_ECC (R79): the lowest active element that fails its check is the one reported, with its
address, its number and the code of the check, and nothing is read or written; where all pass, the lowest whose bytes are uncorrectable. That
elements are checked lowest first in a VLD and a VST too is DEDUCED (log entry 29: the model's reading). -/
def Obligations.VectorMemory : Prop :=
  ∀ (i : SlotId) (i' : Nat) (b : Brew) (s : State) (pre : Option W32) (w : W32) (e : Dev) (c : Instr) (op : Op) (l : List (Nat × W64)),
    let r := Runner.slot i' b
    let n := memBytes w
    let elem (j : Nat) : Prop := j < 512 / regBits w ∧ bit (b.pReg (pOf w)) j = true
    (∀ j a, (j, a) ∈ lineElems b pre w ↔ elem j ∧ a = b.gReg (aOf w)
      + (pre.elim ((w.setWidth 6).signExtend 64) fun p => (p.setWidth 22 ++ w.setWidth 6 : BitVec 28).signExtend 64) * w64 (512 / regBits w * n)
      + w64 (j * n)) ∧
    (∀ j a, (j, a) ∈ indexElems b w ↔ elem j ∧ a = b.gReg (aOf w) + w64 ((elems (regBits w) (b.vReg (bOf w))).getD j 0 * 2 ^ fld w 4 2)) ∧
    (∀ kind a p, r.holds e a.toNat n p → a.toNat % n = 0 → spotOf r kind n a e = p) ∧
    ((c = .vld i ∧ op = .vld ∧ bOf w ≠ 0) ∨ (c = .vst i ∧ op = .vst ∧ bOf w ≠ 0) ∨ (c = .vgather i ∧ op = .vgather ∧ fld w 0 4 ≠ 0)
        ∨ (c = .vscatter i ∧ op = .vscatter ∧ fld w 0 4 ≠ 0)
        ∨ (fld w 6 2 = 3 ∧ (c, op) ∈ [(Instr.vld i, Op.vld), (.vst i, .vst), (.vgather i, .vgather), (.vscatter i, .vscatter)]) →
      Issues op (.slot i) r pre w s e → exec c s = nextDev s (takeFault r 0x01 0 0xFF s.clk e)) ∧
    (fld w 6 2 ≠ 3 → Issues op (.slot i) r pre w s e →
    ((c = .vld i ∧ op = .vld ∧ l = lineElems b pre w ∧ bOf w = 0) ∨ (c = .vgather i ∧ op = .vgather ∧ l = indexElems b w ∧ fld w 0 4 = 0) →
      (∀ code, ∀ y ∈ l, r.refuses .read e y.2.toNat n code → (∀ z ∈ l, z.1 < y.1 → ∀ x, ¬ r.refuses .read e z.2.toNat n x) →
        exec c s = nextDev s (takeFault r code y.2 y.1 s.clk e)) ∧
      ((∀ z ∈ l, ∀ x, ¬ r.refuses .read e z.2.toNat n x) → ∀ y ∈ l, uncorrectable e (spotOf r .read n y.2 e) n = true →
        (∀ z ∈ l, z.1 < y.1 → uncorrectable e (spotOf r .read n z.2 e) n = false) →
        exec c s = nextDev s (takeFault r 0x05 y.2 y.1 s.clk (readSpans (l.map fun x => (spotOf r .read n x.2 e, n)) e).2)) ∧
      ((∀ z ∈ l, ∀ x, ¬ r.refuses .read e z.2.toNat n x) → (∀ x ∈ l, uncorrectable e (spotOf r .read n x.2 e) n = false) →
        ∃ v t, exec c s = .next t ∧ t.clk = s.clk ∧ sameMemory s.dev t.dev
          ∧ t.dev = (Runner.slot i' (b.setV (dOf w) v)).next pre (readSpans (l.map fun x => (spotOf r .read n x.2 e, n)) e).2
          ∧ ∀ j, j < 512 / regBits w →
            (∀ a, (j, a) ∈ l → (elems (regBits w) v).getD j 0 = ofLe (getBytes s.dev (spotOf r .read n a e) n)) ∧
            ((∀ a, (j, a) ∉ l) → (elems (regBits w) v).getD j 0 = (elems (regBits w) (b.vReg (dOf w))).getD j 0))) ∧
    ((c = .vst i ∧ op = .vst ∧ l = lineElems b pre w ∧ bOf w = 0) ∨ (c = .vscatter i ∧ op = .vscatter ∧ l = indexElems b w ∧ fld w 0 4 = 0) →
      (∀ code, ∀ y ∈ l, r.refuses .write e y.2.toNat n code → (∀ z ∈ l, z.1 < y.1 → ∀ x, ¬ r.refuses .write e z.2.toNat n x) →
        exec c s = nextDev s (takeFault r code y.2 y.1 s.clk e)) ∧
      ((∀ z ∈ l, ∀ x, ¬ r.refuses .write e z.2.toNat n x) →
        let stored (y : Nat × W64) := storedElem w ((elems (regBits w) (b.vReg (dOf w))).getD y.1 0)
        let fl := if l.any (fun y => (stored y).2) then b.fl ||| flSAT else b.fl
        ∃ t, exec c s = .next t ∧ t.clk = s.clk
          ∧ t.dev = (Runner.slot i' { b with fl }).next pre (storeRanges (joinRanges (l.map fun y => (spotOf r .write n y.2 e, (stored y).1))) e)
          ∧ (∀ x, (∀ y ∈ l, x < spotOf r .write n y.2 e ∨ spotOf r .write n y.2 e + n ≤ x) → getByte t.dev x = getByte s.dev x)
          ∧ ∀ j a l1 l2, l = l1 ++ (j, a) :: l2 →
            (∀ y ∈ l2, spotOf r .write n y.2 e + n ≤ spotOf r .write n a e ∨ spotOf r .write n a e + n ≤ spotOf r .write n y.2 e) →
            getBytes t.dev (spotOf r .write n a e) n = (stored (j, a)).1)))

/-- R84 and R85, and R81's SWARM_ICACHE_CMD. -/
def Obligations.ControlCores : Prop :=
  (∀ (x : Core) (kind code : Nat) (saved : W64) (addr : Option W64),
    x.trap kind code saved addr = { x with
      savedSt := x.st, savedPc := saved, cause := w64 (kind * 256 + code), faultAddr := addr.elim x.faultAddr id, st := 2
      pc := x.trapBase + w64 (256 * kind), dozing := false }) ∧
  (∀ (c : Fin 4) (x : Core) (s : State) (w : W32) (e : Dev),
    let r := Runner.core c x
    (∀ op cmd v, (cmd = .getc c ∧ op = .getc ∧ coreRead (fld w 0 8) c x s.clk e = some v ∧ fld w 8 4 = 0)
        ∨ (cmd = .setc c ∧ op = .setc ∧ (coreWrite (fld w 0 8) v x).isSome ∧ v = x.gReg (aOf w) ∧ fld w 8 4 = 0)
        ∨ (cmd = .resume c ∧ op = .resume ∧ privEmpty w = true) ∨ (cmd = .doze c ∧ op = .doze ∧ privEmpty w = true) →
      Issues op (.core c) r none w s e → x.privileged = false → exec cmd s = nextDev s (setCore c (x.trap 0 7 x.pc (some 0)) e)) ∧
    (∀ v, Issues .getc (.core c) r none w s e → x.privileged = true → fld w 8 4 = 0 → coreRead (fld w 0 8) c x s.clk e = some v →
      exec (.getc c) s = nextDev s (setCore c { x.setG (dOf w) v with pc := x.pc + 4 } e)) ∧
    (∀ y, Issues .setc (.core c) r none w s e → x.privileged = true → fld w 8 4 = 0 → coreWrite (fld w 0 8) (x.gReg (aOf w)) x = some y →
      exec (.setc c) s = nextDev s (setCore c { y with pc := y.pc + 4 } e)) ∧
    (Issues .resume (.core c) r none w s e → x.privileged = true → privEmpty w = true →
      exec (.resume c) s = nextDev s (setCore c { x with st := x.savedSt, pc := x.savedPc } e)) ∧
    (Issues .doze (.core c) r none w s e → x.privileged = true → privEmpty w = true →
      (irqPend e &&& x.irqEn = 0 → exec (.doze c) s = nextDev s (setCore c { x with pc := x.pc + 4, dozing := true } e)) ∧
      ∀ n < 64, bit (irqPend e &&& x.irqEn) n = true → (∀ m < n, bit (irqPend e &&& x.irqEn) m = false) →
        (x.ien = true → exec (.doze c) s = nextDev s (setCore c (x.trap 2 n (x.pc + 4) none) e)) ∧
        (x.ien = false → exec (.doze c) s = nextDev s (setCore c { x with pc := x.pc + 4 } e))) ∧
    (Issues .callp (.core c) r none w s e → privEmpty w = true →
      exec (.callp c) s = nextDev s (setCore c (x.trap 1 8 (x.pc + 4) none) e))) ∧
  (∀ (c : Fin 4) (s : State) (n : Nat), n < 64 → bit (irqPend s.dev &&& (coreAt s.dev c).irqEn) n = true →
    (∀ m < n, bit (irqPend s.dev &&& (coreAt s.dev c).irqEn) m = false) → (coreAt s.dev c).running = true →
    let x := coreAt s.dev c
    (x.ien = true → exec (.coreInterrupt c) s = nextDev s (setCore c (x.trap 2 n x.pc none) s.dev)) ∧
    (x.dozing = true → x.ien = true → exec (.dozeWake c) s = nextDev s (setCore c (x.trap 2 n x.pc none) s.dev)) ∧
    (x.dozing = true → x.ien = false → exec (.dozeWake c) s = nextDev s (setCore c { x with dozing := false } s.dev))) ∧
  (∀ (req : Req) (sw : Fin 8) (s : State), csrShut s.dev (Reg.SWARM_ICACHE_CMD sw) = false →
    ∃ t, exec (.swarmIcacheInv req sw) s = .next t ∧ t.clk = s.clk ∧ t.dev = { s.dev with arr := { s.dev.arr with icache := t.dev.arr.icache } }
      ∧ ∀ i a, a < 2 ^ 48 → Tab.get none t.dev.arr.icache (icacheKey i a)
          = if slotSwarm i = sw.val then none else Tab.get none s.dev.arr.icache (icacheKey i a))

/-- R47 for the register instructions: their results depend on the brew's registers alone, not on show time, the place or any other brew. -/
def Obligations.SameResultAnywhere : Prop :=
  ∀ (i j : SlotId) (i' j' : Nat) (b : Brew) (s t : State) (pre : Option W32) (w : W32) (d e : Dev) (op : Op) (c : SlotId → Instr),
    (op, c) ∈ [(Op.alu, fun x => Instr.alu (.slot x)), (.immediate, fun x => .immediateOp (.slot x)), (.lui, fun x => .lui (.slot x)),
      (.shifti, fun x => .shifti (.slot x)), (.nop, fun x => .nop (.slot x)), (.movl, .movl), (.movk, .movk), (.movfl, .movfl),
      (.clrfl, .clrfl), (.trap, fun x => .trap (.slot x)), (.branch, fun x => .branch (.slot x)), (.jal, fun x => .jal (.slot x)),
      (.jalr, fun x => .jalr (.slot x)), (.vint, .vint), (.vfix, .vfix), (.vfp, .vfp), (.vpred, .vpred), (.vmove, .vmove),
      (.fence, fun x => .fence (.slot x)), (.kmake, .kmake), (.ksetf, .ksetf), (.kaddf, .kaddf), (.kaddi, .kaddi), (.ksett, .ksett),
      (.kgett, .kgett), (.kgetf, .kgetf), (.kgeti, .kgeti)] →
    Issues op (.slot i) (.slot i' b) pre w s d → Issues op (.slot j) (.slot j' b) pre w t e →
    (∃ b', exec (c i) s = nextDev s (setBrew i' (some b') d) ∧ exec (c j) t = nextDev t (setBrew j' (some b') e)) ∨
    (∃ code addr lane, exec (c i) s = nextDev s (takeFault (.slot i' b) code addr lane s.clk d)
      ∧ exec (c j) t = nextDev t (takeFault (.slot j' b) code addr lane t.clk e))

/-- R103's key operations, on the fields of R86: TMPL [63:50], FRAME [49:32], INST [31:0]. -/
def Obligations.KeyOperations : Prop :=
  ∀ (i : SlotId) (i' : Nat) (b : Brew) (s : State) (w : W32) (e : Dev) (op : Op), Issues op (.slot i) (.slot i' b) none w s e → pOf w = 0 →
    let a := b.gReg (aOf w)
    let c := b.gReg (bOf w)
    let tmpl := a.extractLsb' 50 14
    let frame := a.extractLsb' 32 18
    let take (v : W64) : Dev := (Runner.slot i' (b.setG (dOf w) v)).next none e
    (op = .kmake → exec (.kmake i) s = nextDev s (take (a.setWidth 14 ++ b.key.extractLsb' 32 18 ++ c.setWidth 32))) ∧
    (op = .ksetf → exec (.ksetf i) s = nextDev s (take (tmpl ++ c.setWidth 18 ++ a.setWidth 32))) ∧
    (op = .kaddf → exec (.kaddf i) s = nextDev s (take (tmpl ++ (frame + c.setWidth 18) ++ a.setWidth 32))) ∧
    (op = .kaddi → exec (.kaddi i) s = nextDev s (take (tmpl ++ frame ++ (a.setWidth 32 + c.setWidth 32)))) ∧
    (op = .ksett → exec (.ksett i) s = nextDev s (take (c.setWidth 14 ++ frame ++ a.setWidth 32))) ∧
    (bOf w = 0 →
      (op = .kgett → exec (.kgett i) s = nextDev s (take (tmpl.setWidth 64))) ∧
      (op = .kgetf → exec (.kgetf i) s = nextDev s (take (frame.setWidth 64))) ∧
      (op = .kgeti → exec (.kgeti i) s = nextDev s (take ((a.setWidth 32).setWidth 64))))

/-- R93. -/
def Obligations.HomeSwarm : Prop :=
  ∀ (d : Dev) (key : W64),
    let route := if rf d Reg.SCHED_ROUTE_SET 0 8 = 0 then 0xFF else rf d Reg.SCHED_ROUTE_SET 0 8
    let m := tmplAffinity d (key.extractLsb' 50 14).toNat &&& route
    let m := if m = 0 then route else m
    (homeOf d key < 8 ∧ m.testBit (homeOf d key) = true
      ∧ ((List.range (homeOf d key)).filter m.testBit).length = (key.setWidth 32).toNat % ((List.range 8).filter m.testBit).length) ∧
    (∀ (input : Bool) (slot : Nat) (v : W64) (s : Nat), s ≠ homeOf d key →
      steepOf (takeLeaf input key slot v d).2 s = steepOf d s ∧ steepOf (takeCancel input key d).2 s = steepOf d s)

/-- R92, R95 to R97, and R111's absorption, for LEAF_ARRIVE and WAITING_LEAF_DELIVER. The order of the compute sources in the rotation is the
model's choice (log entry 33). -/
def Obligations.SteepingTable : Prop :=
  (∀ (input : Bool) (key v : W64) (slot : Nat) (d : Dev),
    let s := homeOf d key
    let x := steepOf d s
    let r := takeLeaf input key slot v d
    (x.marked key = true → r.1 = true ∧ onlyThese [Reg.SWARM_CANCEL_COUNT s] d r.2
      ∧ rf r.2 (Reg.SWARM_CANCEL_COUNT s) 16 16 = min 0xFFFF (rf d (Reg.SWARM_CANCEL_COUNT s) 16 16 + 1)) ∧
    (x.marked key = false → x.entry? key = none → x.places < (if input then 8192 else 7168) → slot < tmplLeaves d (keyTmpl key) →
      ∃ e, r.1 = true ∧ (steepOf r.2 s).entry? key = some e ∧ (steepOf r.2 s).places = x.places + 1
        ∧ e.leaves = (List.replicate (tmplLeaves d (keyTmpl key)) none).set slot (some v)
        ∧ (∀ k ≠ key, (steepOf r.2 s).entry? k = x.entry? k) ∧ (steepOf r.2 s).markers = x.markers
        ∧ (steepOf r.2 s).ready = x.ready ++ (if tmplLeaves d (keyTmpl key) = 1 then [key] else [])) ∧
    (x.marked key = false → x.entry? key = none → (if input then 8192 else 7168) ≤ x.places →
      (input = false → r = (false, d)) ∧
      (input = true → r.1 = true ∧ onlyThese [Reg.SWARM_INPUT_LEAF_DROP s, Reg.SCHED_EVENT] d r.2 ∧ rb r.2 Reg.SCHED_EVENT 2 = true
        ∧ rd r.2 (Reg.SWARM_INPUT_LEAF_DROP s) = w32 (min (2 ^ 32 - 1) ((rd d (Reg.SWARM_INPUT_LEAF_DROP s)).toNat + 1)))) ∧
    (∀ e, x.marked key = false → x.entry? key = some e → slot < e.leaves.length → e.leaves.getD slot none = none → e.isReady = false →
      let e' : Entry := { e with leaves := e.leaves.set slot (some v) }
      r.1 = true ∧ (steepOf r.2 s).entry? key = some e' ∧ (∀ k ≠ key, (steepOf r.2 s).entry? k = x.entry? k)
        ∧ (steepOf r.2 s).ready = x.ready ++ (if e'.isReady then [key] else [])) ∧
    (∀ e, x.marked key = false → x.entry? key = some e → slot < e.leaves.length → (e.leaves.getD slot none).isSome = true ∨ e.isReady = true →
      r.1 = true ∧ onlyThese [Reg.SWARM_LEAF_DISCARD s, Reg.SCHED_EVENT] d r.2 ∧ rb r.2 Reg.SCHED_EVENT 0 = true
        ∧ rf r.2 (Reg.SWARM_LEAF_DISCARD s) 16 16 = min 0xFFFF (rf d (Reg.SWARM_LEAF_DISCARD s) 16 16 + 1))) ∧
  (∀ (sw : Fin 8) (x : Push) (l : List Push) (s : State), s.dev.arr.inputs = x :: l → homeOf s.dev x.key = sw.val → x.cancel = false →
    leafBad s.dev x.key x.slot = false → swarmRuns s.dev sw = true →
    exec (.leafArrive sw) s = nextDev s (settle s.clk (takeLeaf true x.key x.slot x.value (onArr (fun a => { a with inputs := l }) s.dev)).2)) ∧
  (∀ (sw : Fin 8) (x : Sent) (l : List Sent) (s : State), (∀ y ∈ s.dev.arr.inputs, homeOf s.dev y.key ≠ sw.val) →
    s.dev.arr.frameLeaves = [] → s.dev.arr.immediate = [] → (∀ j < 4, delayList s.dev (4 * sw.val + j) = []) → s.dev.arr.sends = x :: l →
    x.cancel = false →
    homeOf s.dev x.key = sw.val → swarmRuns s.dev sw = true →
    let r := takeLeaf false x.key x.slot x.value (setSends l s.dev)
    let u := sentOff x r.2
    (r.1 = true → exec (.leafArrive sw) s = nextDev s (settle s.clk (setSteep sw { steepOf u sw with turn := 1 } u))
      ∧ ((∀ y ∈ l, y.cancel = false) →
          exec (.waitingLeafDeliver sw) s = nextDev s (settle s.clk (setSteep sw { steepOf u sw with turn := 1 } u)))) ∧
    (∀ i b, x.slotId = some i → (∀ y ∈ l, y.slotId ≠ some i) → brewAt s.dev i = some b →
      u = setBrew i (some { b with wait := .none, pc := b.pc + 4 }) r.2) ∧
    (x.slotId = none ∨ (∃ y ∈ l, y.slotId = x.slotId) → u = r.2) ∧
    (r.1 = false → l = [] → (∀ i b, x.slotId = some i → brewAt s.dev i = some b → b.cancelled = false) →
      exec (.leafArrive sw) s = nextDev s (settle s.clk (setSends [{ x with waits := true }] s.dev)))) ∧
  (∀ (sw : Nat) (d e : Dev), serveSource ((steepOf d sw).turn % 4) sw d = (true, e) →
    rotate sw d = (some ((steepOf d sw).turn % 4), setSteep sw { steepOf e sw with turn := ((steepOf d sw).turn % 4 + 1) % 4 } e)) ∧
  (∀ (sw : Fin 8) (x : Push) (l : List Push) (s : State), s.dev.arr.inputs = x :: l → homeOf s.dev x.key = sw.val → x.cancel = false →
    leafBad s.dev x.key x.slot = true → swarmRuns s.dev sw = true →
    exec (.leafArrive sw) s = nextDev s (settle s.clk (discardBad x.key (onArr (fun a => { a with inputs := l }) s.dev)))) ∧
  (∀ (key : W64) (slot : Nat) (d : Dev),
    (leafBad d key slot = true ↔ tmplValid d (keyTmpl key) = false ∨ tmplLeaves d (keyTmpl key) ≤ slot) ∧
    rb (discardBad key d) Reg.SCHED_EVENT 1 = true
      ∧ rf (discardBad key d) (Reg.SWARM_LEAF_DISCARD (homeOf d key)) 0 16 = min 0xFFFF (rf d (Reg.SWARM_LEAF_DISCARD (homeOf d key)) 0 16 + 1)
      ∧ onlyThese [Reg.SWARM_LEAF_DISCARD (homeOf d key), Reg.SCHED_EVENT] d (discardBad key d)) ∧
  (∀ (sw : Fin 8) (s : State), inputWaits s.dev sw = true → headInput s.dev sw = none ∨ (∃ n x, headInput s.dev sw = some (n, x) ∧ x.cancel = true) →
    exec (.leafArrive sw) s = nextDev s (settle s.clk s.dev))

/-- R104 to R108 with the faults of R109, R111's suppression, and what becomes of a flow member's records and membership (R120, R122, R127).
That the checks of POUR hold for a cancelled brew too is the model's reading (log entry 30). -/
def Obligations.BrewInstructions : Prop :=
  ∀ (i : SlotId) (i' : Nat) (b : Brew) (s : State) (w : W32) (e : Dev),
    let r := Runner.slot i' b
    let key := b.gReg (aOf w)
    let hand (l : List Sent) : Dev := settle s.clk (onArr (fun a => { a with sends := a.sends ++ l }) (setBrew i' (some { b with wait := .leaves }) e))
    let valid (slot : Nat) : Prop := tmplValid e (keyTmpl key) = true ∧ slot < tmplLeaves e (keyTmpl key)
    (Issues .emit (.slot i) r none w s e → pOf w = 0 → dOf w < 8 →
      (b.cancelled = true → exec (.emit i) s = nextDev s (r.next none e)) ∧
      (b.cancelled = false → valid (dOf w) → exec (.emit i) s = nextDev s (hand
        [{ slotId := some i', key, slot := dOf w, value := b.gReg (bOf w), cancel := false }])) ∧
      (b.cancelled = false → tmplValid e (keyTmpl key) = false → exec (.emit i) s = nextDev s (takeFault r 0x11 key 0xFF s.clk e)) ∧
      (b.cancelled = false → tmplValid e (keyTmpl key) = true → tmplLeaves e (keyTmpl key) ≤ dOf w →
        exec (.emit i) s = nextDev s (takeFault r 0x12 key 0xFF s.clk e))) ∧
    (∀ op c bad, (op, c, bad) ∈ [(Op.emit, Instr.emit i, pOf w ≠ 0 ∨ 8 ≤ dOf w), (.emitv, .emitv i, 8 ≤ dOf w), (.pour, .pour i, pOf w ≠ 0),
        (.delay, .delay i, pOf w ≠ 0 ∨ fld w 5 3 ≠ 0), (.endBrew, .endBrew i, pOf w ≠ 0 ∨ dOf w ≠ 0 ∨ aOf w ≠ 0 ∨ bOf w ≠ 0),
        (.cancel, .cancel i, pOf w ≠ 0 ∨ dOf w ≠ 0 ∨ bOf w ≠ 0)] →
      Issues op (.slot i) r none w s e → bad → exec c s = nextDev s (takeFault r 0x01 0 0xFF s.clk e)) ∧
    (Issues .emitv (.slot i) r none w s e → dOf w < 8 →
      (b.cancelled = true → exec (.emitv i) s = nextDev s (r.next none e)) ∧
      (b.cancelled = false → tmplValid e (keyTmpl key) = false → exec (.emitv i) s = nextDev s (takeFault r 0x11 key 0xFF s.clk e)) ∧
      (b.cancelled = false → tmplValid e (keyTmpl key) = true → tmplLeaves e (keyTmpl key) ≤ dOf w →
        exec (.emitv i) s = nextDev s (takeFault r 0x12 key 0xFF s.clk e))) ∧
    (Issues .emitv (.slot i) r none w s e → dOf w < 8 → b.cancelled = false → valid (dOf w) →
      let l := ((List.range 16).filter fun j => bit (b.pReg (pOf w)) j).map fun j =>
        ({ slotId := some i', key := kaddi key (w64 j), slot := dOf w
           value := w64 ((elems 32 (b.vReg (bOf w))).getD j 0), cancel := false } : Sent)
      exec (.emitv i) s = nextDev s (if l = [] then r.next none e else hand l)) ∧
    (Issues .pour (.slot i) r none w s e → pOf w = 0 →
      let addr := key.toNat
      let len := (b.gReg (bOf w)).toNat
      let dest := b.gReg (dOf w)
      let flt (code : Nat) (a : W64) : Prop := exec (.pour i) s = nextDev s (takeFault r code a 0xFF s.clk e)
      (4096 < len → flt 0x13 (b.gReg (bOf w))) ∧ (len ≤ 4096 → addr % 64 ≠ 0 → flt 0x02 key) ∧
      (len ≤ 4096 → addr % 64 = 0 → 0x8000 ≤ addr ∨ 0x8000 < addr + len → flt 0x03 key) ∧
      (len ≤ 4096 → addr % 64 = 0 → addr < 0x8000 → addr + len ≤ 0x8000 →
        (16 ≤ b.pours → flt 0x14 0) ∧ (b.pours < 16 → destOk e dest len = false → flt 0x15 dest) ∧
        (b.pours < 16 → destOk e dest len = true → uncorrectable e (cupPlace i' + addr) len = true →
          exec (.pour i) s = nextDev s (takeFault r 0x05 key 0xFF s.clk (load (cupPlace i' + addr) len e).2)) ∧
        (b.pours < 16 → destOk e dest len = true → uncorrectable e (cupPlace i' + addr) len = false →
          let rec' : Rec := { key := b.key, dest, data := getBytes s.dev (cupPlace i' + addr) len }
          let d := setBrew i' (some { b with pours := b.pours + 1 }) (load (cupPlace i' + addr) len e).2
          let held := b.cancelled = false ∧ ((b.flow = none ∧ pourFits d false rec' = true)
            ∨ ∃ f n, b.flow = some f ∧ keyPlace e f b.key = .pos n ∧ n < 1024 ∧ pourFits d (n == 0) rec' = true)
          let dropped := b.cancelled = true ∨ ∃ f, b.flow = some f ∧ (keyPlace e f b.key = .disabled ∨ keyPlace e f b.key = .behind)
          ∃ t, exec (.pour i) s = .next t ∧ t.clk = s.clk ∧ sameMemory s.dev t.dev ∧ (∀ j ≠ i', brewAt t.dev j = brewAt e j)
            ∧ (held → brewAt t.dev i' = some { b with pours := b.pours + 1, recs := b.recs ++ [rec'], wait := .none, pc := b.pc + 4 })
            ∧ (dropped → brewAt t.dev i' = some { b with pours := b.pours + 1, wait := .none, pc := b.pc + 4 })
            ∧ (¬ held → ¬ dropped → brewAt t.dev i' = some { b with pours := b.pours + 1, wait := .pour rec' })))) ∧
    (Issues .delay (.slot i) r none w s e → pOf w = 0 → fld w 5 3 = 0 →
      (b.cancelled = true → exec (.delay i) s = nextDev s (r.next none e)) ∧
      (b.cancelled = false → tmplValid e (keyTmpl key) = false → exec (.delay i) s = nextDev s (takeFault r 0x11 key 0xFF s.clk e)) ∧
      (b.cancelled = false → tmplValid e (keyTmpl key) = true → tmplLeaves e (keyTmpl key) ≤ fld w 0 3 →
        exec (.delay i) s = nextDev s (takeFault r 0x12 key 0xFF s.clk e))) ∧
    (Issues .delay (.slot i) r none w s e → pOf w = 0 → fld w 5 3 = 0 → b.cancelled = false → valid (fld w 0 3) →
      let home := homeOf e key
      let n := 4 * home + fld w 3 2
      let x : DelayEntry := { key, slot := fld w 0 3, value := b.gReg (dOf w), due := b.gReg (bOf w)
                              policy := fld (tmplWord e (keyTmpl key) 3) 19 2, wasLate := later (shortOf (now s.clk)) (b.gReg (bOf w)) }
      ((delayList e n).length < 4096 → exec (.delay i) s = nextDev s (r.next none (setDelayList n (insertDelay x (delayList e n)) e))) ∧
      (4096 ≤ (delayList e n).length → ∃ d, exec (.delay i) s = nextDev s (r.next none d) ∧ rb d Reg.SCHED_REL_EVENT 6 = true
        ∧ rf d (Reg.SWARM_DLY_DROP home) 16 16 = min 0xFFFF (rf e (Reg.SWARM_DLY_DROP home) 16 16 + 1)
        ∧ onlyThese [Reg.SCHED_REL_EVENT, Reg.SWARM_DLY_DROP home] e d)) ∧
    (∀ l x, insertDelay x l = (l.takeWhile fun y : DelayEntry => !later y.due x.due) ++ x :: l.dropWhile fun y => !later y.due x.due) ∧
    (Issues .endBrew (.slot i) r none w s e → pOf w = 0 → dOf w = 0 → aOf w = 0 → bOf w = 0 → b.flow = none →
      ∃ t, exec (.endBrew i) s = .next t ∧ t.clk = s.clk ∧ sameMemory s.dev t.dev ∧ brewAt t.dev i' = none
        ∧ (∀ j ≠ i', brewAt t.dev j = brewAt e j) ∧ t.dev.arr.loose = e.arr.loose ++ b.recs ∧ t.dev.arr.flows = e.arr.flows) ∧
    (∀ f, Issues .endBrew (.slot i) r none w s e → pOf w = 0 → dOf w = 0 → aOf w = 0 → bOf w = 0 → b.flow = some f →
      let pl := keyPlace e f b.key
      let goesOn := b.cancelled = true ∨ pl = .disabled ∨ pl = .behind ∨ ∃ n < 1024, pl = .pos n
      ∃ t, exec (.endBrew i) s = .next t ∧ t.clk = s.clk ∧ sameMemory s.dev t.dev ∧ (∀ j ≠ i', brewAt t.dev j = brewAt e j)
        ∧ (∀ g, g ≠ f → flow t.dev g = flow e g) ∧ t.dev.arr.loose = e.arr.loose
        ∧ (goesOn → brewAt t.dev i' = none) ∧ (¬ goesOn → brewAt t.dev i' = some { b with wait := .ending } ∧ flow t.dev f = flow e f)
        ∧ (b.cancelled = true → t.dev.arr.tombs = e.arr.tombs ++ [(f, b.key)] ∧ flow t.dev f = flow e f)
        ∧ (∀ n < 1024, b.cancelled = false → pl = .pos n → (flow e f).isClosed n = false → flow t.dev f = { flow e f with
            closed := (flow e f).closed ++ [{ frame := b.key.extractLsb' 32 18, inst := b.key.setWidth 32, recs := some b.recs }] })
        ∧ (b.cancelled = false → pl = .disabled ∨ pl = .behind ∨ (∃ n < 1024, pl = .pos n ∧ (flow e f).isClosed n = true) →
            flow t.dev f = flow e f ∧ rb t.dev Reg.SCHED_REL_EVENT 0 = true
              ∧ rf t.dev (Reg.SCHED_FLOW_COUNTS f) 16 16 = min 0xFFFF (rf e (Reg.SCHED_FLOW_COUNTS f) 16 16 + 1))) ∧
    (Issues .cancel (.slot i) r none w s e → pOf w = 0 → dOf w = 0 → bOf w = 0 →
      exec (.cancel i) s = nextDev s (if b.cancelled then r.next none e
        else hand [{ slotId := some i', key, slot := 0, value := 0, cancel := true }]))

/-- R46, R80, R90, R92, R94, R95, R98, R99, R102, R110, R111 and R116. A cancel is pending while it could act now: when a sweep waits is the
model's reading (log entry 34), and the order of the compute sources is its choice (log entry 33). -/
def Obligations.SchedulerCommands : Prop :=
  (∀ (sw : Fin 8) (s : State) (e : Entry) (l1 l2 : List W64) (i : Nat), rb s.dev Reg.SCHED_CTL 0 = true → swarmRuns s.dev sw = true →
    (steepOf s.dev sw).ready = l1 ++ e.key :: l2 → (steepOf s.dev sw).entry? e.key = some e → e.prio < 4 →
    (∀ k ∈ l1, ∀ y, (steepOf s.dev sw).entry? k = some y → y.prio < e.prio) → (∀ k ∈ l2, ∀ y, (steepOf s.dev sw).entry? k = some y → y.prio ≤ e.prio) →
    idleSlot s.dev sw = some i →
    ∃ t b, exec (.dispatch sw) s = .next t ∧ t.clk = s.clk ∧ sameMemory s.dev t.dev ∧ brewAt t.dev i = some b
      ∧ b = { key := e.key, pc := tmplCode s.dev (keyTmpl e.key), l := b.l, flow := e.flow, cycTick := s.clk.ticks }
      ∧ (∀ j < e.leaves.length, b.lReg j = (e.leaves.getD j none).getD 0) ∧ (∀ j, e.leaves.length ≤ j → b.lReg j = 0)
      ∧ (∀ j ≠ i, brewAt t.dev j = brewAt s.dev j) ∧ steepOf t.dev sw = (steepOf s.dev sw).dropEntry e.key
      ∧ (rd64 t.dev (Reg.SWARM_DISPATCHED_LO sw)).toNat = min (2 ^ 64 - 1) ((rd64 s.dev (Reg.SWARM_DISPATCHED_LO sw)).toNat + 1)) ∧
  (∀ (x : SlotId) (b : Brew) (s : State), brewAt s.dev (slotNum x) = some b →
    (cycleLimit s.dev < brewCycles s.clk s.dev (slotNum x) b →
      exec (.brewOvertime x) s = nextDev s (settle s.clk (killBrew (slotNum x) 0x10 0 0xFF s.dev))) ∧
    (brewCycles s.clk s.dev (slotNum x) b ≤ cycleLimit s.dev → exec (.brewOvertime x) s = nextDev s (settle s.clk s.dev)) ∧
    (∀ code addr lane, code < 256 → lane < 256 →
      let d := killBrew (slotNum x) code addr lane s.dev
      let c := Reg.SWARM_FAULT_COUNT x.s.val
      brewAt d (slotNum x) = none ∧ (∀ j ≠ slotNum x, brewAt d j = brewAt s.dev j) ∧ rf d c 0 16 = min 0xFFFF (rf s.dev c 0 16 + 1)
      ∧ d.arr.tombs = s.dev.arr.tombs ++ (b.flow.map fun f => (f, b.key)).toList
      ∧ (let bs := faultRecord b (slotNum x) code lane addr
         bs.length = 32 ∧ ofLe (bs.take 8) = b.key.toNat ∧ ofLe (slice bs 8 8) = b.pc.toNat ∧ ofLe (slice bs 16 8) = addr.toNat
          ∧ bs.drop 24 = [w64 code, w64 x.s.val, w64 x.f.val, w64 x.j.val, w64 lane, 0, 0, 0].map (·.setWidth 8)))) ∧
  (∀ (sw : Fin 8) (x : Push) (l : List Push) (s : State), s.dev.arr.inputs = x :: l → homeOf s.dev x.key = sw.val → x.cancel = true →
    swarmRuns s.dev sw = true →
    exec (.cancelArrive sw) s = nextDev s (settle s.clk (sweepPass sw (takeCancel true x.key (onArr (fun a => { a with inputs := l }) s.dev)).2))) ∧
  (∀ (sw : Nat) (d : Dev), ((steepOf d sw).sweepDue = false ∨ cancelPending d sw = true → sweepPass sw d = d) ∧
    ((steepOf d sw).sweepDue = true → cancelPending d sw = false → (steepOf (sweepPass sw d) sw).sweepDue = false
      ∧ (steepOf (sweepPass sw d) sw).entries
          = (steepOf d sw).entries.filter (fun e => !((steepOf d sw).entries.filter (stale d)).any fun y => y.key == e.key)
      ∧ (sweepPass sw d).arr.tombs = d.arr.tombs ++ ((steepOf d sw).entries.filter (stale d)).filterMap (fun e => e.flow.map fun f => (f, e.key))
      ∧ (rd (sweepPass sw d) (Reg.SWARM_STALE_COUNT sw)).toNat
          = min (2 ^ 32 - 1) ((rd d (Reg.SWARM_STALE_COUNT sw)).toNat + ((steepOf d sw).entries.filter (stale d)).length)
      ∧ ((steepOf d sw).entries.filter (stale d) ≠ [] → rb (sweepPass sw d) Reg.SCHED_EVENT 3 = true)
      ∧ (steepOf (sweepPass sw d) sw).markers = (steepOf d sw).markers ∧ ∀ j ≠ sw, steepOf (sweepPass sw d) j = steepOf d j)) ∧
  (∀ (d : Dev) (e : Entry), stale d e = true ↔ e.persist = false ∧ max 2 (rf d Reg.SCHED_STALE_CTL 0 16) ≤ (d.frm.cur - e.key.extractLsb' 32 18).toNat
    ∧ (d.frm.cur - e.key.extractLsb' 32 18).toNat < 2 ^ 17) ∧
  (∀ (sw : Fin 8) (x : Sent) (l : List Sent) (s : State), (∀ y ∈ s.dev.arr.inputs, homeOf s.dev y.key ≠ sw.val) → s.dev.arr.sends = x :: l →
    x.cancel = true → homeOf s.dev x.key = sw.val → swarmRuns s.dev sw = true →
    let r := takeCancel false x.key (setSends l s.dev)
    r.1 = true → exec (.cancelArrive sw) s = nextDev s (settle s.clk (sweepPass sw (sentOff x r.2)))) ∧
  (∀ (input : Bool) (key : W64) (d : Dev),
    let s := homeOf d key
    let x := steepOf d s
    let r := takeCancel input key d
    (∀ e, x.entry? key = some e → runningOf d s key = [] → r.1 = true ∧ (steepOf r.2 s).entry? key = none ∧ (steepOf r.2 s).marked key = true
      ∧ r.2.arr.tombs = d.arr.tombs ++ (e.flow.map fun f => (f, key)).toList
      ∧ rf r.2 (Reg.SWARM_CANCEL_COUNT s) 0 16 = min 0xFFFF (rf d (Reg.SWARM_CANCEL_COUNT s) 0 16 + 1)) ∧
    (x.entry? key = none → x.marked key = false → (if input then 8192 else 7168) ≤ x.places → input = false → r = (false, d)) ∧
    (x.entry? key = none → x.marked key = false → x.places < (if input then 8192 else 7168) → runningOf d s key = [] →
      r.1 = true ∧ (steepOf r.2 s).marked key = true ∧ r.2.arr.tombs = d.arr.tombs ++ ((tmplFlow d (keyTmpl key)).map fun f => (f, key)).toList)) ∧
  (∀ (sw : Fin 8) (s : State), exec (.markerExpire sw) s = nextDev s (setSteep sw
    { steepOf s.dev sw with markers := (steepOf s.dev sw).markers.filter fun m => m.left != 0 } s.dev)) ∧
  (∀ (req : Req) (s : State), csrShut s.dev Reg.SCHED_TMPL_CMD = false →
    let t := fld (rd s.dev (ownOf req Reg.SCHED_TMPL_IDX)) 0 14
    (∃ u, exec (.schedTmplWrite req) s = .next u ∧ u.clk = s.clk ∧ u.dev = { s.dev with arr := { s.dev.arr with tmpl := u.dev.arr.tmpl } }
      ∧ tmplWord u.dev t 0 = 0 ∧ tmplWord u.dev t 1 = rd s.dev (ownOf req (Reg.SCHED_TMPL_DATA 1)) &&& 0xFFFFFFFC
      ∧ tmplWord u.dev t 2 = rd s.dev (ownOf req (Reg.SCHED_TMPL_DATA 2)) &&& 0x00FFFFFF
      ∧ tmplWord u.dev t 3 = rd s.dev (ownOf req (Reg.SCHED_TMPL_DATA 3)) &&& 0xFFFC0FFF
      ∧ ∀ t' w, t' ≠ t → w < 4 → tmplWord u.dev t' w = tmplWord s.dev t' w) ∧
    (∃ u, exec (.schedTmplRead req) s = .next u ∧ u.clk = s.clk
      ∧ (∀ w < 4, rd u.dev (ownOf req (Reg.SCHED_TMPL_DATA w)) = tmplWord s.dev t w)
      ∧ onlyThese ((List.range 4).map fun w => ownOf req (Reg.SCHED_TMPL_DATA w)) s.dev u.dev)) ∧
  (∀ (req : Req) (p : Fin 2) (slot : Fin 8) (s : State), csrShut s.dev (Reg.SCHED_LEAF_PUSH p) = false → pushClosed s.dev p = false →
    let key := rd s.dev (ownOf req (Reg.SCHED_LEAF_KEY_HI p)) ++ rd s.dev (ownOf req (Reg.SCHED_LEAF_KEY_LO p))
    let value := rd s.dev (ownOf req (Reg.SCHED_LEAF_VAL_HI p)) ++ rd s.dev (ownOf req (Reg.SCHED_LEAF_VAL_LO p))
    let x (slot : Nat) (cancel : Bool) : Push := { key, slot, value, cancel, tick := s.clk.ticks }
    ((hostPort s.dev p).length < (if p = 0 then 4096 else 64) →
      (∃ t, exec (.schedLeafPushLeaf req p slot) s = .next t ∧ t.clk = s.clk ∧ hostPort t.dev p = hostPort s.dev p ++ [x slot false]
        ∧ hostPort t.dev (1 - p.val) = hostPort s.dev (1 - p.val) ∧ t.dev.mem = s.dev.mem
        ∧ (s.dev.pair.mode ≠ .active → t.dev = setHostPort p (hostPort t.dev p) s.dev)) ∧
      (∃ t, exec (.schedLeafPushCancel req p) s = .next t ∧ t.clk = s.clk ∧ hostPort t.dev p = hostPort s.dev p ++ [x 0 true]
        ∧ hostPort t.dev (1 - p.val) = hostPort s.dev (1 - p.val) ∧ t.dev.mem = s.dev.mem
        ∧ (s.dev.pair.mode ≠ .active → t.dev = setHostPort p (hostPort t.dev p) s.dev))) ∧
    ((if p = 0 then 4096 else 64) ≤ (hostPort s.dev p).length → ∀ c ∈ [Instr.schedLeafPushLeaf req p slot, .schedLeafPushCancel req p],
      ∃ t, exec c s = .next t ∧ t.clk = s.clk ∧ rb t.dev Reg.SCHED_EVENT 4 = true
        ∧ rd t.dev (Reg.SCHED_LEAF_OVF p) = w32 (min (2 ^ 32 - 1) ((rd s.dev (Reg.SCHED_LEAF_OVF p)).toNat + 1))
        ∧ onlyThese [Reg.SCHED_EVENT, Reg.SCHED_LEAF_OVF p] s.dev t.dev)) ∧
  (∀ (x : Push) (l : List Push) (s : State), s.dev.arr.immediate = x :: l → x.cancel = false → swarmRuns s.dev (homeOf s.dev x.key) = true →
    s.dev.arr.frameLeaves = [] → (∀ y ∈ s.dev.arr.sends, y.cancel = true ∨ homeOf s.dev y.key ≠ homeOf s.dev x.key) →
    (∀ j < 4, delayList s.dev (4 * homeOf s.dev x.key + j) = []) →
    let h := homeOf s.dev x.key
    let d := onArr (fun a => { a with immediate := l }) s.dev
    let r := if leafBad s.dev x.key x.slot then (true, discardBad x.key d) else takeLeaf false x.key x.slot x.value d
    (inputWaits s.dev h = true → exec .hostPortRelease s = nextDev s (settle s.clk s.dev)) ∧
    (inputWaits s.dev h = false →
      exec .hostPortRelease s = nextDev s (settle s.clk (if r.1 then setSteep h { steepOf r.2 h with turn := 0 } r.2 else s.dev)))) ∧
  (∀ (x : Push) (l : List Push) (s : State), s.dev.arr.immediate = x :: l → x.cancel = true → swarmRuns s.dev (homeOf s.dev x.key) = true →
    let r := takeCancel false x.key (onArr (fun a => { a with immediate := l }) s.dev)
    exec .hostPortRelease s = nextDev s (settle s.clk (if r.1 then sweepPass (homeOf s.dev x.key) r.2 else s.dev))) ∧
  (∀ (req : Req) (v : W32) (s : State), csrShut s.dev Reg.SCHED_ROUTE_SET = false →
    (rb s.dev Reg.SCHED_CTL 0 = false ∧ schedIdle s.dev = true →
      exec (.schedRouteSetWrite req v) s
        = nextDev s (noteSeal Reg.SCHED_ROUTE_SET s.dev (wr Reg.SCHED_ROUTE_SET (v &&& 0xFF) s.dev))) ∧
    (rb s.dev Reg.SCHED_CTL 0 = true ∨ schedIdle s.dev = false →
      ∃ t, exec (.schedRouteSetWrite req v) s = .next t ∧ t.clk = s.clk ∧ rb t.dev Reg.SCHED_EVENT 5 = true
        ∧ onlyThese [Reg.SCHED_EVENT] (noted t.dev s.dev) t.dev))

/-- What `settle` leaves alone: everything but counters (R97, R128, R156, R386). -/
def Obligations.MetersTouchCountersOnly : Prop :=
  ∀ (k : Clk) (d : Dev),
    settle k d = { d with regs := (settle k d).regs, arr := { d.arr with meters := (settle k d).arr.meters } } ∧
    ∀ a, a ≠ Reg.SCHED_POUR_STALL →
      (∀ s < 8, a ≠ Reg.SWARM_EMIT_STALL s ∧ a ≠ Reg.SWARM_INF_STALL s ∧ a ≠ Reg.SWARM_INF_BUSY_LO s ∧ a ≠ Reg.SWARM_INF_BUSY_HI s) →
      (∀ i < 32, a ≠ Reg.PMON_CNT_LO i ∧ a ≠ Reg.PMON_CNT_HI i) → rd (settle k d) a = rd d a

/-- R119 to R124, R126 and R129 for the flow commands but FLOW_EXPIRY. A SKIP first releases what is closed; one of a FRAMED flow whose F is not
yet determined misses, which is the model's choice (log entry 97), and where a closure counts as a stray rests on log entry 35 (DEDUCED). -/
def Obligations.FlowCommands : Prop :=
  (∀ (x : Flow) (f : BitVec 18) (i : W32),
    (x.enabled = true → x.stream = true →
      x.place f i = if 2 ^ 31 ≤ (i - x.next).toNat then .behind else .pos (i - x.next).toNat) ∧
    (∀ F, x.enabled = true → x.stream = false → x.frame = some F →
      let pos : Int := (f - F).toNat * x.len.toNat + i.toNat - x.next.toNat
      x.place f i = if 2 ^ 17 ≤ (f - F).toNat ∨ x.len ≤ i ∨ pos < 0 then .behind else .pos pos.toNat) ∧
    (x.enabled = false → x.place f i = .disabled)) ∧
  (∀ (s : State) (f : Nat) (key : W64) (l : List (Nat × W64)), s.dev.arr.tombs = (f, key) :: l →
    let d := onArr (fun a => { a with tombs := l }) s.dev
    let p := (flow s.dev f).place (key.extractLsb' 32 18) (key.setWidth 32)
    (∀ n, p = .pos n → n < 4096 → (flow s.dev f).isClosed n = false →
      exec .flowTombstone s = nextDev s (setFlow f { flow s.dev f with
        closed := (flow s.dev f).closed ++ [{ frame := key.extractLsb' 32 18, inst := key.setWidth 32, recs := none }] } d)) ∧
    (p = .behind ∨ p = .disabled ∨ (∃ n < 4096, p = .pos n ∧ (flow s.dev f).isClosed n = true) →
      ∃ t, exec .flowTombstone s = .next t ∧ t.clk = s.clk ∧ rb t.dev Reg.SCHED_REL_EVENT 0 = true
        ∧ rf t.dev (Reg.SCHED_FLOW_COUNTS f) 16 16 = min 0xFFFF (rf s.dev (Reg.SCHED_FLOW_COUNTS f) 16 16 + 1)
        ∧ onlyThese [Reg.SCHED_REL_EVENT, Reg.SCHED_FLOW_COUNTS f] d t.dev) ∧
    (∀ n, p = .pos n → 4096 ≤ n → ∃ t, exec .flowTombstone s = .next t ∧ t.clk = s.clk ∧ rb t.dev Reg.SCHED_REL_EVENT 2 = true
      ∧ onlyThese [Reg.SCHED_REL_EVENT] d t.dev)) ∧
  (∀ (f : Fin 4096) (s : State) (c : Closure) (l1 l2 : List Closure), (flow s.dev f).closed = l1 ++ c :: l2 → c ∉ l1 → c ∉ l2 →
    (flow s.dev f).place c.frame c.inst = .pos 0 → (∀ y ∈ l1, (flow s.dev f).place y.frame y.inst ≠ .pos 0) →
    ∃ t, exec (.flowRelease f) s = .next t ∧ t.clk = s.clk ∧ sameMemory s.dev t.dev
      ∧ (flow t.dev f).out = (flow s.dev f).out ++ c.recs.getD [] ∧ (flow t.dev f).closed = l1 ++ l2
      ∧ ((flow s.dev f).stream = true → (flow t.dev f).next = (flow s.dev f).next + 1) ∧ (flow t.dev f).enabled = (flow s.dev f).enabled
      ∧ ((flow s.dev f).stream = false → (flow s.dev f).next + 1 ≠ (flow s.dev f).len →
          (flow t.dev f).next = (flow s.dev f).next + 1 ∧ (flow t.dev f).frame = (flow s.dev f).frame)
      ∧ ((flow s.dev f).stream = false → (flow s.dev f).next + 1 = (flow s.dev f).len →
          (flow t.dev f).next = 0 ∧ (flow t.dev f).frame = (flow s.dev f).frame.map (· + 1))
      ∧ ∀ g, g ≠ f.val → flow t.dev g = flow s.dev g) ∧
  (∀ (f : Fin 4096) (s : State) (r : Rec) (l : List Rec) (d : Dev), (flow s.dev f).out = r :: l → handOn r s.clk s.dev = some d →
    exec (.recordHandOn (some f)) s = nextDev s (settle s.clk (setFlow f { flow d f with out := l } d))) ∧
  (∀ (x : SlotId) (b : Brew) (r : Rec) (s : State) (f n : Nat), brewAt s.dev (slotNum x) = some b → b.wait = .pour r → b.cancelled = false →
    b.flow = some f → keyPlace s.dev f b.key = .pos n →
    (n < 1024 → pourFits s.dev (n == 0) r = true → ∃ t, exec (.pourResume x) s = .next t ∧ t.clk = s.clk
      ∧ brewAt t.dev (slotNum x) = some { b with recs := b.recs ++ [r], wait := .none, pc := b.pc + 4 }
      ∧ ∀ j ≠ slotNum x, brewAt t.dev j = brewAt s.dev j) ∧
    (1024 ≤ n ∨ pourFits s.dev (n == 0) r = false → exec (.pourResume x) s = nextDev s (settle s.clk s.dev))) ∧
  (∀ (req : Req) (f : Fin 4096) (v : W32) (s : State), csrShut s.dev (Reg.SCHED_FLOW_CFG f) = false →
    (bit v 31 = true → rb s.dev (Reg.SCHED_FLOW_CFG f) 31 = false → ∃ t, exec (.flowEnable req f v) s = .next t ∧ t.clk = s.clk
      ∧ sameMemory s.dev t.dev ∧ (flow t.dev f).closed = [] ∧ (flow t.dev f).out = (flow s.dev f).out
      ∧ (flow t.dev f).stream = bit v 30 ∧ (flow t.dev f).expire = fld v 0 8 ∧ (flow t.dev f).len = rd s.dev (Reg.SCHED_FLOW_LEN f)
      ∧ (bit v 30 = true → (flow t.dev f).enabled = true ∧ (flow t.dev f).next = rd s.dev (Reg.SCHED_FLOW_LEN f)
          ∧ rb t.dev (Reg.SCHED_FLOW_CFG f) 31 = true)
      ∧ (bit v 30 = false → rd s.dev (Reg.SCHED_FLOW_LEN f) ≠ 0 → (flow t.dev f).enabled = true ∧ (flow t.dev f).next = 0
          ∧ (flow t.dev f).frame = if s.dev.frm.leavesIssued then some s.dev.frm.cur else none)
      ∧ (bit v 30 = false → rd s.dev (Reg.SCHED_FLOW_LEN f) = 0 → (flow t.dev f).enabled = false
          ∧ rb t.dev (Reg.SCHED_FLOW_CFG f) 31 = false ∧ rb t.dev Reg.SCHED_REL_EVENT 5 = true)
      ∧ ∀ g, g ≠ f.val → flow t.dev g = flow s.dev g) ∧
    (bit v 31 = false → rb s.dev (Reg.SCHED_FLOW_CFG f) 31 = true → ∃ t, exec (.flowDisable req f v) s = .next t ∧ t.clk = s.clk
      ∧ sameMemory s.dev t.dev ∧ (flow t.dev f).enabled = false ∧ (flow t.dev f).closed = [] ∧ (flow t.dev f).out = (flow s.dev f).out
      ∧ rb t.dev (Reg.SCHED_FLOW_CFG f) 31 = false ∧ t.dev.arr.tombs = s.dev.arr.tombs
      ∧ ∀ g, g ≠ f.val → flow t.dev g = flow s.dev g)) ∧
  (∀ (req : Req) (f : Fin 4096) (s : State), csrShut s.dev Reg.SCHED_FLOW_CMD = false →
    (let d := releaseAll f s.dev
     let x := flow d f
     let open0 := x.enabled = true ∧ (x.stream = true ∨ x.frame.isSome = true) ∧ x.next = rd s.dev Reg.SCHED_FLOW_ARG
     ((∀ c ∈ (flow s.dev f).closed, (flow s.dev f).place c.frame c.inst ≠ .pos 0) → d = s.dev) ∧
     (open0 → exec (.flowSkip req f) s = nextDev s (settle s.clk (setFlow f { x with
        closed := x.closed ++ [{ frame := x.frame.getD 0, inst := x.next, recs := none }] } d))
        ∧ x.place (x.frame.getD 0) x.next = (if x.stream = true ∨ x.next < x.len then .pos 0 else .behind)) ∧
     (¬ open0 → exec (.flowSkip req f) s = nextDev s (settle s.clk (raiseRel 4 d)))) ∧
    ((rd s.dev (Reg.SCHED_FLOW_LEN f)) ≠ 0 → ∃ t, exec (.flowReset req f) s = .next t ∧ t.clk = s.clk
      ∧ (flow t.dev f).enabled = (flow s.dev f).enabled ∧ t.dev.arr.tombs = s.dev.arr.tombs ∧ (flow t.dev f).closed = []
      ∧ (flow t.dev f).out = (flow s.dev f).out ∧ (∀ i b, brewAt t.dev i = some b → b.flow = some f.val → b.recs = [])
      ∧ (flow t.dev f).len = rd s.dev (Reg.SCHED_FLOW_LEN f)
      ∧ (flow t.dev f).next = (if rb s.dev (Reg.SCHED_FLOW_CFG f) 30 then rd s.dev (Reg.SCHED_FLOW_LEN f) else 0)
      ∧ ∀ g, g ≠ f.val → flow t.dev g = flow s.dev g) ∧
    (rd s.dev (Reg.SCHED_FLOW_LEN f) = 0 → rb s.dev (Reg.SCHED_FLOW_CFG f) 30 = false →
      ∃ t, exec (.flowReset req f) s = .next t ∧ t.clk = s.clk ∧ (flow t.dev f).enabled = false ∧ rb t.dev (Reg.SCHED_FLOW_CFG f) 31 = false
        ∧ rb t.dev Reg.SCHED_REL_EVENT 5 = true ∧ t.dev.arr.tombs = s.dev.arr.tombs))

/-- R123 for FLOW_EXPIRY; R131 to R133 and R135 for DELAY_TICK, DELAY_DEFERRED_RELEASE and DELAY_FLUSH. When an expiry runs (log entry 35), and
the late window and the tick period in force (log entry 24), are DEDUCED: the model's reading. -/
def Obligations.ExpiryAndDelays : Prop :=
  (∀ (f : Fin 4096) (s : State), (∃ sw < 8, (steepOf s.dev sw).sweepDue = true) → exec (.flowExpiry f) s = nextDev s (settle s.clk s.dev)) ∧
  (∀ (f : Fin 4096) (s : State) (F : BitVec 18), (∀ sw < 8, (steepOf s.dev sw).sweepDue = false) → (∀ y ∈ s.dev.arr.tombs, y.1 ≠ f.val) →
    (flow s.dev f).enabled = true →
    (flow s.dev f).stream = false → (flow s.dev f).frame = some F →
    let age := (s.dev.frm.cur - F).toNat
    let n := max 1 (flow s.dev f).expire
    (age < n ∨ 2 ^ 17 ≤ age → exec (.flowExpiry f) s = nextDev s (settle s.clk s.dev)) ∧
    (n ≤ age → age < 2 ^ 17 → ∃ t, exec (.flowExpiry f) s = .next t ∧ t.clk = s.clk ∧ sameMemory s.dev t.dev
      ∧ (flow t.dev f).frame = some (s.dev.frm.cur - BitVec.ofNat 18 n + 1) ∧ (flow t.dev f).next = 0
      ∧ (flow t.dev f).closed = (flow s.dev f).closed.filter (fun c => decide (age - n + 1 ≤ (c.frame - F).toNat))
      ∧ rb t.dev Reg.SCHED_REL_EVENT 1 = true ∧ (∃ l, (flow t.dev f).out = (flow s.dev f).out ++ l
        ∧ ∀ r, r ∈ l ↔ ∃ c ∈ (flow s.dev f).closed, (c.frame - F).toNat < age - n + 1 ∧ r ∈ c.recs.getD [])
      ∧ ∀ g, g ≠ f.val → flow t.dev g = flow s.dev g)) ∧
  (∀ s : State, due s.clk (tickInstant s.clk s.dev) = true →
    let t := shortOf (tickInstant s.clk s.dev)
    let p := w64 (tickStep (tickInstant s.clk s.dev) s.dev)
    let isDue (e : DelayEntry) : Bool := !e.ready && !later e.due t
    let isLate (e : DelayEntry) : Bool := e.wasLate || later (t - p) e.due
    let fires (e : DelayEntry) : Bool := e.policy == 0 || e.policy == 3 || (e.policy == 2 && decide ((t - e.due).toNat ≤ lateWindow s.dev))
    let count (p : DelayEntry → Bool) (sw : Nat) : Nat := ((List.range 4).map fun j => ((delayList s.dev (4 * sw + j)).filter p).length).sum
    let fired := count fun e => isDue e && isLate e && fires e
    let dropped := count fun e => isDue e && isLate e && !fires e
    ∃ u, exec .delayTick s = .next u ∧ u.clk = s.clk ∧ u.dev = { s.dev with arr := { s.dev.arr with delays := u.dev.arr.delays }
                                                                            regs := u.dev.regs, msix := u.dev.msix }
      ∧ (∀ sw < 8, rf u.dev (Reg.SWARM_DLY_LATE sw) 0 16 = min 0xFFFF (rf s.dev (Reg.SWARM_DLY_LATE sw) 0 16 + fired sw)
          ∧ rf u.dev (Reg.SWARM_DLY_DROP sw) 0 16 = min 0xFFFF (rf s.dev (Reg.SWARM_DLY_DROP sw) 0 16 + dropped sw)
          ∧ (0 < fired sw → rb u.dev Reg.SCHED_REL_EVENT 7 = true) ∧ (0 < dropped sw → rb u.dev Reg.SCHED_REL_EVENT 8 = true))
      ∧ ((∀ sw < 8, fired sw = 0) → rb u.dev Reg.SCHED_REL_EVENT 7 = rb s.dev Reg.SCHED_REL_EVENT 7)
      ∧ ((∀ sw < 8, dropped sw = 0) → rb u.dev Reg.SCHED_REL_EVENT 8 = rb s.dev Reg.SCHED_REL_EVENT 8)
      ∧ ∀ sw < 8, ∀ j < 4, delayList u.dev (4 * sw + j)
        = ((delayList s.dev (4 * sw + j)).filter fun e => !(isDue e && isLate e && !fires e)).map fun e => { e with ready := e.ready || isDue e }) ∧
  (∀ s : State, due s.clk (tickInstant s.clk s.dev) = false → exec .delayTick s = .next s) ∧
  (∀ (d : Dev) (x : Time), d.arr.tickOld = none ∨ (∃ p t, d.arr.tickOld = some (p, t) ∧ t ≤ x) →
    tickStep x d = min 1000000 (max 100 (rd d Reg.SCHED_TICK_PERIOD).toNat)) ∧
  (∀ (sw : Fin 8) (s : State) (j n : Nat) (e : DelayEntry), swarmRuns s.dev sw = true → readyDelay s.dev sw = some (j, n, e) → e.deferred = true →
    leafBad s.dev e.key e.slot = false → inputWaits s.dev sw = false → s.dev.arr.frameLeaves = [] → s.dev.arr.immediate = [] →
    (∀ y ∈ s.dev.arr.sends, y.cancel = true ∨ homeOf s.dev y.key ≠ sw.val) →
    let r := takeLeaf false e.key e.slot e.value (setDelayList (4 * sw.val + j) ((delayList s.dev (4 * sw.val + j)).eraseIdx n) s.dev)
    exec (.delayDeferredRelease sw) s = nextDev s (if r.1 then setSteep sw { steepOf r.2 sw with turn := 2 } r.2 else s.dev)) ∧
  (∀ (sw : Fin 8) (s : State), inputWaits s.dev sw = true → exec (.delayDeferredRelease sw) s = .next s) ∧
  (∀ (req : Req) (sw : Fin 8) (lists : BitVec 4) (s : State), csrShut s.dev (Reg.SWARM_DLY_CMD sw) = false →
    ∃ t, exec (.delayFlush req sw lists) s = .next t ∧ t.clk = s.clk ∧ t.dev = { s.dev with arr := { s.dev.arr with delays := t.dev.arr.delays } }
      ∧ (∀ j : Fin 4, delayList t.dev (4 * sw.val + j.val) = if lists.getLsbD j then [] else delayList s.dev (4 * sw.val + j.val))
      ∧ ∀ m, m / 4 ≠ sw.val → delayList t.dev m = delayList s.dev m)

/-- R138, R141, R142, R154 and R156 for the SAMPLE family, INFUSER_QUEUE_ACCEPT and INFUSER_RESULT. Which faults are taken at issue and which at the
result is DEDUCED (log entry 37: the model's reading); which stalled slot takes a freed place, and which address MEM_ECC reports, are the model's
choices (log entry 97). -/
def Obligations.InfuserCommands : Prop :=
  (∀ (i : SlotId) (i' : Nat) (b : Brew) (s : State) (pre : Option W32) (w : W32) (e : Dev) (op : Op) (c : Instr),
    (op, c) ∈ [(Op.sample2, Instr.sample2 i), (.sample3, .sample3 i), (.matrix, .matrix i), (.lut3, .lut3 i), (.curve, .curve i),
      (.dither, .dither i)] →
    Issues op (.slot i) (.slot i' b) pre w s e →
    let x : Infusion := { slotId := i', pre, word := w }
    let q := infuserQueue e (slotSwarm i')
    (sampleLegal pre w = false → exec c s = nextDev s (takeFault (.slot i' b) 0x01 0 0xFF s.clk e)) ∧
    (sampleLegal pre w = true → q.length < 64 → exec c s = nextDev s (settle s.clk (setInfuserQueue (slotSwarm i') (q ++ [x])
      (setBrew i' (some { b with wait := .infuser }) e)))) ∧
    (sampleLegal pre w = true → 64 ≤ q.length → exec c s = nextDev s (settle s.clk (onArr (fun a =>
      { a with infuserStalled := a.infuserStalled ++ [x] }) (setBrew i' (some { b with wait := .infuserPlace }) e))))) ∧
  (∀ (sw : Fin 8) (s : State) (x : Infusion) (l1 l2 : List Infusion) (b : Brew), (infuserQueue s.dev sw).length < 64 →
    s.dev.arr.infuserStalled = l1 ++ x :: l2 → (∀ y ∈ l1, slotSwarm y.slotId ≠ sw.val ∧ y ≠ x) → x ∉ l2 → slotSwarm x.slotId = sw.val →
    brewAt s.dev x.slotId = some b →
    ∃ t, exec (.infuserQueueAccept sw) s = .next t ∧ t.clk = s.clk ∧ t.dev.mem = s.dev.mem
      ∧ infuserQueue t.dev sw = infuserQueue s.dev sw ++ [x] ∧ t.dev.arr.infuserStalled = l1 ++ l2
      ∧ brewAt t.dev x.slotId = some { b with wait := .infuser } ∧ ∀ j ≠ x.slotId, brewAt t.dev j = brewAt s.dev j) ∧
  (∀ (sw : Fin 8) (s : State) (x : Infusion) (l : List Infusion) (b : Brew), infuserQueue s.dev sw = x :: l → brewAt s.dev x.slotId = some b →
    let d := setInfuserQueue sw l s.dev
    let y := infuse d b sw x
    (∀ code addr, y.fault = some (code, addr) →
      exec (.infuserResult sw) s = nextDev s (settle s.clk (killBrew x.slotId code addr 0xFF d))) ∧
    (∀ p, y.fault = none → (readSpans y.spans d).1 = some p →
      exec (.infuserResult sw) s = nextDev s (settle s.clk (killBrew x.slotId 0x05 (infuserAddr sw p) 0xFF (readSpans y.spans d).2))) ∧
    (y.fault = none → (readSpans y.spans d).1 = none → ∃ t, exec (.infuserResult sw) s = .next t ∧ t.clk = s.clk ∧ sameMemory s.dev t.dev
      ∧ infuserQueue t.dev sw = l ∧ (∀ j ≠ x.slotId, brewAt t.dev j = brewAt s.dev j)
      ∧ brewAt t.dev x.slotId = some { b with v := y.v, fl := b.fl ||| y.fl, wait := .none, pc := b.pc + instrLen x.pre }
      ∧ rd64 t.dev (Reg.SWARM_INF_SAMPLES_LO sw) = w64 (min (2 ^ 64 - 1) ((rd64 s.dev (Reg.SWARM_INF_SAMPLES_LO sw)).toNat + y.count)))) ∧
  (∀ (d : Dev) (b : Brew) (s : Nat) (x : Infusion),
    let a := (b.gReg (bOf x.word)).toNat
    (opOf x.word = 0x30 ∨ opOf x.word = 0x31 → descValid (surfDesc d (fld (x.pre.getD 0) 12 10)) = false →
      (infuse d b s x).fault = some (0x20, w64 (fld (x.pre.getD 0) 12 10))) ∧
    (∀ n, (opOf x.word = 0x32 ∧ funcOf x.word < 8 ∧ n = 64) ∨ (opOf x.word = 0x32 ∧ funcOf x.word = 0x10 ∧ n = 287496)
        ∨ (opOf x.word = 0x33 ∧ funcOf x.word = 0 ∧ n = 8192) →
      (infuse d b s x).fault = if a % 64 = 0 ∧ 0x1000000 ≤ a ∧ a + n ≤ 0x1400000 then none else some (0x21, w64 a)))

/-- The arithmetic of R146, R147, R149, R150 and R152. -/
def Obligations.InfuserArithmetic : Prop :=
  (∀ (i : Int) (n : Nat), 0 < n →
    (edgeIdx 0 i n = some (max 0 (min i (n - 1))).toNat) ∧ (edgeIdx 1 i n = if 0 ≤ i ∧ i < n then some i.toNat else none) ∧
    (∃ j, edgeIdx 2 i n = some j ∧ j < n ∧ (j : Int) % n = i % n) ∧
    (∃ j, edgeIdx 3 i n = some j ∧ j < n ∧ ((j : Int) % (2 * n) = i % (2 * n) ∨ (-1 - j : Int) % (2 * n) = i % (2 * n)))) ∧
  (∀ (mode : Nat) (u : Int) (n : Nat), ((axisTaps false mode u n).map (·.2)).sum = 4096 ∧ ((axisTaps true mode u n).map (·.2)).sum = 4096) ∧
  (∀ (d : Dev) (s : List W32) (nearest : Bool) (mode : Nat) (u v : Int) (c m : Nat), (∀ x y z, texel d s c x y z ≤ m) →
    sample2 d s nearest mode u v c ≤ m ∧ ∀ z, sample3 d s nearest mode u v z c ≤ m) ∧
  (∀ (d : Dev) (s : List W32) (mode x y c : Nat), fmtYcc (descFormat s) = false → x < descWidth s → y < descHeight s →
    sample2 d s false mode (x * 65536 + 0x8000) (y * 65536 + 0x8000) c = texel d s c x y 0) ∧
  (∀ (c0 c1 c2 ofs : Int) (i0 i1 i2 : Nat),
    let sum := c0 * i0 + c1 * i1 + c2 * i2 + ofs * 2 ^ 16
    let r := matrixRow c0 c1 c2 ofs i0 i1 i2
    (sum + 2048 < 0 → r = (0, true)) ∧ (0x10000 * 4096 ≤ sum + 2048 → r = (0xFFFF, true)) ∧
    (0 ≤ sum + 2048 → sum + 2048 < 0x10000 * 4096 → r.2 = false ∧ (r.1 : Int) * 4096 ≤ sum + 2048 ∧ sum + 2048 < (r.1 + 1 : Int) * 4096)) ∧
  (∀ (e : Nat → Nat) (a : Nat), a < 2 ^ 16 → curve e 0 = e 0 ∧ curve e 0xFFFF = e 4095
    ∧ ∃ i < 4095, min (e i) (e (i + 1)) ≤ curve e a ∧ curve e a ≤ max (e i) (e (i + 1)))

/-- R153. -/
def Obligations.DitherRule : Prop :=
  (∀ (sw : Fin 8) (s : State) (x : Infusion) (l : List Infusion) (b : Brew), infuserQueue s.dev sw = x :: l → brewAt s.dev x.slotId = some b →
    opOf x.word = 0x33 → funcOf x.word ≠ 0 →
    ∃ t v, exec (.infuserResult sw) s = .next t ∧ t.clk = s.clk ∧ sameMemory s.dev t.dev
      ∧ brewAt t.dev x.slotId = some { b with v, wait := .none, pc := b.pc + instrLen x.pre }
      ∧ (∀ n ≠ dOf x.word, Tab.get 0 v n = b.vReg n)
      ∧ ∀ i < 32, (elems 16 (Tab.get 0 v (dOf x.word))).getD i 0
        = if bit (b.pReg (pOf x.word)) i then
            (let a := (elems 16 (b.vReg (aOf x.word))).getD i 0
             ((a + a / 2 ^ 15) * 255 + (BitVec.ofNat 16 ((b.gReg (bOf x.word)).toNat + i * 0x9E37)).reverse.toNat) / 2 ^ 16)
          else (elems 16 (b.vReg (dOf x.word))).getD i 0) ∧
  (∀ (i a : Nat), a < 2 ^ 16 → ((List.range 65536).map fun q => dither q i a).sum = (a + a / 2 ^ 15) * 255) ∧
  (∀ q i a : Nat, dither q i 0 = 0 ∧ dither q i 0xFFFF = 255 ∧ (a < 2 ^ 16 → dither q i a ≤ 255))

/-- R159, R160, R162, R163, R166, R167 and R185 for KETTLE_SCRUB, the Kettle window and KET_SURF_CMD. The tally by row and the rest between scrub
passes are the model's choice (log entry 94), and so is what a WRITE with V at 0 leaves of reserved bits (log entry 98). -/
def Obligations.KettleCommands : Prop :=
  (∀ s : State, rb s.dev Reg.KET_CTL 0 = false ∨ scrubRests s.clk s.dev = true → exec .kettleScrub s = .next s) ∧
  (∀ s : State, rb s.dev Reg.KET_CTL 0 = true → scrubRests s.clk s.dev = false → s.dev.ket.scrub < ketSize / 8 →
    let w := ketBase / 8 + s.dev.ket.scrub
    let moved := scrubMove s.clk s.dev
    let d := { s.dev with ket := moved }
    let row := ketRow (s.dev.ket.scrub * 8)
    moved.scrub = (s.dev.ket.scrub + 1) % (ketSize / 8) ∧
    (errOf s.dev w = .none → exec .kettleScrub s = nextDev s d) ∧
    (errOf s.dev w = .single → ∃ t, exec .kettleScrub s = .next t ∧ t.clk = s.clk ∧ sameMemory s.dev t.dev ∧ errOf t.dev w = .none
      ∧ (∀ x ≠ w, errOf t.dev x = errOf s.dev x) ∧ rb t.dev Reg.KET_EVENT 0 = true
      ∧ t.dev.ket = { moved with tally := t.dev.ket.tally } ∧ Tab.get 0 t.dev.ket.tally row = Tab.get 0 s.dev.ket.tally row + 1
      ∧ (∀ r ≠ row, Tab.get 0 t.dev.ket.tally r = Tab.get 0 s.dev.ket.tally r)
      ∧ rd t.dev Reg.KET_CE_COUNT = w32 (min (2 ^ 32 - 1) ((rd s.dev Reg.KET_CE_COUNT).toNat + 1))) ∧
    (errOf s.dev w = .multi → ∃ t, exec .kettleScrub s = .next t ∧ t.clk = s.clk ∧ t.dev.ecc = s.dev.ecc ∧ rb t.dev Reg.KET_EVENT 1 = true
      ∧ rd t.dev Reg.KET_UE_COUNT = w32 (min (2 ^ 32 - 1) ((rd s.dev Reg.KET_UE_COUNT).toNat + 1))
      ∧ rd t.dev Reg.KET_UE_ADDR = (if rb s.dev Reg.KET_EVENT 1 then rd s.dev Reg.KET_UE_ADDR else w32 (s.dev.ket.scrub * 8))
      ∧ onlyThese [Reg.KET_EVENT, Reg.KET_UE_COUNT, Reg.KET_UE_ADDR] d t.dev)) ∧
  (∀ (off : BitVec 29) (len : Nat) (s : State),
    let n := min len (ketSize - off.toNat)
    let a := ketBase + off.toNat
    ∃ t, exec (.kettleWindowRead off len) s = .next t ∧ t.clk = s.clk ∧ sameMemory s.dev t.dev ∧ t.dev.ket = s.dev.ket
      ∧ t.dev.bus = { s.dev.bus with win := if s.dev.ket.initDone then getBytes s.dev a n else List.replicate n 0
                                     poisoned := s.dev.ket.initDone && uncorrectable s.dev a n }
      ∧ (s.dev.ket.initDone = false ∨ (∀ w ∈ wordsOf a n, errOf s.dev w = .none) → t.dev = { s.dev with bus := t.dev.bus })) ∧
  (∀ (off : BitVec 29) (data : List W8) (s : State), s.dev.ket.initDone = false → exec (.kettleWindowWrite off data) s = .next s) ∧
  (∀ (off : BitVec 29) (data : List W8) (s : State), s.dev.ket.initDone = true → off.toNat + data.length ≤ ketSize →
    let a := ketBase + off.toNat
    let n := data.length
    let whole (w : Nat) : Prop := a ≤ w * 8 ∧ w * 8 + 8 ≤ a + n
    ∃ t, exec (.kettleWindowWrite off data) s = .next t ∧ t.clk = s.clk ∧ t.dev.ket = s.dev.ket ∧ getBytes t.dev a n = data
      ∧ sameOutside a n s.dev t.dev ∧ (∀ w ∉ wordsOf a n, errOf t.dev w = errOf s.dev w)
      ∧ (∀ w ∈ wordsOf a n, (whole w → errOf t.dev w = .none)
          ∧ (¬ whole w → errOf s.dev w = .multi → errOf t.dev w = .multi ∧ rb t.dev Reg.KET_EVENT 2 = true))
      ∧ ∀ h : Fin 4, let x := head s.dev h
          let tears := scanning x && !splitOdd s.dev h && x.active.elim false fun v => v.layers.any fun l => layerHit l off.toNat n
          rd t.dev (Reg.RHEAD_TEAR_COUNT h) = (if tears then w32 (min (2 ^ 32 - 1) ((rd s.dev (Reg.RHEAD_TEAR_COUNT h)).toNat + 1))
            else rd s.dev (Reg.RHEAD_TEAR_COUNT h))
          ∧ (tears = true → rb t.dev (Reg.RHEAD_EVENT h) 6 = true
            ∧ (rb s.dev (Reg.RHEAD_EVENT h) 6 = false → x.line < 2 ^ 14 → rf t.dev (Reg.RHEAD_TEAR_INFO h) 0 14 = x.line))) ∧
  (∀ (req : Req) (s : State), csrShut s.dev Reg.KET_SURF_CMD = false →
    let ws := (List.range 8).map fun w => rd s.dev (ownOf req (Reg.KET_SURF_DATA w))
    let n := rf s.dev (ownOf req Reg.KET_SURF_IDX) 0 10
    (descReason ws = 0 → ∃ t, exec (.ketSurfWrite req) s = .next t ∧ t.clk = s.clk
      ∧ surfDesc t.dev n = ws.zipIdx.map (fun (x, w) => x &&& descMask w) ∧ (descValid ws = true → surfDesc t.dev n = ws)
      ∧ (∀ m ≠ n, surfDesc t.dev m = surfDesc s.dev m) ∧ rd t.dev Reg.KET_SURF_STATUS = 0
      ∧ t.dev = { wr Reg.KET_SURF_STATUS 0 s.dev with ket := { s.dev.ket with surf := t.dev.ket.surf } }) ∧
    (descReason ws ≠ 0 → ∃ t, exec (.ketSurfWrite req) s = .next t ∧ t.clk = s.clk
      ∧ rd t.dev Reg.KET_SURF_STATUS = w32 (descReason ws) ∧ rb t.dev Reg.KET_EVENT 3 = true
      ∧ onlyThese [Reg.KET_SURF_STATUS, Reg.KET_EVENT] s.dev t.dev) ∧
    (∃ t, exec (.ketSurfRead req) s = .next t ∧ t.clk = s.clk
      ∧ (∀ w < 8, rd t.dev (ownOf req (Reg.KET_SURF_DATA w)) = descWord (surfDesc s.dev n) w)
      ∧ onlyThese ((List.range 8).map fun w => ownOf req (Reg.KET_SURF_DATA w)) s.dev t.dev)) ∧
  (∀ ws : List W32, (descValid ws = false → descReason ws = 0) ∧ (descValid ws = true →
    (∀ r, 1 ≤ r → r ≤ 7 → (descReason ws = r ↔ descFails ws r = true ∧ ∀ q, 1 ≤ q → q < r → descFails ws q = false)) ∧
    (descReason ws = 0 → (∀ p < fmtPlanes (descFormat ws), ∀ r < descRows ws p, descRowAt ws p r + descRowBytes ws p ≤ ketSize)
      ∧ ∀ r q, r < q → q < descRows ws 0 → descRowAt ws 0 r + descRowBytes ws 0 ≤ descRowAt ws 0 q)))

/-- R158, R169 to R173, R182 and R187 for the timing commands of a raster head. That a rejected enable leaves EN at 1, and that TIMING_APPLY of a
stopped head captures, is DEDUCED (log entry 38: the model's reading); that V is the show time of the tick of VSYNC_START is its choice (log
entry 93). -/
def Obligations.RasterTiming : Prop :=
  let started (h : Nat) (locked : Option W64) (s t : State) : Prop :=
    let x := head s.dev h
    let y := head t.dev h
    t.clk = s.clk ∧ sameMemory s.dev t.dev ∧ y.locked = locked.isSome ∧ y.free = locked.isNone ∧ y.number = locked.getD x.number
      ∧ y.vsync = now s.clk ∧ y.wait = none ∧ y.latched = false ∧ y.next = none ∧ y.timing = (x.next <|> x.timing)
      ∧ (∀ u, y.timing = some u → y.line = u.vActive + u.vFp) ∧ y.active = x.active ∧ y.pending = x.pending ∧ y.running = x.running
      ∧ (x.fresh = true → rd64 t.dev (Reg.RHEAD_COMMIT_FRAME_LO h) = locked.getD x.number)
      ∧ (x.fresh = false → rd64 t.dev (Reg.RHEAD_COMMIT_FRAME_LO h) = rd64 s.dev (Reg.RHEAD_COMMIT_FRAME_LO h))
      ∧ (∀ g < 4, g ≠ h → g ≠ h + 1 → head t.dev g = head s.dev g)
      ∧ (locked = none → rb s.dev (Reg.RHEAD_CTL h) 1 = true → rb t.dev (Reg.RHEAD_EVENT h) 2 = true
          ∧ rd t.dev (Reg.RHEAD_FREE_COUNT h) = w32 (min (2 ^ 32 - 1) ((rd s.dev (Reg.RHEAD_FREE_COUNT h)).toNat + 1)))
      ∧ (locked ≠ none ∨ rb s.dev (Reg.RHEAD_CTL h) 1 = false → rd t.dev (Reg.RHEAD_FREE_COUNT h) = rd s.dev (Reg.RHEAD_FREE_COUNT h))
  let accepts (d : Dev) (h : Nat) : Prop :=
    let u := timingRegs d h
    timingOk (rateGrid d) u = true ∧ trazhOk d (rateGrid d) u u.trazh u.outCtl = true
      ∧ (u.split = true → trazhOk d (rateGrid d) u u.oddTrazh u.oddOut = true)
  (∀ (req : Req) (h : Fin 4) (v : W32) (s : State), csrShut s.dev (Reg.RHEAD_CTL h) = false → bit v 0 = true →
    let d := wr (Reg.RHEAD_CTL h) (v &&& if h.val % 2 = 0 then 7 else 3) s.dev
    (rb s.dev (Reg.RHEAD_CTL h) 0 = true ∨ splitOdd d h = true ∨ kettleOut s.dev = true ∨ unusable s.dev (0x7020 + h) = true →
      exec (.rheadEnable req h v) s = nextDev s (noteSeal (Reg.RHEAD_CTL h) s.dev d)) ∧
    (rb s.dev (Reg.RHEAD_CTL h) 0 = false → splitOdd d h = false → kettleOut s.dev = false → unusable s.dev (0x7020 + h) = false →
      (accepts d h → ∃ t, exec (.rheadEnable req h v) s = .next t ∧ t.clk = s.clk ∧ (head t.dev h).running = true
        ∧ (head t.dev h).timing = some (timingRegs d h) ∧ (head t.dev h).pending = none
        ∧ ((head s.dev h).pending = none → (head t.dev h).active = (head s.dev h).active)
        ∧ rd t.dev (Reg.RHEAD_CTL h) = rd d (Reg.RHEAD_CTL h)
        ∧ (let p := pixelRate (rateGrid d) (timingRegs d h); rd t.dev (Reg.RHEAD_PCLK h) = w32 (p.1 / p.2)
            ∧ ((timingRegs d h).split = true → rd t.dev (Reg.RHEAD_PCLK (h + 1)) = w32 (p.1 / p.2)))) ∧
      (¬ accepts d h → (head s.dev h).running = false → ∃ t, exec (.rheadEnable req h v) s = .next t ∧ t.clk = s.clk
        ∧ rb t.dev (Reg.RHEAD_EVENT h) 4 = true ∧ onlyThese [Reg.RHEAD_EVENT h] (noted t.dev d) t.dev))) ∧
  (∀ (req : Req) (h : Fin 4) (v : W32) (s : State), csrShut s.dev (Reg.RHEAD_CTL h) = false → bit v 0 = false →
    rb s.dev (Reg.RHEAD_CTL h) 0 = true → (head s.dev h).running = true →
    ∃ t, exec (.rheadDisable req h v) s = .next t ∧ t.clk = s.clk ∧ (head t.dev h).running = false ∧ rb t.dev (Reg.RHEAD_CTL h) 0 = false
      ∧ (head t.dev h).wait = none ∧ (head t.dev h).pending = (head s.dev h).pending ∧ (∀ l < 4, inForce (head t.dev h).active l = none)
      ∧ ∀ g < 4, g ≠ h.val → g ≠ h.val + 1 → head t.dev g = head s.dev g) ∧
  (∀ (req : Req) (h : Fin 4) (s : State), csrShut s.dev (Reg.RHEAD_CMD h) = true ∨ splitOdd s.dev h = true →
    exec (.timingApply req h) s = .next s) ∧
  (∀ (req : Req) (h : Fin 4) (s : State), csrShut s.dev (Reg.RHEAD_CMD h) = false → splitOdd s.dev h = false →
    (accepts s.dev h → exec (.timingApply req h) s = nextDev s
      (setHead h { head s.dev h with forced := false, next := some (timingRegs s.dev h) } s.dev)) ∧
    (¬ accepts s.dev h → ∃ t, exec (.timingApply req h) s = .next t ∧ t.clk = s.clk ∧ rb t.dev (Reg.RHEAD_EVENT h) 4 = true
      ∧ onlyThese [Reg.RHEAD_EVENT h] s.dev t.dev)) ∧
  (∀ (h : Fin 4) (s : State) (u : Timing), (head s.dev h).timing = some u → (head s.dev h).running = true → splitOdd s.dev h = false →
    (head s.dev h).line = u.lastPorch →
    let x := head s.dev h
    (rb s.dev (Reg.RHEAD_CTL h) 1 = false ∨ x.forced = true → ∃ t, exec (.vsyncStart h) s = .next t ∧ started h none s t) ∧
    (rb s.dev (Reg.RHEAD_CTL h) 1 = true → x.forced = false → ∀ w, x.wait = some w →
      (w.v ≤ now s.clk → ∃ t, exec (.vsyncStart h) s = .next t ∧ started h (some w.frame) s t) ∧
      (now s.clk < w.v → exec (.vsyncStart h) s = .next s)) ∧
    (rb s.dev (Reg.RHEAD_CTL h) 1 = true → x.forced = false → x.wait = none →
      let cs := (candidates s.clk s.dev u.offset).filter fun c => !x.consumed.contains c.1
      let past := cs.filter fun c => decide (c.2 < now s.clk)
      let near (j : W64) (v : Time) : Prop :=
        cs.find? (fun c => decide (now s.clk ≤ c.2)) = some (j, v) ∧ v < now s.clk + (rateGrid s.dev).period
      ∃ t, exec (.vsyncStart h) s = .next t
        ∧ rd t.dev (Reg.RHEAD_SLIP_COUNT h) = (if past = [] then rd s.dev (Reg.RHEAD_SLIP_COUNT h)
            else w32 (min (2 ^ 32 - 1) ((rd s.dev (Reg.RHEAD_SLIP_COUNT h)).toNat + past.length)))
        ∧ (past ≠ [] → rb t.dev (Reg.RHEAD_EVENT h) 3 = true)
        ∧ (∀ j v, near j v → v = now s.clk → started h (some j) s t)
        ∧ (∀ j v, near j v → now s.clk < v → t.clk = s.clk ∧ (head t.dev h).line = x.line ∧ (head t.dev h).running = true
            ∧ (head t.dev h).wait = some { frame := j, v, tick := s.clk.ticks })
        ∧ ((∀ j v, ¬ near j v) → started h none s t))) ∧
  (∀ (h : Fin 4) (s : State), ((head s.dev h).wait = none → exec (.abandonedWait h) s = .next s) ∧
    ∀ w, (head s.dev h).wait = some w →
      let lasted := since s.clk w.tick * (rateGrid s.dev).num.toNat
      (w.v ≤ now s.clk ∨ lasted < (rateGrid s.dev).den.toNat * 1250000000 → exec (.abandonedWait h) s = .next s) ∧
      (now s.clk < w.v → (rateGrid s.dev).den.toNat * 1250000000 ≤ lasted →
        ∃ t, exec (.abandonedWait h) s = .next t ∧ started h none s t)) ∧
  (∀ (h : Fin 4) (s : State) (u : Timing), (head s.dev h).timing = some u → (head s.dev h).running = true → splitOdd s.dev h = false →
    let x := head s.dev h
    (x.line = u.lastPorch → exec (.lineStart h) s = .next s) ∧
    (x.line ≠ u.lastPorch → ∃ t, exec (.lineStart h) s = .next t ∧ t.clk = s.clk ∧ sameMemory s.dev t.dev
      ∧ (head t.dev h).line = (x.line + 1) % u.vTotal ∧ (head t.dev h).number = x.number ∧ (head t.dev h).active = x.active
      ∧ (head t.dev h).timing = some u ∧ (head t.dev h).latched = x.latched
      ∧ (let y := (x.line + 1) % u.vTotal; (head t.dev h).pixels
          = if y < u.vActive then linePixels t.dev x.lateBlocks (litSet t.dev h x.active) 0 u.outWidth (depthOf u.outCtl) y else [])
      ∧ ∀ g < 4, g ≠ h.val → g ≠ h.val + 1 → head t.dev g = head s.dev g)) ∧
  (∀ (h : Fin 4) (block : BitVec 23) (s : State) (v : ActiveSet),
    let g := governor s.dev h
    (head s.dev g).active = some v →
    let hit := scanning (head s.dev g) && v.layers.any fun l => layerHit l (block.toNat * 64) 64
    (hit = false → exec (.scanLate h block) s = .next s) ∧
    (hit = true → ∃ t, exec (.scanLate h block) s = .next t ∧ t.clk = s.clk ∧ sameMemory s.dev t.dev ∧ rb t.dev (Reg.RHEAD_EVENT h) 7 = true
      ∧ rd t.dev (Reg.RHEAD_SCAN_LATE_COUNT h) = w32 (min (2 ^ 32 - 1) ((rd s.dev (Reg.RHEAD_SCAN_LATE_COUNT h)).toNat + 1))
      ∧ (head t.dev h).lateBlocks = (head s.dev h).lateBlocks ++ [block.toNat])) ∧
  (∀ (d : Dev) (late : List Nat) (ws : List W32) (c x y : Nat), blockDark d late (texelSpan ws c x y 0).1 (texelSpan ws c x y 0).2 = true →
    scanTexel d late ws c x y = 0) ∧
  (∀ (d : Dev) (late : List Nat) (o n b : Nat), b ∈ ketBlocks o n →
    b ∈ late ∨ uncorrectable d (ketBase + b * 64) 64 = true → blockDark d late o n = true) ∧
  (∀ (h : Fin 4) (high trained : Bool) (s : State), ∃ t, exec (.hpd h high trained) s = nextDev s (setHead h t s.dev)
    ∧ t = { head s.dev h with hpd := high, trained := t.trained }
    ∧ (t.trained = true ↔ high = true ∧ trained = true ∧ s.dev.sys.tripped = false ∧ 0 < dpLanes s.dev h
        ∧ ∀ l < 4, looped s.dev (12 + 4 * h + l) = false))

/-- R168, R174 to R176, R178, R181, R182 and R184 for RHEAD_COMMIT and LATCH_INSTANT, and the arithmetic of the composition. -/
def Obligations.RasterCommit : Prop :=
  (∀ (req : Req) (h : Fin 4) (s : State), csrShut s.dev (Reg.RHEAD_COMMIT h) = false →
    let g := governor s.dev h
    ∃ (t : State) (p : LayerSet), exec (.rheadCommit req h) s = .next t ∧ t.clk = s.clk ∧ head t.dev g = { head s.dev g with pending := some p }
      ∧ p.layers.length = 4
      ∧ (∀ l < 4, p.layers[l]? = some
          (⟨rd s.dev (Reg.RHEAD_LAYER_CTL g l), rd s.dev (Reg.RHEAD_LAYER_SRC_POS g l), rd s.dev (Reg.RHEAD_LAYER_SRC_SIZE g l),
            rd s.dev (Reg.RHEAD_LAYER_DST_POS g l), if l = 0 then rd s.dev (Reg.RHEAD_LAYER_DST_SIZE g) else 0⟩ : LayerRegs))
      ∧ p.csc = (List.range 6).map (fun i => rd s.dev (Reg.RHEAD_CSC g i)) ∧ p.bg = rd s.dev (Reg.RHEAD_BG g)
      ∧ t.dev = setHead g (head t.dev g) (if (head s.dev g).pending = none then s.dev else
          wr (Reg.RHEAD_COMMIT_REPLACED g) (w32 (min (2 ^ 32 - 1) ((rd s.dev (Reg.RHEAD_COMMIT_REPLACED g)).toNat + 1))) s.dev)) ∧
  (∀ (h : Fin 4) (s : State) (u : Timing), (head s.dev h).timing = some u → splitOdd s.dev h = false →
    let x := head s.dev h
    (x.running = false ∨ x.latched = true ∨ x.line ≠ u.vActive → exec (.latchInstant h) s = .next s) ∧
    (x.running = true → x.latched = false → x.line = u.vActive →
      (x.pending = none → exec (.latchInstant h) s = nextDev s (setHead h { x with latched := true } s.dev)) ∧
      ∀ p, x.pending = some p → ∃ (t : State) (a : ActiveSet), exec (.latchInstant h) s = .next t ∧ t.clk = s.clk
        ∧ head t.dev h = { x with latched := true, pending := none, active := some a, fresh := true }
        ∧ (∀ g < 4, g ≠ h.val → head t.dev g = head s.dev g) ∧ a.csc = p.csc ∧ a.bg = p.bg ∧ a.layers.length = p.layers.length
        ∧ (∀ l r, p.layers[l]? = some r → a.layers[l]? = some (⟨r, surfDesc s.dev r.surface, layerFails l r (surfDesc s.dev r.surface)⟩ : ActiveLayer))
        ∧ rb t.dev (Reg.RHEAD_EVENT h) 0 = true
        ∧ (∀ l < 4, rb t.dev (Reg.RHEAD_LAYER_FAULT h) l = (a.layers[l]?).elim false (·.failed))
        ∧ ((∃ l < 4, (a.layers[l]?).elim false (·.failed) = true) → rb t.dev (Reg.RHEAD_EVENT h) 5 = true)
        ∧ (let gone := ((List.range 4).filter fun l => (inForce x.active l).isSome && inForce (some a) l != inForce x.active l).length
           let c := Reg.RHEAD_RETIRE_COUNT h
           (rb s.dev (Reg.RHEAD_RETIRE_CTL h) 10 = false → rf t.dev c 0 16 = rf s.dev c 0 16
              ∧ rf t.dev c 16 16 = min 0xFFFF (rf s.dev c 16 16 + gone) ∧ sameMemory s.dev t.dev
              ∧ (0 < gone → rb t.dev (Reg.RHEAD_EVENT h) 1 = true)) ∧
           (rb s.dev (Reg.RHEAD_RETIRE_CTL h) 10 = true → rf s.dev c 0 16 + 4 < 2 ^ 16 → rf s.dev c 16 16 + 4 < 2 ^ 16 →
              rf t.dev c 0 16 + rf t.dev c 16 16 = rf s.dev c 0 16 + rf s.dev c 16 16 + gone)))) ∧
  (∀ (h l surf : Nat) (frame time : W64), h < 4 → l < 4 → surf < 1024 →
    let bs := retireRecord h l surf frame time
    bs.length = 32 ∧ ofLe (bs.take 8) = frame.toNat ∧ ofLe (slice bs 8 8) = time.toNat ∧ ofLe (slice bs 16 8) = 0
      ∧ ofLe (bs.drop 24) = 2 ^ 24 + surf * 2 ^ 12 + l * 2 ^ 4 + h) ∧
  (∀ galpha pa s d : Nat, galpha < 2 ^ 16 → pa < 2 ^ 16 →
    (galpha = 0xFFFF → pa = 0xFFFF → blend galpha pa s d = s) ∧ (galpha = 0 ∨ pa = 0 → blend galpha pa s d = d)
      ∧ min s d ≤ blend galpha pa s d ∧ blend galpha pa s d ≤ max s d) ∧
  (∀ phi < 64, (scaleWeights phi).sum = 256) ∧ scaleWeights 16 = [-18, 222, 58, -6] ∧ scaleWeights 48 = [-6, 58, 222, -18] ∧
  (∀ (x : Int) (p : Nat), p < 2 ^ 16 → scaleMix x [p, p, p, p] = p) ∧
  (∀ (src n j : Nat), 0 < n → scalePos src n n j = (src + j) * 65536) ∧
  (∀ n ≤ 12, quantise n 0 = 0 ∧ quantise n 0xFFFF = 2 ^ n - 1 ∧ ∀ c ≤ 0xFFFF, quantise n c ≤ 2 ^ n - 1)

/-- R193, R195, R203, R211, R213 and R215 for SPORT_ENABLE, SPORT_DISABLE, LINK_UP, LINK_DOWN, LPORT_DUPLEX_CHANGE and the TXQ registers. That a
write of AUTO or DUPLEX turns a legacy link at once, and discards its admitted frames, is DEDUCED (log entry 43: the model's reading). -/
def Obligations.PortEnableAndLink : Prop :=
  let waits (x : Port) : List Admitted := x.cal.filter fun a => a.fate == .waiting
  let discards (p n : Nat) (s t : State) : Prop :=
    rd t.dev (Reg.SPORT_LQ_DISCARD p) = w32 (min (2 ^ 32 - 1) ((rd s.dev (Reg.SPORT_LQ_DISCARD p)).toNat + n))
  let takes (p : Nat) (c : Instr) (wrap : Dev → Dev) (s : State) (d : Dev) : Prop :=
    let x := port d p
    let y : Port := { x with link := true, rate := legacyRate d p, half := legacyHalf d p }
    (x.phy = false → exec c s = nextDev s (wrap d)) ∧
    (x.phy = true → legacyHalf d p = false → exec c s = nextDev s (wrap (setPort p y d))) ∧
    (x.phy = true → legacyHalf d p = true → ∃ t : State, t.clk = s.clk
      ∧ exec c s = nextDev s (wrap (if y.rate = 2 ∧ x.link = true ∧ x.rx ≠ none then latchSettle s.clk t.dev else t.dev))
      ∧ (port t.dev p).rate = y.rate ∧ (port t.dev p).half = true ∧ (port t.dev p).phy = true ∧ (port t.dev p).link = (y.rate != 2) ∧ (∀ g, g ≠ p → port t.dev g = port d g)
      ∧ (y.rate ≠ 2 → waits (port t.dev p) = [] ∧ discards p (waits x).length { s with dev := d } t)
      ∧ (y.rate = 2 → waits (port t.dev p) = waits x ∧ (port t.dev p).timed = (if x.link then none else x.timed)))
  (∀ (d : Dev) (p : Nat),
    legacyRate d p = min 2 (if rb d (Reg.SPORT_CTL p) 6 then (port d p).inRate else fld (port d p).ctl 4 2)
      ∧ legacyHalf d p = (if rb d (Reg.SPORT_CTL p) 6 then (port d p).inHalf else !rb d (Reg.SPORT_CTL p) 3)) ∧
  (∀ (req : Req) (p : Fin 10) (v : W32) (s : State), csrShut s.dev (Reg.SPORT_CTL p) = false →
    (p.val < 8 → unusable s.dev (0x5000 + p) = false) →
    (bit v 0 = true → (port s.dev p).enabled = false → exec (.sportEnable req p v) s =
      nextDev s (noteSeal (Reg.SPORT_CTL p) s.dev
        (onPort p (fun x => { x with enabled := true, ctl := v }) (putReg (Reg.SPORT_CTL p) v s.dev)))) ∧
    (bit v 0 = true → (port s.dev p).enabled = true →
      (p.val < 8 → exec (.sportEnable req p v) s = nextDev s (noteSeal (Reg.SPORT_CTL p) s.dev (putReg (Reg.SPORT_CTL p) v s.dev))) ∧
      (8 ≤ p.val → takes p (.sportEnable req p v) (noteSeal (Reg.SPORT_CTL p) s.dev) s (putReg (Reg.SPORT_CTL p) v s.dev))) ∧
    (bit v 0 = false → (port s.dev p).enabled = true → ∃ t : State, t.clk = s.clk
      ∧ exec (.sportDisable req p v) s = nextDev s (noteSeal (Reg.SPORT_CTL p) s.dev (latchSettle s.clk t.dev))
      ∧ (let x := port t.dev p; x.enabled = false ∧ x.link = false ∧ x.staged = [] ∧ x.timed = none ∧ x.untimed = none
          ∧ x.cal = ((port s.dev p).cal.filter fun a => a.fate != .waiting && !((port s.dev p).timed.any fun f =>
              a.fate == .sent && a.frame.origin == f.frame.origin && a.frame.launch == f.frame.launch))
          ∧ x.cut = none ∧ x.rx = none ∧ ∀ q < 8, (x.ring q).frames = [] ∧ (x.ring q).enabled = ((port s.dev p).ring q).enabled)
      ∧ discards p ((port s.dev p).timed.toList.length + (waits (port s.dev p)).length + (port s.dev p).staged.length) s t
      ∧ ∀ g, g ≠ p.val → port t.dev g = port s.dev g)) ∧
  (∀ (p : Fin 10) (rate : Fin 4) (half : Bool) (s : State),
    let x := port s.dev p
    (x.enabled = false ∨ s.dev.sys.tripped = true → exec (.linkUp p rate half) s = .next s) ∧
    (x.enabled = true → s.dev.sys.tripped = false →
      (p.val < 8 → looped s.dev p = true → exec (.linkUp p rate half) s = .next s) ∧
      (p.val < 8 → looped s.dev p = false → exec (.linkUp p rate half) s = nextDev s (setPort p { x with link := true } s.dev)) ∧
      (8 ≤ p.val → takes p (.linkUp p rate half) id s (setPort p { x with phy := true, inRate := rate, inHalf := half } s.dev)))) ∧
  (∀ (p : Fin 10) (s : State),
    ((port s.dev p).link = false → exec (.linkDown p) s = nextDev s (setPort p { port s.dev p with phy := false } s.dev)) ∧
    ((port s.dev p).link = true → ∃ t : State, exec (.linkDown p) s = nextDev s (latchSettle s.clk t.dev) ∧ t.clk = s.clk
      ∧ (let x := port t.dev p; x.link = false ∧ x.timed = none ∧ x.untimed = none ∧ x.cut = none ∧ x.rx = none ∧ waits x = waits (port s.dev p)
          ∧ x.enabled = (port s.dev p).enabled)
      ∧ discards p (port s.dev p).timed.toList.length s t ∧ ∀ g, g ≠ p.val → port t.dev g = port s.dev g)) ∧
  (∀ (n : Fin 2) (s : State), ((port s.dev (n + 8)).phy = false → exec (.lportDuplexChange n) s = .next s) ∧
    ((port s.dev (n + 8)).phy = true →
      takes (n + 8) (.lportDuplexChange n) id s (setPort (n + 8) { port s.dev (n + 8) with inHalf := true } s.dev))) ∧
  (∀ (req : Req) (p : Fin 10) (q : Fin 9) (v : W32) (s : State), csrShut s.dev (Reg.SPORT_TXQ_CTL p q) = false → hasRing p q = true →
    let r := (port s.dev p).ring q
    let n := log2Of (fld v 0 5)
    (bit v 31 = true → r.enabled = false → inShared s.dev (ringBase s.dev p q) (2 ^ n * 32) = true →
      ∃ t, exec (.txqEnable req p q v) s = .next t ∧ t.clk = s.clk ∧ t.dev.mem = s.dev.mem
        ∧ (port t.dev p).ring q = { r with enabled := true, base := ringBase s.dev p q, log2 := n }
        ∧ rf t.dev (Reg.SPORT_TXQ_HEAD p q) 0 16 = rf s.dev (Reg.SPORT_TXQ_HEAD p q) 0 16 % 2 ^ n
        ∧ sameRegsBut [Reg.SPORT_TXQ_CTL p q, Reg.SPORT_TXQ_HEAD p q] s.dev t.dev) ∧
    (bit v 31 = true → r.enabled = false → inShared s.dev (ringBase s.dev p q) (2 ^ n * 32) = false →
      ∃ t, exec (.txqEnable req p q v) s = .next t ∧ t.clk = s.clk ∧ rb t.dev (Reg.SPORT_TXQ_CTL p q) 31 = false
        ∧ rb t.dev (Reg.SPORT_TX_EVENT p) 2 = true ∧ onlyThese [Reg.SPORT_TXQ_CTL p q, Reg.SPORT_TX_EVENT p] (noted t.dev s.dev) t.dev) ∧
    (bit v 31 = false → r.enabled = true → ∃ t, exec (.txqDisable req p q v) s = .next t ∧ t.clk = s.clk ∧ t.dev.mem = s.dev.mem
        ∧ (port t.dev p) = (port s.dev p).setRing q { r with enabled := false } ∧ sameRegsBut [Reg.SPORT_TXQ_CTL p q] s.dev t.dev)) ∧
  (∀ (req : Req) (p : Fin 10) (q : Fin 9) (v : W32) (s : State), csrShut s.dev (Reg.SPORT_TXQ_TAIL p q) = false → hasRing p q = true →
    exec (.txqTailWrite req p q v) s = nextDev s (wr (Reg.SPORT_TXQ_TAIL p q)
      (rd s.dev (Reg.SPORT_TXQ_TAIL p q) &&& 0xFFFF0000 ||| v &&& 0xFFFF) s.dev))

/-- R195 to R198, R201, R207 and R209 for TX_DESC_READ. That BAD_LEN is judged before BAD_ADDR is DEDUCED (log entry 40: the model's reading). -/
def Obligations.TransmitDescriptors : Prop :=
  (∀ (p : Fin 10) (q : Fin 9) (got : Nat) (s : State), ((port s.dev p).ring q).filling = none →
    let r := (port s.dev p).ring q
    let desc := r.base + rf s.dev (Reg.SPORT_TXQ_HEAD p q) 0 16 * 32
    let w := getBytes s.dev desc 24
    let addr := ofLe (slice w 0 6)
    let info := ofLe (slice w 16 8)
    let len := info % 2 ^ 14
    let tags := tagBytes s.dev p q
    let n := max 60 (len + tags.length) + 4
    let bytes := buildFrame tags (getBytes s.dev addr len)
    let f : TxFrame := { origin := .ring q desc, bytes, launch := (ofLe (slice w 8 8) : Nat) * ns1, tsReq := info.testBit 16
                         tag := BitVec.ofNat 16 (info / 2 ^ 48), tags := tags.length }
    let moved (t : State) : Prop := rf t.dev (Reg.SPORT_TXQ_HEAD p q) 0 16 = (rf s.dev (Reg.SPORT_TXQ_HEAD p q) 0 16 + 1) % 2 ^ r.log2
    let ends (status ev : Nat) : Prop := ∃ t, exec (.txDescRead p q got) s = .next t ∧ t.clk = s.clk ∧ moved t
      ∧ ofLe (getBytes t.dev (desc + 24) 8) = 2 ^ 63 + status * 2 ^ 48 ∧ sameOutside (desc + 24) 8 s.dev t.dev
      ∧ rb t.dev (Reg.SPORT_TX_EVENT p) ev = true ∧ ((port t.dev p).ring q).frames = r.frames ∧ (port t.dev p).staged = (port s.dev p).staged
    (ringReady s.dev p q = false → exec (.txDescRead p q got) s = .next s) ∧
    (ringReady s.dev p q = true → r.log2 ≤ 16 → (∀ x ∈ wordsOf desc 24, errOf s.dev x = .none) → (q.val ≠ 8 → r.done = []) →
      (len < 14 ∨ 9216 < n → ends 0x21 2) ∧
      (14 ≤ len → n ≤ 9216 → inShared s.dev addr len = false → ends 0x22 2) ∧
      (14 ≤ len → n ≤ 9216 → inShared s.dev addr len = true → q.val = 8 → stageLimit p < (port s.dev p).stageUse + (n + 255) / 256 → ends 0x04 3) ∧
      (14 ≤ len → n ≤ 9216 → inShared s.dev addr len = true → (∀ x ∈ wordsOf addr len, errOf s.dev x = .none) →
        (q.val = 8 → (port s.dev p).stageUse + (n + 255) / 256 ≤ stageLimit p → ∃ t, exec (.txDescRead p q got) s = .next t ∧ t.clk = s.clk
          ∧ sameMemory s.dev t.dev ∧ moved t ∧ port t.dev p = { port s.dev p with staged := (port s.dev p).staged ++ [f] }) ∧
        (q.val ≠ 8 → 16384 < (port s.dev p).bufferUse + n → exec (.txDescRead p q got) s = .next s) ∧
        (q.val ≠ 8 → (port s.dev p).bufferUse + n ≤ 16384 → ∃ t, exec (.txDescRead p q got) s = .next t ∧ t.clk = s.clk ∧ sameMemory s.dev t.dev
          ∧ (port t.dev p).ring q = { r with done := [{ desc }], frames := r.frames ++ [f], filling := if got < bytes.length then some got else none }
          ∧ (bytes.length ≤ got → moved t)
          ∧ (got < bytes.length → rd t.dev (Reg.SPORT_TXQ_HEAD p q) = rd s.dev (Reg.SPORT_TXQ_HEAD p q)))))) ∧
  (∀ tags body : List W8, 12 ≤ body.length →
    let l := buildFrame tags body
    l.length = max 60 (body.length + tags.length) ∧ l.take 12 = body.take 12 ∧ (l.drop 12).take tags.length = tags
      ∧ (l.drop (12 + tags.length)).take (body.length - 12) = body.drop 12 ∧ ∀ b ∈ l.drop (body.length + tags.length), b = 0) ∧
  (∀ (d : Dev) (p q : Nat), (tagBytes d p q).length = match rf d (Reg.SPORT_TXQ_TAG p q) 30 2 with | 1 => 4 | 2 => 8 | _ => 0) ∧
  (∀ (f : TxFrame) (n : Nat), truncated false f.len f = f.bytes ++ leBytes 4 (crc32 f.bytes).toNat ∧
    (n ≤ f.bytes.length → truncated true n f = f.bytes.take n ++ leBytes 4 (~~~ crc32 (f.bytes.take n)).toNat)) ∧
  (∀ (desc status coll : Nat) (d : Dev), status < 256 →
    ofLe (getBytes (writeBack desc status coll d) (desc + 24) 8) = 2 ^ 63 + status * 2 ^ 48 + min 15 coll * 2 ^ 32
      ∧ sameOutside (desc + 24) 8 d (writeBack desc status coll d))

/-- R200 to R204 for LQ_OFFER, PACKER_OFFER, TIMED_LAUNCH and WINDOW_END, each reason for a refusal where it is the first of R201's order that
applies; and the calendar's invariant over every command: no two of its windows overlap (R203). -/
def Obligations.LaunchCalendar : Prop :=
  (∀ (p : Nat) (f : TxFrame) (k : Clk) (d : Dev),
    let x := port d p
    let t := shortOf (now k)
    let w := windowOf (x.byteTime p) f
    judge p f k d = none ↔ x.link = true ∧ x.half = false ∧ later (t + w64 (stageLead d p)) (shortOf f.launch) = false
      ∧ later (shortOf f.launch) (t + w64 (horizon d p)) = false ∧ x.cal.length < calLimit p ∧ ∀ a ∈ x.cal, w.2 ≤ a.ws ∨ a.we ≤ w.1) ∧
  (∀ (p : Nat) (f : TxFrame) (k : Clk) (d : Dev),
    let x := port d p
    let t := shortOf (now k)
    let l := shortOf f.launch
    let w := windowOf (x.byteTime p) f
    let late : Prop := later (t + w64 (stageLead d p)) l = true
    let far : Prop := later l (t + w64 (horizon d p)) = true
    let full : Prop := calLimit p ≤ x.cal.length
    (judge p f k d = some 7 ↔ x.link = false) ∧
    (judge p f k d = some 6 ↔ x.link = true ∧ x.half = true) ∧
    (judge p f k d = some 1 ↔ x.link = true ∧ x.half = false ∧ late) ∧
    (judge p f k d = some 5 ↔ x.link = true ∧ x.half = false ∧ ¬ late ∧ far) ∧
    (judge p f k d = some 3 ↔ x.link = true ∧ x.half = false ∧ ¬ late ∧ ¬ far ∧ full) ∧
    (judge p f k d = some 2 ↔ x.link = true ∧ x.half = false ∧ ¬ late ∧ ¬ far ∧ ¬ full ∧ ∃ a ∈ x.cal, w.1 < a.we ∧ a.ws < w.2) ∧
    ∀ code, judge p f k d = some code → code ∈ [7, 6, 1, 5, 3, 2]) ∧
  (∀ (a y : Admitted) (l : List Admitted), y ∈ insertCal a l ↔ y = a ∨ y ∈ l) ∧
  (∀ (p : Fin 10) (s : State) (f : TxFrame) (r : List TxFrame) (c : Instr) (f' : TxFrame) (d : Dev),
    (c = .lqOffer p ∧ (port s.dev p).staged = f :: r ∧ f' = { f with launch := nearTime (shortOf f.launch) (now s.clk) }
      ∧ d = windowEnd p s.clk (onPort p (fun x => { x with staged := r }) s.dev)) ∨
    (c = .packerOffer p ∧ (port s.dev p).offers = f :: r ∧ f' = f
      ∧ d = windowEnd p s.clk (windowEnd p s.clk (onPort p (fun x => { x with offers := r }) s.dev)) ∧ (port d p).stageUse + f.blocks ≤ stageLimit p) →
    let w := windowOf ((port d p).byteTime p) f'
    (judge p f' s.clk d = none → exec c s = nextDev s (onPort p (fun x => { x with cal := insertCal { frame := f', ws := w.1, we := w.2 } x.cal }) d)) ∧
    (∀ code, judge p f' s.clk d = some code → ∃ t, exec c s = .next t ∧ t.clk = s.clk ∧ (port t.dev p).cal = (port d p).cal
      ∧ rd t.dev (Reg.SPORT_LQ_REFUSE p) = w32 (min (2 ^ 32 - 1) ((rd s.dev (Reg.SPORT_LQ_REFUSE p)).toNat + 1))
      ∧ rb t.dev (Reg.SPORT_TX_EVENT p) 3 = true
      ∧ (∀ desc, f.origin = .ring 8 desc → ofLe (getBytes t.dev (desc + 24) 8) = 2 ^ 63 + code * 2 ^ 48 + min 15 f.coll * 2 ^ 32
          ∧ sameOutside (desc + 24) 8 s.dev t.dev)
      ∧ (∀ kind id fr, f.origin = .packer kind id fr → sameMemory s.dev t.dev ∧ rb t.dev Reg.PACK_EVENT (if kind = 2 then 2 else 1) = true))) ∧
  (∀ (p : Fin 10) (s : State) (f : TxFrame) (r : List TxFrame) (kind id : Nat) (fr : W64), (port s.dev p).offers = f :: r → f.origin = .packer kind id fr →
    let d := windowEnd p s.clk (onPort p (fun x => { x with offers := r }) s.dev)
    stageLimit p < (port d p).stageUse + f.blocks → ∃ t, exec (.packerOffer p) s = .next t ∧ t.clk = s.clk ∧ port t.dev p = port d p
      ∧ sameMemory s.dev t.dev ∧ rb t.dev (Reg.SPORT_TX_EVENT p) 3 = true ∧ rb t.dev Reg.PACK_EVENT (if kind = 2 then 2 else 1) = true
      ∧ rd t.dev (Reg.SPORT_LQ_REFUSE p) = w32 (min (2 ^ 32 - 1) ((rd s.dev (Reg.SPORT_LQ_REFUSE p)).toNat + 1))) ∧
  (∀ (p : Fin 10) (s : State), ((port s.dev p).staged = [] → exec (.lqOffer p) s = .next s)
    ∧ ((port s.dev p).offers = [] → exec (.packerOffer p) s = .next s)) ∧
  (∀ (p : Fin 10) (s : State), ∃ t, exec (.windowEnd p) s = .next t ∧ t.clk = s.clk
    ∧ t.dev = setPort p { port s.dev p with cal := (port t.dev p).cal } s.dev
    ∧ ∀ a, a ∈ (port t.dev p).cal ↔ a ∈ (port s.dev p).cal ∧ (a.fate = .waiting ∨ nowW s.clk < a.we)) ∧
  (∀ (p : Fin 10) (s : State) (a : Admitted) (l1 l2 : List Admitted), (port s.dev p).cal = l1 ++ a :: l2 → (∀ y ∈ l1, y.fate ≠ .waiting) →
    a.fate = .waiting →
    let x := port s.dev p
    let hush := match a.frame.origin with | .packer _ _ f => muted s.dev f a.frame.launch | _ => false
    (nowW s.clk < a.ws → exec (.timedLaunch p) s = .next s) ∧
    (a.ws ≤ nowW s.clk → x.link = false → ∃ t, exec (.timedLaunch p) s = .next t ∧ t.clk = s.clk
      ∧ (port t.dev p).cal = l1 ++ { a with fate := .lost } :: l2 ∧ rb t.dev (Reg.SPORT_TX_EVENT p) 4 = true
      ∧ rd t.dev (Reg.SPORT_LQ_DISCARD p) = w32 (min (2 ^ 32 - 1) ((rd s.dev (Reg.SPORT_LQ_DISCARD p)).toNat + 1))) ∧
    (a.ws ≤ nowW s.clk → x.link = true → hush = true → exec (.timedLaunch p) s = nextDev s (setPort p { x with cal := l1 ++ l2 } s.dev)) ∧
    (a.ws ≤ nowW s.clk → x.link = true → hush = false → x.timed = none → (∀ q desc, a.frame.origin = .ring q desc → rb s.dev (Reg.SPORT_PTP_CTL p) q = false) →
      let at' : Time := a.frame.launch - if p.val < 8 then 0 else (rf s.dev (Reg.LPORT_TX_LAT (p - 8)) 0 16 : Nat) * ns1
      ∃ t fl, exec (.timedLaunch p) s = .next t ∧ t.clk = s.clk ∧ sameMemory s.dev t.dev ∧ (port t.dev p).timed = some fl
        ∧ (port t.dev p).cal = l1 ++ { a with fate := .sent } :: l2 ∧ fl.frame = a.frame ∧ fl.tick = s.clk.ticks ∧ fl.sent = 0
        ∧ (0 < x.quantum p → at' - spanOf (x.quantum p) / 2 ≤ fl.sfd ∧ fl.sfd < at' - spanOf (x.quantum p) / 2 + spanOf (x.quantum p)))) ∧
  (∀ s t : State, (∀ p < 10, (port s.dev p).calDisjoint) → step s = .next t → ∀ p < 10, (port t.dev p).calDisjoint)

/-- R199, R206 to R208, R210, R214 and R234 for the commands of untimed frames. Which ready frame of a queue starts, so that a smaller one overtakes
one that does not fit (R206: it may), is the model's choice (log entry 39). -/
def Obligations.UntimedFrames : Prop :=
  let sat32 (a n : Nat) (s t : State) : Prop := rd t.dev a = w32 (min (2 ^ 32 - 1) ((rd s.dev a).toNat + n))
  let sat64 (a : Nat) (s t : State) : Prop := rd64 t.dev a = w64 (min (2 ^ 64 - 1) ((rd64 s.dev a).toNat + 1))
  (∀ (p : Fin 10) (s : State),
    let d := dropDiscovery p s.dev
    (suppresses s.dev.pair.mode = false → d = s.dev) ∧
    (suppresses s.dev.pair.mode = true → ∀ q < 9, ∀ f ∈ ((port d p).ring q).frames, ∀ id fr, f.origin ≠ .packer 3 id fr) ∧
    (wireFree p s.clk d = false ∨ pick p s.clk d = none → exec (.untimedStart p) s = nextDev s d) ∧
    ∀ q i f, wireFree p s.clk d = true → pick p s.clk d = some (q, i) → ((port d p).ring q).frames[i]? = some f →
      (∀ q desc, f.origin = .ring q desc → rb s.dev (Reg.SPORT_PTP_CTL p) q = false) →
      ∃ t fl, exec (.untimedStart p) s = .next t ∧ t.clk = s.clk ∧ sameMemory s.dev t.dev ∧ (port t.dev p).untimed = some fl ∧ fl.frame = f
        ∧ fl.tick = s.clk.ticks ∧ ((port t.dev p).ring q).frames = ((port d p).ring q).frames.eraseIdx i
        ∧ ∀ g, g ≠ q → (port t.dev p).ring g = (port d p).ring g) ∧
  (∀ (p : Nat) (k : Clk) (d : Dev) (q i : Nat), pick p k d = some (q, i) → q < 8 ∧ (∀ g < 8, q < g → pickFrom p g k d = none)
    ∧ stopped p q k d = false ∧ ∃ f, ((port d p).ring q).frames[i]? = some f ∧ min (threshOf d p) f.len ≤ (port d p).held f ∧ mayStart p f 0 k d = true) ∧
  (∀ (p : Nat) (f : TxFrame) (k : Clk) (d : Dev) (ws : Int), preemptActive d p = false → mayStart p f 0 k d = true →
    (port d p).nextWindow (nowW k) = some ws → nowW k + bytesW ((port d p).byteTime p) (f.len + 20) ≤ ws - guardW d p) ∧
  (∀ (p : Fin 10) (s : State) (f : Flight), (port s.dev p).timed = some f →
    (f.sentBy s.clk ((port s.dev p).byteTime p) < f.frame.len → exec (.txFrameEnd p true) s = .next s) ∧
    (f.frame.len ≤ f.sentBy s.clk ((port s.dev p).byteTime p) → ∃ t, exec (.txFrameEnd p true) s = .next t ∧ t.clk = s.clk
      ∧ (port t.dev p).timed = none ∧ (port t.dev p).cal = (port s.dev p).cal ∧ (port t.dev p).wire = f.frame.bytes ++ leBytes 4 (crc32 f.frame.bytes).toNat
      ∧ sat64 (Reg.SPORT_LQ_LAUNCHED_LO p) s t ∧ sat64 (Reg.SPORT_TX_FRAMES_LO p) s t
      ∧ (∀ desc, f.frame.origin = .ring 8 desc → ofLe (getBytes t.dev (desc + 24) 8) = 2 ^ 63 + min 15 f.frame.coll * 2 ^ 32
          ∧ sameOutside (desc + 24) 8 s.dev t.dev)
      ∧ (∀ st, stampOf (port s.dev p) f = some st → (port s.dev p).cut = none → (port s.dev p).saucer.length < 256 →
          (port t.dev p).saucer = (port s.dev p).saucer ++ [st])
      ∧ (stampOf (port s.dev p) f = none → (port t.dev p).saucer = (port s.dev p).saucer))) ∧
  (∀ (p : Fin 10) (s : State) (f : Flight) (q desc : Nat), (port s.dev p).untimed = some f → f.frame.origin = .ring q desc → q ≠ 8 →
    ((port s.dev p).ring q).done = [{ desc }] →
    let x := port s.dev p
    let n := f.sentBy s.clk (x.byteTime p)
    (∀ ws, meetsBad p f s.clk x = true ∨ (f.frame.bad = none ∧ f.frame.len ≤ n ∧ f.frame.len ≤ x.held f.frame) → cutDue p f s.dev = some ws →
      let c := cutPoint p f ws s.dev
      let b := x.byteTime p
      (∀ k, f.frame.bad = some k → f.sent + c ≤ k) →
      exec (.txFrameEnd p false) s = nextDev s (bumpSat (Reg.SPORT_PREEMPT_COUNT p) 1
        (setPort p { x with untimed := none, cut := some { f with sent := f.sent + c } } s.dev))
      ∧ minFragment s.dev p ≤ c ∧ c + 64 ≤ f.frame.len - f.sent
      ∧ (f.startW b + bytesW b (minFragment s.dev p + 24) ≤ ws - guardW s.dev p → f.startW b + bytesW b (c + 24) ≤ ws - guardW s.dev p)) ∧
    (∀ k, f.frame.bad = some k → meetsBad p f s.clk x = true → (∀ ws, cutDue p f s.dev = some ws → k < f.sent + cutPoint p f ws s.dev) → ∃ t, exec (.txFrameEnd p false) s = .next t ∧ t.clk = s.clk
      ∧ (port t.dev p).untimed = none ∧ (port t.dev p).wire = truncated true k f.frame
      ∧ ofLe (getBytes t.dev (desc + 24) 8) = 2 ^ 63 + 0x23 * 2 ^ 48 + min 15 f.frame.coll * 2 ^ 32 ∧ sameOutside (desc + 24) 8 s.dev t.dev
      ∧ rd t.dev (Reg.SPORT_TX_THRESH p) = rd s.dev (Reg.SPORT_TX_THRESH p) ∧ rb t.dev (Reg.SPORT_TX_EVENT p) 2 = true) ∧
    (f.frame.bad = none → f.frame.len ≤ n → f.frame.len ≤ x.held f.frame → cutDue p f s.dev = none → ∃ t, exec (.txFrameEnd p false) s = .next t ∧ t.clk = s.clk
      ∧ (port t.dev p).untimed = none ∧ (port t.dev p).wire = f.frame.bytes ++ leBytes 4 (crc32 f.frame.bytes).toNat
      ∧ sat64 (Reg.SPORT_TX_FRAMES_LO p) s t ∧ ofLe (getBytes t.dev (desc + 24) 8) = 2 ^ 63 + min 15 f.frame.coll * 2 ^ 32
      ∧ sameOutside (desc + 24) 8 s.dev t.dev ∧ ((port t.dev p).ring q).done = []) ∧
    (x.held f.frame < f.frame.len → x.held f.frame ≤ n → meetsBad p f s.clk x = false → ∃ t, exec (.txUnderrun p) s = .next t ∧ t.clk = s.clk
      ∧ (port t.dev p).untimed = none ∧ (port t.dev p).wire = truncated true (x.held f.frame) f.frame
      ∧ ofLe (getBytes t.dev (desc + 24) 8) = 2 ^ 63 + 0x20 * 2 ^ 48 + min 15 f.frame.coll * 2 ^ 32 ∧ sameOutside (desc + 24) 8 s.dev t.dev
      ∧ sat32 (Reg.SPORT_TX_UNDERRUN p) 1 s t ∧ rb t.dev (Reg.SPORT_TX_EVENT p) 0 = true
      ∧ rf t.dev (Reg.SPORT_TX_THRESH p) 0 14 = min 9216 (threshOf s.dev p + 64)
      ∧ (9216 ≤ threshOf s.dev p + 64 → rb t.dev (Reg.SPORT_TX_EVENT p) 1 = true)) ∧
    (f.frame.len ≤ x.held f.frame ∨ n < x.held f.frame ∨ meetsBad p f s.clk x = true → exec (.txUnderrun p) s = .next s)) ∧
  (∀ (p : Fin 10) (s : State), p.val < 8 → rb s.dev (Reg.SPORT_PREEMPT_CTL p) 0 = true → rb s.dev (Reg.SPORT_PREEMPT_CTL p) 1 = false →
    let x := port s.dev p
    x.link = true → x.preempt = false → x.verifyFails < 4 →
    exec (.preemptVerify p true) s = nextDev s (setPort p { x with preempt := true } s.dev) ∧
    (x.verifyFails ≠ 0 → since s.clk x.verifyTick < 12500000 → exec (.preemptVerify p false) s = .next s) ∧
    (x.verifyFails = 0 ∨ 12500000 ≤ since s.clk x.verifyTick → ∃ t, exec (.preemptVerify p false) s = .next t ∧ t.clk = s.clk
      ∧ port t.dev p = { x with verifyFails := x.verifyFails + 1, verifyTick := s.clk.ticks }
      ∧ (x.verifyFails = 3 → rb t.dev (Reg.SPORT_TX_EVENT p) 5 = true) ∧ (x.verifyFails < 3 → t.dev = setPort p (port t.dev p) s.dev))) ∧
  (∀ (p : Fin 10) (s : State) (c : Flight), (port s.dev p).cut = some c → wireFree p s.clk s.dev = true → mayStart p c.frame c.sent s.clk s.dev = true →
    pick p s.clk s.dev = none →
    let x := port s.dev p
    ∃ r : Nat, r < x.quantum p * 2 ^ 48 / 25 ∧ exec (.preemptResume p) s =
      nextDev s { setPort p { x with
        cut := none, untimed := some { c with tick := s.clk.ticks, frag := some (now s.clk + spanOf (7 * x.byteTime p) + r) } } s.dev with
        freeIdx := s.dev.freeIdx + 1 }) ∧
  (∀ (p : Fin 10) (s : State), (port s.dev p).cut = none ∨ wireFree p s.clk s.dev = false ∨ pick p s.clk s.dev ≠ none →
    exec (.preemptResume p) s = .next s) ∧
  (∀ (p : Fin 10) (data : List W8) (s : State), (port s.dev p).enabled = true → (port s.dev p).link = true → be16 data 12 = 0x8808 →
    be16 data 14 = 1 → 64 ≤ data.length → data.length ≤ 9216 → fcsOk data = true →
    ∃ t : State, exec (.pauseReceive p data) s = nextDev s (latchSettle s.clk t.dev) ∧ t.clk = s.clk ∧ sameMemory s.dev t.dev ∧ sat64 (Reg.SPORT_RX_FRAMES_LO p) s t
      ∧ rf t.dev (Reg.SPORT_PAUSE_COUNT p) 0 16 = min 0xFFFF (rf s.dev (Reg.SPORT_PAUSE_COUNT p) 0 16 + 1)
      ∧ (port t.dev p).cal = (port s.dev p).cal
      ∧ (rb s.dev (Reg.SPORT_OBEY_PAUSE p) 0 = false → (port t.dev p).pause = (port s.dev p).pause)
      ∧ (rb s.dev (Reg.SPORT_OBEY_PAUSE p) 0 = true → (port s.dev p).half = false → ∀ q < if p.val < 8 then 8 else 4,
          stopped p q s.clk t.dev = decide (0 < be16 data 16
            ∧ (((port s.dev p).untimed = none ∧ (port s.dev p).cut = none) ∨ stopped p q s.clk s.dev = true))
          ∧ (Tab.get none (port t.dev p).pause q).map (·.quanta) = if be16 data 16 = 0 then none else some (be16 data 16))) ∧
  (∀ (p : Fin 10) (s : State), ∃ t, exec (.pauseExpire p) s = .next t ∧ t.clk = s.clk
    ∧ t.dev = setPort p { port s.dev p with pause := (port t.dev p).pause } s.dev
    ∧ ∀ y, y ∈ (port t.dev p).pause ↔ y ∈ (port s.dev p).pause
        ∧ ∀ n b, y.2 = some { quanta := n, began := some b } → since s.clk b < pauseTicks ((port s.dev p).byteTime p) n) ∧
  (∀ (n : Fin 2) (s : State) (f : Flight), (port s.dev (n + 8)).half = true → (port s.dev (n + 8)).untimed = some f →
    let b := (port s.dev (n + 8)).byteTime (n + 8)
    ∃ t, exec (.collision n) s = .next t ∧ t.clk = s.clk ∧ (port t.dev (n + 8)).untimed = none
      ∧ (∃ jam : List W8, jam.length = 4 ∧ (port t.dev (n + 8)).wire = truncated false (f.sentBy s.clk b) f.frame ++ jam)
      ∧ rf t.dev (Reg.LPORT_COLL_COUNT n) 0 16 = min 0xFFFF (rf s.dev (Reg.LPORT_COLL_COUNT n) 0 16 + 1)
      ∧ (64 * b < since s.clk f.tick * 20 ∨ 16 ≤ f.frame.coll + 1 → (port t.dev (n + 8)).backoff = (port s.dev (n + 8)).backoff
          ∧ rf t.dev (Reg.LPORT_COLL_COUNT n) 16 16 = min 0xFFFF (rf s.dev (Reg.LPORT_COLL_COUNT n) 16 16 + 1)
          ∧ ∀ q desc, f.frame.origin = .ring q desc → q ≠ 8 → ((port s.dev (n + 8)).ring q).done = [{ desc }] →
              ofLe (getBytes t.dev (desc + 24) 8) = 2 ^ 63 + (if 64 * b < since s.clk f.tick * 20 then 0x24 else 0x25) * 2 ^ 48
                + min 15 (f.frame.coll + 1) * 2 ^ 32)
      ∧ (since s.clk f.tick * 20 ≤ 64 * b → f.frame.coll + 1 < 16 → sameMemory s.dev t.dev ∧ ∃ r < 2 ^ min (f.frame.coll + 1) 10,
          (port t.dev (n + 8)).backoff = some ({ f.frame with coll := f.frame.coll + 1 }, s.clk.ticks, r * 64 * b / 20))) ∧
  (∀ (n : Fin 2) (s : State) (f : TxFrame) (t0 : W64) (w : Nat), (port s.dev (n + 8)).backoff = some (f, t0, w) → (port s.dev (n + 8)).half = true →
    wireFree (n + 8) s.clk (onPort (n + 8) (fun x => { x with backoff := none }) s.dev) = true →
    (since s.clk t0 < w → exec (.backoffExpire n) s = .next s) ∧
    (w ≤ since s.clk t0 → ∃ t fl, exec (.backoffExpire n) s = .next t ∧ t.clk = s.clk ∧ sameMemory s.dev t.dev
      ∧ (port t.dev (n + 8)).backoff = none ∧ (port t.dev (n + 8)).untimed = some fl ∧ fl.frame = f ∧ fl.tick = s.clk.ticks))

/-- R218 to R233 for RX_SFD, RX_BUFFER_NEED and RX_FRAME_END; and R9 for what the end of a reception settles: a boundary that waited for it
is latched once it waits for no other frame. That a boundary waits for receptions, and latches at their end, is the model's choice (log entry 90),
and so is the number of frames that the firmware's receive path holds (log entry 44). -/
def Obligations.Reception : Prop :=
  (∀ (k : Clk) (d : Dev),
    (d.frm.latching = none → latchSettle k d = d) ∧
    (∀ n b, d.frm.latching = some (n, b) → straddled b k d = true → latchSettle k d = d) ∧
    (∀ n b, d.frm.latching = some (n, b) → straddled b k d = false → (latchSettle k d).frm = { d.frm with latching := none })) ∧
  (∀ (p : Fin 10) (s : State), let x := port s.dev p
    (x.enabled = true → x.link = true → x.rx = none → exec (.rxSfd p) s = nextDev s (setPort p { x with
      rx := some { stamp := now s.clk - if p.val < 8 then pathDelay s.dev (p + 8) else (rf s.dev (Reg.LPORT_RX_LAT (p - 8)) 0 16 : Nat) * ns1 } } s.dev)) ∧
    (x.enabled = false ∨ x.link = false ∨ x.rx ≠ none → exec (.rxSfd p) s = .next s)) ∧
  (∀ (d : Dev) (p : Nat) (l : List W8),
    (∀ e, (strain d p l).entry = some e → e < 64 ∧ entryMatch d p l e = true ∧ (∀ i < e, entryMatch d p l i = false)
      ∧ (strain d p l).word = rd d (Reg.SPORT_STRAIN p e 0) ∧ rb d (Reg.SPORT_STRAIN p e 0) 31 = true) ∧
    ((strain d p l).entry = none → (∀ i < 64, entryMatch d p l i = false) ∧ (strain d p l).word = rd d (Reg.SPORT_RX_DEFAULT p))) ∧
  (∀ (p : Fin 10) (data : List W8) (s : State) (r : RxFrame), (port s.dev p).rx = some r →
    let r' := rxTake p data r s.dev
    (r.dropped = true ∨ (∀ q, r'.judged.map Judged.action = some (.ring q) → ((port s.dev p).rxRing q).enabled = false) →
      exec (.rxBufferNeed p data) s = nextDev s (setPort p { port s.dev p with rx := some r' } s.dev)) ∧
    (∀ q, r.dropped = false → r'.judged.map Judged.action = some (.ring q) → ((port s.dev p).rxRing q).enabled = true →
      let x := (port s.dev p).rxRing q
      let b := rxStream x r'
      let i := r.buffers.length
      let desc := x.base + (rxHead s.dev p q + i) % 2 ^ x.log2 * 32
      let addr := ofLe ((getBytes s.dev desc 8).take 6) / 64 * 64
      i * x.bufsz < b.length →
      (i < rxOwned s.dev p q → (∀ w ∈ wordsOf desc 8, errOf s.dev w = .none) → inShared s.dev addr x.bufsz = true → b.length ≤ (i + 1) * x.bufsz →
        r.stored = i * x.bufsz → ∃ t, exec (.rxBufferNeed p data) s = .next t ∧ t.clk = s.clk
          ∧ (port t.dev p).rx = some { r' with buffers := r.buffers ++ [(desc, addr)], stored := b.length }
          ∧ getBytes t.dev addr (b.length - r.stored) = b.drop r.stored ∧ sameOutside addr (b.length - r.stored) s.dev t.dev
          ∧ rd t.dev (Reg.SPORT_RXQ_HEAD p q) = rd s.dev (Reg.SPORT_RXQ_HEAD p q)) ∧
      (i < rxOwned s.dev p q → x.log2 ≤ 16 → (∀ w ∈ wordsOf desc 8, errOf s.dev w = .none) → inShared s.dev addr x.bufsz = false →
        ∃ t, exec (.rxBufferNeed p data) s = .next t ∧ t.clk = s.clk ∧ (port t.dev p).rx = some { r' with dropped := true }
          ∧ rb t.dev (Reg.SPORT_RX_EVENT p) 2 = true ∧ sameOutside (desc + 8) 24 s.dev t.dev
          ∧ rf t.dev (Reg.SPORT_RXQ_HEAD p q) 0 16 = (rxHead s.dev p q + (i + 1)) % 2 ^ x.log2) ∧
      (rxOwned s.dev p q ≤ i → ∃ t, exec (.rxBufferNeed p data) s = .next t ∧ t.clk = s.clk ∧ sameMemory s.dev t.dev
        ∧ (port t.dev p).rx = some { r' with dropped := true } ∧ rb t.dev (Reg.SPORT_RX_EVENT p) 3 = true
        ∧ rd t.dev (Reg.SPORT_RXQ_HEAD p q) = rd s.dev (Reg.SPORT_RXQ_HEAD p q)
        ∧ rd t.dev (Reg.SPORT_RXQ_NOBUF_DROP p q) = w32 (min (2 ^ 32 - 1) ((rd s.dev (Reg.SPORT_RXQ_NOBUF_DROP p q)).toNat + 1))))) ∧
  (∀ (p : Fin 10) (data : List W8) (err : Bool) (s : State) (r : RxFrame), (port s.dev p).rx = some r →
    let l := r.bytes ++ data
    let c := Reg.SPORT_RX_ERR p
    let len := l.length < 64 ∨ 9216 < l.length
    (len ∨ err = true ∨ fcsOk l = false → ∃ t : State, exec (.rxFrameEnd p data err) s = nextDev s (latchSettle s.clk t.dev) ∧ t.clk = s.clk ∧ (port t.dev p).rx = none
      ∧ rb t.dev (Reg.SPORT_RX_EVENT p) 0 = true ∧ t.dev = { s.dev with ports := t.dev.ports, regs := t.dev.regs, msix := t.dev.msix }
      ∧ (len → rf t.dev c 0 16 = min 0xFFFF (rf s.dev c 0 16 + 1))
      ∧ (¬ len → rf t.dev c 16 16 = min 0xFFFF (rf s.dev c 16 16 + 1)))) ∧
  (∀ (p : Fin 10) (data : List W8) (s : State) (r : RxFrame), (port s.dev p).rx = some r → r.judged = none → r.buffers = [] → r.stored = 0 →
    r.dropped = false →
    let l := r.bytes ++ data
    let j := strain s.dev p l
    let got (k : Nat) : Received := { port := p, stamp := r.stamp, bytes := l, stream := k }
    let drops (lo : Nat) (t : State) : Prop := sameMemory s.dev t.dev ∧ rb t.dev (Reg.SPORT_RX_EVENT p) 1 = true
      ∧ rf t.dev (Reg.SPORT_RX_DROP p) lo 16 = min 0xFFFF (rf s.dev (Reg.SPORT_RX_DROP p) lo 16 + 1)
    64 ≤ l.length → l.length ≤ 9216 → fcsOk l = true → be16 l 12 ≠ 0x8808 → bit j.word 27 = false → (port s.dev p).half = false →
    ∃ t : State, exec (.rxFrameEnd p data false) s = nextDev s (latchSettle s.clk t.dev) ∧ t.clk = s.clk ∧ (port t.dev p).rx = none
      ∧ rd64 t.dev (Reg.SPORT_RX_FRAMES_LO p) = w64 (min (2 ^ 64 - 1) ((rd64 s.dev (Reg.SPORT_RX_FRAMES_LO p)).toNat + 1))
      ∧ t.dev.sacnRx = s.dev.sacnRx ++ (if j.action = .sacn then [got 0] else [])
      ∧ t.dev.stRx = s.dev.stRx ++ (match j.action with | .st k => [got k] | _ => [])
      ∧ t.dev.fwRx = s.dev.fwRx ++ (if j.action = .firmware ∧ s.dev.fwRx.length < Config.fwPathFrames then [got 0] else [])
      ∧ (j.action = .drop → drops 16 t) ∧ (j.action = .firmware → Config.fwPathFrames ≤ s.dev.fwRx.length → drops 0 t)
      ∧ ∀ q, j.action = .ring q →
          let x := (port s.dev p).rxRing q
          let desc := x.base + rxHead s.dev p q * 32
          let addr := ofLe ((getBytes s.dev desc 8).take 6) / 64 * 64
          let b := rxStream x { r with bytes := l, judged := some j }
          (x.enabled = false → drops 0 t) ∧
          (x.enabled = true → x.log2 ≤ 16 → 1 ≤ rxOwned s.dev p q → (∀ w ∈ wordsOf desc 8, errOf s.dev w = .none) → inShared s.dev addr x.bufsz = true →
            0 < b.length → b.length ≤ x.bufsz → (addr + x.bufsz ≤ desc ∨ desc + 32 ≤ addr) →
            getBytes t.dev addr b.length = b ∧ ofLe (getBytes t.dev (desc + 8) 8) = (shortOf r.stamp).toNat
              ∧ ofLe (getBytes t.dev (desc + 24) 8) = 15 * 2 ^ 60 + bnat j.entry.isNone * 2 ^ 59 + x.strips (tagCount s.dev p l) * 2 ^ 56
                  + j.entry.getD 0 * 2 ^ 48 + b.length * 2 ^ 32 + b.length
              ∧ rf t.dev (Reg.SPORT_RXQ_HEAD p q) 0 16 = (rxHead s.dev p q + 1) % 2 ^ x.log2
              ∧ ∀ y, (y < addr ∨ addr + b.length ≤ y) → (y < desc + 8 ∨ desc + 32 ≤ y) → getByte t.dev y = getByte s.dev y))

/-- R225, R231, R234 and R237 to R239 for the RXQ registers, SAUCER_POP and one-step insertion. -/
def Obligations.ReceiveRings : Prop :=
  (∀ (req : Req) (p : Fin 10) (q : Fin 8) (v : W32) (s : State), csrShut s.dev (Reg.SPORT_RXQ_CTL p q) = false →
    let r := (port s.dev p).rxRing q
    let base := (rd64 s.dev (Reg.SPORT_RXQ_BASE_LO p q)).toNat % 2 ^ 48 / 64 * 64
    let n := log2Of (fld v 0 5)
    (bit v 31 = true → r.enabled = false → inShared s.dev base (2 ^ n * 32) = true →
      ∃ t, exec (.rxqEnable req p q v) s = .next t ∧ t.clk = s.clk ∧ t.dev.mem = s.dev.mem ∧ (port t.dev p).rxRing q = { r with
          enabled := true, base, log2 := n, bufsz := min 144 (max 4 (fld v 8 8)) * 64, strip := fld v 18 2, keepFcs := bit v 21 }
        ∧ rf t.dev (Reg.SPORT_RXQ_HEAD p q) 0 16 = rf s.dev (Reg.SPORT_RXQ_HEAD p q) 0 16 % 2 ^ n
        ∧ sameRegsBut [Reg.SPORT_RXQ_CTL p q, Reg.SPORT_RXQ_HEAD p q] s.dev t.dev) ∧
    (bit v 31 = true → r.enabled = false → inShared s.dev base (2 ^ n * 32) = false →
      ∃ t, exec (.rxqEnable req p q v) s = .next t ∧ t.clk = s.clk ∧ rb t.dev (Reg.SPORT_RXQ_CTL p q) 31 = false
        ∧ rb t.dev (Reg.SPORT_RX_EVENT p) 2 = true ∧ onlyThese [Reg.SPORT_RXQ_CTL p q, Reg.SPORT_RX_EVENT p] (noted t.dev s.dev) t.dev) ∧
    (bit v 31 = false → r.enabled = true → ∃ t, exec (.rxqDisable req p q v) s = .next t ∧ t.clk = s.clk ∧ t.dev.mem = s.dev.mem
        ∧ (port t.dev p).rxRing q = { r with enabled := false } ∧ sameRegsBut [Reg.SPORT_RXQ_CTL p q] s.dev t.dev
        ∧ ∀ f, (port s.dev p).rx = some f → (port t.dev p).rx =
            some (if f.judged.map Judged.action = some (.ring q) then { f with dropped := true } else f))) ∧
  (∀ (req : Req) (p : Fin 10) (q : Fin 8) (v : W32) (s : State) (c : Instr) (a : Nat) (tail wm : Nat),
    (c = .rxqTailWrite req p q v ∧ a = Reg.SPORT_RXQ_TAIL p q ∧ tail = fld v 0 16 ∧ wm = rf s.dev (Reg.SPORT_RXQ_WM p q) 0 16) ∨
    (c = .ringWmWrite req p q v ∧ a = Reg.SPORT_RXQ_WM p q ∧ tail = rf s.dev (Reg.SPORT_RXQ_TAIL p q) 0 16 ∧ wm = fld v 0 16) →
    csrShut s.dev a = false →
    let r := (port s.dev p).rxRing q
    let n := 2 ^ r.log2
    let level := n - 1 - (tail % n + n - rf s.dev (Reg.SPORT_RXQ_HEAD p q) 0 16 % n) % n
    let above := decide (wm ≠ 0 ∧ wm ≤ level)
    let crosses := above && !r.above
    ∃ t, exec c s = .next t ∧ t.clk = s.clk ∧ t.dev.mem = s.dev.mem ∧ rf t.dev a 0 16 = fld v 0 16
      ∧ (port t.dev p).rxRing q = { r with above }
      ∧ rd t.dev (Reg.SPORT_RXQ_WM_CROSSINGS p q) = (if crosses then w32 (min (2 ^ 32 - 1) ((rd s.dev (Reg.SPORT_RXQ_WM_CROSSINGS p q)).toNat + 1))
          else rd s.dev (Reg.SPORT_RXQ_WM_CROSSINGS p q))
      ∧ rb t.dev (Reg.SPORT_RX_WM_EVENT p) q = (crosses || rb s.dev (Reg.SPORT_RX_WM_EVENT p) q)
      ∧ sameRegsBut [a, Reg.SPORT_RXQ_WM_CROSSINGS p q, Reg.SPORT_RX_WM_EVENT p] s.dev t.dev) ∧
  (∀ (req : Req) (p : Fin 10) (s : State), csrShut s.dev (Reg.SPORT_SAUCER_SEC_LO p) = false →
    let shows (data hi ns frac info : W32) (t : State) : Prop := t.clk = s.clk ∧ t.dev.bus.data = data
      ∧ rd t.dev (snapOf req (Reg.SPORT_SAUCER_SEC_HI p)) = hi ∧ rd t.dev (snapOf req (Reg.SPORT_SAUCER_NS p)) = ns
      ∧ rd t.dev (snapOf req (Reg.SPORT_SAUCER_FRAC p)) = frac ∧ rd t.dev (snapOf req (Reg.SPORT_SAUCER_INFO p)) = info
      ∧ sameRegsBut [snapOf req (Reg.SPORT_SAUCER_SEC_HI p), snapOf req (Reg.SPORT_SAUCER_NS p), snapOf req (Reg.SPORT_SAUCER_FRAC p),
          snapOf req (Reg.SPORT_SAUCER_INFO p)] s.dev t.dev
    (∀ x r, (port s.dev p).saucer = x :: r → ∃ t, exec (.saucerPop req p) s = .next t ∧ port t.dev p = { port s.dev p with saucer := r }
      ∧ shows (lo32 (secOf x.time)) (hi32 (secOf x.time)) (nsOf x.time) (fracOf x.time) (w32 (x.ring * 2 ^ 16 + x.tag.toNat)) t) ∧
    ((port s.dev p).saucer = [] → ∃ t, exec (.saucerPop req p) s = .next t ∧ port t.dev p = port s.dev p ∧ shows 0 0 0x80000000 0 0 t)) ∧
  (∀ (p q desc : Nat) (f : TxFrame) (t : Time) (d : Dev) (m : Nat) (udp : Option (Nat × Nat)), f.origin = .ring q desc →
    rb d (Reg.SPORT_PTP_CTL p) q = true → ptpAt f.bytes (12 + f.tags) = some (m, udp) → m + 44 ≤ f.bytes.length →
    fld (byteAt f.bytes m) 0 4 = 0 → bit (byteAt f.bytes (m + 6)) 1 = false → (port d p).half = false →
    (∀ u, udp = some (u, 6) → 8 + be16 f.bytes (m + 2) + 2 ≤ be16 f.bytes (u + 4) ∧ u + be16 f.bytes (u + 4) ≤ f.bytes.length
      ∧ 44 ≤ be16 f.bytes (m + 2)) →
    let at' := t + spanOf ((port d p).byteTime p)
    let l := f.bytes
    let y := oneStep p f t d
    let l' := y.1.bytes
    l'.length = l.length ∧ rf y.2 (Reg.SPORT_PTP_COUNT p) 0 16 = min 0xFFFF (rf d (Reg.SPORT_PTP_COUNT p) 0 16 + 1)
      ∧ ofBe (slice l' (m + 34) 6) = (secOf at').toNat % 2 ^ 48 ∧ ofBe (slice l' (m + 40) 4) = (nsOf at').toNat
      ∧ ofBe (slice l' (m + 8) 8) = (ofBe (slice l (m + 8) 8) + (fracOf at').toNat / 2 ^ 16) % 2 ^ 64
      ∧ (udp = none → ∀ i, (i < m + 8 ∨ (m + 16 ≤ i ∧ i < m + 34) ∨ m + 44 ≤ i) → byteAt l' i = byteAt l i)
      ∧ (∀ u, udp = some (u, 4) → byteAt l' (u + 6) = 0 ∧ byteAt l' (u + 7) = 0)
      ∧ (∀ u, udp = some (u, 6) → sum16 (slice l' u (be16 l (u + 4))) = sum16 (slice l u (be16 l (u + 4)))))

/-- R243 to R250 for PACK_UNIV_WRITE, PACK_UNIV_READ, SACN_RECORD and RECORD_DEADLINE, and the packet of R247. A record of a frame earlier than A
is discarded, and one of a later frame waits (R245); that records behind a waiting one pass it is the model's choice (log entry 46). -/
def Obligations.SacnPacker : Prop :=
  let offered (u : Nat) (f : W64) (b : Time) (term : Bool) (img : List W8) (s t : State) : Prop :=
    (univAt t.dev u).seq = ((univAt s.dev u).seq + 1) % 256 ∧ ∀ p < 8, (port t.dev p).cal = (port s.dev p).cal
      ∧ (port t.dev p).offers = (port s.dev p).offers ++
      (match bit (univWord s.dev u 3) (20 + p), packDest s.dev (fld (univWord s.dev u 3) 28 2) u (fld (univWord s.dev u 0) 0 8) with
        | true, some dst =>
          let bytes := buildFrame (tagBytes s.dev p 8) (udpFrame s.dev p dst (dataPacket s.dev u (univAt s.dev u).seq term img))
          let l := univW s.dev u p b
          [{ origin := .packer 0 u f, launch := l / fine, frac := (l % fine).toNat, bytes }]
        | _, _ => [])
  (∀ (req : Req) (s : State), csrShut s.dev Reg.PACK_UNIV_CMD = false →
    let u := rf s.dev (ownOf req Reg.PACK_UNIV_IDX) 0 16
    let word (w : Nat) : W32 := rd s.dev (ownOf req (Reg.PACK_UNIV_DATA w)) &&& ([0xFF, 0xFFFF0FFF, 0xFFFF03FF, 0xFFFF3FFF] : List W32).getD w 0
    (u = 0 ∨ 63999 < u → exec (.packUnivWrite req) s = .next s) ∧
    (1 ≤ u → u ≤ 63999 → ∃ t, exec (.packUnivWrite req) s = .next t ∧ t.clk = s.clk ∧ (∀ w < 4, univWord t.dev u w = word w)
      ∧ (∀ v w, v ≠ u → w < 4 → univWord t.dev v w = univWord s.dev v w) ∧ (univAt t.dev u).seq = (univAt s.dev u).seq
      ∧ (∀ v, v ≠ u → univAt t.dev v = univAt s.dev v)
      ∧ (univOn s.dev u = false → bit (word 3) 31 = true → (univAt t.dev u).asm = asmBegin s.clk s.dev ∧ (univAt t.dev u).term = 0
          ∧ (imageBad s.dev u = false → getBytes t.dev (imageAt s.dev u) 512 = List.replicate 512 0)
          ∧ sameOutside (imageAt s.dev u) 512 s.dev t.dev)
      ∧ (univOn s.dev u = true → bit (word 3) 31 = false → (univAt t.dev u).term = 3 ∧ sameMemory s.dev t.dev)
      ∧ (univOn s.dev u = bit (word 3) 31 → univAt t.dev u = univAt s.dev u ∧ sameMemory s.dev t.dev)) ∧
    (u ≤ 63999 → ∃ t, exec (.packUnivRead req) s = .next t ∧ t.clk = s.clk
      ∧ (∀ w < 4, rd t.dev (ownOf req (Reg.PACK_UNIV_DATA w)) = univWord s.dev u w)
      ∧ onlyThese ((List.range 4).map fun w => ownOf req (Reg.PACK_UNIV_DATA w)) s.dev t.dev)) ∧
  (∀ (a : W64) (f : Nat), f < 2 ^ 18 →
    (recordAge a f = 0 ↔ a.toNat % 2 ^ 18 = f) ∧ (recordAge a f = 2 ↔ 2 ^ 17 ≤ (a.toNat + 2 ^ 18 - f) % 2 ^ 18) ∧ recordAge a f ≤ 2) ∧
  (∀ (k : Clk) (d : Dev) (r : Rec), let u := fld r.dest 16 16
    sacnAccepts k d r = false ↔ sacnOut k d = true ∧ univOn d u = true ∧ imageBad d u = false
      ∧ ∃ a, (univAt d u).asm.number k d = some a ∧ recordAge a (keyFrame r.key) = 2) ∧
  (∀ s : State, (∀ r ∈ s.dev.pack.inbox, sacnAccepts s.clk s.dev r = false) → exec .sacnRecord s = .next s) ∧
  (∀ (s : State) (r : Rec) (l1 l2 : List Rec), s.dev.pack.inbox = l1 ++ r :: l2 → (∀ x ∈ l1, sacnAccepts s.clk s.dev x = false) →
    let l := l1 ++ l2
    let u := fld r.dest 16 16
    let d := onPack (fun p => { p with inbox := l }) s.dev
    let drops (ev : Nat) : Prop := ∃ t, exec .sacnRecord s = .next t ∧ t.clk = s.clk ∧ rb t.dev Reg.PACK_EVENT ev = true
      ∧ rd t.dev Reg.PACK_UNKNOWN = w32 (min (2 ^ 32 - 1) ((rd s.dev Reg.PACK_UNKNOWN).toNat + 1))
      ∧ onlyThese [Reg.PACK_EVENT, Reg.PACK_UNKNOWN] d t.dev
    (sacnOut s.clk s.dev = false → exec .sacnRecord s = nextDev s d) ∧
    (sacnOut s.clk s.dev = true → univOn s.dev u = false → drops 3) ∧
    (sacnOut s.clk s.dev = true → univOn s.dev u = true → imageBad s.dev u = true → drops 6) ∧
    ∀ a, sacnOut s.clk s.dev = true → univOn s.dev u = true → imageBad s.dev u = false → (univAt s.dev u).asm.number s.clk s.dev = some a →
      (recordAge a (keyFrame r.key) = 1 → exec .sacnRecord s = nextDev s d) ∧
      (recordAge a (keyFrame r.key) = 0 → fld r.dest 0 9 + r.data.length ≤ 512 →
        let x := univAt s.dev u
        let at' := imageAt s.dev u
        let img := splice (getBytes s.dev (if x.asm.begun then at' + 512 else at') 512) (fld r.dest 0 9) r.data
        ∃ t, exec .sacnRecord s = .next t ∧ t.clk = s.clk ∧ t.dev.pack.inbox = l ∧ getBytes t.dev (at' + 512) 512 = img
          ∧ (x.asm.count + 1 < univRecords s.dev u → sameOutside (at' + 512) 512 s.dev t.dev
              ∧ univAt t.dev u = { x with asm := { x.asm with count := x.asm.count + 1, begun := true } })
          ∧ (univRecords s.dev u ≤ x.asm.count + 1 → sameOutside at' 1024 s.dev t.dev ∧ getBytes t.dev at' 512 = img
              ∧ (univAt t.dev u).asm = { frame := some (a + 1) } ∧ ∀ b, frameInstant s.clk s.dev a = some b → offered u a b false img s t))) ∧
  (∀ (u : W16) (s : State),
    let n := u.toNat
    let x := univAt s.dev n
    (sacnOut s.clk s.dev = false ∨ (univOn s.dev n = false ∧ x.term = 0) → exec (.recordDeadline u) s = .next s) ∧
    (∀ g, sacnOut s.clk s.dev = true → x.asm.first = true → s.dev.frm.firstDone = false → s.dev.frm.run = some g → imageBad s.dev n = false →
      let i := nextIndex s.dev
      let f := numberFor s.dev i
      let img := getBytes s.dev (imageAt s.dev n) 512
      (now s.clk < univDeadline s.dev n (g.at i) → exec (.recordDeadline u) s = .next s) ∧
      (univDeadline s.dev n (g.at i) ≤ now s.clk →
        (univOn s.dev n = true → ∃ t, exec (.recordDeadline u) s = .next t ∧ t.clk = s.clk ∧ sameMemory s.dev t.dev
          ∧ (univAt t.dev n).asm = { x.asm with first := false } ∧ offered n f (g.at i) false img s t) ∧
        (univOn s.dev n = false → x.term ≠ 0 → ∃ t, exec (.recordDeadline u) s = .next t ∧ t.clk = s.clk ∧ sameMemory s.dev t.dev
          ∧ (univAt t.dev n).term = x.term - 1 ∧ offered n f (g.at i) true img s t))) ∧
    ∀ a b, sacnOut s.clk s.dev = true → (x.asm.first = false ∨ s.dev.frm.firstDone = true) → x.asm.number s.clk s.dev = some a →
      frameInstant s.clk s.dev a = some b → imageBad s.dev n = false →
      (now s.clk < univDeadline s.dev n b → exec (.recordDeadline u) s = .next s) ∧
      (univDeadline s.dev n b ≤ now s.clk → univOn s.dev n = true → ∃ t, exec (.recordDeadline u) s = .next t ∧ t.clk = s.clk
        ∧ sameMemory s.dev t.dev ∧ (univAt t.dev n).asm = { frame := some (a + 1) }
        ∧ offered n a b false (getBytes s.dev (imageAt s.dev n) 512) s t
        ∧ (uncounted s.clk s.dev a = false → rb t.dev Reg.PACK_EVENT 0 = true
            ∧ (∀ p < 8, bit (univWord s.dev n 3) (20 + p) = true →
                rd t.dev (Reg.PACK_FRAME_LATE p) = w32 (min (2 ^ 32 - 1) ((rd s.dev (Reg.PACK_FRAME_LATE p)).toNat + 1)))
            ∧ (let f := fld (univWord s.dev n 1) 0 12; Tab.get 0 t.dev.pack.late f = w32 (min (2 ^ 32 - 1) ((Tab.get 0 s.dev.pack.late f).toNat + 1))))) ∧
      (univDeadline s.dev n b ≤ now s.clk → univOn s.dev n = false → x.term ≠ 0 → ∃ t, exec (.recordDeadline u) s = .next t ∧ t.clk = s.clk
        ∧ sameMemory s.dev t.dev ∧ (univAt t.dev n).term = x.term - 1 ∧ offered n a b true (getBytes s.dev (imageAt s.dev n) 512) s t)) ∧
  (∀ (d : Dev) (u seq : Nat) (term : Bool) (img : List W8), u < 2 ^ 16 → seq < 256 → img.length = 512 →
    let n := univSlots d u
    let l := dataPacket d u seq term img
    l.length = 126 + n ∧ be16 l 16 = 0x7000 + 110 + n ∧ be16 l 38 = 0x7000 + 88 + n ∧ (byteAt l 108).toNat = min 200 (fld (univWord d u 2) 24 8)
      ∧ be16 l 109 = univSync d u ∧ (byteAt l 111).toNat = seq
      ∧ (byteAt l 112).toNat = bnat (bit (univWord d u 3) 30) * 128 + bnat term * 64 ∧ be16 l 113 = u
      ∧ be16 l 115 = 0x7000 + 11 + n ∧ be16 l 123 = n + 1 ∧ (byteAt l 125).toNat = fld (univWord d u 2) 16 8 ∧ l.drop 126 = img.take n
      ∧ (fld (univWord d u 2) 16 8 = 0 → dataPacketOk l = true))

/-- R250 to R258 and R268 for SYNC_PACKET_BUILD, DISCOVERY, the sACN receiver, ST2110_PACKET and TRAZH_COMPOSE. The layouts of the pixel groups are
PRESUMED from SMPTE ST 2110-20, and that the marker completes every other group is DEDUCED (log entry 48: the model's reading); that the words of a
group are read with its first packet is its choice (log entry 98). -/
def Obligations.PackersAndEngines : Prop :=
  (∀ (p : Fin 8) (s : State),
    let y := syncPort s.dev p
    let ctl := rd s.dev (Reg.PACK_PORT_SYNC p)
    let ready (i : Nat) (b : Time) : Time := slotLaunch s.dev p (fld ctl 0 14 + i) b - (stageLead s.dev p + 2000 : Nat) * ns1
    let sends (f : W64) (b : Time) (i a u : Nat) (t : State) : Prop := t.clk = s.clk ∧ sameMemory s.dev t.dev
      ∧ (∀ q < 8, q ≠ p.val → port t.dev q = port s.dev q)
      ∧ (∀ dst, packDest s.dev (fld (univWord s.dev u 3) 28 2) a (fld (univWord s.dev u 0) 0 8) = some dst →
          let bytes := buildFrame (tagBytes s.dev p 8) (udpFrame s.dev p dst (syncPacket s.dev a (syncNumber a f s.dev).1))
          let l := slotW s.dev p (fld ctl 0 14 + i) b
          (port t.dev p).offers = (port s.dev p).offers ++ [{ origin := .packer 1 a f, launch := l / fine, frac := (l % fine).toNat, bytes }])
    (sacnOut s.clk s.dev = false ∨ bit ctl 31 = false → exec (.syncPacketBuild p) s = .next s) ∧
    (sacnOut s.clk s.dev = true → bit ctl 31 = true →
      (∀ g b i l, y.older = (g, b, i) :: l →
        ((syncAddrs s.dev p)[i]? = none → exec (.syncPacketBuild p) s = nextDev s (setSync p { y with older := l } s.dev)) ∧
        ∀ a u, (syncAddrs s.dev p)[i]? = some (a, u) → ready i b ≤ now s.clk →
          ∃ t, exec (.syncPacketBuild p) s = .next t ∧ sends g b i a u t ∧ syncPort t.dev p = { y with older := (g, b, i + 1) :: l }) ∧
      ∀ f b, y.older = [] → (y.frame <|> runFrame s.clk s.dev) = some f → frameInstant s.clk s.dev f = some b →
        ∀ a u, (syncAddrs s.dev p)[y.index]? = some (a, u) →
          (now s.clk < ready y.index b → exec (.syncPacketBuild p) s = .next s) ∧
          (ready y.index b ≤ now s.clk → ∃ t, exec (.syncPacketBuild p) s = .next t ∧ sends f b y.index a u t
            ∧ syncPort t.dev p = if y.index + 1 < (syncAddrs s.dev p).length then { y with frame := some f, index := y.index + 1 }
                else { y with frame := some (f + 1), index := 0 }))) ∧
  (∀ (d : Dev) (a seq : Nat), a < 2 ^ 16 → seq < 256 → let l := syncPacket d a seq
    l.length = 49 ∧ be16 l 16 = 0x7021 ∧ ofBe (slice l 18 4) = 8 ∧ be16 l 38 = 0x700B ∧ ofBe (slice l 40 4) = 1 ∧ (byteAt l 44).toNat = seq
      ∧ be16 l 45 = a ∧ be16 l 47 = 0) ∧
  (∀ s : State, let due' := rb s.dev Reg.PACK_CTL 0 && rb s.dev Reg.PACK_DISC_CTL 31 && s.dev.pack.discTick.elim true (fun t => decide (12500000000 ≤ since s.clk t))
    (due' = false → exec .discovery s = .next s) ∧
    (due' = true → ∃ t, exec .discovery s = .next t ∧ t.clk = s.clk ∧ sameMemory s.dev t.dev ∧ t.dev.pack = { s.dev.pack with discTick := some s.clk.ticks }
      ∧ ∀ p < 8, (port s.dev p).enabled = true → suppresses s.dev.pair.mode = false →
          let q := rf s.dev Reg.PACK_DISC_CTL 0 3
          let us := (univsOn s.dev).filter fun u => bit (univWord s.dev u 3) (20 + p)
          ∃ l, ((port t.dev p).ring q).frames = ((port s.dev p).ring q).frames ++ l ∧ l.length = (us.length - 1) / 512 + 1
            ∧ ∀ f ∈ l, f.origin = .packer 3 q 0)) ∧
  (∀ (s : State) (r : Received) (l : List Received), s.dev.sacnRx = r :: l →
    let d := { s.dev with sacnRx := l }
    let c := Reg.PACK_IN_COUNT
    let counts (lo : Nat) : Prop := exec .sacnInPacket s = nextDev s (wrFld c lo 16 (min 0xFFFF (rf s.dev c lo 16 + 1)) d)
    (rb s.dev Reg.PACK_CTL 1 = false → exec .sacnInPacket s = nextDev s d) ∧
    (rb s.dev Reg.PACK_CTL 1 = true → inTime r s.clk s.dev = false → exec .sacnInPacket s = .next s) ∧
    (rb s.dev Reg.PACK_CTL 1 = true → inTime r s.clk s.dev = true →
      (udpOf s.dev r = none ∨ (∃ n m, udpOf s.dev r = some (n, m) ∧ (n ≠ 5568 ∨ dataPacketOk m = false)) → counts 16) ∧
      ∀ m, udpOf s.dev r = some (5568, m) → dataPacketOk m = true →
        let found := (inputsOn s.dev).find? fun e => fld (inWord s.dev e 3) 0 16 == be16 m 113
        (found = none → counts 16) ∧
        ∀ e, found = some e →
          let x := inEntry s.dev e
          let src := fld (inWord s.dev e 3) 16 4
          let old := x.seq.elim false fun z => decide (-19 ≤ signExt 8 ((byteAt m 111).toNat + 256 - z) ∧ signExt 8 ((byteAt m 111).toNat + 256 - z) ≤ 0)
          let low := x.kept.elim false fun z => decide ((byteAt m 108).toNat < z.prio)
          let preview := bit (byteAt m 112) 7 && !bit (inWord s.dev e 3) 30
          (src ≠ 0 → inCid s.dev src ≠ slice m 22 16 → counts 16) ∧
          (src = 0 ∨ inCid s.dev src = slice m 22 16 → (preview || old || low) = true → counts 0) ∧
          (src = 0 ∨ inCid s.dev src = slice m 22 16 → (preview || old || low) = false → exec .sacnInPacket s = nextDev s (setInEntry e { x with
            kept := some ⟨r.stamp, (byteAt m 108).toNat, (byteAt m 111).toNat, be16 m 123, slice m 22 16, slice m 125 (be16 m 123)⟩
            seq := some (byteAt m 111).toNat, keptTick := s.clk.ticks, loss := false, mirrored := r.mirrored } d)))) ∧
  (∀ (e : Fin 4096) (s : State), let x := inEntry s.dev e
    let lost := rb s.dev Reg.PACK_CTL 1 && bit (inWord s.dev e 3) 31 && !x.loss && decide (3125000000 ≤ since s.clk x.keptTick)
    (lost = false → exec (.inLoss e) s = .next s) ∧
    (lost = true → ∃ t, exec (.inLoss e) s = .next t ∧ t.clk = s.clk ∧ rb t.dev Reg.PACK_EVENT 4 = true
      ∧ onlyThese [Reg.PACK_EVENT] (setInEntry e { x with loss := true } s.dev) t.dev)) ∧
  (∀ (req : Req) (s : State), csrShut s.dev Reg.PACK_IN_CMD = false →
    let e := rf s.dev (ownOf req Reg.PACK_IN_IDX) 0 12
    (∃ t, exec (.packInWrite req) s = .next t ∧ t.clk = s.clk ∧ sameMemory s.dev t.dev ∧ t.dev.regs = s.dev.regs
      ∧ (∀ w < 4, inWord t.dev e w = rd s.dev (ownOf req (Reg.PACK_IN_DATA w)) &&& ([0, 0xFFFFFFFF, 0x3FFF, 0xF80FFFFF] : List W32).getD w 0)
      ∧ ∀ g w, g ≠ e → w < 4 → inWord t.dev g w = inWord s.dev g w) ∧
    (∃ t, exec (.packInRead req) s = .next t ∧ t.clk = s.clk ∧ (∀ w < 4, rd t.dev (ownOf req (Reg.PACK_IN_DATA w)) = inWord s.dev e w)
      ∧ onlyThese ((List.range 4).map fun w => ownOf req (Reg.PACK_IN_DATA w)) s.dev t.dev)) ∧
  (∀ (s : State) (r : Received) (l : List Received), s.dev.stRx = r :: l → r.stream < 8 →
    let n := r.stream
    let d := { s.dev with stRx := l }
    let lost (t : State) : Prop := rd t.dev (Reg.ST_LOST n) = w32 (min (2 ^ 32 - 1) ((rd s.dev (Reg.ST_LOST n)).toNat + 1))
    (rb s.dev Reg.PACK_CTL 2 = false ∨ rb s.dev (Reg.ST_CTL n) 31 = false → exec .st2110Packet s = nextDev s d) ∧
    (rb s.dev Reg.PACK_CTL 2 = true → rb s.dev (Reg.ST_CTL n) 31 = true →
      (udpOf s.dev r = none → ∃ t, exec .st2110Packet s = .next t ∧ t.clk = s.clk ∧ lost t ∧ onlyThese [Reg.ST_LOST n] d t.dev) ∧
      ∀ dport m segs i, udpOf s.dev r = some (dport, m) → 20 ≤ m.length → fld (byteAt m 0) 6 2 = 2 → fld (byteAt m 0) 0 4 = 0 →
        segments m 3 14 = some (segs, i) →
        let x := stStream s.dev n
        let desc := surfDesc s.dev (stSurface s.dev n x.buf)
        let seq := be16 m 12 * 2 ^ 16 + be16 m 2
        let bad := !stFormatOk s.dev n (descFormat desc) || segs.any fun g => decide (descHeight desc ≤ g.row)
        x.seq = none ∨ x.seq = some seq →
        ∃ t, exec .st2110Packet s = .next t ∧ t.clk = s.clk ∧ t.dev.stRx = l ∧ (stStream t.dev n).seq = some ((seq + 1) % 2 ^ 32)
          ∧ (stStream t.dev n).buf = (if bit (byteAt m 1) 7 then (x.buf + 1) % stBuffers s.dev n else x.buf)
          ∧ (bad = true → lost t ∧ rb t.dev Reg.PACK_EVENT 5 = true ∧ sameMemory s.dev t.dev
              ∧ (bit (byteAt m 1) 7 = false → (stStream t.dev n).leaves = x.leaves))
          ∧ (bad = false → rd t.dev (Reg.ST_LOST n) = rd s.dev (Reg.ST_LOST n))
          ∧ ∃ new, (stStream t.dev n).leaves = x.leaves ++ new ∧ (∀ y ∈ new, y.1 = r.stamp ∧ y.2.2.toNat % 2 ^ 32 = ofBe (slice m 4 4))
              ∧ (x.buf < 4 → bit (byteAt m 1) 7 = false → ∀ y ∈ new, bit y.2.2 63 = false)
              ∧ (x.buf < 4 → bit (byteAt m 1) 7 = true → new ≠ [] → ∃ y ∈ new, bit y.2.2 63 = true)
              ∧ (bit (byteAt m 1) 7 = true → ∀ g < (descHeight desc + stGroupRows s.dev n - 1) / stGroupRows s.dev n, g ∉ x.groups →
                  ∃ y ∈ new, y.2.1 = g))) ∧
  (∀ (s : List W32) (x y : Nat) (cb y0 cr y1 : W8), x + 1 < descWidth s → x / 2 < descWidth s / 2 →
    pgroupWrites s false false x y [cb, y0, cr, y1] = [(ketBase + (texelSpan s 1 (x / 2) y 0).1, [cb]), (ketBase + (texelSpan s 0 x y 0).1, [y0]),
      (ketBase + (texelSpan s 2 (x / 2) y 0).1, [cr]), (ketBase + (texelSpan s 0 (x + 1) y 0).1, [y1])]) ∧
  (∀ (h : Fin 4) (s : State) (x : Head) (u : Timing) (z : List W32) (oc : W32), trazhSet s.dev h = some (x, u, z, oc) →
    let y := trazh s.dev h
    let launch := if y.packet = 0 then fine * (x.vsync + groupAt (rateGrid s.dev) u z y.group)
      else y.prev + trazhStep s.dev z (trazhLen s.dev z oc u.outWidth (groupLines u z y.group) (y.packet - 1))
    y.tick = some x.vsyncTick → x.running = true → bit oc 1 = true → y.group < trazhGroups u z →
    launch / fine - (stageLead s.dev (trazhPort z) + 2000 : Nat) * ns1 ≤ now s.clk →
    ∃ t f, exec (.trazhCompose h) s = .next t ∧ t.clk = s.clk ∧ sameMemory s.dev t.dev
      ∧ (y.packet ≠ 0 ∨ (∀ w, errOf s.dev w = .none) → t.dev.regs = s.dev.regs)
      ∧ (port t.dev (trazhPort z)).offers = (port s.dev (trazhPort z)).offers ++ [f] ∧ f.launchW = launch ∧ f.launch = launch / fine ∧ f.origin = .packer 2 h x.number
      ∧ (trazh t.dev h).seq = y.seq + 1 ∧ (trazh t.dev h).prev = launch
      ∧ (y.packet + 1 = trazhPackets u.outWidth z → (trazh t.dev h).group = y.group + 1 ∧ (trazh t.dev h).packet = 0)
      ∧ (y.packet + 1 ≠ trazhPackets u.outWidth z → (trazh t.dev h).group = y.group ∧ (trazh t.dev h).packet = y.packet + 1)) ∧
  (∀ (x : Head) (t : Timing) (z : List W32) (oc : W32) (last : Bool) (launch : Time) (row lines col n : Nat) (seq : W16),
    row < 2 ^ 16 → lines < 2 ^ 16 → col < 2 ^ 16 → n < 2 ^ 16 → t.vActive < 2 ^ 16 → t.outWidth < 2 ^ 16 →
    let l := trazhHeader x t z oc last launch row lines col n seq
    l.length = 32 ∧ byteAt l 0 = 0x11 ∧ ofBe (slice l 4 4) = x.number.toNat % 2 ^ 32 ∧ ofBe (slice l 8 8) = (shortOf launch).toNat ∧ be16 l 16 = row
      ∧ be16 l 18 = lines ∧ be16 l 20 = col ∧ be16 l 22 = n ∧ be16 l 24 = seq.toNat ∧ be16 l 26 = t.outWidth ∧ be16 l 28 = t.vActive
      ∧ be16 l 30 = 0 ∧ bit (byteAt l 2) 7 = last ∧ bit (byteAt l 2) 6 = !x.renewed ∧ bit (byteAt l 2) 5 = x.free)

/-- R245 and R261 to R264 for the DMX and RDM commands. DMX_DE low on a disabled, absent or suppressed port, and UNUSED at a port that does not run
as a controller, are DEDUCED (log entry 50); the bytes of discovery and mute answers are PRESUMED from ANSI E1.20 (log entry 48); that records
behind a waiting one pass it is the model's choice (log entry 46). -/
def Obligations.DmxCommands : Prop :=
  (∀ (n : Fin 16) (s : State), let x := dmx s.dev n
    ((∀ r ∈ x.inbox, dmxAccepts s.clk s.dev r = false) → exec (.dmxRecord n) s = .next s) ∧
    ∀ r l1 l2, x.inbox = l1 ++ r :: l2 → (∀ y ∈ l1, dmxAccepts s.clk s.dev y = false) → fld r.dest 16 4 = n →
      let l := l1 ++ l2
      (running s.clk s.dev = false ∨ dmxNumber s.clk s.dev n = none →
        exec (.dmxRecord n) s = nextDev s (setDmx n { x with inbox := l } s.dev)) ∧
      (running s.clk s.dev = true → dmxNumber s.clk s.dev n ≠ none → dmxController s.dev n = false →
        ∃ t, exec (.dmxRecord n) s = .next t ∧ t.clk = s.clk ∧ onlyThese [Reg.DMX_COUNT2 n] (setDmx n { x with inbox := l } s.dev) t.dev
          ∧ rf t.dev (Reg.DMX_COUNT2 n) 16 16 = min 0xFFFF (rf s.dev (Reg.DMX_COUNT2 n) 16 16 + 1)
          ∧ rf t.dev (Reg.DMX_COUNT2 n) 0 16 = rf s.dev (Reg.DMX_COUNT2 n) 0 16) ∧
      (∀ a, dmxOut s.clk s.dev n = true → dmxNumber s.clk s.dev n = some a →
        let f := a + w64 ((keyFrame r.key + 2 ^ 18 - a.toNat % 2 ^ 18) % 2 ^ 18)
        let back := a - w64 ((a.toNat + 2 ^ 18 - keyFrame r.key) % 2 ^ 18)
        (dmxAccepts s.clk s.dev r = false ↔ recordAge a (keyFrame r.key) = 2 ∧ dmxLaunches s.dev n f = true) ∧
        (recordAge a (keyFrame r.key) = 1 → dmxLaunches s.dev n back = true →
          exec (.dmxRecord n) s = nextDev s (setDmx n { x with inbox := l } s.dev)) ∧
        ((recordAge a (keyFrame r.key) = 1 ∧ dmxLaunches s.dev n back = false) ∨ (recordAge a (keyFrame r.key) = 2 ∧ dmxLaunches s.dev n f = false) →
          ∃ t, exec (.dmxRecord n) s = .next t ∧ t.clk = s.clk ∧ onlyThese [Reg.DMX_COUNT2 n] (setDmx n { x with inbox := l } s.dev) t.dev
            ∧ rf t.dev (Reg.DMX_COUNT2 n) 16 16 = min 0xFFFF (rf s.dev (Reg.DMX_COUNT2 n) 16 16 + 1))) ∧
      ∀ a, dmxOut s.clk s.dev n = true → dmxNumber s.clk s.dev n = some a → recordAge a (keyFrame r.key) = 0 → x.sent.length = 512 → x.building.length = 512 →
        fld r.dest 0 9 + r.data.length ≤ 512 →
        let img := splice (if x.asm.begun then x.building else x.sent) (fld r.dest 0 9) r.data
        ∃ t, exec (.dmxRecord n) s = .next t ∧ t.clk = s.clk ∧ t.dev = setDmx n (dmx t.dev n) s.dev ∧ (dmx t.dev n).inbox = l
          ∧ (x.asm.count + 1 < dmxRecords s.dev n → (dmx t.dev n).building = img ∧ (dmx t.dev n).sent = x.sent
              ∧ (dmx t.dev n).asm = { frame := some a, count := x.asm.count + 1, begun := true })
          ∧ (dmxRecords s.dev n ≤ x.asm.count + 1 → (dmx t.dev n).sent = img ∧ (a, img) ∈ (dmx t.dev n).staged ∧ (dmx t.dev n).asm = { frame := some (a + 1) })) ∧
  (∀ (n : Fin 16) (s : State) (a : W64) (b : Time), dmxOut s.clk s.dev n = true → dmxNumber s.clk s.dev n = some a → frameInstant s.clk s.dev a = some b →
    let x := dmx s.dev n
    let dl := b + dmxOfs s.dev n - (rf s.dev (Reg.DMX_LEAD n) 0 10 * 1000 : Nat) * ns1
    (now s.clk < dl → exec (.dmxRecordDeadline n) s = .next s) ∧
    (dl ≤ now s.clk → ∃ t, exec (.dmxRecordDeadline n) s = .next t ∧ t.clk = s.clk ∧ sameMemory s.dev t.dev
      ∧ (dmx t.dev n).asm = { frame := some (a + 1) } ∧ (x.sent.length = 512 → (dmx t.dev n).sent = x.sent)
      ∧ (∀ m, m ≠ n.val → dmx t.dev m = dmx s.dev m)
      ∧ (uncounted s.clk s.dev a = false → rb t.dev (Reg.DMX_EVENT n) 0 = true
          ∧ rf t.dev (Reg.DMX_COUNT n) 0 16 = min 0xFFFF (rf s.dev (Reg.DMX_COUNT n) 0 16 + 1)
          ∧ (let f := rf s.dev (Reg.DMX_SRC n) 16 12; Tab.get 0 t.dev.pack.late f = w32 (min (2 ^ 32 - 1) ((Tab.get 0 s.dev.pack.late f).toNat + 1)))))) ∧
  (∀ (n : Fin 16) (s : State), let x := dmx s.dev n
    let f := s.dev.frm.lastFrame
    let at' := s.dev.frm.lastB + dmxOfs s.dev n
    (s.dev.sys.tripped = true ∨ dmxController s.dev n = false ∨ s.dev.frm.run = none ∨ s.dev.frm.firstDone = false →
      exec (.dmxBreak n) s = .next s) ∧
    (s.dev.sys.tripped = false → dmxController s.dev n = true → s.dev.frm.run.isSome = true → s.dev.frm.firstDone = true →
    (dmxLaunches s.dev n f = false ∨ x.launched = some f ∨ now s.clk < at' → exec (.dmxBreak n) s = .next s) ∧
    (dmxLaunches s.dev n f = true → x.launched ≠ some f → at' ≤ now s.clk →
      (lineFree s.clk x = false → ∃ t, exec (.dmxBreak n) s = .next t ∧ t.clk = s.clk ∧ rb t.dev (Reg.DMX_EVENT n) 1 = true
        ∧ rf t.dev (Reg.DMX_COUNT n) 16 16 = min 0xFFFF (rf s.dev (Reg.DMX_COUNT n) 16 16 + 1) ∧ dmx t.dev n = { x with launched := some f }) ∧
      (lineFree s.clk x = true → ∃ t, exec (.dmxBreak n) s = .next t ∧ t.clk = s.clk ∧ sameMemory s.dev t.dev
        ∧ (let bs := BitVec.ofNat 8 (rf s.dev (Reg.DMX_SRC n) 0 8) :: slice (dmxImage x (dmxShown s.dev f)) 0 (dmxSlots s.dev n)
           let fin := s.clk.ticks + w64 (ticksOf (dmxLength s.dev n))
           dmx t.dev n = { x with launched := some f, startTick := s.clk.ticks, endTick := fin, freeTick := fin, line := some (some f, bs), replyBreak := none })
        ∧ rd64 t.dev (Reg.DMX_BREAK_TIME_LO n) = shortOf at')))) ∧
  (∀ (n : Fin 16) (k : Clk) (d : Dev), d.sys.tripped = false → dmxQuiet d = false →
    (dmxController d n = true → (dmxDe d n k = false ↔ ∃ t, (dmx d n).waitTick = some t ∧ t.toNat ≤ k.ticks.toNat)) ∧
    (responding d n = true → (dmxDe d n k = true ↔ (dmx d n).line.isSome = true ∧ (dmx d n).startTick.toNat ≤ k.ticks.toNat
      ∧ k.ticks.toNat < (dmx d n).endTick.toNat))) ∧
  (∀ (n : Fin 16) (k : Clk) (d : Dev), d.sys.tripped = true ∨ dmxQuiet d = true ∨ rb d (Reg.DMX_CTL n) 31 = false ∨ unusable d (0x7010 + n) = true →
    dmxDe d n k = false) ∧
  (∀ (n : Nat) (x : Time) (d : Dev), n < 16 → let e := stampBreak n x d
    rd64 e (Reg.DMX_BREAK_TIME_LO n) = shortOf x ∧ sameRegsBut [Reg.DMX_BREAK_TIME_LO n, Reg.DMX_BREAK_TIME_HI n] d e
      ∧ e = { setDmx n { dmx d n with replyBreak := none } d with regs := e.regs, msix := e.msix }) ∧
  (∀ (n : Fin 16) (s : State) (f : Option W64) (bs : List W8), (dmx s.dev n).line = some (f, bs) →
    (s.clk.ticks.toNat < (dmx s.dev n).endTick.toNat → exec (.dmxFrameEnd n) s = .next s) ∧
    ((dmx s.dev n).endTick.toNat ≤ s.clk.ticks.toNat → ∃ t, exec (.dmxFrameEnd n) s = .next t ∧ t.clk = s.clk
      ∧ dmx t.dev n = { dmx s.dev n with line := none } ∧ t.dev.regs = s.dev.regs ∧ t.dev.mem = s.dev.mem)) ∧
  (∀ (req : Req) (n : Fin 16) (noResp : Bool) (s : State), csrShut s.dev (Reg.DMX_RDM_CMD n) = false →
    let x := dmx s.dev n
    (x.pending = true ∨ unusable s.dev (0x7010 + n) = true → exec (.rdmGo req n noResp) s = .next s) ∧
    (x.pending = false → unusable s.dev (0x7010 + n) = false → dmxResponder s.dev n = false →
      exec (.rdmGo req n noResp) s = nextDev s (setDmx n { x with pending := true, noResp } s.dev)) ∧
    (x.pending = false → unusable s.dev (0x7010 + n) = false → dmxResponder s.dev n = true → (x.askTick = none → exec (.rdmGo req n noResp) s = .next s) ∧
      ∀ t0, x.askTick = some t0 →
        (2250000 < since s.clk t0 → ∃ t, exec (.rdmGo req n noResp) s = .next t ∧ t.clk = s.clk ∧ rb t.dev (Reg.DMX_EVENT n) 6 = true
          ∧ dmx t.dev n = { x with askTick := none }) ∧
        (since s.clk t0 ≤ 2250000 → s.dev.sys.tripped = false → ∃ t, exec (.rdmGo req n noResp) s = .next t ∧ t.clk = s.clk
          ∧ (dmx t.dev n).line = some (none, rdmTx s.dev n) ∧ (dmx t.dev n).askTick = none
          ∧ (dmx t.dev n).startTick = w64 (max s.clk.ticks.toNat (t0.toNat + 220000))))) ∧
  (∀ (n : Fin 16) (s : State), let x := dmx s.dev n
    let sends := !s.dev.sys.tripped && dmxController s.dev n && x.pending && !dmxQuiet s.dev && x.line.isNone && x.waitTick.isNone
      && decide (x.freeTick.toNat ≤ s.clk.ticks.toNat)
      && (dmxNextBreak n s.clk s.dev).elim true fun b => decide (now s.clk + (rdmAllowance s.dev n x.noResp + 8000 : Nat) * ns1 ≤ b)
    (sends = false → exec (.rdmRequestSend n) s = .next s) ∧
    (sends = true →
      let sent := s.clk.ticks + w64 (ticksOf ((188 + (rdmTx s.dev n).length * 44) * 1000))
      exec (.rdmRequestSend n) s = nextDev s (stampBreak n (now s.clk) (setDmx n { x with
        pending := false, line := some (none, rdmTx s.dev n), startTick := s.clk.ticks, endTick := sent
        freeTick := s.clk.ticks + w64 (ticksOf (rdmAllowance s.dev n x.noResp))
        waitTick := if x.noResp then none else some sent } s.dev)))) ∧
  (∀ (n : Fin 16) (data : List W8) (brk : Option Nat) (s : State) (t0 : W64), (dmx s.dev n).waitTick = some t0 →
    (s.clk.ticks.toNat < t0.toNat → exec (.rdmReply n (data, brk)) s = .next s) ∧
    (t0.toNat ≤ s.clk.ticks.toNat → ∃ t, exec (.rdmReply n (data, brk)) s = .next t ∧ t.clk = s.clk
      ∧ (∀ ago, brk = some ago → rd64 t.dev (Reg.DMX_BREAK_TIME_LO n) = shortOf (now s.clk - ago * ns1))
      ∧ (brk = none → rd64 t.dev (Reg.DMX_BREAK_TIME_LO n) = rd64 s.dev (Reg.DMX_BREAK_TIME_LO n)) ∧ rb t.dev (Reg.DMX_EVENT n) 4 = true ∧ (dmx t.dev n).waitTick = none
      ∧ rf t.dev (Reg.DMX_RDM_STATUS n) 16 9 = min 257 data.length
      ∧ ∀ i < data.length, i < 257 → byteAt (leBytes 4 (rd t.dev (Reg.DMX_RDM_RX n (i / 4))).toNat) (i % 4) = byteAt data i) ∧
    (let past := t0.toNat + ticksOf ((rd s.dev (Reg.DMX_RDM_WAIT n)).toNat * 1000) ≤ s.clk.ticks.toNat
     (¬ past → exec (.rdmTimeout n) s = .next s) ∧
     (past → ∃ t, exec (.rdmTimeout n) s = .next t ∧ t.clk = s.clk ∧ rb t.dev (Reg.DMX_EVENT n) 5 = true
       ∧ dmx t.dev n = { dmx s.dev n with waitTick := none, line := none }))) ∧
  (∀ (n : Fin 16) (breakNs ago : Nat) (data : List W8) (framing : Bool) (s : State), responding s.dev n = true →
    (framing = true ∨ breakNs < 88000 → ∃ t, exec (.dmxRxFrame n breakNs ago data framing) s = .next t ∧ t.clk = s.clk ∧ rb t.dev (Reg.DMX_EVENT n) 2 = true
      ∧ rf t.dev (Reg.DMX_COUNT2 n) 0 16 = min 0xFFFF (rf s.dev (Reg.DMX_COUNT2 n) 0 16 + 1) ∧ rd64 t.dev (Reg.DMX_BREAK_TIME_LO n) = shortOf (now s.clk - ago * ns1)
      ∧ onlyThese [Reg.DMX_EVENT n, Reg.DMX_COUNT2 n, Reg.DMX_BREAK_TIME_LO n, Reg.DMX_BREAK_TIME_HI n]
          (setDmx n { dmx s.dev n with replyBreak := none } s.dev) t.dev) ∧
    (framing = false → 88000 ≤ breakNs → ∃ t, exec (.dmxRxFrame n breakNs ago data framing) s = .next t ∧ t.clk = s.clk ∧ rb t.dev (Reg.DMX_EVENT n) 3 = true
      ∧ rd64 t.dev (Reg.DMX_BREAK_TIME_LO n) = shortOf (now s.clk - ago * ns1) ∧ sameMemory s.dev t.dev
      ∧ ∀ i < data.length, i < 513 → byteAt (leBytes 4 (rd t.dev (Reg.DMX_RX n (i / 4))).toNat) (i % 4) = byteAt data i)) ∧
  (∀ (n : Fin 16) (l : List W8) (ago : Nat) (s : State), responding s.dev n = true → rdmOk l = true →
    let x := dmx s.dev n
    let heard := stampBreak n (now s.clk - ago * ns1) s.dev
    let uid := dmxUid s.dev n
    let dest := ofBe (slice l 3 6)
    let all := dest = 2 ^ 48 - 1 ∨ dest = uid / 2 ^ 32 * 2 ^ 32 + 0xFFFFFFFF
    let disc := (byteAt l 20).toNat = 0x10 ∧ be16 l 21 ∈ [1, 2, 3]
    (dest ≠ uid → ¬ all → exec (.rdmRequestRx n (l, ago)) s = nextDev s heard) ∧
    ((byteAt l 20).toNat = 0x10 → be16 l 21 = 1 → x.mute = true ∨ uid < ofBe (slice l 24 6) ∨ ofBe (slice l 30 6) < uid →
      exec (.rdmRequestRx n (l, ago)) s = nextDev s heard) ∧
    (dest = uid ∨ all → s.dev.sys.tripped = false →
      ((byteAt l 20).toNat = 0x10 → be16 l 21 = 1 → x.mute = false → ofBe (slice l 24 6) ≤ uid → uid ≤ ofBe (slice l 30 6) →
        ∃ t, exec (.rdmRequestRx n (l, ago)) s = .next t ∧ t.clk = s.clk ∧ (dmx t.dev n).line = some (none, discoveryAnswer uid)
          ∧ (dmx t.dev n).startTick = w64 (s.clk.ticks.toNat + 220000)) ∧
      ((byteAt l 20).toNat = 0x10 → be16 l 21 = 2 → ∃ t, exec (.rdmRequestRx n (l, ago)) s = .next t ∧ t.clk = s.clk ∧ (dmx t.dev n).mute = true
        ∧ (dest = uid → (dmx t.dev n).line = some (none, muteAnswer l uid))) ∧
      ((byteAt l 20).toNat = 0x10 → be16 l 21 = 3 → ∃ t, exec (.rdmRequestRx n (l, ago)) s = .next t ∧ t.clk = s.clk ∧ (dmx t.dev n).mute = false) ∧
      (¬ disc → ∃ t, exec (.rdmRequestRx n (l, ago)) s = .next t ∧ t.clk = s.clk ∧ (dmx t.dev n) = { x with askTick := some s.clk.ticks, replyBreak := none }
        ∧ rf t.dev (Reg.DMX_RDM_STATUS n) 16 9 = min 257 l.length))) ∧
  (∀ (n : Fin 16) (s : State) (t0 : W64), (dmx s.dev n).askTick = some t0 →
    (responding s.dev n = false ∨ since s.clk t0 ≤ 2250000 → exec (.rdmLate n) s = .next s) ∧
    (responding s.dev n = true → 2250000 < since s.clk t0 → ∃ t, exec (.rdmLate n) s = .next t ∧ t.clk = s.clk ∧ rb t.dev (Reg.DMX_EVENT n) 6 = true
      ∧ dmx t.dev n = { dmx s.dev n with askTick := none })) ∧
  (∀ uid : Nat, uid < 2 ^ 48 → let l := discoveryAnswer uid
    l.length = 24 ∧ (∀ i < 6, (byteAt l (8 + 2 * i) &&& byteAt l (9 + 2 * i)).toNat = uid / 2 ^ (8 * (5 - i)) % 256))

/-- R265 to R267 for the timecode and MIDI commands. -/
def Obligations.TimecodeAndMidi : Prop :=
  (∀ (tc user : W32) (ago : Nat) (s : State), (rb s.dev Reg.LTC_RX_CTL 0 = false → exec (.ltcRxFrame tc user ago) s = .next s) ∧
    (rb s.dev Reg.LTC_RX_CTL 0 = true → ∃ t, exec (.ltcRxFrame tc user ago) s = .next t ∧ t.clk = s.clk ∧ t.dev.mem = s.dev.mem
      ∧ (s.dev.slow.ltcRx.length < 16 → t.dev.slow = { s.dev.slow with ltcRx := s.dev.slow.ltcRx ++
          [{ value := tc &&& 0x7F3F3F3F, user, stamp := now s.clk - ago * ns1 }] } ∧ rb t.dev Reg.LTC_EVENT 0 = true)
      ∧ (16 ≤ s.dev.slow.ltcRx.length → t.dev.slow = s.dev.slow ∧ rb t.dev Reg.LTC_EVENT 1 = true
          ∧ rf t.dev Reg.LTC_RX_STAT 16 16 = min 0xFFFF (rf s.dev Reg.LTC_RX_STAT 16 16 + 1)))) ∧
  (∀ (b : W8) (ago : Nat) (s : State), (rb s.dev Reg.MIDI_CTL 0 = false → exec (.midiRxByte b ago) s = .next s) ∧
    (rb s.dev Reg.MIDI_CTL 0 = true → ∃ t, exec (.midiRxByte b ago) s = .next t ∧ t.clk = s.clk ∧ t.dev.mem = s.dev.mem
      ∧ (s.dev.slow.midiRx.length < 256 → t.dev.slow = { s.dev.slow with midiRx := s.dev.slow.midiRx ++
          [{ value := b.setWidth 32, stamp := now s.clk - ago * ns1 }] } ∧ rb t.dev Reg.MIDI_EVENT 0 = true)
      ∧ (256 ≤ s.dev.slow.midiRx.length → t.dev.slow = s.dev.slow ∧ rb t.dev Reg.MIDI_EVENT 1 = true
          ∧ rf t.dev Reg.MIDI_RX_STAT 16 16 = min 0xFFFF (rf s.dev Reg.MIDI_RX_STAT 16 16 + 1)))) ∧
  (∀ (req : Req) (s : State), csrShut s.dev Reg.LTC_RX_TC = false →
    (∀ x l, s.dev.slow.ltcRx = x :: l → ∃ t, exec (.ltcRxPop req) s = .next t ∧ t.clk = s.clk ∧ t.dev.bus.data = x.value
      ∧ rd t.dev (snapOf req Reg.LTC_RX_USER) = x.user ∧ rd t.dev (snapOf req Reg.LTC_RX_TIME_LO) = lo32 (shortOf x.stamp)
      ∧ rd t.dev (snapOf req Reg.LTC_RX_TIME_HI) = hi32 (shortOf x.stamp) ∧ t.dev.slow = { s.dev.slow with ltcRx := l }) ∧
    (s.dev.slow.ltcRx = [] → ∃ t, exec (.ltcRxPop req) s = .next t ∧ t.clk = s.clk ∧ t.dev.bus.data = 0x80000000 ∧ t.dev.slow = s.dev.slow)) ∧
  (∀ (req : Req) (s : State), csrShut s.dev Reg.MIDI_RX = false →
    (∀ x l, s.dev.slow.midiRx = x :: l → ∃ t, exec (.midiRxPop req) s = .next t ∧ t.clk = s.clk ∧ t.dev.bus.data = x.value
      ∧ rd t.dev (snapOf req Reg.MIDI_RX_TIME_LO) = lo32 (shortOf x.stamp)
      ∧ rd t.dev (snapOf req Reg.MIDI_RX_TIME_HI) = hi32 (shortOf x.stamp) ∧ t.dev.slow = { s.dev.slow with midiRx := l }) ∧
    (s.dev.slow.midiRx = [] → ∃ t, exec (.midiRxPop req) s = .next t ∧ t.clk = s.clk ∧ t.dev.bus.data = 0x80000000 ∧ t.dev.slow = s.dev.slow)) ∧
  (∀ (req : Req) (v : W32) (s : State), csrShut s.dev Reg.MIDI_TX = false →
    (s.dev.slow.midiTx.length < 256 → exec (.midiTxWrite req v) s =
      nextDev s { s.dev with slow := { s.dev.slow with midiTx := s.dev.slow.midiTx ++ [v.truncate 8] } }) ∧
    (256 ≤ s.dev.slow.midiTx.length → ∃ t, exec (.midiTxWrite req v) s = .next t ∧ t.clk = s.clk ∧ rb t.dev Reg.MIDI_EVENT 2 = true
      ∧ rf t.dev Reg.MIDI_TX_STAT 16 16 = min 0xFFFF (rf s.dev Reg.MIDI_TX_STAT 16 16 + 1) ∧ onlyThese [Reg.MIDI_EVENT, Reg.MIDI_TX_STAT] s.dev t.dev)) ∧
  (∀ s : State, let x := s.dev.slow
    let sends := rb s.dev Reg.MIDI_CTL 0 && x.midiLast.elim true (fun y => decide (400000 ≤ since s.clk y.2)) && !s.dev.sys.tripped
    (sends = false → exec .midiTxByte s = .next s) ∧
    (∀ b l, sends = true → x.mtc = b :: l → exec .midiTxByte s = nextDev s { s.dev with slow := { x with mtc := l, midiLast := some (b, s.clk.ticks) } }) ∧
    (∀ b l, sends = true → x.mtc = [] → x.midiTx = b :: l →
      exec .midiTxByte s = nextDev s { s.dev with slow := { x with midiTx := l, midiLast := some (b, s.clk.ticks) } })) ∧
  (∀ (s : State) (t0 : W64), s.dev.slow.ltcTick = some t0 → let x := s.dev.slow
    let sends := rb s.dev Reg.MIDI_CTL 1 && rb s.dev Reg.LTC_TX_CTL 31 && decide (x.quarter < 4) && decide (x.quarter * ltcTicks s.dev ≤ 4 * since s.clk t0)
    let w := if x.piece = 0 then x.ltcWord else x.mtcWord
    (sends = false → exec .mtcQuarterFrame s = .next s) ∧
    (sends = true → exec .mtcQuarterFrame s = nextDev s { s.dev with slow := { x with
      mtc := x.mtc ++ [0xF1, mtcByte s.dev w x.piece], mtcWord := w, piece := (x.piece + 1) % 8, quarter := x.quarter + 1 } })) ∧
  (∀ (d : Dev) (w : W32), let nib (p : Nat) : Nat := (mtcByte d w p).toNat % 16
    nib 0 + 16 * nib 1 = fld w 0 6 ∧ nib 2 + 16 * nib 3 = fld w 8 6 ∧ nib 4 + 16 * nib 5 = fld w 16 6 ∧ nib 6 + 16 * (nib 7 % 2) = fld w 24 5) ∧
  (∀ s : State, rb s.dev Reg.LTC_TX_CTL 31 = true → s.dev.slow.ltcStopped = false → s.dev.sys.tripped = false →
    (rb s.dev Reg.LTC_TX_CTL 30 = false → ∀ g, s.dev.frm.run = some g →
      (ltcRateOk s.dev g = false → ∃ t, exec .ltcTxFrame s = .next t ∧ t.clk = s.clk ∧ t.dev.slow.ltcStopped = true ∧ rb t.dev Reg.LTC_EVENT 2 = true) ∧
      (ltcRateOk s.dev g = true → s.dev.frm.holding = true ∨ ltcDue s.clk s.dev = none → exec .ltcTxFrame s = .next s) ∧
      (∀ f x, ltcRateOk s.dev g = true → s.dev.frm.holding = false → ltcDue s.clk s.dev = some (f, x) →
        let f0 := s.dev.slow.ltcFirst.getD f
        ∃ t, exec .ltcTxFrame s = .next t ∧ t.clk = s.clk ∧ t.dev.regs = s.dev.regs ∧ t.dev.slow.ltcTick = some s.clk.ticks ∧ t.dev.slow.ltcInstant = x
          ∧ t.dev.slow.ltcUser = rd s.dev Reg.LTC_TX_USER ∧ t.dev.slow.ltcFirst = some f0 ∧ t.dev.slow.ltcFrame = some f ∧ t.dev.slow.ltcWord = tcWord (ltcRate s.dev) (ltcDrop s.dev)
            (tcCount (ltcRate s.dev) (ltcDrop s.dev) (rd s.dev Reg.LTC_TX_START) + (f - f0).toNat / ltcDiv s.dev))) ∧
    (rb s.dev Reg.LTC_TX_CTL 30 = true →
      let r := ltcRate s.dev
      let tod : Time := (rd s.dev Reg.LTC_TX_TOD).toInt * sec1
      let i := (now s.clk + tod) * r / sec1
      (due s.clk (i * sec1 / r - tod) = true → ∃ t, exec .ltcTxFrame s = .next t ∧ t.clk = s.clk ∧ t.dev.slow.ltcTick = some s.clk.ticks
        ∧ t.dev.slow.ltcInstant = i * sec1 / r - tod))) ∧
  (∀ rate ∈ [24, 25, 30], ∀ n < 86400 * rate, tcCount rate false (tcWord rate false n) = n) ∧
  (∀ n < 2589408, tcCount 30 true (tcWord 30 true n) = n)

/-- R271, R272, R286 and R290 to R299 for PAIR_ENABLE, HEARTBEAT_SEND, HEARTBEAT_RX, LINK_LOST, CLAIM, CLAIM_VERIFY, PAIR_WDOG_KICK,
WDOG_EXPIRED, HANDOVER, HANDOVER_MESSAGE_RX, HANDOVER_RELEASE, HANDOVER_CHECK and REJOIN. How a message is laid out is the model's open
value (Config.messageLayout). That a TAKING heartbeat during this unit's released handover raises no DUAL_ACTIVE is DEDUCED (log entry 54: the
model's reading of R299), and the level that OWN_SENSE keeps (ownHigh) is its choice (log entry 55). -/
def Obligations.PairStates : Prop :=
  let partnerDrives (p : Pair) : Bool := p.hb.any fun h => h.mode == .active || h.mode == .taking
  let only (l : List Nat) (s t : State) : Prop := t.clk = s.clk ∧ onlyThese l { s.dev with pair := t.dev.pair, pins := t.dev.pins } t.dev
  (∀ (req : Req) (v : W32) (s : State), csrShut s.dev Reg.PAIR_CTL = false → let p := s.dev.pair
    (p.written = true → ∃ t, exec (.pairEnable req v) s = .next t ∧ t.clk = s.clk ∧ t.dev.pair = p ∧ rb t.dev Reg.GUARD_EVENT 0 = true
      ∧ onlyThese [Reg.GUARD_EVENT, Reg.LOCK_VIOLATION_ADDR] s.dev t.dev) ∧
    (p.written = false → ∃ t, exec (.pairEnable req v) s = .next t ∧ t.clk = s.clk
      ∧ onlyThese [Reg.PAIR_CTL] (noted t.dev { s.dev with pair := t.dev.pair, pins := t.dev.pins }) t.dev ∧ rd t.dev Reg.PAIR_CTL = v &&& 1
      ∧ (bit v 0 = true → t.dev.pair = { p with written := true, mode := .join, joinAt := shortOf (now s.clk), hbTick := s.clk.ticks, kickTick := s.clk.ticks }
          ∧ t.dev.pins.pairSlaved = partnerDrives p)
      ∧ (bit v 0 = false → t.dev.pair = { p with written := true } ∧ t.dev.pins = s.dev.pins))) ∧
  (∀ s : State, let p := s.dev.pair
    let sends := p.mode != .solo && !p.silent && decide (hbPeriod s.dev * 1250 ≤ since s.clk p.hbTick)
    (sends = false → exec .heartbeatSend s = .next s) ∧
    (sends = true → ∃ t, exec .heartbeatSend s = .next t ∧ t.clk = s.clk ∧ t.dev.pair.hbTick = s.clk.ticks ∧ t.dev.pair.mode = p.mode
      ∧ t.dev.mem = s.dev.mem ∧ t.dev.pair.confirmed = confirmedNow s.clk s.dev
      ∧ Sends 1 (messageBytes 1 (hbContent ⟨p.mode, rb s.dev Reg.SYS_STRAPS 1, s.dev.scarab.uid, shortOf (now s.clk), s.dev.frm.lastFrame,
          confirmedNow s.clk s.dev⟩)) s t)) ∧
  (∀ (h : Heartbeat) (s : State), let p := s.dev.pair
    let m := (1, messageBytes 1 (hbContent h))
    let drives := h.mode = .active ∨ h.mode = .taking
    let clash := h.unit = rb s.dev Reg.SYS_STRAPS 1
    let one : Bool := if clash then decide (h.uid < s.dev.scarab.uid) else roleOne s.dev
    let dual := p.mode = .active ∧ (h.mode = .active ∨ (h.mode = .taking ∧ p.released = false))
    (p.inbox.find? (fun x => x.1 == 1) ≠ some m → exec (.heartbeatRx h) s = .next s) ∧
    (p.inbox.find? (fun x => x.1 == 1) = some m → ∃ t, exec (.heartbeatRx h) s = .next t ∧ t.dev.pair.inbox = p.inbox.erase m
      ∧ (p.mode = .solo → t.dev = { s.dev with pair := t.dev.pair })
      ∧ (p.mode ≠ .solo → only [Reg.PAIR_CONFIRMED_LO, Reg.PAIR_CONFIRMED_HI, Reg.PAIR_EVENT] s t ∧ t.dev.pair.hb = some h
        ∧ rd64 t.dev Reg.PAIR_CONFIRMED_LO = h.confirmed
        ∧ (clash → t.dev.pair.idClash = true ∧ rb t.dev Reg.PAIR_EVENT 18 = true ∧ t.dev.pair.role = some (decide (h.uid < s.dev.scarab.uid)))
        ∧ (p.mode = .join → p.keyed = true → drives → t.dev.pair.mode = .sync ∧ t.dev.pair.matched = 0 ∧ t.dev.pair.lost = false)
        ∧ (p.mode = .join → ¬ (p.keyed = true ∧ drives) → t.dev.pair.mode = .join ∧ t.dev.pair.lost = p.lost)
        ∧ (p.mode ≠ .join → t.dev.pair.lost = false)
        ∧ (dual → rb t.dev Reg.PAIR_EVENT 15 = true)
        ∧ (dual → one = true → t.dev.pair.mode = .degraded ∧ t.dev.pair.ownDrive = false)
        ∧ (p.mode ≠ .join → ¬ (dual ∧ one = true) → t.dev.pair.mode = p.mode ∧ t.dev.pair.ownDrive = p.ownDrive)
        ∧ (p.mode ≠ .taking → t.dev.pins.pairSlaved = (follows t.dev.pair.mode && (h.mode == .active || h.mode == .taking)))))) ∧
  (∀ s : State, let p := s.dev.pair
    let limit := lossFrom s.dev + w64 (hbTimeout s.dev * 1000)
    (p.mode = .solo ∨ p.lost = true ∨ later (shortOf (now s.clk)) limit = false → exec .linkLost s = .next s) ∧
    (p.mode ≠ .solo → p.lost = false → later (shortOf (now s.clk)) limit = true → ∃ t, exec .linkLost s = .next t ∧ only [Reg.PAIR_EVENT] s t
      ∧ t.dev.pair = { p with
          lost := true, offered := none, handover := if p.released then p.handover else none, yielding := p.released && p.yielding }
      ∧ t.dev.pins = s.dev.pins ∧ rb t.dev Reg.PAIR_EVENT 0 = true)) ∧
  (∀ (n : Nat) (s : State), let p := s.dev.pair
    let can := (p.mode = .join ∧ p.lost = true ∧ running s.clk s.dev = true) ∨ ((p.mode = .sync ∨ p.mode = .cozy) ∧ (p.lost = true ∨ p.offered.isSome = true))
    let waited := 0 < n ∧ (roleOne s.dev = true → 20000 ≤ n)
    (can → waited → exec (.claim n) s = nextDev s { s.dev with pair := { p with
      mode := .taking, back := p.mode, ownDrive := true, ownHigh := true, claimTick := some s.clk.ticks, verified := false
      byHandover := !p.lost && p.offered.isSome } }) ∧
    (¬ (can ∧ waited) → exec (.claim n) s = nextDev s { s.dev with pair := { p with ownHigh := decide (0 < n) } })) ∧
  (∀ (high : Bool) (s : State) (t0 : W64), let p := s.dev.pair
    (p.mode ≠ .taking ∨ p.claimTick = none ∨ p.verified = true → exec (.claimVerify high) s = .next s) ∧
    (p.mode = .taking → p.claimTick = some t0 → p.verified = false →
      (since s.clk t0 < 250 → exec (.claimVerify high) s = .next s) ∧
      (250 ≤ since s.clk t0 → ∃ t, exec (.claimVerify high) s = .next t ∧ only [Reg.PAIR_EVENT] s t
        ∧ (high = true → t.dev.pair = { p with mode := p.back, ownDrive := false, ownHigh := true, claimTick := none, byHandover := false }
            ∧ rb t.dev Reg.PAIR_EVENT 4 = true)
        ∧ (high = false → t.dev.pair = { p with verified := true, ownHigh := false } ∧ t.dev.pins = s.dev.pins ∧ rb t.dev Reg.PAIR_EVENT 3 = true
            ∧ (s.dev.sys.tripped = false → rb s.dev Reg.SYS_STARTUP_STATUS 10 = true → selOut t.dev = !p.byHandover))))) ∧
  (∀ (req : Req) (s : State), csrShut s.dev Reg.PAIR_WDOG_KICK = false → exec (.pairWdogKick req) s = nextDev s (match req with
    | .host => s.dev
    | .fw => { s.dev with pair := { s.dev.pair with kickTick := s.clk.ticks, silent := false } })) ∧
  (∀ s : State, let p := s.dev.pair
    let out := (p.mode = .active ∨ p.mode = .taking) ∧ min 1000 (max 100 (rf s.dev Reg.PAIR_WDOG_CFG 0 11)) * 1250 ≤ since s.clk p.kickTick
    (¬ out → exec .wdogExpired s = .next s) ∧
    (out → ∃ t, exec .wdogExpired s = .next t ∧ only [Reg.PAIR_EVENT] s t ∧ rb t.dev Reg.PAIR_EVENT 14 = true ∧ t.dev.pair.mode = .degraded
      ∧ t.dev.pair.ownDrive = false ∧ t.dev.pair.silent = true ∧ t.dev.pair.wdogExpired = true ∧ selOut t.dev = false ∧ dmxQuiet t.dev = true
      ∧ ∀ f x, muted t.dev f x = true)) ∧
  (∀ (req : Req) (s : State), csrShut s.dev Reg.PAIR_CMD = false → let p := s.dev.pair
    (armed s.dev req = false → (∃ t, exec (.handover req) s = .next t ∧ t.dev.pair = p ∧ rb t.dev Reg.GUARD_EVENT 1 = true)
      ∧ ∃ t, exec (.rejoin req) s = .next t ∧ t.dev.pair = p ∧ rb t.dev Reg.GUARD_EVENT 1 = true) ∧
    (armed s.dev req = true →
      (p.mode ≠ .active ∨ p.handover ≠ none ∨ s.dev.frm.run = none → exec (.handover req) s = nextDev s (setArmed req false s.dev)) ∧
      (∀ g, p.mode = .active → p.handover = none → s.dev.frm.run = some g → g.ok = true → ∃ t i, exec (.handover req) s = .next t ∧ t.clk = s.clk
        ∧ (let f := w64 i + biasNow s.dev
           t.dev.pair.handover = some (f, g.at i) ∧ Sends 2 (messageBytes 4 [f]) s t)
        ∧ nextIndex s.dev ≤ i ∧ now s.clk + 1000000 * ns1 ≤ g.at i ∧ (∀ j, nextIndex s.dev ≤ j → now s.clk + 1000000 * ns1 ≤ g.at j → i ≤ j)
        ∧ t.dev.pair.released = false ∧ t.dev.pair.mode = .active ∧ t.dev.pair.ownDrive = p.ownDrive ∧ armed t.dev req = false) ∧
      (p.mode ≠ .degraded → exec (.rejoin req) s = nextDev s (setArmed req false s.dev)) ∧
      (p.mode = .degraded → exec (.rejoin req) s = nextDev s { setArmed req false s.dev with
        pair := { p with mode := .sync, matched := 0 }, pins := { s.dev.pins with pairSlaved := partnerDrives p } }))) ∧
  (∀ (f : W64) (s : State), let p := s.dev.pair
    let m := (2, messageBytes 4 [f])
    (p.inbox.find? (fun x => x.1 == 2) ≠ some m → exec (.handoverMessageRx f) s = .next s) ∧
    (p.inbox.find? (fun x => x.1 == 2) = some m → exec (.handoverMessageRx f) s = nextDev s { s.dev with pair := { p with
      inbox := p.inbox.erase m, offered := if p.mode = .sync ∨ p.mode = .cozy then some f else p.offered } })) ∧
  (∀ (s : State) (f : W64) (b : Time), let p := s.dev.pair
    p.handover = some (f, b) →
    (p.mode ≠ .active ∨ p.released = true ∨ now s.clk < b - 50000 * ns1 → exec .handoverRelease s = .next s) ∧
    (p.mode = .active → p.released = false → b - 50000 * ns1 ≤ now s.clk →
      exec .handoverRelease s = nextDev s { s.dev with pair := { p with ownDrive := false, released := true } })) ∧
  (∀ (high : Bool) (s : State) (f : W64) (b : Time), let p := s.dev.pair
    p.handover = some (f, b) →
    (p.mode ≠ .active ∨ p.released = false ∨ now s.clk < b - 10000 * ns1 → exec (.handoverCheck high) s = .next s) ∧
    (p.mode = .active → p.released = true → b - 10000 * ns1 ≤ now s.clk →
      (high = false → exec (.handoverCheck high) s = nextDev s { s.dev with pair := { p with ownHigh := false } }) ∧
      (high = true → ∃ t, exec (.handoverCheck high) s = .next t ∧ only [Reg.PAIR_EVENT] s t ∧ rb t.dev Reg.PAIR_EVENT 7 = true ∧ t.dev.pins = s.dev.pins
        ∧ t.dev.pair = { p with ownDrive := true, ownHigh := true, handover := none, released := false, yielding := false }))) ∧
  (∀ (s : State) (n : W64) (b : Time) (g : Grid), nextBoundary s.clk s.dev = some (n, b) → s.dev.frm.run = some g → b ≤ now s.clk → let p := s.dev.pair
    (p.mode = .taking → p.verified = true → p.byHandover = false → ∃ t, exec .boundaryEmit s = .next t ∧ t.dev.pair.mode = .active
      ∧ t.dev.pair.takeover = some (b, p.hb.map Heartbeat.confirmed) ∧ rd64 t.dev Reg.PAIR_TAKEOVER_FRAME_LO = n ∧ rb t.dev Reg.PAIR_EVENT 5 = true
      ∧ t.dev.pins.pairSlaved = false) ∧
    (∀ f b', p.mode = .active → p.released = true → p.handover = some (f, b') → f ≤ n → ∃ t, exec .boundaryEmit s = .next t
      ∧ t.dev.pair.mode = (if p.yielding then .degraded else .cozy) ∧ t.dev.pair.ownDrive = false ∧ rb t.dev Reg.PAIR_EVENT 6 = true))

/-- R273 to R283 for CRICKET_BLOCK_RX, CRICKET_RESEND_TIMEOUT, CRICKET_LINK_UP, TIME_EXCHANGE, TIME_MESSAGE, MIRROR_FRAME_RX, MARK_RX and
MIRROR_LATE, and the MARK of a boundary that waited. The rounding of what a time exchange reports is the model's open value. That retraining ends a
key formation under way and drops the outbox (log entry 53), and when TT_LOCK is set and TT_UNLOCK raised (log entry 54), is DEDUCED: the model's
reading. That a unit with no keys attests no more (R360) is its choice (log entry 100). -/
def Obligations.CricketLink : Prop :=
  (∀ (p : Pair) (c : Cell), c.data.length ≤ 244 → c.seq < 4096 → p.expect < 4096 → c.chan < 16 →
    let b := blockBytes p c
    let h := w64 (ofLe (b.take 8))
    b.length = 256 ∧ crc32c (b.take 252) = w32 (ofLe (b.drop 252)) ∧ fld h 52 12 = c.seq ∧ fld h 40 12 = p.expect ∧ bit h 39 = p.nak ∧ bit h 38 = false
      ∧ fld h 32 4 = c.chan ∧ fld h 16 8 = c.data.length ∧ bit h 15 = c.first ∧ bit h 14 = c.last ∧ slice b 8 c.data.length = c.data
      ∧ fld h 0 14 = 0 ∧ fld h 24 8 = 0 ∧ fld h 36 2 = 0) ∧
  (∀ p : Pair, p.seq < 4096 → p.expect < 4096 →
    let b := idleBytes p
    let h := w64 (ofLe (b.take 8))
    b.length = 256 ∧ crc32c (b.take 252) = w32 (ofLe (b.drop 252)) ∧ fld h 52 12 = p.seq ∧ fld h 40 12 = p.expect ∧ bit h 39 = p.nak ∧ bit h 38 = true
      ∧ fld h 0 38 = 0 ∧ ∀ x ∈ slice b 8 244, x = 0) ∧
  (∀ (l : List W8) (s : State), let p := s.dev.pair
    let h := w64 (ofLe (l.take 8))
    let chan := fld h 32 4
    let good := crc32c (l.take 252) = w32 (ofLe (l.drop 252)) ∧ fld h 52 12 = p.expect
    let whole := (if bit h 15 then [] else Tab.get [] p.partials chan) ++ slice l 8 (fld h 16 8)
    let n := p.replay.head?.elim 0 fun c => (fld h 40 12 + 4096 - c.seq) % 4096
    (p.trained = false ∨ l.length ≠ 256 → exec (.cricketBlockRx l) s = .next s) ∧
    (p.trained = true → l.length = 256 → ¬ good →
      exec (.cricketBlockRx l) s = nextDev s { s.dev with pair := { p with tx := idleBytes { p with nak := true }, nak := false } }) ∧
    (p.trained = true → l.length = 256 → good → bit h 38 = true → bit h 39 = false → n = 0 → p.outbox = [] →
      exec (.cricketBlockRx l) s = nextDev s { s.dev with pair := { p with tx := idleBytes p, nak := false } }) ∧
    (p.trained = true → l.length = 256 → good → bit h 39 = true → n = 0 → (∀ c ∈ p.replay, c.sends < 4) → ∃ t, exec (.cricketBlockRx l) s = .next t
      ∧ t.clk = s.clk ∧ t.dev.mem = s.dev.mem ∧ t.dev.pair.nak = false ∧ t.dev.pair.trained = true
      ∧ t.dev.pair.replay.take p.replay.length = p.replay.map (fun c => { c with sends := c.sends + 1 })
      ∧ rd t.dev Reg.PAIR_LINK_RESEND = w32 (min (2 ^ 32 - 1) ((rd s.dev Reg.PAIR_LINK_RESEND).toNat + p.replay.length))) ∧
    (p.trained = true → l.length = 256 → good → bit h 39 = false → ∃ t, exec (.cricketBlockRx l) s = .next t ∧ t.clk = s.clk ∧ t.dev.pair.nak = false
      ∧ t.dev.pair.mode = p.mode ∧ t.dev.mem = s.dev.mem
      ∧ t.dev.pair.expect = (if bit h 38 then p.expect else (p.expect + 1) % 4096)
      ∧ (bit h 38 = true ∨ 8 ≤ chan ∨ openChannel s.dev chan = false → t.dev.pair.inbox = p.inbox ∧ t.dev.pair.partials = p.partials)
      ∧ (bit h 38 = false → chan < 8 → openChannel s.dev chan = true →
          t.dev.pair.inbox = (if bit h 14 then p.inbox ++ [(chan, whole)] else p.inbox)
          ∧ Tab.get [] t.dev.pair.partials chan = if bit h 14 then [] else whole)
      ∧ (1 ≤ n → n ≤ p.replay.length → t.dev.pair.replay.take (p.replay.length - n) = p.replay.drop n ∧ t.dev.pair.ackTick = s.clk.ticks))) ∧
  (∀ s : State, let p := s.dev.pair
    let stuck := p.trained = true ∧ p.replay ≠ [] ∧ 5000 ≤ since s.clk p.ackTick
    (¬ stuck → exec .cricketResendTimeout s = .next s) ∧
    (stuck → (∀ c ∈ p.replay, c.sends < 4) → ∃ t, exec .cricketResendTimeout s = .next t ∧ t.clk = s.clk
      ∧ t.dev.pair = { p with
          replay := p.replay.map fun c => { c with sends := c.sends + 1 }, ackTick := s.clk.ticks, tx := t.dev.pair.tx, nak := false }
      ∧ (∀ c, p.replay.getLast? = some c → t.dev.pair.tx = blockBytes p c)
      ∧ rd t.dev Reg.PAIR_LINK_RESEND = w32 (min (2 ^ 32 - 1) ((rd s.dev Reg.PAIR_LINK_RESEND).toNat + p.replay.length))) ∧
    (stuck → (∃ c ∈ p.replay, 4 ≤ c.sends) → ∃ t, exec .cricketResendTimeout s = .next t ∧ t.clk = s.clk
      ∧ onlyThese [Reg.PAIR_LINK_FATAL_COUNT, Reg.PAIR_EVENT, Reg.SCARAB_EVENT] { s.dev with pair := t.dev.pair, scarab := t.dev.scarab } t.dev
      ∧ rb t.dev Reg.PAIR_EVENT 2 = true ∧ t.dev.scarab = { s.dev.scarab with forming := 0 }
      ∧ (s.dev.scarab.forming ≠ 0 → rb t.dev Reg.SCARAB_EVENT 7 = true)
      ∧ rd t.dev Reg.PAIR_LINK_FATAL_COUNT = w32 (min (2 ^ 32 - 1) ((rd s.dev Reg.PAIR_LINK_FATAL_COUNT).toNat + 1))
      ∧ t.dev.pair.trained = false ∧ t.dev.pair.replay = [] ∧ t.dev.pair.partials = [] ∧ t.dev.pair.inbox = p.inbox ∧ t.dev.pair.mode = p.mode
      ∧ t.dev.pair.ownDrive = p.ownDrive ∧ linkUp t.dev = false ∧ t.dev.pair.offered = none ∧ (p.released = false → t.dev.pair.handover = none))) ∧
  (∀ (a : Attestation) (s : State), let p := s.dev.pair
    let drawn := nonceNew s.dev
    let ok := attestPasses a drawn.scarab.nonce drawn
    let agree := s.dev.scarab.keyHeld && a.keyId == s.dev.scarab.keyId
    let trains := p.mode ≠ .solo ∧ cricketOut s.dev = false ∧ (∀ l < 4, looped s.dev (8 + l) = false) ∧ linkUp s.dev = false ∧ s.dev.sys.tripped = false
    (¬ trains → exec (.cricketLinkUp a) s = .next s) ∧
    (trains → ∃ t, exec (.cricketLinkUp a) s = .next t ∧ t.clk = s.clk ∧ sameMemory s.dev t.dev ∧ t.dev.pair.trained = true ∧ linkUp t.dev = ok
      ∧ t.dev.scarab = { s.dev.scarab with nonce := drawn.scarab.nonce, attested := ok, keyValid := ok && agree }
      ∧ openChannel t.dev 7 = (ok && agree)
      ∧ (ok = true → rb t.dev Reg.PAIR_EVENT 1 = true ∧ t.dev.pair.mode = if p.mode = .cozy then .sync else p.mode)
      ∧ (ok = false → t.dev.pair.mode = p.mode ∧ rb t.dev Reg.SCARAB_EVENT 7 = true))) ∧
  (∀ (a : Attestation) (nonce : List W8) (d : Dev), attestPasses a nonce d = true ↔
    Config.chainOk a.cert Config.rootHash = true ∧ (a.lc = 1 ∨ a.lc = 2) ∧ a.measurement = d.scarab.measurement
      ∧ Config.ecdsaOk (Config.certSubject a.cert) (nonce ++ a.lc :: a.measurement) a.sig = true) ∧
  (∀ s : State, let p := s.dev.pair
    let asks := s.dev.pins.pairSlaved = true ∧ p.trained = true ∧ 12500 ≤ since s.clk p.ttTick
    let t1 := now s.clk + pathDelay s.dev 16
    ∀ t2 t3 t4 : Time, (¬ asks → exec (.timeExchange false t2 t3 t4) s = .next s) ∧
    (asks → ∃ t, exec (.timeExchange false t2 t3 t4) s = .next t ∧ t.clk = s.clk ∧ sameMemory s.dev t.dev ∧ t.dev.pair.mode = p.mode
      ∧ t.dev.pair.ttTick = s.clk.ticks ∧ t.dev.pair.ttAsk = some t1 ∧ Sends 0 (messageBytes 14 (stampWords t1)) s t)) ∧
  (∀ (t1 t2 t3 : Time) (s : State), let p := s.dev.pair
    let m := (0, messageBytes 15 (stampWords t1 ++ stampWords t2 ++ stampWords t3))
    let t4 := p.stamps.headD 0
    let twice := (t2 - t1) - (t4 - t3)
    let taken := { p with inbox := p.inbox.erase m, stamps := p.stamps.drop 1 }
    (p.inbox.find? (fun x => x.1 == 0) ≠ some m → exec (.timeExchange true t1 t2 t3) s = .next s) ∧
    (p.inbox.find? (fun x => x.1 == 0) = some m → s.dev.pins.pairSlaved = false ∨ p.ttAsk ≠ some t1 →
      exec (.timeExchange true t1 t2 t3) s = nextDev s { s.dev with pair := taken }) ∧
    (p.inbox.find? (fun x => x.1 == 0) = some m → s.dev.pins.pairSlaved = true → p.ttAsk = some t1 → incrOk s.clk.tb.incr = true →
      ∃ t, exec (.timeExchange true t1 t2 t3) s = .next t ∧ t.clk.ticks = s.clk.ticks ∧ t.dev.pair.ttAsk = none ∧ t.dev.pair.inbox = taken.inbox
      ∧ t.dev.pair.mode = p.mode
      ∧ (∃ o y : Int, rd t.dev Reg.PAIR_TT_OFFSET = ttOffset o ∧ rd t.dev Reg.PAIR_TT_DELAY = BitVec.ofInt 32 y
          ∧ (o * 2 ^ 49 - twice * 1000).natAbs < 2 ^ 49 ∧ (y * 2 ^ 49 - ((t2 - t1) + (t4 - t3)) * 1000).natAbs < 2 ^ 49)
      ∧ (twice.natAbs ≤ 2 ^ 49 → t.dev.pair.ttLock = true ∧ t.dev.pair.ttOver = 0)
      ∧ (2 ^ 49 < twice.natAbs → p.ttOver + 1 < 16 → t.dev.pair.ttOver = p.ttOver + 1 ∧ t.dev.pair.ttLock = p.ttLock)
      ∧ (2 ^ 49 < twice.natAbs → 16 ≤ p.ttOver + 1 → t.dev.pair.ttOver = 0 ∧ t.dev.pair.ttLock = false ∧ rb t.dev Reg.PAIR_EVENT 13 = true)
      ∧ (twice.natAbs ≤ 2000 * 2 ^ 48 → incrOk t.clk.tb.incr = true ∧ now t.clk = now s.clk ∧ t.clk.tb.timeValid = s.clk.tb.timeValid
          ∧ t.dev.mem = s.dev.mem)
      ∧ (2000 * 2 ^ 48 < twice.natAbs → t.clk.tb.incr = s.clk.tb.incr
          ∧ ∃ theta : Time, (2 * theta - twice).natAbs ≤ 1 ∧ (theta ≤ now s.clk → now t.clk = now s.clk - theta)))) ∧
  (∀ (sec : W64) (ns : W32) (frac : W32) (s : State), s.dev.pins.pairSlaved = true →
    (s.dev.pair.inbox.find? (fun x => x.1 == 0) = some (0, messageBytes 6 [sec, ns.setWidth 64, frac.setWidth 64]) →
      let diff : Time := sec.toInt * sec1 + ns.toNat * ns1 + frac.toNat * 2 ^ 16
      0 ≤ now s.clk + diff → ∃ t, exec (.timeMessage (.step sec ns frac)) s = .next t ∧ t.clk.ticks = s.clk.ticks ∧ now t.clk = now s.clk + diff
        ∧ t.clk.tb.timeValid = true) ∧
    (s.dev.pair.inbox.find? (fun x => x.1 == 0) = some (0, messageBytes 9 [sec, ns.setWidth 64, frac.setWidth 64]) →
      ∃ t, exec (.timeMessage (.set sec ns frac)) s = .next t ∧ t.clk.ticks = s.clk.ticks ∧ now t.clk = timeOf sec ns + frac.toNat * 2 ^ 16
        ∧ t.clk.tb.timeValid = true)) ∧
  (∀ (bias : W64) (h : Bool) (sec : W64) (ns num den policy holdMax : W32) (s : State), s.dev.pins.pairSlaved = true → num.toNat < 2 ^ 20 → den.toNat < 2 ^ 20 →
    s.dev.pair.inbox.find? (fun x => x.1 == 0) = some (0, messageBytes 13 [bias, w64 (bnat h), sec, ns.setWidth 64, num.setWidth 64, den.setWidth 64,
      policy.setWidth 64, holdMax.setWidth 64]) →
    ∃ t, exec (.timeMessage (.frame bias h sec ns num den policy holdMax)) s = .next t ∧ t.clk = s.clk ∧ t.dev.frm.bias = bias
      ∧ gridRegs t.dev = ⟨sec, ns, num, den⟩ ∧ rd t.dev Reg.FRM_STEP_POLICY = policy ∧ rd t.dev Reg.FRM_HOLD_MAX = holdMax
      ∧ (rb s.dev Reg.FRM_CTL 0 = true → t.dev.frm.run = some ⟨sec, ns, num, den⟩ ∧ t.dev.frm.holding = h)
      ∧ (rb s.dev Reg.FRM_CTL 0 = false → t.dev.frm.run = s.dev.frm.run)) ∧
  (∀ (m : TimeMessage) (s : State), let p := s.dev.pair
    let bytes := match m with
      | .ask t1 => messageBytes 14 (stampWords t1)
      | .step sec ns frac => messageBytes 6 [sec, ns.setWidth 64, frac.setWidth 64]
      | .set sec ns frac => messageBytes 9 [sec, ns.setWidth 64, frac.setWidth 64]
      | .frame bias h sec ns num den policy holdMax => messageBytes 13 [bias, w64 (bnat h), sec, ns.setWidth 64, num.setWidth 64, den.setWidth 64,
          policy.setWidth 64, holdMax.setWidth 64]
    let taken := { s.dev with pair := { p with inbox := p.inbox.erase (0, bytes), stamps := p.stamps.drop 1 } }
    (p.inbox.find? (fun x => x.1 == 0) ≠ some (0, bytes) → exec (.timeMessage m) s = .next s) ∧
    (p.inbox.find? (fun x => x.1 == 0) = some (0, bytes) → s.dev.pins.pairSlaved = false → (∀ t1, m ≠ .ask t1) →
      exec (.timeMessage m) s = nextDev s taken) ∧
    (p.inbox.find? (fun x => x.1 == 0) = some (0, bytes) → ∀ t1, m = .ask t1 →
      (p.mode ≠ .active → p.mode ≠ .taking → exec (.timeMessage m) s = nextDev s taken) ∧
      (p.mode = .active ∨ p.mode = .taking → ∃ t, exec (.timeMessage m) s = .next t ∧ t.clk = s.clk ∧ t.dev.pair.inbox = taken.pair.inbox
        ∧ Sends 0 (messageBytes 15 (stampWords t1 ++ stampWords (p.stamps.headD 0) ++ stampWords (now s.clk + pathDelay s.dev 16))) s t))) ∧
  (∀ (f key value : W64) (slot : Fin 8) (cancel : Bool) (s : State), let p := s.dev.pair
    let m := (7, messageBytes 8 [f, key, w64 slot.val, value, w64 (bnat cancel)])
    (p.inbox.find? (fun x => x.1 == 7) ≠ some m → exec (.mirrorFrameRx (.push f key slot value cancel)) s = .next s) ∧
    (p.inbox.find? (fun x => x.1 == 7) = some m → exec (.mirrorFrameRx (.push f key slot value cancel)) s = nextDev s { s.dev with pair := { p with
      inbox := p.inbox.erase m, pushes := p.pushes ++ [(f, { key, slot := slot.val, value, cancel })] } })) ∧
  (∀ (port : Fin 10) (stamp : W64) (frac : W32) (data : List W8) (s : State), let p := s.dev.pair
    let m := (7, messageBytes 7 ([w64 port.val, stamp, frac.setWidth 64] ++ data.map (·.setWidth 64)))
    let got (k : Nat) : Received := { port, stamp := nearTime stamp (now s.clk) + frac.toNat * 2 ^ 16, bytes := data, stream := k, mirrored := true }
    p.inbox.find? (fun x => x.1 == 7) = some m →
      ((strain s.dev port data).action = .sacn → exec (.mirrorFrameRx (.frame port stamp frac data)) s = nextDev s { s.dev with
        pair := { p with inbox := p.inbox.erase m }, sacnRx := s.dev.sacnRx ++ [got 0] }) ∧
      (∀ k, (strain s.dev port data).action = .st k → exec (.mirrorFrameRx (.frame port stamp frac data)) s = nextDev s { s.dev with
        pair := { p with inbox := p.inbox.erase m }, stRx := s.dev.stRx ++ [got k] }) ∧
      ∃ t, exec (.mirrorFrameRx (.frame port stamp frac data)) s = .next t ∧ t.clk = s.clk ∧ t.dev.pair.inbox = p.inbox.erase m) ∧
  (∀ (f : W64) (s : State), let p := s.dev.pair
    let m := (7, messageBytes 5 [f])
    p.inbox.find? (fun x => x.1 == 7) = some m → ∃ t, exec (.markRx f) s = .next t ∧ t.clk = s.clk ∧ t.dev.pair.marked = some f
      ∧ (∀ t0, p.markDue = some (f, t0) → t.dev.pair.markDue = none ∧ t.dev.pair.pushes = p.pushes.filter fun x => decide (f < x.1))
      ∧ ((∀ t0, p.markDue ≠ some (f, t0)) → t.dev.pair.markDue = p.markDue ∧ t.dev.pair.pushes = p.pushes)) ∧
  (∀ (s : State) (f t0 : W64), let p := s.dev.pair
    let wait := min 1000 (max 10 (rf s.dev Reg.PAIR_MARK_WAIT 0 10)) * 1250
    (p.markDue = none → exec .mirrorLate s = .next s) ∧
    (p.markDue = some (f, t0) → (since s.clk t0 < wait → exec .mirrorLate s = .next s) ∧
      (wait ≤ since s.clk t0 → ∃ t, exec .mirrorLate s = .next t ∧ t.clk = s.clk ∧ t.dev.pair.markDue = none ∧ rb t.dev Reg.PAIR_EVENT 12 = true
        ∧ rd t.dev Reg.PAIR_MIRROR_LATE = w32 (min (2 ^ 32 - 1) ((rd s.dev Reg.PAIR_MIRROR_LATE).toNat + 1))
        ∧ t.dev.pair.pushes = p.pushes.filter fun x => decide (f < x.1)))) ∧
  (∀ (n : W64) (s : State), let e := sendMark n s.clk s.dev
    (s.dev.pair.markOwed = true → Sends 7 (messageBytes 5 [n]) s { s with dev := e } ∧ e.pair.markOwed = false ∧ e.pair.mode = s.dev.pair.mode) ∧
    (s.dev.pair.markOwed = false → e = s.dev))

/-- R288, R289 and R300 for DIGEST_SEND, DIGEST_RX, DIGEST_MISSING, MISMATCH_MESSAGE_RX, ADJ_RESULT and HEALTH_RX. That a run on the active ends with
a frame that its partner has not named, and that LIMIT is reached at or beyond it, is DEDUCED (log entry 54), and so is that a missing result counts
as a pass (log entry 57): the model's readings. -/
def Obligations.DigestsAndAdjudication : Prop :=
  let judges (p : Pair) : Prop := p.mode = .sync ∨ p.mode = .cozy ∨ p.mode = .degraded
  let less (x y : Nat × Nat × W32) : Prop := x.1 * 65536 + x.2.1 ≤ y.1 * 65536 + y.2.1
  let runs (s : State) : Nat := min 255 (rf s.dev Reg.PAIR_MISMATCH_RUN 0 8 + 1)
  (∀ x : DigestSet, x.sorted.Perm x.recs ∧ x.sorted.Pairwise less ∧
    ((∀ r ∈ x.recs, r.1 < 4 ∧ r.2.1 < 65536) → (digestBytes x).length = 8 + 8 * x.recs.length ∧ digestOf (digestBytes x) = { x with recs := x.sorted })) ∧
  (∀ l r : List (Nat × Nat × W32), firstMismatch l r = none ↔ l = r) ∧
  (∀ (f : W64) (s : State), let p := s.dev.pair
    let sends := p.mode = .active ∧ digestOpen f s.clk s.dev = false ∧ p.digests.any (fun x => x.frame == f) = true
    (¬ sends → exec (.digestSend f) s = .next s) ∧
    (sends → ∃ t, exec (.digestSend f) s = .next t ∧ t.clk = s.clk ∧ t.dev.mem = s.dev.mem ∧ t.dev.pair.mode = p.mode
      ∧ t.dev.pair.digests = p.digests.filter (fun x => x.frame != f) ∧ Sends 3 (digestBytes (ownSet f s.dev)) s t
      ∧ rf t.dev Reg.PAIR_MISMATCH_RUN 0 8 = (if p.named.all fun g => decide (g + 2 < f) then 0 else rf s.dev Reg.PAIR_MISMATCH_RUN 0 8))) ∧
  (∀ s : State, (∀ m ∈ s.dev.pair.inbox, m.1 ≠ 3) → exec .digestRx s = .next s) ∧
  (∀ (s : State) (m : Nat × List W8), let p := s.dev.pair
    let set := digestOf m.2
    let own := (ownSet set.frame s.dev).sorted
    p.inbox.find? (fun x => x.1 == 3) = some m →
    (digestOpen set.frame s.clk s.dev = true → exec .digestRx s = .next s) ∧
    (digestOpen set.frame s.clk s.dev = false → ¬ judges p ∨ hasSet set.frame s.dev = false →
      exec .digestRx s = nextDev s { s.dev with pair := { p with inbox := p.inbox.erase m } }) ∧
    (digestOpen set.frame s.clk s.dev = false → judges p → hasSet set.frame s.dev = true → ∃ t, exec .digestRx s = .next t ∧ t.clk = s.clk ∧ t.dev.mem = s.dev.mem
      ∧ t.dev.pair.inbox = p.inbox.erase m ∧ t.dev.pair.digests = p.digests.filter (fun x => x.frame != set.frame)
      ∧ (own = set.sorted → t.dev.pair.matched = p.matched + 1 ∧ rf t.dev Reg.PAIR_MISMATCH_RUN 0 8 = 0 ∧ t.dev.pair.adj = p.adj
          ∧ (let joins := p.mode = .sync ∧ max 1 (rf s.dev Reg.PAIR_JOIN_FRAMES 0 16) ≤ p.matched + 1
             (joins → t.dev.pair.mode = .cozy ∧ rb t.dev Reg.PAIR_EVENT 17 = true) ∧ (¬ joins → t.dev.pair.mode = p.mode)))
      ∧ (∀ c i, firstMismatch own set.sorted = some (c, i) → t.dev.pair.matched = 0 ∧ t.dev.pair.mode = p.mode ∧ rb t.dev Reg.PAIR_EVENT 8 = true
          ∧ rd t.dev Reg.PAIR_MISMATCH_INFO = w32 (c * 2 ^ 30 + i) ∧ rd64 t.dev Reg.PAIR_MISMATCH_FRAME_LO = set.frame
          ∧ Sends 2 (messageBytes 2 [w64 c, w64 i, set.frame]) s t
          ∧ (p.adj = none → t.dev.pair.adj = some { cls := c, index := i, tick := s.clk.ticks, left := (adjSlices c i).length }
              ∧ t.dev.weevil.adj = s.dev.weevil.adj ++ (adjSlices c i).map fun x => (x.1, x.2, s.clk.ticks))
          ∧ (p.adj ≠ none → t.dev.pair.adj = p.adj ∧ t.dev.weevil = s.dev.weevil ∧ rf t.dev Reg.PAIR_MISMATCH_RUN 0 8 = runs s)))) ∧
  (∀ (f : W64) (s : State), let p := s.dev.pair
    let missing := judges p ∧ linkUp s.dev = true ∧ digestOpen f s.clk s.dev = false
      ∧ (completeAt f s.clk s.dev).all (fun c => decide (c + (rateGrid s.dev).period ≤ now s.clk)) = true
      ∧ p.digests.any (fun x => x.frame == f) = true ∧ p.inbox.any (fun m => m.1 == 3 && (digestOf m.2).frame == f) = false
    (¬ missing → exec (.digestMissing f) s = .next s) ∧
    (missing → ∃ t, exec (.digestMissing f) s = .next t ∧ t.clk = s.clk ∧ rb t.dev Reg.PAIR_EVENT 11 = true
      ∧ t.dev.pair = { p with digests := p.digests.filter fun x => x.frame != f } ∧ onlyThese [Reg.PAIR_EVENT] { s.dev with pair := t.dev.pair } t.dev)) ∧
  (∀ (cls : Fin 4) (index : W16) (f : W64) (s : State), let p := s.dev.pair
    let m := (2, messageBytes 2 [w64 cls.val, index.setWidth 64, f])
    (p.inbox.find? (fun x => x.1 == 2) ≠ some m → exec (.mismatchMessageRx cls index f) s = .next s) ∧
    (p.inbox.find? (fun x => x.1 == 2) = some m →
      let run := if p.named.any fun g => g + 1 == f || g == f then rf s.dev Reg.PAIR_MISMATCH_RUN 0 8 else 0
      let slices := adjSlices cls.val index.toNat
      ∃ t, exec (.mismatchMessageRx cls index f) s = .next t ∧ t.clk = s.clk
        ∧ onlyThese [Reg.PAIR_MISMATCH_RUN, Reg.PAIR_EVENT] { s.dev with pair := t.dev.pair, weevil := t.dev.weevil } t.dev
        ∧ (p.adj = none → rf t.dev Reg.PAIR_MISMATCH_RUN 0 8 = run
            ∧ t.dev.pair = { p with
                inbox := p.inbox.erase m, named := some f
                adj := some { cls := cls.val, index := index.toNat, tick := s.clk.ticks, left := slices.length } }
            ∧ t.dev.weevil = { s.dev.weevil with adj := s.dev.weevil.adj ++ slices.map fun x => (x.1, x.2, s.clk.ticks) })
        ∧ (p.adj ≠ none → t.dev.pair = { p with inbox := p.inbox.erase m, named := some f } ∧ t.dev.weevil = s.dev.weevil
            ∧ rf t.dev Reg.PAIR_MISMATCH_RUN 0 8 = min 255 (run + 1)
            ∧ (max 1 (rf s.dev Reg.PAIR_MISMATCH_LIMIT 0 8) ≤ min 255 (run + 1) → rb t.dev Reg.PAIR_EVENT 9 = true)))) ∧
  (∀ (partner : Option Bool) (s : State) (a : Adjudication), let p := s.dev.pair
    let late := 12500000 ≤ since s.clk a.tick
    let other := partner.getD false
    let ends := (a.left = 0 ∨ late) ∧ (match partner with
      | some b => p.inbox.find? (fun x => x.1 == 2) = some (2, messageBytes 3 [w64 a.cls, w64 a.index, w64 (bnat b)])
      | none => late)
    (p.adj = none → exec (.adjResult partner) s = .next s) ∧
    (p.adj = some a → (¬ ends → exec (.adjResult partner) s = .next s) ∧
      (ends → ∃ t, exec (.adjResult partner) s = .next t ∧ t.clk = s.clk ∧ t.dev.pair.adj = none ∧ t.dev.weevil = s.dev.weevil ∧
        (a.failed = false → other = false → t.dev.pair.mode = p.mode ∧ rf t.dev Reg.PAIR_MISMATCH_RUN 0 8 = runs s
          ∧ rd t.dev Reg.PAIR_MISMATCH = w32 (min (2 ^ 32 - 1) ((rd s.dev Reg.PAIR_MISMATCH).toNat + 1))
          ∧ (max 1 (rf s.dev Reg.PAIR_MISMATCH_LIMIT 0 8) ≤ runs s → rb t.dev Reg.PAIR_EVENT 9 = true)) ∧
        (judges p → a.failed = true → t.dev.pair.mode = .degraded ∧ t.dev.pair.ownDrive = false ∧ rb t.dev Reg.PAIR_EVENT 10 = true) ∧
        (judges p → a.failed = false → other = true → t.dev.pair.mode = p.mode ∧ rd t.dev Reg.PAIR_EVENT = rd s.dev Reg.PAIR_EVENT) ∧
        (p.mode = .active → a.failed = false → other = true → t.dev.pair.mode = .active ∧ t.dev.pair.handover = p.handover
          ∧ rd t.dev Reg.PAIR_EVENT = rd s.dev Reg.PAIR_EVENT) ∧
        (p.mode = .active → a.failed = true → other = true → t.dev.pair.mode = .active ∧ t.dev.pair.handover = p.handover ∧ rb t.dev Reg.PAIR_EVENT 10 = true) ∧
        (p.mode = .active → a.failed = true → other = false → t.dev.pair.mode = .active ∧ t.dev.pair.yielding = true ∧ rb t.dev Reg.PAIR_EVENT 10 = true
          ∧ (∀ g, p.handover = none → s.dev.frm.run = some g → g.ok = true → ∃ f b, t.dev.pair.handover = some (f, b) ∧ now s.clk + 1000000 * ns1 ≤ b)))) ) ∧
  (∀ s : State, (∀ m ∈ s.dev.pair.inbox, m.1 ≠ 4) → exec .healthRx s = .next s) ∧
  (∀ (s : State) (m : Nat × List W8), let p := s.dev.pair
    let v := w64 (ofLe (m.2.take 8))
    p.inbox.find? (fun x => x.1 == 4) = some m → ∃ t, exec .healthRx s = .next t ∧ t.clk = s.clk ∧ rd64 t.dev Reg.PAIR_HEALTH_PARTNER_LO = v
      ∧ t.dev.pair = { p with inbox := p.inbox.erase m }
      ∧ onlyThese [Reg.PAIR_HEALTH_PARTNER_LO, Reg.PAIR_HEALTH_PARTNER_HI, Reg.PAIR_EVENT] { s.dev with pair := t.dev.pair } t.dev
      ∧ (fld v 8 40 ≠ fld (rd64 s.dev Reg.PAIR_HEALTH_PARTNER_LO) 8 40 → rb t.dev Reg.PAIR_EVENT 16 = true)
      ∧ (fld v 8 40 = fld (rd64 s.dev Reg.PAIR_HEALTH_PARTNER_LO) 8 40 → rd t.dev Reg.PAIR_EVENT = rd s.dev Reg.PAIR_EVENT))

/-- R272 and R292 as an invariant of every command, from whatever state meets it. -/
def Obligations.OwnershipLine : Prop :=
  ∀ s t : State, ownershipKept s → step s = .next t → ownershipKept t

/-- R305 to R315 for CSR_WRITE, PAIR_LO_WRITE, PAIR_HI_WRITE, PAIR_LO_READ, IND_DATA_READ, IND_DATA_WRITE and IND_ERR; which registers are
ordinary, and which bits of theirs are of which access type, the rows of Machine/Regs.lean say. That the host alone writes the factory region, and
that any other write of it is a lock violation, is DEDUCED (log entry 18: the model's reading); that a violation or denial in the tick of a clear
keeps the captured address is its choice (log entry 19). -/
def Obligations.RegisterBus : Prop :=
  let bad (s t : State) : Prop := t.clk = s.clk ∧ onlyThese [Reg.GUARD_EVENT, Reg.GUARD_BAD_ACCESS_COUNT] s.dev t.dev ∧ rb t.dev Reg.GUARD_EVENT 4 = true
    ∧ rd t.dev Reg.GUARD_BAD_ACCESS_COUNT = w32 (min (2 ^ 32 - 1) ((rd s.dev Reg.GUARD_BAD_ACCESS_COUNT).toNat + 1))
  let denied (req : Req) (reason off : Nat) (s t : State) : Prop := t.clk = s.clk
    ∧ onlyThese [Reg.GUARD_EVENT, Reg.GUARD_DENIED_COUNT, Reg.GUARD_DENY_INFO] s.dev t.dev ∧ rb t.dev Reg.GUARD_EVENT 1 = true
    ∧ rd t.dev Reg.GUARD_DENIED_COUNT = w32 (min (2 ^ 32 - 1) ((rd s.dev Reg.GUARD_DENIED_COUNT).toNat + 1))
    ∧ rd t.dev Reg.GUARD_DENY_INFO
      = if rb s.dev Reg.GUARD_EVENT 1 || sameCycle s.clk s.dev.bus.denyClear then rd s.dev Reg.GUARD_DENY_INFO else offender req reason off
  let other : Req → Req := fun | .host => .fw | .fw => .host
  (∀ (row : RegRow) (old v : W32) (j : Nat), row.w &&& row.w1c = 0 → row.w &&& row.w1s = 0 → row.w1c &&& row.w1s = 0 →
    bit (row.written old v) j = if bit row.w j then bit v j else if bit row.w1c j then bit old j && !bit v j
      else if bit row.w1s j then bit old j || bit v j else bit old j) ∧
  (∀ (req : Req) (a : BitVec 24) (v : W32) (s : State), ∃ t, exec (.csrWrite req a v false) s = .next t ∧ bad s t) ∧
  (∀ (req : Req) (a : BitVec 24) (v : W32) (s : State), csrShut s.dev a.toNat = true → exec (.csrWrite req a v true) s = .next s) ∧
  (∀ (req : Req) (a : BitVec 24) (v : W32) (s : State), csrShut s.dev a.toNat = false → Reg.rowAt a.toNat = none →
    ∃ t, exec (.csrWrite req a v true) s = .next t ∧ bad s t) ∧
  (∀ (req : Req) (a : BitVec 24) (v : W32) (s : State) (row : RegRow) (i : List Nat), csrShut s.dev a.toNat = false → Reg.rowAt a.toNat = some (row, i) →
    row.hook = .plain → row.half = .none →
    let e := row.written (rd s.dev a.toNat) v
    (row.gk = false → ∃ t, exec (.csrWrite req a v true) s = .next t ∧ t.clk = s.clk ∧ rd t.dev a.toNat = e
      ∧ (rd s.dev Reg.SEAL_MASK = 0 → a.toNat ≠ Reg.SEAL_MASK → onlyThese [a.toNat] s.dev t.dev)
      ∧ onlyThese [a.toNat] { s.dev with bus := { s.dev.bus with sealRun := t.dev.bus.sealRun } } t.dev
      ∧ (rd s.dev Reg.SEAL_MASK ≠ 0 → 4 ≤ a.toNat → e ≠ rd s.dev a.toNat →
          Tab.get [] t.dev.bus.sealRun.seen a.toNat = Tab.get [] s.dev.bus.sealRun.seen a.toNat ++ [rd s.dev a.toNat])) ∧
    (row.gk = true → lcCloses s.dev a.toNat v = true → ∃ t, exec (.csrWrite req a v true) s = .next t ∧ denied req 2 a.toNat s t) ∧
    (row.gk = true → lcCloses s.dev a.toNat v = false → armed s.dev req = false → ∃ t, exec (.csrWrite req a v true) s = .next t ∧ denied req 1 a.toNat s t) ∧
    (row.gk = true → lcCloses s.dev a.toNat v = false → armed s.dev req = true → ∃ t, exec (.csrWrite req a v true) s = .next t ∧ t.clk = s.clk
      ∧ rd t.dev a.toNat = e ∧ armed t.dev req = false ∧ armed t.dev (other req) = armed s.dev (other req)
      ∧ onlyThese [a.toNat] { s.dev with bus := t.dev.bus } t.dev)) ∧
  (∀ (req : Req) (a : BitVec 24) (v : W32) (s : State) (row : RegRow) (i : List Nat), csrShut s.dev a.toNat = false → Reg.rowAt a.toNat = some (row, i) →
    row.hook = .plain → row.gk = false → row.w ≠ 0 →
    (row.half = .lo → ∃ t, exec (.pairLoWrite req a v) s = .next t ∧ t.clk = s.clk ∧ t.dev = { s.dev with bus := t.dev.bus }
      ∧ stagedLo t.dev req a.toNat = some v ∧ ∀ r p, (r ≠ req ∨ p ≠ a.toNat) → stagedLo t.dev r p = stagedLo s.dev r p) ∧
    (row.half = .hi → ∃ t, exec (.pairHiWrite req a v) s = .next t ∧ t.clk = s.clk ∧ rd t.dev a.toNat = row.written (rd s.dev a.toNat) v
      ∧ (stagedLo s.dev req (a.toNat - 4) = none → rd t.dev (a.toNat - 4) = rd s.dev (a.toNat - 4))
      ∧ (∀ l lrow j, stagedLo s.dev req (a.toNat - 4) = some l → Reg.rowAt (a.toNat - 4) = some (lrow, j) → 4 ≤ a.toNat →
          rd t.dev (a.toNat - 4) = lrow.written (rd s.dev (a.toNat - 4)) l)
      ∧ stagedLo t.dev req (a.toNat - 4) = none ∧ onlyThese [a.toNat - 4, a.toNat] { s.dev with bus := t.dev.bus } t.dev)) ∧
  (∀ (req : Req) (a : BitVec 24) (v : W32) (s : State), (halfAt .lo a.toNat = false → exec (.pairLoWrite req a v) s = .next s ∧ exec (.pairLoRead req a) s = .next s)
    ∧ (halfAt .hi a.toNat = false → exec (.pairHiWrite req a v) s = .next s)) ∧
  (∀ (req : Req) (a : BitVec 24) (s : State) (row : RegRow) (i : List Nat), csrShut s.dev a.toNat = false → Reg.rowAt a.toNat = some (row, i) →
    row.hook = .plain → row.half = .lo → ∃ t, exec (.pairLoRead req a) s = .next t ∧ t.clk = s.clk ∧ t.dev.bus.data = rd s.dev a.toNat
      ∧ rd t.dev (snapOf req (a.toNat + 4)) = rd s.dev (a.toNat + 4)
      ∧ onlyThese [snapOf req (a.toNat + 4)] { s.dev with bus := { s.dev.bus with data := t.dev.bus.data } } t.dev) ∧
  (∀ (req : Req) (v : W32) (s : State), csrShut s.dev Reg.IND_DATA = false →
    let addr := indAddr s.dev req
    let sel := indSel s.dev req
    let simple : Prop := sel = 4 ∨ sel = 5 ∨ ∃ row i, Reg.rowAt (sel * 2 ^ 24 + addr) = some (row, i) ∧ row.hook = .plain ∧ row.half = .none
    let moves (status : W32) (t : State) : Prop := t.clk = s.clk ∧ rd t.dev (ownOf req Reg.IND_ADDR) = w32 ((addr + 4) % 2 ^ 24)
      ∧ rd t.dev (ownOf req Reg.IND_STATUS) = status
    (indKnown s.dev req = false → (∃ t, exec (.indDataRead req) s = .next t ∧ moves 1 t ∧ t.dev.bus.data = 0 ∧ rb t.dev Reg.GUARD_EVENT 3 = true
        ∧ onlyThese [ownOf req Reg.IND_ADDR, ownOf req Reg.IND_STATUS, Reg.GUARD_EVENT] { s.dev with bus := t.dev.bus } t.dev)
      ∧ ∃ t, exec (.indDataWrite req v) s = .next t ∧ moves 1 t ∧ rb t.dev Reg.GUARD_EVENT 3 = true
        ∧ onlyThese [ownOf req Reg.IND_ADDR, ownOf req Reg.IND_STATUS, Reg.GUARD_EVENT] s.dev t.dev) ∧
    (indKnown s.dev req = true → (∃ t, exec (.indDataRead req) s = .next t ∧ (simple → moves 0 t)
        ∧ (sel = 4 → t.dev.bus.data = w32 (mramNum s.dev addr 4)) ∧ (sel = 5 → t.dev.bus.data = Tab.get 0 s.dev.weevil.results (addr / 4))
        ∧ ∀ row i, sel ≠ 4 → sel ≠ 5 → Reg.rowAt (sel * 2 ^ 24 + addr) = some (row, i) → row.hook = .plain → row.half = .none →
            t.dev.bus.data = rd s.dev (sel * 2 ^ 24 + addr)) ∧
      (∃ t, exec (.indDataWrite req v) s = .next t ∧ (simple → moves 0 t)
        ∧ (sel = 5 → onlyThese [ownOf req Reg.IND_ADDR, ownOf req Reg.IND_STATUS] s.dev t.dev)
        ∧ (sel = 4 → addr < 0x4000 → s.dev.scarab.lc = .blank → req = .host →
            mramNum t.dev addr 4 = if factoryListed addr then v.toNat else mramNum s.dev addr 4)
        ∧ (sel = 4 → addr < 0xC000 → (0x4000 ≤ addr ∨ s.dev.scarab.lc ≠ .blank ∨ req = .fw) → rb t.dev Reg.GUARD_EVENT 0 = true
            ∧ t.dev.calib = s.dev.calib ∧ rd t.dev Reg.LOCK_VIOLATION_ADDR
              = if rb s.dev Reg.GUARD_EVENT 0 || sameCycle s.clk s.dev.bus.lockClear then rd s.dev Reg.LOCK_VIOLATION_ADDR else offender req 4 addr)
        ∧ ∀ row i, sel ≠ 4 → sel ≠ 5 → Reg.rowAt (sel * 2 ^ 24 + addr) = some (row, i) → row.hook = .plain → row.half = .none →
            rd t.dev (sel * 2 ^ 24 + addr) = row.written (rd s.dev (sel * 2 ^ 24 + addr)) v) ∧
      (∀ write, ∃ t, exec (.indErr req write) s = .next t ∧ moves 2 t ∧ rb t.dev Reg.GUARD_EVENT 3 = true ∧ (write = false → t.dev.bus.data = 0)
        ∧ onlyThese [ownOf req Reg.IND_ADDR, ownOf req Reg.IND_STATUS, Reg.GUARD_EVENT] { s.dev with bus := t.dev.bus } t.dev)))

/-- R314 to R319 for GUARD_UNLOCK_WRITE, UNLOCK_EXPIRE, SEAL_CAPTURE and SEAL_PASS_END. Which of two values a pass reads of a register written
while it runs is the model's open choice, and no clause rests on it; that a denial in the tick of a clear keeps the captured offset is its choice
too (log entry 19). -/
def Obligations.GuardAndSeal : Prop :=
  let other : Req → Req := fun | .host => .fw | .fw => .host
  let place (i : Nat) : Nat := i * 4
  (∀ (req : Req) (v : W32) (s : State), csrShut s.dev Reg.GUARD_UNLOCK = false →
    (v = 0x7EA5C0DE → ∃ t, exec (.guardUnlockWrite req v) s = .next t ∧ t.clk = s.clk ∧ t.dev = { s.dev with bus := t.dev.bus } ∧ armed t.dev req = true
      ∧ armed t.dev (other req) = armed s.dev (other req)
      ∧ ∃ u, exec (.unlockExpire req) t = .next u ∧ (u.dev = t.dev)) ∧
    (v ≠ 0x7EA5C0DE → ∃ t, exec (.guardUnlockWrite req v) s = .next t ∧ t.clk = s.clk ∧ armed t.dev req = false ∧ armed t.dev (other req) = armed s.dev (other req)
      ∧ rb t.dev Reg.GUARD_EVENT 1 = true
      ∧ rd t.dev Reg.GUARD_DENIED_COUNT = w32 (min (2 ^ 32 - 1) ((rd s.dev Reg.GUARD_DENIED_COUNT).toNat + 1))
      ∧ (rb s.dev Reg.GUARD_EVENT 1 = false → sameCycle s.clk s.dev.bus.denyClear = false →
          rd t.dev Reg.GUARD_DENY_INFO = offender req 3 Reg.GUARD_UNLOCK)
      ∧ (rb s.dev Reg.GUARD_EVENT 1 = true ∨ sameCycle s.clk s.dev.bus.denyClear = true →
          rd t.dev Reg.GUARD_DENY_INFO = rd s.dev Reg.GUARD_DENY_INFO)
      ∧ onlyThese [Reg.GUARD_EVENT, Reg.GUARD_DENIED_COUNT, Reg.GUARD_DENY_INFO] { s.dev with bus := t.dev.bus } t.dev)) ∧
  (∀ (req : Req) (s : State), let t0 := match req with | .host => s.dev.bus.hostTick | .fw => s.dev.bus.fwTick
    (armed s.dev req = false ∨ since s.clk t0 < 5120 → exec (.unlockExpire req) s = .next s) ∧
    (armed s.dev req = true → 5120 ≤ since s.clk t0 → exec (.unlockExpire req) s = nextDev s (setArmed req false s.dev))) ∧
  (∀ (req : Req) (s : State), csrShut s.dev Reg.SEAL_CAPTURE = false → let run := s.dev.bus.sealRun
    (armed s.dev req = false → ∃ t, exec (.sealCapture req) s = .next t ∧ t.dev.bus = s.dev.bus ∧ rb t.dev Reg.GUARD_EVENT 1 = true) ∧
    (armed s.dev req = true → ∃ t, exec (.sealCapture req) s = .next t ∧ t.clk = s.clk ∧ t.dev = { s.dev with bus := t.dev.bus } ∧ armed t.dev req = false
      ∧ t.dev.bus.sealRun = if run.capture then run else { run with capture := true, fresh := false })) ∧
  (∀ s : State, let run := s.dev.bus.sealRun
    (rd s.dev Reg.SEAL_MASK = 0 → exec .sealPassEnd s = .next s) ∧
    (rd s.dev Reg.SEAL_MASK ≠ 0 → ∃ t, exec .sealPassEnd s = .next t ∧ t.clk = s.clk ∧ rd t.dev Reg.SEAL_PASSES = rd s.dev Reg.SEAL_PASSES + 1
      ∧ t.dev.bus.sealRun.start = t.dev.regs ∧ t.dev.bus.sealRun.seen = []
      ∧ ((∀ a, ∀ v ∈ Tab.get (Reg.resetOf a) run.start a :: Tab.get [] run.seen a, v &&& sealedBits s.dev a = rd s.dev a &&& sealedBits s.dev a) → rd t.dev Reg.SEAL_RESULT
          = crc32c ((((List.range 0x48000).map place).filter fun a => sealedBits s.dev a != 0).flatMap fun a => leBytes 4 (rd s.dev a &&& sealedBits s.dev a).toNat))
      ∧ (run.capture = true → run.fresh = true → rd t.dev Reg.SEAL_REF = rd t.dev Reg.SEAL_RESULT ∧ t.dev.bus.sealRun.capture = false)
      ∧ (run.capture = true → run.fresh = false → rd t.dev Reg.SEAL_REF = rd s.dev Reg.SEAL_REF ∧ t.dev.bus.sealRun.capture = true ∧ t.dev.bus.sealRun.fresh = true)
      ∧ (run.capture = true → rd t.dev Reg.SEAL_MISMATCH_COUNT = rd s.dev Reg.SEAL_MISMATCH_COUNT)
      ∧ (run.capture = false → rd t.dev Reg.SEAL_REF = rd s.dev Reg.SEAL_REF ∧
          (let differs := rb s.dev Reg.SEAL_CTL 0 = true ∧ rd t.dev Reg.SEAL_RESULT ≠ rd s.dev Reg.SEAL_REF
           (differs → rb t.dev Reg.GUARD_EVENT 2 = true
             ∧ rd t.dev Reg.SEAL_MISMATCH_COUNT = w32 (min (2 ^ 32 - 1) ((rd s.dev Reg.SEAL_MISMATCH_COUNT).toNat + 1))) ∧
           (¬ differs → rd t.dev Reg.SEAL_MISMATCH_COUNT = rd s.dev Reg.SEAL_MISMATCH_COUNT ∧ rd t.dev Reg.GUARD_EVENT = rd s.dev Reg.GUARD_EVENT)))
      ∧ sameRegsBut [Reg.SEAL_RESULT, Reg.SEAL_PASSES, Reg.SEAL_REF, Reg.SEAL_MISMATCH_COUNT, Reg.GUARD_EVENT] s.dev t.dev
      ∧ t.dev.mem = s.dev.mem)) ∧
  (∀ (d : Dev) (a : Nat), (0x8000 ≤ a → a < 0x10000 → sealedBits d a = 0) ∧ (0x1000000 ≤ a → sealedBits d a = 0) ∧
    (a ∈ [Reg.TB_INCR_LO, Reg.TB_INCR_HI, Reg.SCHED_TMPL_IDX, Reg.SCHED_FLOW_ARG, Reg.TB_SET_SEC_LO, Reg.TB_SET_SEC_HI, Reg.TB_SET_NS, Reg.TB_STEP_LO,
        Reg.TB_STEP_HI, Reg.KET_SURF_IDX, Reg.PACK_UNIV_IDX, Reg.PACK_IN_IDX, Reg.PACK_LATE_IDX, Reg.QUE_COUNT 9, Reg.PAIR_STATUS] →
      sealedBits d a = 0)) ∧
  (∀ d : Dev, (∀ p < 10, (∀ q < 9, sealedBits d (Reg.SPORT_TXQ_TAIL p q) = 0) ∧ ∀ q < 8, sealedBits d (Reg.SPORT_RXQ_TAIL p q) = 0)
    ∧ (∀ c < 16, sealedBits d (Reg.DMA_TAIL c) = 0)
    ∧ (∀ w < 4, sealedBits d (Reg.SCHED_TMPL_DATA w) = 0 ∧ sealedBits d (Reg.PACK_UNIV_DATA w) = 0 ∧ sealedBits d (Reg.PACK_IN_DATA w) = 0)
    ∧ (∀ w < 8, sealedBits d (Reg.KET_SURF_DATA w) = 0 ∧ sealedBits d (Reg.QUE_PUSH_DATA w) = 0)
    ∧ (∀ p < 2, sealedBits d (Reg.SCHED_LEAF_KEY_LO p) = 0 ∧ sealedBits d (Reg.SCHED_LEAF_KEY_HI p) = 0 ∧ sealedBits d (Reg.SCHED_LEAF_VAL_LO p) = 0
        ∧ sealedBits d (Reg.SCHED_LEAF_VAL_HI p) = 0)
    ∧ ∀ h < 4, sealedBits d (Reg.RHEAD_LAYER_DST_SIZE h) = 0 ∧ ∀ l < 4, sealedBits d (Reg.RHEAD_LAYER_CTL h l) = 0
        ∧ sealedBits d (Reg.RHEAD_LAYER_SRC_POS h l) = 0 ∧ sealedBits d (Reg.RHEAD_LAYER_SRC_SIZE h l) = 0 ∧ sealedBits d (Reg.RHEAD_LAYER_DST_POS h l) = 0) ∧
  (∀ d : Dev, (∀ n lo len : Nat, (n, lo, len) ∈ [(0, 0x0, 0x8000), (1, 0x10000, 0x8000), (2, 0x18000, 0x8000), (3, 0x20000, 0x20000), (4, 0x40000, 0x20000),
        (5, 0x80000, 0x10000), (6, 0x90000, 0x4000), (7, 0xA0000, 0x10000), (8, 0xB0000, 0x4000), (9, 0xC0000, 0x10000), (10, 0xD0000, 0x10000),
        (11, 0xE0000, 0x10000), (12, 0xF0000, 0x8000), (13, 0xF8000, 0x8000), (14, 0x100000, 0x8000), (15, 0x108000, 0x8000), (16, 0x110000, 0x10000)] →
      rb d Reg.SEAL_MASK n = false → ∀ a, lo ≤ a → a < lo + len → sealedBits d a = 0)
    ∧ (∀ n a : Nat, (n, a) ∈ [(0, Reg.SYS_ABORT_EVENT_EN), (1, Reg.TB_CTL), (2, Reg.FRM_EVENT_EN), (3, Reg.SCHED_CTL), (5, Reg.KET_CTL), (9, Reg.PACK_EVENT_EN),
        (10, Reg.QUE_BASE_LO 3), (11, Reg.DMA_BASE_LO 7), (12, Reg.PAIR_HB_CFG), (13, Reg.WEEVIL_BUDGET), (14, Reg.CAL_PERIOD), (15, Reg.SCARAB_EVENT_EN),
        (16, Reg.PMON_SEL 31)] → rb d Reg.SEAL_MASK n = true → sealedBits d a ≠ 0)
    ∧ (rb d Reg.SEAL_MASK 4 = true → ∀ i < 8, sealedBits d (Reg.SWARM_FAULT_CTL i) = 0x7FF)
    ∧ (rb d Reg.SEAL_MASK 6 = true → ∀ h < 4, sealedBits d (Reg.RHEAD_CTL h) ≠ 0)
    ∧ (rb d Reg.SEAL_MASK 7 = true → ∀ p < 8, sealedBits d (Reg.SPORT_LQ_CTL p) = 0x3FF03FF)
    ∧ (rb d Reg.SEAL_MASK 8 = true → ∀ n < 2, sealedBits d (Reg.SPORT_LQ_CTL (8 + n)) ≠ 0 ∧ sealedBits d (Reg.LPORT_TX_LAT n) = 0xFFFF)
    ∧ (rb d Reg.SEAL_MASK 10 = true → sealedBits d (Reg.QUE_BASE_LO 3) = 0xFFFFF000))

/-- R321 to R325 for QUE_PUSH, QUE_POP, QUE_SPILL, QUE_REFILL, QUEUE_PTR_MISMATCH, QUE_ENABLE and QUE_DISABLE. -/
def Obligations.CaddyQueues : Prop :=
  let others (q : Nat) (s t : State) : Prop := t.clk = s.clk ∧ ∀ r, r ≠ q → queue t.dev r = queue s.dev r
  let holds (l : List (List W8)) (q : Nat) (t : State) : Prop := (queue t.dev q).contents t.dev = l
  let kept (q : Nat) (s t : State) : Prop := (queue t.dev q).enabled = (queue s.dev q).enabled ∧ (queue t.dev q).spill = (queue s.dev q).spill
    ∧ (queue t.dev q).base = (queue s.dev q).base
  (∀ (req : Req) (q : Fin 1024) (s : State), csrShut s.dev Reg.QUE_PUSH_CMD = false →
    let x := queue s.dev q
    let status (t : State) : W32 := rd t.dev (ownOf req Reg.QUE_PUSH_STATUS)
    (x.enabled = false ∨ x.capacity ≤ x.depth → ∃ t, exec (.quePush req q) s = .next t ∧ status t = 3
      ∧ rd t.dev (Reg.QUE_REFUSED q) = w32 (min (2 ^ 32 - 1) ((rd s.dev (Reg.QUE_REFUSED q)).toNat + 1))
      ∧ onlyThese [Reg.QUE_REFUSED q, ownOf req Reg.QUE_PUSH_STATUS] s.dev t.dev) ∧
    (x.enabled = true → x.depth < x.capacity → x.ok s.dev → ∃ t, exec (.quePush req q) s = .next t ∧ others q s t ∧ kept q s t ∧ status t = 1
      ∧ holds (x.contents s.dev ++ [stagedEntry s.dev req]) q t ∧ sameOutside x.base (x.spill * 32) s.dev t.dev
      ∧ rd t.dev (Reg.QUE_REFUSED q) = rd s.dev (Reg.QUE_REFUSED q))) ∧
  (∀ (req : Req) (q : Fin 1024) (s : State), csrShut s.dev Reg.QUE_POP_CMD = false →
    let x := queue s.dev q
    let status (t : State) : W32 := rd t.dev (ownOf req Reg.QUE_POP_STATUS)
    let gives (e : List W8) (t : State) : Prop := ∀ w < 8, rd t.dev (ownOf req (Reg.QUE_POP_DATA w)) = w32 (ofLe (slice e (w * 4) 4))
    (∀ e r, x.head = e :: r → ∃ t, exec (.quePop req q) s = .next t ∧ others q s t ∧ kept q s t ∧ status t = 1 ∧ gives e t ∧ t.dev.mem = s.dev.mem
      ∧ holds (x.contents s.dev).tail q t) ∧
    (x.head = [] → x.held = 0 → ∃ t, exec (.quePop req q) s = .next t ∧ t.clk = s.clk ∧ t.dev.queues = s.dev.queues ∧ status t = 3 ∧ gives [] t
      ∧ t.dev.mem = s.dev.mem) ∧
    (x.head = [] → 0 < x.held → ∃ t, exec (.quePop req q) s = .next t ∧ others q s t ∧ status t = 0 ∧ queue t.dev q = { x with popWait := x.popWait ++ [req] }
      ∧ t.dev.mem = s.dev.mem)) ∧
  (∀ (q : Fin 1024) (s : State), let x := queue s.dev q
    let spills := 8 ≤ x.tail.length ∧ x.held + 8 ≤ x.spill ∧ ¬ (x.held = 0 ∧ x.head.length < 16)
    (¬ spills → exec (.queSpill q) s = .next s) ∧
    (spills → x.ok s.dev → ∃ t, exec (.queSpill q) s = .next t ∧ others q s t ∧ kept q s t ∧ (queue t.dev q).held = x.held + 8 ∧ (queue t.dev q).head = x.head
      ∧ holds (x.contents s.dev) q t ∧ sameOutside x.base (x.spill * 32) s.dev t.dev)) ∧
  (∀ (q : Fin 1024) (s : State), let x := queue s.dev q
    let at' := x.base + x.first % x.spill * 32
    let refills := x.head.length ≤ 8 ∧ 0 < x.held
    (¬ refills → exec (.queRefill q) s = .next s) ∧
    (refills → x.ok s.dev → uncorrectable s.dev at' 256 = false → ∃ t, exec (.queRefill q) s = .next t ∧ others q s t ∧ kept q s t
      ∧ t.dev.mem = s.dev.mem ∧ (queue t.dev q).held = x.held - 8
      ∧ (x.popWait = [] → holds (x.contents s.dev) q t ∧ (queue t.dev q).popWait = [])
      ∧ (∀ req, x.popWait = [req] → (queue t.dev q).popWait = [] ∧ holds (x.contents s.dev).tail q t ∧ rd t.dev (ownOf req Reg.QUE_POP_STATUS) = 1
          ∧ ∀ w < 8, rd t.dev (ownOf req (Reg.QUE_POP_DATA w)) = w32 (ofLe (slice ((x.contents s.dev).headD []) (w * 4) 4)))) ∧
    (refills → uncorrectable s.dev at' 256 = true → ∃ t, exec (.queRefill q) s = .next t ∧ others q s t ∧ kept q s t ∧ (queue t.dev q).depth = 0
      ∧ rb t.dev Reg.QUE_EVENT 1 = true ∧ rf t.dev Reg.QUE_ERR_COUNT 16 16 = min 0xFFFF (rf s.dev Reg.QUE_ERR_COUNT 16 16 + 1))) ∧
  (∀ (q : Fin 1024) (s : State), let x := queue s.dev q
    ∃ t, exec (.queuePtrMismatch q) s = .next t ∧ others q s t ∧ kept q s t ∧ (queue t.dev q).depth = 0 ∧ (queue t.dev q).popWait = [] ∧ t.dev.mem = s.dev.mem
      ∧ rb t.dev Reg.QUE_EVENT 0 = true ∧ rf t.dev Reg.QUE_ERR_COUNT 0 16 = min 0xFFFF (rf s.dev Reg.QUE_ERR_COUNT 0 16 + 1)
      ∧ (rb s.dev Reg.QUE_EVENT 0 = false → rb s.dev Reg.QUE_EVENT 1 = false → rd t.dev Reg.QUE_ERR_INFO = w32 (1 * 2 ^ 28 + q))
      ∧ ∀ req ∈ x.popWait, rd t.dev (ownOf req Reg.QUE_POP_STATUS) = 3) ∧
  (∀ (req : Req) (q : Fin 1024) (v : W32) (s : State), csrShut s.dev (Reg.QUE_CFG q) = false →
    let x := queue s.dev q
    let n := fld v 0 5
    let spill := if n = 0 then 0 else 2 ^ min 24 (max 4 n)
    let base := (rd64 s.dev (Reg.QUE_BASE_LO q)).toNat % 2 ^ 48
    let fits := spill = 0 ∨ (base % 4096 = 0 ∧ inDram s.dev base (spill * 32) = true)
    let off := v &&& 0x8000001F
    (bit v 31 = false → exec (.queEnable req q v) s = .next s) ∧
    (bit v 31 = true → x.enabled = true → exec (.queEnable req q v) s = nextDev s (noteSeal (Reg.QUE_CFG q) s.dev (wr (Reg.QUE_CFG q) off s.dev))) ∧
    (bit v 31 = true → x.enabled = false → fits → ∃ t, exec (.queEnable req q v) s = .next t ∧ others q s t ∧ rd t.dev (Reg.QUE_CFG q) = off
      ∧ queue t.dev q = { enabled := true, spill, base } ∧ onlyThese [Reg.QUE_CFG q] (noted t.dev { s.dev with queues := t.dev.queues }) t.dev) ∧
    (bit v 31 = true → x.enabled = false → ¬ fits → ∃ t, exec (.queEnable req q v) s = .next t ∧ t.clk = s.clk ∧ rb t.dev (Reg.QUE_CFG q) 31 = false
      ∧ rb t.dev Reg.QUE_EVENT 2 = true ∧ onlyThese [Reg.QUE_CFG q, Reg.QUE_EVENT] (noted t.dev s.dev) t.dev) ∧
    (bit v 31 = true → exec (.queDisable req q v) s = .next s) ∧
    (bit v 31 = false → x.enabled = false → exec (.queDisable req q v) s = nextDev s (noteSeal (Reg.QUE_CFG q) s.dev (wr (Reg.QUE_CFG q) off s.dev))) ∧
    (bit v 31 = false → x.enabled = true → ∃ t, exec (.queDisable req q v) s = .next t ∧ others q s t ∧ queue t.dev q = {} ∧ rd t.dev (Reg.QUE_CFG q) = off
      ∧ t.dev.mem = s.dev.mem ∧ ∀ r ∈ x.popWait, rd t.dev (ownOf r Reg.QUE_POP_STATUS) = 3))

/-- R110 and R327 to R333 for DMA_ENABLE, DMA_TAIL_WRITE, DMA_DESC_DONE, the eleven SYS_ABORT commands and ABORT_DONE. That ZERO_LEN is judged before
BAD_DESC, and that a descriptor in an uncorrectable word ends with MEM_ERR (log entry 62), and when an abort's effect stands and what counts as idle
(log entry 63), are DEDUCED: the model's readings. -/
def Obligations.DmaAndAbort : Prop :=
  let halted (c : Nat) (t : State) : Prop := (dmaChan t.dev c).enabled = false ∧ rb t.dev (Reg.DMA_CTL c) 31 = false ∧ rb t.dev (Reg.DMA_STATUS c) 1 = true
    ∧ rb t.dev Reg.DMA_EVENT (16 + c) = true
  let clean (d : Dev) (a n : Nat) : Prop := ∀ w ∈ wordsOf a n, errOf d w = .none
  (∀ (req : Req) (c : Fin 16) (v : W32) (s : State), csrShut s.dev (Reg.DMA_CTL c) = false →
    let base := (rd64 s.dev (Reg.DMA_BASE_LO c)).toNat % 2 ^ 48 / 64 * 64
    let n := min 16 (max 4 (fld v 0 5))
    (bit v 31 = false → exec (.dmaEnable req c v) s = .next s) ∧
    (bit v 31 = true → (dmaChan s.dev c).enabled = false → ∃ t, exec (.dmaEnable req c v) s = .next t ∧ t.clk = s.clk ∧ sameMemory s.dev t.dev
      ∧ (∀ k, k ≠ c.val → dmaChan t.dev k = dmaChan s.dev k)
      ∧ (inShared s.dev base (2 ^ n * 32) = true → dmaChan t.dev c = { dmaChan s.dev c with enabled := true, base, log2 := n }
          ∧ rb t.dev (Reg.DMA_STATUS c) 1 = false ∧ rb t.dev (Reg.DMA_CTL c) 31 = true)
      ∧ (inShared s.dev base (2 ^ n * 32) = false → halted c t)) ∧
    (bit v 31 = true → (dmaChan s.dev c).enabled = true → ∃ t, exec (.dmaEnable req c v) s = .next t ∧ t.clk = s.clk
      ∧ onlyThese [Reg.DMA_CTL c] (noted t.dev s.dev) t.dev)) ∧
  (∀ (req : Req) (c : Fin 16) (v : W32) (s : State), csrShut s.dev (Reg.DMA_TAIL c) = false →
    ∃ t, exec (.dmaTailWrite req c v) s = .next t ∧ t.clk = s.clk ∧ rf t.dev (Reg.DMA_TAIL c) 0 16 = fld v 0 16 ∧ onlyThese [Reg.DMA_TAIL c] s.dev t.dev) ∧
  (∀ (c : Fin 16) (data : List W8) (err : Option Nat) (s : State), dmaDesc s.dev c = none → exec (.dmaDescDone c data err) s = .next s) ∧
  (∀ (c : Fin 16) (data : List W8) (err : Option Nat) (s : State) (desc : Nat), dmaDesc s.dev c = some desc → protects s.dev = false →
    (dmaChan s.dev c).log2 ≤ 16 →
    let w := getBytes s.dev desc 24
    let src := ofLe (w.take 8)
    let dst := ofLe (slice w 8 8)
    let ctl := ofLe (slice w 16 8)
    let len := ctl % 2 ^ 24
    let dir := ctl / 2 ^ 30 % 4
    let notify : Bool := ctl.testBit 29
    let most := if dir = 0 then min len data.length else len
    let limit := if dir = 2 then len else min most (err.getD most)
    let badForm := 2 ^ 32 ≤ ctl ∨ ctl / 2 ^ 24 % 32 ≠ 0 ∨ dir = 3
    let badAddr := (dir ≠ 0 ∧ inShared s.dev src len = false) ∨ (dir ≠ 1 ∧ inShared s.dev dst len = false)
    let ends (status moved : Nat) (t : State) : Prop := t.clk = s.clk ∧ getBytes t.dev (desc + 24) 8 = leBytes 8 (2 ^ 63 + status * 2 ^ 48 + moved)
      ∧ rf t.dev (Reg.DMA_HEAD c) 0 16 = (rf s.dev (Reg.DMA_HEAD c) 0 16 + 1) % 2 ^ (dmaChan s.dev c).log2 ∧ (dmaChan t.dev c).flight = none
      ∧ (2 ≤ status → halted c t)
      ∧ (status < 2 → (dmaChan t.dev c).enabled = (dmaChan s.dev c).enabled ∧ (notify = true → rb t.dev Reg.DMA_EVENT c = true))
    let free' (t : State) (a n : Nat) : Prop := ∀ x, (x < a ∨ a + n ≤ x) → (x < desc + 24 ∨ desc + 32 ≤ x) → getByte t.dev x = getByte s.dev x
    (uncorrectable s.dev desc 24 = true → ∃ t, exec (.dmaDescDone c data err) s = .next t ∧ ends 4 0 t ∧ free' t 0 0) ∧
    (uncorrectable s.dev desc 24 = false →
      (len = 0 → ∃ t, exec (.dmaDescDone c data err) s = .next t ∧ ends 1 0 t ∧ free' t 0 0) ∧
      (len ≠ 0 → badForm → ∃ t, exec (.dmaDescDone c data err) s = .next t ∧ ends 2 0 t ∧ free' t 0 0) ∧
      (len ≠ 0 → ¬ badForm → badAddr → ∃ t, exec (.dmaDescDone c data err) s = .next t ∧ ends 3 0 t ∧ free' t 0 0) ∧
      (len ≠ 0 → ¬ badForm → ¬ badAddr → clean s.dev desc 32 → (dir ≠ 0 → clean s.dev src len) → (dir ≠ 1 → clean s.dev dst len) →
        (dir = 2 → src + len ≤ dst ∨ dst + len ≤ src) →
        (desc + 32 ≤ dst ∨ dst + len ≤ desc + 24) → ∃ t, exec (.dmaDescDone c data err) s = .next t ∧ ends (if limit < len then 5 else 0) limit t
          ∧ rd64 t.dev (Reg.DMA_BYTES_LO c) = rd64 s.dev (Reg.DMA_BYTES_LO c) + w64 limit
          ∧ (dir = 0 → getBytes t.dev dst limit = data.take limit ∧ free' t dst limit)
          ∧ (dir = 1 → (dmaChan t.dev c).wrote = getBytes s.dev src limit ∧ free' t 0 0)
          ∧ (dir = 2 → getBytes t.dev dst len = getBytes s.dev src len ∧ free' t dst len)))) ∧
  (let aborts : List (Nat × (Req → W16 → Instr)) := [(1, .sysAbortSportTxq), (2, .sysAbortLportTxq), (3, .sysAbortSportRxq), (4, .sysAbortLportRxq),
      (5, .sysAbortDma), (6, .sysAbortHead), (7, .sysAbortSwarm), (8, .sysAbortFlow), (9, .sysAbortPacker), (10, .sysAbortWeevil), (11, .sysAbortCricket)]
   let status (busy : Bool) (result func inst : Nat) : W32 := w32 (bnat busy * 2 ^ 31 + result * 2 ^ 29 + func * 2 ^ 24 + inst)
   let stopped (func n : Nat) (s t : State) : Prop :=
     (func = 1 ∨ func = 2 → let p := (if func = 1 then 0 else 8) + n / 16
        ((port t.dev p).ring (n % 16)).enabled = false ∧ rb t.dev (Reg.SPORT_TXQ_CTL p (n % 16)) 31 = false)
      ∧ (func = 3 ∨ func = 4 → let p := (if func = 3 then 0 else 8) + n / 8
          ((port t.dev p).rxRing (n % 8)).enabled = false ∧ rb t.dev (Reg.SPORT_RXQ_CTL p (n % 8)) 31 = false)
      ∧ (func = 5 → (dmaChan t.dev n).enabled = false ∧ (dmaChan t.dev n).flight = none ∧ rb t.dev (Reg.DMA_CTL n) 31 = false
          ∧ ∀ k, k ≠ n → dmaChan t.dev k = dmaChan s.dev k)
      ∧ (func = 6 → (head t.dev n).active = none ∧ (head t.dev n).pending = none ∧ ∀ l < 4, rb t.dev (Reg.RHEAD_LAYER_CTL n l) 31 = false)
      ∧ (func = 8 → (flow t.dev n).enabled = false ∧ rb t.dev (Reg.SCHED_FLOW_CFG n) 31 = false)
      ∧ (func = 9 → n = 0 → rb t.dev Reg.PACK_CTL 0 = false) ∧ (func = 9 → n = 1 → ∀ h < 4, rb t.dev (Reg.RHEAD_OUT_CTL h) 1 = false)
      ∧ (func = 10 → runner t.dev n = none)
      ∧ (func = 11 → t.dev.pair.trained = false ∧ t.dev.pair.replay = [] ∧ t.dev.pair.mode = s.dev.pair.mode ∧ t.dev.pair.ownDrive = s.dev.pair.ownDrive)
   ∀ x ∈ aborts, ∀ (req : Req) (inst : W16) (s : State), csrShut s.dev Reg.SYS_ABORT = false →
    let n := inst.toNat
    (armed s.dev req = false → ∃ t, exec (x.2 req inst) s = .next t ∧ rb t.dev Reg.GUARD_EVENT 1 = true ∧ t.dev.abort = s.dev.abort
      ∧ onlyThese [Reg.GUARD_EVENT, Reg.GUARD_DENIED_COUNT, Reg.GUARD_DENY_INFO] s.dev t.dev) ∧
    (armed s.dev req = true →
      (s.dev.abort.isSome = true → ∃ t, exec (x.2 req inst) s = .next t ∧ t.clk = s.clk ∧ rb t.dev Reg.SYS_ABORT_EVENT 1 = true
        ∧ onlyThese [Reg.SYS_ABORT_EVENT] (setArmed req false s.dev) t.dev) ∧
      (s.dev.abort = none → abortKnown req s.dev x.1 n = false → ∃ t, exec (x.2 req inst) s = .next t ∧ t.clk = s.clk ∧ rb t.dev Reg.SYS_ABORT_EVENT 0 = true
        ∧ rd t.dev Reg.SYS_ABORT_STATUS = status false 2 x.1 n ∧ rb t.dev Reg.SYS_ABORT 31 = false
        ∧ onlyThese [Reg.SYS_ABORT, Reg.SYS_ABORT_STATUS, Reg.SYS_ABORT_EVENT] (noted t.dev (setArmed req false s.dev)) t.dev) ∧
      (s.dev.abort = none → abortKnown req s.dev x.1 n = true → abortIdle s.dev x.1 n = true → ∃ t, exec (x.2 req inst) s = .next t ∧ t.clk = s.clk
        ∧ rb t.dev Reg.SYS_ABORT_EVENT 0 = true ∧ rd t.dev Reg.SYS_ABORT_STATUS = status false 1 x.1 n ∧ rd t.dev Reg.SYS_ABORT_TIME = 0
        ∧ rb t.dev Reg.SYS_ABORT 31 = false
        ∧ onlyThese [Reg.SYS_ABORT, Reg.SYS_ABORT_STATUS, Reg.SYS_ABORT_TIME, Reg.SYS_ABORT_EVENT] (noted t.dev (setArmed req false s.dev)) t.dev) ∧
      (s.dev.abort = none → abortKnown req s.dev x.1 n = true → abortIdle s.dev x.1 n = false → abortRests s.dev x.1 n = true →
        ∃ t, exec (x.2 req inst) s = .next t ∧ t.clk = s.clk ∧ t.dev.abort = none
        ∧ rb t.dev Reg.SYS_ABORT_EVENT 0 = true ∧ rd t.dev Reg.SYS_ABORT_STATUS = status false 1 x.1 n ∧ rd t.dev Reg.SYS_ABORT_TIME = 0
        ∧ rb t.dev Reg.SYS_ABORT 31 = false ∧ armed t.dev req = false ∧ stopped x.1 n s t) ∧
      (s.dev.abort = none → abortKnown req s.dev x.1 n = true → abortIdle s.dev x.1 n = false → abortRests s.dev x.1 n = false →
        ∃ t, exec (x.2 req inst) s = .next t ∧ t.clk = s.clk
        ∧ t.dev.abort = some { func := x.1, inst := n, tick := s.clk.ticks } ∧ rd t.dev Reg.SYS_ABORT_STATUS = status true 0 x.1 n
        ∧ rb t.dev Reg.SYS_ABORT 31 = true ∧ armed t.dev req = false ∧ stopped x.1 n s t)) ∧
    (∀ d : Dev, (x.1 = 5 → (dmaChan d n).enabled = false → abortRests d 5 n = true) ∧ (x.1 = 5 → dmaDesc d n = none → abortRests d 5 n = true)
      ∧ (x.1 = 8 → (flow d n).enabled = false → abortRests d 8 n = true) ∧ (x.1 = 9 → n = 0 → rb d Reg.PACK_CTL 0 = false → abortRests d 9 n = true)
      ∧ (x.1 = 1 ∨ x.1 = 2 → ((port d ((if x.1 = 1 then 0 else 8) + n / 16)).ring (n % 16)).enabled = false → abortRests d x.1 n = true)
      ∧ (x.1 = 3 ∨ x.1 = 4 → ((port d ((if x.1 = 3 then 0 else 8) + n / 8)).rxRing (n % 8)).enabled = false → abortRests d x.1 n = true)
      ∧ (x.1 = 10 → runner d n = none → abortRests d 10 n = true))) ∧
  (∀ (req : Req) (d : Dev) (n : Nat),
    (abortKnown req d 1 n = true ↔ ∃ p q, p < 8 ∧ q ≤ 8 ∧ n = p * 16 + q) ∧
    (abortKnown req d 2 n = true ↔ ∃ p q, p < 2 ∧ (q < 4 ∨ q = 8) ∧ n = p * 16 + q) ∧
    (abortKnown req d 3 n = true ↔ ∃ p q, p < 8 ∧ q < 8 ∧ n = p * 8 + q) ∧ (abortKnown req d 4 n = true ↔ ∃ p q, p < 2 ∧ q < 8 ∧ n = p * 8 + q) ∧
    (abortKnown req d 5 n = true ↔ n < 16) ∧ (abortKnown req d 6 n = true ↔ n < 4) ∧ (abortKnown req d 7 n = true ↔ n < 8) ∧
    (abortKnown req d 8 n = true ↔ n < 4096) ∧ (abortKnown req d 9 n = true ↔ n < 2) ∧
    (abortKnown req d 10 n = true ↔ n < 4 ∧ ¬ (req = .host ∧ d.scarab.lc = .deployed)) ∧ (abortKnown req d 11 n = true ↔ n = 0) ∧
    ∀ func, func = 0 ∨ 11 < func → abortKnown req d func n = false) ∧
  (∀ (req : Req) (inst : W16) (s : State), csrShut s.dev Reg.SYS_ABORT = false → armed s.dev req = true → s.dev.abort = none → inst.toNat < 8 →
    abortIdle s.dev 7 inst.toNat = false → ∃ d : Dev, rb d Reg.SYS_ABORT 31 = true
      ∧ onlyThese [Reg.SYS_ABORT, Reg.SYS_ABORT_STATUS] { setArmed req false s.dev with abort := some { func := 7, inst := inst.toNat, tick := s.clk.ticks } } d
      ∧ exec (.sysAbortSwarm req inst) s = nextDev s (noteSeal Reg.SYS_ABORT s.dev (settle s.clk (swarmAbort inst.toNat d)))) ∧
  (∀ (n : Nat) (d : Dev), let e := swarmAbort n d
    (∀ i, slotSwarm i = n → brewAt e i = none) ∧ (∀ i, slotSwarm i ≠ n → brewAt e i = brewAt d i)
      ∧ steepOf e n = { steepOf d n with entries := [], markers := [], ready := [] } ∧ (∀ j ≠ n, steepOf e j = steepOf d j)
      ∧ e.arr.delays = d.arr.delays ∧ e.arr.flows = d.arr.flows
      ∧ (∀ i b, slotSwarm i = n → brewAt d i = some b → (∀ x ∈ e.arr.sends, x.slotId ≠ some i) ∧ ∀ f, b.flow = some f → (f, b.key) ∈ e.arr.tombs)
      ∧ (∀ y ∈ (steepOf d n).entries, ∀ f, y.flow = some f → (f, y.key) ∈ e.arr.tombs) ∧ ∀ x ∈ d.arr.tombs, x ∈ e.arr.tombs) ∧
  (∀ s : State, (s.dev.abort = none → exec .abortDone s = .next s) ∧
    ∀ a, s.dev.abort = some a → ∃ t, exec .abortDone s = .next t ∧ t.clk = s.clk ∧ t.dev.abort = none ∧ rb t.dev Reg.SYS_ABORT_EVENT 0 = true
      ∧ rb t.dev Reg.SYS_ABORT 31 = false ∧ rd t.dev Reg.SYS_ABORT_STATUS = w32 (1 * 2 ^ 29 + a.func * 2 ^ 24 + a.inst)
      ∧ rd t.dev Reg.SYS_ABORT_TIME = w32 (min 0xFFFFFFFF (since s.clk a.tick * 4 / 5))
      ∧ onlyThese [Reg.SYS_ABORT, Reg.SYS_ABORT_STATUS, Reg.SYS_ABORT_TIME, Reg.SYS_ABORT_EVENT] { s.dev with abort := none } t.dev)

/-- R334 to R345, R356, R357 and R380 for WEEVIL_RUN, SERVICE_SLICE_START, ADJ_SLICE_START, SLICE_END, SLICE_TIMEOUT, SWARM_SPARE_GO and
FABRIC_LINK_FATAL. That a waiting slice on a target that has become UNUSABLE ends, and how the next scanning window is predicted (log entry 65),
which runner and which order adjudication slices take (log entry 56), and how start-up's step 9 waits and errors fail a slice (log entry 101), are
DEDUCED or DESIGN CHOICE: the model's. That a fatal link is marked without a slice, and which endpoints it strands (log entry 83), is DESIGN
CHOICE. What a slice's end makes of a start-up that waits for it is `startupGoOn`, of which the last clause speaks. -/
def Obligations.WeevilSlices : Prop :=
  let busy (s : State) (target : Nat) : Bool := (List.range 4).any fun i => (runner s.dev i).any fun x => x.target == target
  let writes (r kind target : Nat) (origin : SliceOrigin) (result mark : Nat) (s t : State) : Prop :=
    let at' := rf s.dev Reg.WEEVIL_RES_PTR 0 11 * 8
    let seq := (rf s.dev Reg.WEEVIL_RES_SEQ 0 24 + 1) % 2 ^ 24
    let word (w : Nat) : W32 := Tab.get 0 t.dev.weevil.results (at' + w)
    word 7 = w32 (result * 2 ^ 24 + kind * 2 ^ 16 + target) ∧ word 6 = w32 (origin.code * 2 ^ 30 + r * 2 ^ 28 + mark * 2 ^ 24 + seq)
      ∧ word 0 = lo32 (shortOf (now s.clk)) ∧ word 1 = hi32 (shortOf (now s.clk)) ∧ word 2 = lo32 s.dev.frm.lastFrame ∧ word 3 = hi32 s.dev.frm.lastFrame
      ∧ rd t.dev Reg.WEEVIL_RES_SEQ = w32 seq ∧ rd t.dev Reg.WEEVIL_RES_PTR = w32 ((rf s.dev Reg.WEEVIL_RES_PTR 0 11 + 1) % 2048)
      ∧ rd t.dev Reg.WEEVIL_SLICE_COUNT = rd s.dev Reg.WEEVIL_SLICE_COUNT + 1 ∧ rb t.dev Reg.WEEVIL_EVENT 0 = true
  let finds (repairs errors detail : Nat) (s t : State) : Prop :=
    let at' := rf s.dev Reg.WEEVIL_RES_PTR 0 11 * 8
    Tab.get 0 t.dev.weevil.results (at' + 5) = w32 (repairs * 2 ^ 16 + errors) ∧ Tab.get 0 t.dev.weevil.results (at' + 4) = w32 detail
  let cutOff (s : State) (n g : Nat) : Prop := g ∈ endpoints ∧ unusable s.dev g = false
    ∧ Config.routeless ((List.range 96).filter fun i => i == n || unusable s.dev (0x1000 + i)) g = true
  let waiter (s : State) (r target : Nat) : Prop := ∃ i < 4, i ≠ r ∧ ∃ y, runner s.dev i = some y ∧ y.waits = true ∧ y.target = target
  let fresh (kind target budget : Nat) (origin : SliceOrigin) (waits : Bool) (s : State) : Slice := { kind, target, budget, origin, tick := s.clk.ticks, waits }
  (∀ (req : Req) (r : Fin 4) (v : W32) (s : State), csrShut s.dev (Reg.WEEVIL_RUN r) = false →
    let kind := fld v 16 8
    let target := fld v 0 16
    let budget := let x := rf s.dev (Reg.WEEVIL_RUN_BUDGET r) 0 14
      min 10000 (max 10 (if x = 0 then rf s.dev Reg.WEEVIL_BUDGET 0 14 else x))
    (s.dev.scarab.lc = .deployed ∨ armed s.dev req = false → ∃ t, exec (.weevilRun req r v) s = .next t ∧ t.clk = s.clk ∧ rb t.dev Reg.GUARD_EVENT 1 = true
      ∧ onlyThese [Reg.GUARD_EVENT, Reg.GUARD_DENIED_COUNT, Reg.GUARD_DENY_INFO] s.dev t.dev) ∧
    (s.dev.scarab.lc ≠ .deployed → armed s.dev req = true →
      (bit v 31 = false → ∃ t, exec (.weevilRun req r v) s = .next t ∧ t.clk = s.clk
        ∧ onlyThese [Reg.WEEVIL_RUN r] (noted t.dev (setArmed req false s.dev)) t.dev) ∧
      (bit v 31 = true → (runner s.dev r).isSome = true → ∃ t, exec (.weevilRun req r v) s = .next t ∧ t.clk = s.clk ∧ rb t.dev Reg.WEEVIL_EVENT 1 = true
        ∧ onlyThese [Reg.WEEVIL_RUN r, Reg.WEEVIL_EVENT] (noted t.dev (setArmed req false s.dev)) t.dev) ∧
      (bit v 31 = true → runner s.dev r = none → ∃ t, exec (.weevilRun req r v) s = .next t ∧ t.clk = s.clk ∧ t.dev.weevil.marks = s.dev.weevil.marks
        ∧ (sliceApplies s.dev kind target = false → runner t.dev r = none ∧ (let m := (targetMark s.dev target).mark; m ≤ 2 → writes r kind target .host 4 m s t))
        ∧ (sliceApplies s.dev kind target = true → kind = 7 → s.dev.sys.tapHeld = true → runner t.dev r = none
            ∧ (let m := (targetMark s.dev target).mark; m ≤ 2 → writes r kind target .host 5 m s t))
        ∧ (sliceApplies s.dev kind target = true → ¬ (kind = 7 ∧ s.dev.sys.tapHeld = true) →
            runner t.dev r = some (fresh kind target budget .host (busy s target) s) ∧ t.dev.weevil.results = s.dev.weevil.results
            ∧ (kind = 4 ∨ kind = 5 → busy s target = false → target % 4096 < 8 → (port t.dev (target % 4096)).link = false)
            ∧ (kind = 4 ∨ kind = 5 → busy s target = false → ∀ p < 26, (calPath s.dev p).measuring = true → target % 4096 ∈ pathLanes p →
                (calPath t.dev p).spoiled = true)
            ∧ ∀ i, i ≠ r.val → runner t.dev i = runner s.dev i)))) ∧
  (∀ (r : Fin 4) (kind : W8) (target : W16) (s : State),
    let k := kind.toNat
    let g := target.toNat
    let suspect := s.dev.weevil.marks.any fun x => x.2.mark == 1 && [1, 2, 3, 6, 8].any fun i => serviceFits s.dev s.clk i x.1
    let may := serviceMay s.dev r = true ∧ serviceFits s.dev s.clk k g = true ∧ (suspect = true → (targetMark s.dev g).mark = 1)
    (¬ may → exec (.serviceSliceStart r kind target) s = .next s) ∧
    (may → ∃ t, exec (.serviceSliceStart r kind target) s = .next t ∧ t.clk = s.clk
      ∧ runner t.dev r = some (fresh k g (min 10000 (max 10 (rf s.dev Reg.WEEVIL_BUDGET 0 14))) .service false s)
      ∧ (∀ i, i ≠ r.val → runner t.dev i = runner s.dev i)
      ∧ onlyThese [Reg.WEEVIL_RUN_STATUS r] { s.dev with weevil := { s.dev.weevil with runners := t.dev.weevil.runners } } t.dev) ∧
    (serviceFits s.dev s.clk k g = true → k ∈ [1, 2, 3, 6, 8] ∧ busy s g = false ∧ unusable s.dev g = false) ∧
    (serviceFits s.dev s.clk k g = true → k ∈ [2, 3] ∨ (k = 8 ∧ g / 16 = 0x702) → ∀ h < 4, ∀ w, (head s.dev h).running = true → (head s.dev h).timing = some w →
      scanning (head s.dev h) = false ∧ now s.clk + (sliceLength k + 2 : Nat) * 1000 * ns1 ≤ scanOpens s.dev (head s.dev h) w) ∧
    (s.dev.scarab.lc = .deployed → serviceMay s.dev 3 = false)) ∧
  (∀ s : State, (adjRunner s.dev = none → exec .adjSliceStart s = .next s) ∧
    ((∀ x ∈ s.dev.weevil.adj, placeFits s.dev s.clk x.1 x.2.1 = false) → exec .adjSliceStart s = .next s) ∧
    (s.dev.scarab.lc = .deployed → ∀ r, adjRunner s.dev = some r → r = 3) ∧
    ∀ (kind target : Nat) (request : W64) (before after : List (Nat × Nat × W64)) (r : Nat),
      s.dev.weevil.adj = before ++ (kind, target, request) :: after → (∀ x ∈ before, placeFits s.dev s.clk x.1 x.2.1 = false) → adjRunner s.dev = some r →
      (placeFits s.dev s.clk kind target = true → ∃ t, exec .adjSliceStart s = .next t ∧ t.clk = s.clk ∧ t.dev.weevil.adj = before ++ after
        ∧ (sliceApplies s.dev kind target = true → kind ≠ 7 → runner t.dev r
            = some (fresh kind target (min 10000 (max 10 (rf s.dev Reg.PAIR_ADJ_BUDGET 0 14))) (.adjudication request) (busy s target) s))
        ∧ (sliceApplies s.dev kind target = false → kind < 256 → target < 65536 → (let m := (targetMark s.dev target).mark
            m ≤ 2 → writes r kind target (.adjudication request) 4 m s t)))) ∧
  (∀ (r : Fin 4) (pass : Bool) (repairs errors : W16) (detail : W32) (s : State),
    let stays : Host.Outcome State Fault Refusal := nextDev s (startupGoOn s.clk s.dev)
    (runner s.dev r = none → exec (.sliceEnd r pass repairs errors detail) s = stays ∧ exec (.sliceTimeout r) s = stays) ∧
    ∀ x, runner s.dev r = some x →
      let old := (targetMark s.dev x.target).mark
      let ends (result : Nat) (t : State) : Prop := let mark := markAfter result old
        t.clk = s.clk ∧ runner t.dev r = none ∧ (targetMark t.dev x.target).mark = mark ∧ writes r x.kind x.target x.origin result mark s t
          ∧ (result = 1 → rb t.dev Reg.WEEVIL_EVENT 2 = true) ∧ (result = 2 → rb t.dev Reg.WEEVIL_EVENT 3 = true)
          ∧ (mark ≠ old → rb t.dev Reg.WEEVIL_EVENT 4 = true)
      let bank := x.target % 4096
      let failed := (s.dev.ket.tally.filter fun y => y.1 % 64 == bank && decide (8 ≤ y.2)).map (·.1)
      let mapped := failed.take (rowsLeft s.dev bank)
      let lanes := 16 - Tab.get 0 s.dev.weevil.bondUsed bank
      let steered := min repairs.toNat lanes
      let fails : Prop := pass = false ∨ (x.kind ∈ [4, 5, 7] ∧ errors ≠ 0) ∨ (x.kind = 1 ∧ 4 < errors.toNat)
      (x.waits = true → exec (.sliceEnd r pass repairs errors detail) s = stays ∧ exec (.sliceTimeout r) s = stays) ∧
      (x.waits = false → since s.clk x.tick < x.budget * 1250 → exec (.sliceTimeout r) s = stays) ∧
      (x.waits = false → old ≤ 2 → x.kind < 256 → x.target < 65536 → ¬ waiter s r x.target →
        (x.budget * 1250 < since s.clk x.tick →
          ∃ t : State, exec (.sliceEnd r pass repairs errors detail) s = nextDev s (startupGoOn s.clk t.dev) ∧ ends 2 t) ∧
        (since s.clk x.tick ≤ x.budget * 1250 →
          (x.kind ≠ 2 → x.kind ≠ 3 → ∃ t : State, exec (.sliceEnd r pass repairs errors detail) s = nextDev s (startupGoOn s.clk t.dev)
            ∧ (fails → ends 1 t) ∧ (¬ fails → ends 0 t) ∧ finds 0 errors.toNat (if x.kind = 1 ∨ x.kind = 8 then 0 else detail.toNat) s t) ∧
          (x.kind = 2 → ∃ t : State, exec (.sliceEnd r pass repairs errors detail) s = nextDev s (startupGoOn s.clk t.dev) ∧ ends (if lanes < repairs.toNat then 1 else 0) t
            ∧ finds steered errors.toNat (if repairs = 0 then 0 else detail.toNat) s t
            ∧ Tab.get 0 t.dev.weevil.bondUsed bank = Tab.get 0 s.dev.weevil.bondUsed bank + steered) ∧
          (x.kind = 3 → ∃ t : State, exec (.sliceEnd r pass repairs errors detail) s = nextDev s (startupGoOn s.clk t.dev) ∧ ends 0 t
            ∧ rowsLeft t.dev bank = rowsLeft s.dev bank - mapped.length ∧ t.dev.weevil.mapped = s.dev.weevil.mapped ++ mapped
            ∧ (∀ y ∈ t.dev.ket.tally, y.1 ∉ mapped)
            ∧ (x.target / 4096 = 4 → bank < 64 → finds mapped.length errors.toNat (rowsLeft s.dev bank - mapped.length) s t))) ∧
        (x.budget * 1250 ≤ since s.clk x.tick → ∃ t : State, exec (.sliceTimeout r) s = nextDev s (startupGoOn s.clk t.dev) ∧ ends 2 t)) ∧
      (x.waits = false → ∀ (i : Nat) (y : Slice), i < 4 → i ≠ r.val → runner s.dev i = some y → y.waits = true → y.target = x.target →
        (∀ j < 4, j ≠ r.val → j ≠ i → runner s.dev j = none) → x.budget * 1250 ≤ since s.clk x.tick →
          ∃ t : State, exec (.sliceTimeout r) s = nextDev s (startupGoOn s.clk t.dev)
          ∧ (old = 0 → runner t.dev i = some { y with waits := false, tick := s.clk.ticks })
          ∧ (old = 1 ∨ old = 2 → runner t.dev i = none ∧ unusable t.dev x.target = true))) ∧
  (∀ old, old ≤ 2 → markAfter 0 old = (if old = 2 then 2 else 0) ∧ markAfter 1 old = 2 ∧ markAfter 2 old = (if old = 0 then 1 else 2)
    ∧ ∀ result, 3 ≤ result → markAfter result old = old) ∧
  (∀ (req : Req) (sw : Fin 8) (v : W32) (s : State), csrShut s.dev (Reg.SWARM_SPARE_CMD sw) = false →
    let f := fld v 0 5
    let acts := bit v 31 = true ∧ spareFree s.dev sw = true ∧ f < 16
    (s.dev.scarab.lc = .deployed ∨ armed s.dev req = false → ∃ t, exec (.swarmSpareGo req sw v) s = .next t ∧ t.clk = s.clk ∧ rb t.dev Reg.GUARD_EVENT 1 = true
      ∧ rd t.dev (Reg.SWARM_SPARE_STATUS sw) = rd s.dev (Reg.SWARM_SPARE_STATUS sw)) ∧
    (s.dev.scarab.lc ≠ .deployed → armed s.dev req = true → ∃ t, exec (.swarmSpareGo req sw v) s = .next t ∧ t.clk = s.clk
      ∧ (¬ acts → rd t.dev (Reg.SWARM_SPARE_STATUS sw) = rd s.dev (Reg.SWARM_SPARE_STATUS sw))
      ∧ (acts → rb t.dev (Reg.SWARM_SPARE_STATUS sw) 31 = true ∧ rf t.dev (Reg.SWARM_SPARE_STATUS sw) 24 5 = f ∧ rb t.dev (Reg.SWARM_SPARE_STATUS sw) f = true
          ∧ spareFree t.dev sw = false))) ∧
  (∀ (n : Fin 96) (s : State), let target := 0x1000 + n.val
    let tests (r : Nat) : Bool := (runner s.dev r).any fun x => !x.waits && x.target == target
    ((∀ r < 4, tests r = false) → (unusable s.dev target = true → exec (.fabricLinkFatal n) s = .next s) ∧
      (unusable s.dev target = false → ∃ t, exec (.fabricLinkFatal n) s = .next t ∧ t.clk = s.clk ∧ unusable t.dev target = true
        ∧ rb t.dev Reg.WEEVIL_EVENT 4 = true ∧ (∀ g, g ≠ target → ¬ cutOff s n g → targetMark t.dev g = targetMark s.dev g)
        ∧ (∀ g, cutOff s n g → unusable t.dev g = true)
        ∧ ((∀ g, ¬ cutOff s n g) → onlyThese [Reg.WEEVIL_EVENT] { s.dev with weevil := { s.dev.weevil with marks := t.dev.weevil.marks } } t.dev))) ∧
    (∀ r x, (List.range 4).find? tests = some r → runner s.dev r = some x → x.kind < 256 → ¬ waiter s r target →
      ∃ t : State, exec (.fabricLinkFatal n) s = nextDev s (startupGoOn s.clk t.dev) ∧ t.clk = s.clk
      ∧ unusable t.dev target = true ∧ runner t.dev r = none ∧ writes r x.kind target x.origin 1 2 s t)) ∧
  (∀ (k : Clk) (d : Dev),
    (d.sys.startReports = none → startupGoOn k d = d) ∧ ((∀ r < 4, (runner d r).isSome = true) → startupGoOn k d = d) ∧
    (∀ r x, r < 4 → runner d r = some x → x.target / 4096 = 5 ∨ x.target / 4096 = 6 → startupGoOn k d = d) ∧
    ∀ reports r, d.sys.startReports = some reports → r < 4 → runner d r = none → (∀ i < r, (runner d i).isSome = true) →
      (∀ i x, i < 4 → runner d i = some x → x.target / 4096 ≠ 5 ∧ x.target / 4096 ≠ 6) →
      startupGoOn k d = startupEnd r reports k { d with sys := { d.sys with startReports := none } }
        ∧ rb (startupGoOn k d) Reg.SYS_STARTUP_STATUS 7 = true ∧ (startupGoOn k d).sys.startReports = none)

/-- R345, R347 to R355 and R380 for CAL_MEASURE, CAL_AUTO_TRIGGER, CAL_MEASUREMENT_END, CAL_STORE and CAL_STORE_DONE. How the mean of two
measurements is rounded is the model's open value (DESIGN CHOICE, log entry 67). When a path falls to its factory value, which slots hold a value
for it, what the check of a slot covers, and which slot and generation a store takes while none is in force are the model's readings (DEDUCED, log
entry 68). -/
def Obligations.PathCalibration : Prop :=
  let onlyCalib (s t : State) : Prop := t.clk = s.clk ∧ t.dev = { s.dev with calib := t.dev.calib }
  let allMeasured (s t : State) : Prop := onlyCalib s t ∧ t.dev.calib.roundTick = s.clk.ticks
    ∧ (∀ p < 26, calPath t.dev p = { calPath s.dev p with
        measuring := true, spoiled := pathLooped s.dev p || ((calPath s.dev p).measuring && (calPath s.dev p).spoiled) })
    ∧ t.dev.calib.mram = s.dev.calib.mram
  let spare (d : Dev) : Nat := slotAt (if d.calib.slot = 1 then 2 else 1)
  (∀ (req : Req) (s : State), csrShut s.dev Reg.CAL_CMD = false →
    (s.dev.calib.asked = true → exec (.calMeasure req) s = .next s) ∧
    (s.dev.calib.asked = false → ∃ t, exec (.calMeasure req) s = .next t ∧ allMeasured s t ∧ t.dev.calib.asked = true) ∧
    (s.dev.calib.storing = true → exec (.calStore req) s = .next s) ∧
    (s.dev.calib.storing = false → ∃ t, exec (.calStore req) s = .next t ∧ onlyCalib s t ∧ t.dev.calib.storing = true ∧ t.dev.calib.slot = s.dev.calib.slot
      ∧ t.dev.calib.paths = s.dev.calib.paths ∧ mramNum t.dev (spare s.dev) 4 = 0 ∧ slotOk t.dev (spare s.dev) = false
      ∧ ∀ a, (a < spare s.dev ∨ spare s.dev + 4 ≤ a) → mramByte t.dev a = mramByte s.dev a)) ∧
  (∀ (p : Fin 26) (s : State),
    let auto := rb s.dev Reg.CAL_CTL 31 = true
    let due := rf s.dev Reg.CAL_PERIOD 0 16 ≠ 0 ∧ rf s.dev Reg.CAL_PERIOD 0 16 * 1250000000 ≤ since s.clk s.dev.calib.roundTick
    let warm := ∃ v, lastValue (calPath s.dev p) = some v ∧ 16 * max 1 (rf s.dev Reg.CAL_CTL 0 8) < (pathTemp s.dev p - v.temp).natAbs
    (¬ auto ∨ (¬ due ∧ ¬ warm) → exec (.calAutoTrigger p) s = .next s) ∧
    (auto → due → ∃ t, exec (.calAutoTrigger p) s = .next t ∧ allMeasured s t) ∧
    (auto → ¬ due → warm → ∃ t, exec (.calAutoTrigger p) s = .next t ∧ onlyCalib s t ∧ (calPath t.dev p).measuring = true
      ∧ (pathLooped s.dev p = true → (calPath t.dev p).spoiled = true)
      ∧ ((calPath s.dev p).measuring = true → (calPath s.dev p).spoiled = true → (calPath t.dev p).spoiled = true) ∧ ∀ q, q ≠ p.val → calPath t.dev q = calPath s.dev q)) ∧
  (∀ (p : Fin 26) (m1 : BitVec 32) (t1 : W16) (m2 : BitVec 32) (t2 : W16) (s : State),
    let x := calPath s.dev p
    let m := pathMode s.dev p
    let first := 480 * m1.toInt + factoryAt s.dev p m t2.toInt - factoryAt s.dev p m t1.toInt
    let agree := (first - 480 * m2.toInt).natAbs ≤ 150 * 16 * 480
    let ends (next : List CalValue) (t : State) : Prop := t.clk = s.clk ∧ calPath t.dev p = { x with measuring := false, next }
      ∧ (∀ q, q ≠ p.val → calPath t.dev q = calPath s.dev q) ∧ t.dev.calib.slot = s.dev.calib.slot ∧ t.dev.mem = s.dev.mem
      ∧ ((∀ q < 26, q ≠ p.val → (calPath s.dev q).measuring = false) → t.dev.calib.asked = false ∧ t.dev.calib.starting = false
          ∧ (s.dev.calib.starting = true → rb t.dev Reg.SYS_STARTUP_STATUS 8 = true ∧ rb t.dev Reg.SYS_STARTUP_STATUS 31 = true
              ∧ rb t.dev Reg.SYS_EVENT 1 = true))
      ∧ (s.dev.calib.starting = false ∨ (∃ q < 26, q ≠ p.val ∧ (calPath s.dev q).measuring = true) →
          rd t.dev Reg.SYS_STARTUP_STATUS = rd s.dev Reg.SYS_STARTUP_STATUS)
    (x.measuring = false → exec (.calMeasurementEnd p m1 t1 m2 t2) s = .next s) ∧
    (x.measuring = true → pathLooped s.dev p = true ∨ x.spoiled = true → ∃ t, exec (.calMeasurementEnd p m1 t1 m2 t2) s = .next t ∧ onlyCalib s t
      ∧ calPath t.dev p = { x with spoiled := pathLooped s.dev p } ∧ ∀ q, q ≠ p.val → calPath t.dev q = calPath s.dev q) ∧
    (x.measuring = true → pathLooped s.dev p = false → x.spoiled = false →
      (pathSignal s.dev p = false → ∃ t, exec (.calMeasurementEnd p m1 t1 m2 t2) s = .next t ∧ ends x.next t ∧ rb t.dev Reg.CAL_EVENT 4 = true) ∧
      (pathSignal s.dev p = true → ¬ agree → ∃ t, exec (.calMeasurementEnd p m1 t1 m2 t2) s = .next t ∧ ends x.next t ∧ rb t.dev Reg.CAL_EVENT 0 = true
        ∧ rd t.dev Reg.CAL_DISAGREE_COUNT = w32 (min (2 ^ 32 - 1) ((rd s.dev Reg.CAL_DISAGREE_COUNT).toNat + 1))) ∧
      (pathSignal s.dev p = true → agree → ∃ t v, exec (.calMeasurementEnd p m1 t1 m2 t2) s = .next t
        ∧ ends (x.next.filter (fun y => y.mode != m) ++ [{ mode := m, value := v, temp := t2.toInt, time := shortOf (now s.clk) }]) t
        ∧ rb t.dev Reg.CAL_EVENT 1 = true ∧ (960 * v - (first + 480 * m2.toInt)).natAbs < 960
        ∧ ((∀ q < 26, q ≠ p.val → (calPath s.dev q).measuring = false) → rb s.dev Reg.CAL_CTL 30 = true → t.dev.calib.storing = true)))) ∧
  (∀ (s : State) (n : W64) (b : Time) (g : Grid), nextBoundary s.clk s.dev = some (n, b) → s.dev.frm.run = some g → b ≤ now s.clk →
    ∃ t, exec .boundaryEmit s = .next t ∧ ∀ p < 26, (calPath t.dev p).next = []
      ∧ (calPath t.dev p).inForce = (calPath s.dev p).next.foldl (fun l v => putValue v l) (calPath s.dev p).inForce
      ∧ (calPath t.dev p).trusted = ((calPath s.dev p).trusted || !(calPath s.dev p).next.isEmpty)
      ∧ (calPath t.dev p).mode = pathMode s.dev p
      ∧ (calPath t.dev p).factory = (!slotHolds s.dev p (pathMode s.dev p) || pathLooped s.dev p || !(calPath t.dev p).trusted)) ∧
  (∀ (d : Dev) (p m : Nat), slotHolds d p m = true ↔
    ∃ a ∈ [0x4000, 0x8000], slotOk d a = true ∧ ∃ v, (p, v) ∈ slotEntries d a ∧ v.mode = m) ∧
  (∀ (ok : Bool) (s : State), let at' := spare s.dev
    (s.dev.calib.storing = false → exec (.calStoreDone ok) s = .next s) ∧
    (s.dev.calib.storing = true → ok = false → ∃ t, exec (.calStoreDone ok) s = .next t ∧ t.clk = s.clk ∧ t.dev.calib = { s.dev.calib with storing := false }
      ∧ rb t.dev Reg.CAL_EVENT 3 = true) ∧
    (s.dev.calib.storing = true → ok = true → (acceptedValues s.dev).length ≤ 128 → ∃ t, exec (.calStoreDone ok) s = .next t ∧ t.clk = s.clk
      ∧ t.dev.calib.storing = false ∧ t.dev.calib.slot = (if s.dev.calib.slot = 1 then 2 else 1) ∧ rb t.dev Reg.CAL_EVENT 2 = true
      ∧ slotOk t.dev at' = true ∧ mramNum t.dev (at' + 4) 4 = (rd t.dev Reg.CAL_GEN).toNat
      ∧ (s.dev.calib.slot ≠ 0 → rd t.dev Reg.CAL_GEN = rd s.dev Reg.CAL_GEN + 1) ∧ (s.dev.calib.slot = 0 → rd t.dev Reg.CAL_GEN = 1)
      ∧ mramNum t.dev (at' + 8) 2 = (acceptedValues s.dev).length
      ∧ ((∀ e ∈ acceptedValues s.dev, e.2.mode < 256 ∧ -(2 ^ 31) ≤ e.2.value ∧ e.2.value < 2 ^ 31 ∧ -(2 ^ 15) ≤ e.2.temp ∧ e.2.temp < 2 ^ 15) →
          slotEntries t.dev at' = acceptedValues s.dev)
      ∧ ∀ a, (a < at' ∨ at' + 0x4000 ≤ a) → mramByte t.dev a = mramByte s.dev a)) ∧
  (∀ (d : Dev) (p m : Nat), (∀ i : Nat, i < 5 → factoryAt d p m (-320 + 480 * (i : Int)) = 480 * factoryNode d p m i)
    ∧ (∀ i : Nat, i < 4 → ∀ x : Int, 0 ≤ x → x ≤ 480 → factoryAt d p m (-320 + 480 * (i : Int) + x)
        = factoryNode d p m i * (480 - x) + factoryNode d p m (i + 1) * x)
    ∧ (factoryOk d = false → ∀ t, factoryAt d p m t = 0)) ∧
  (∀ (d : Dev) (p : Nat), let m := (calPath d p).mode
    (∀ v, measuredFor d p = some v → valueInForce d p = 480 * v.value + (factoryAt d p m (pathTemp d p) - factoryAt d p m v.temp)) ∧
    (measuredFor d p = none → valueInForce d p = factoryAt d p m (pathTemp d p)) ∧
    ((calPath d p).factory = true → measuredFor d p = none) ∧
    (∀ v, measuredFor d p = some v → v ∈ (calPath d p).inForce ∧ v.mode = m) ∧
    pathDelay d p * 7680000 ≤ valueInForce d p * 2 ^ 48 ∧ valueInForce d p * 2 ^ 48 < (pathDelay d p + 1) * 7680000)

/-- R359 to R368 and R374 for the LC_MOVE commands, LC_CHANGE, SVN_RAISE, PKG_OPEN, PKG_OPEN_DONE, PKG_CLOSE, WINDOW_ZERO_DONE and
DRAM_WINDOW_ACCESS. Signatures, key unwrapping and decryption are functions that the model leaves open (Config); what the window does beyond
the installed DRAM is the model's choice (DESIGN CHOICE, log entry 73). That a GO while one reads 1 keeps the token, and how a move waits for its
package (log entry 69), and that an OPEN is discarded while an open runs or is being stopped, and how far a failing open has written (log entry 70),
are DEDUCED: the model's readings. -/
def Obligations.LifecycleAndPackages : Prop :=
  let denied (s t : State) : Prop := t.clk = s.clk ∧ rb t.dev Reg.GUARD_EVENT 1 = true
    ∧ onlyThese [Reg.GUARD_EVENT, Reg.GUARD_DENIED_COUNT, Reg.GUARD_DENY_INFO] s.dev t.dev
  let closing (p : PkgPhase) : PkgPhase := match p with
    | .closed => .closed
    | .opened => .zeroing none
    | .failing r => .stopping (r != 1 && r != 8) (some 10)
    | .opening => .zeroing (some 10)
    | .zeroing r => .zeroing r
    | .stopping z r => .stopping z r
  let permits (d : Dev) (b : Lifecycle) : Prop :=
    (d.scarab.lc = .blank ∧ b = .provisioned ∧ Config.certSubject (certBytes d) = dikPub d ∧ Config.chainOk (certBytes d) Config.rootHash = true)
      ∨ (d.scarab.lc = .provisioned ∧ b = .deployed) ∨ (d.scarab.lc = .diagnostic ∧ b = .deployed)
      ∨ (d.scarab.lc = .deployed ∧ b = .diagnostic ∧ ∃ w, d.scarab.held = some w ∧ bit w 4 = true)
      ∨ (b = .retired ∧ (d.scarab.lc = .provisioned ∨ d.scarab.lc = .deployed ∨ d.scarab.lc = .diagnostic) ∧ ∃ w, d.scarab.held = some w ∧ bit w 5 = true)
  let keyReg (a : Nat) : Prop := a = Reg.SCARAB_PAIR_ID_LO ∨ a = Reg.SCARAB_PAIR_ID_HI ∨ ∃ w < 25, a = Reg.SCARAB_PAIR_PUB w
  let moves : List (Lifecycle × (Req → Instr)) :=
    [(.provisioned, .lcMoveProvisioned), (.deployed, .lcMoveDeployed), (.diagnostic, .lcMoveDiagnostic), (.retired, .lcMoveRetired)]
  (∀ x ∈ moves, ∀ (req : Req) (s : State), csrShut s.dev Reg.SCARAB_LC_CMD = false →
    let ends := x.1 = .diagnostic ∨ x.1 = .retired
    (armed s.dev req = false → ∃ t, exec (x.2 req) s = .next t ∧ denied s t) ∧
    (armed s.dev req = true →
      (s.dev.scarab.move = none → permits s.dev x.1 → ∃ t, exec (x.2 req) s = .next t ∧ t.clk = s.clk
        ∧ t.dev.scarab = { s.dev.scarab with held := none, move := some x.1, phase := if ends then closing s.dev.scarab.phase else s.dev.scarab.phase }
        ∧ rb t.dev Reg.SCARAB_LC_CMD 31 = true
        ∧ onlyThese [Reg.SCARAB_LC_CMD] (noted t.dev { setArmed req false s.dev with scarab := t.dev.scarab }) t.dev) ∧
      (s.dev.scarab.move ≠ none → ∃ t, exec (x.2 req) s = .next t ∧ t.clk = s.clk ∧ t.dev.scarab = s.dev.scarab
        ∧ rb t.dev Reg.SCARAB_LC_CMD 31 = rb s.dev Reg.SCARAB_LC_CMD 31 ∧ onlyThese [Reg.SCARAB_LC_CMD] (noted t.dev (setArmed req false s.dev)) t.dev) ∧
      (s.dev.scarab.move = none → ¬ permits s.dev x.1 → ∃ t, exec (x.2 req) s = .next t ∧ t.clk = s.clk ∧ t.dev.scarab = { s.dev.scarab with held := none }
        ∧ rb t.dev Reg.SCARAB_EVENT 1 = true
        ∧ onlyThese [Reg.SCARAB_LC_CMD, Reg.SCARAB_EVENT] (noted t.dev { setArmed req false s.dev with scarab := t.dev.scarab }) t.dev))) ∧
  (∀ s : State, (s.dev.scarab.move = none → exec .lcChange s = .next s) ∧
    ∀ b, s.dev.scarab.move = some b →
      (b = .diagnostic ∨ b = .retired → s.dev.scarab.phase ≠ .closed → exec .lcChange s = .next s) ∧
      (¬ (b = .diagnostic ∨ b = .retired) ∨ s.dev.scarab.phase = .closed → ∃ t, exec .lcChange s = .next t ∧ t.clk = s.clk ∧ t.dev.scarab.lc = b
        ∧ t.dev.scarab.move = none ∧ rb t.dev Reg.SCARAB_EVENT 0 = true ∧ rb t.dev Reg.SCARAB_LC_CMD 31 = false ∧ t.dev.scarab.pins = s.dev.scarab.pins
        ∧ t.dev.scarab.uid = s.dev.scarab.uid ∧ t.dev.scarab.svn = s.dev.scarab.svn
        ∧ t.dev.scarab.ownerFused = (s.dev.scarab.ownerFused || (b == .deployed && s.dev.scarab.lc == .provisioned && !pinEmpty s.dev 8))
        ∧ (b = .retired → dikPub t.dev = [] ∧ dakPub t.dev = [])
        ∧ (b = .retired → t.dev.scarab.keyHeld = false ∧ t.dev.scarab.keyValid = false ∧ t.dev.scarab.keyId = 0 ∧ t.dev.scarab.pakSealed = []
            ∧ t.dev.scarab.forming = 0 ∧ t.dev.scarab.sessions = [] ∧ openChannel t.dev 7 = false ∧ (∀ a, keyReg a → rd t.dev a = 0)
            ∧ (s.dev.scarab.forming ≠ 0 → rb t.dev Reg.SCARAB_EVENT 7 = true)
            ∧ onlyThese ([Reg.SCARAB_LC_CMD, Reg.SCARAB_EVENT, Reg.SCARAB_PAIR_ID_LO, Reg.SCARAB_PAIR_ID_HI] ++ (List.range 25).map Reg.SCARAB_PAIR_PUB)
                { s.dev with scarab := t.dev.scarab, pair := t.dev.pair } t.dev)
        ∧ (b ≠ .retired → t.dev.scarab.keyHeld = s.dev.scarab.keyHeld ∧ t.dev.scarab.sessions = s.dev.scarab.sessions
            ∧ onlyThese [Reg.SCARAB_LC_CMD, Reg.SCARAB_EVENT] { s.dev with scarab := t.dev.scarab } t.dev))) ∧
  (∀ (req : Req) (v : W16) (s : State), csrShut s.dev Reg.SCARAB_SVN_CMD = false →
    let closed := s.dev.scarab.lc = .blank ∨ s.dev.scarab.lc = .retired
    (closed ∨ armed s.dev req = false → ∃ t, exec (.svnRaise req v) s = .next t ∧ denied s t) ∧
    (¬ closed → armed s.dev req = true → ∃ t, exec (.svnRaise req v) s = .next t ∧ t.clk = s.clk ∧ s.dev.scarab.svn ≤ t.dev.scarab.svn
      ∧ t.dev.scarab = { s.dev.scarab with svn := t.dev.scarab.svn }
      ∧ (s.dev.scarab.svn ≤ v → v ≤ s.dev.scarab.runningSvn → t.dev.scarab.svn = v ∧ rd t.dev Reg.SCARAB_SVN_CMD = v.setWidth 32
          ∧ rd t.dev Reg.SCARAB_EVENT = rd s.dev Reg.SCARAB_EVENT)
      ∧ (v < s.dev.scarab.svn ∨ s.dev.scarab.runningSvn < v → t.dev.scarab.svn = s.dev.scarab.svn ∧ rb t.dev Reg.SCARAB_EVENT 1 = true
          ∧ rd t.dev Reg.SCARAB_SVN_CMD = rd s.dev Reg.SCARAB_SVN_CMD))) ∧
  (∀ d : Dev, let s := d.scarab
    let l := pkgPayload d
    let bind := ofLe (pkgField d 6 1)
    let signer := pkgField d 0xC0 97
    let form := inDram d s.pkgAddr s.pkgLen = true ∧ ofLe (pkgField d 0 4) = 0x5A504B47 ∧ ofLe (pkgField d 4 2) = 1 ∧ (bind = 1 ∨ bind = 2)
      ∧ 1 ≤ l ∧ l ≤ 2 ^ 34 ∧ s.pkgLen = 296 + l + 112
    let window := s.base % 65536 = 0 ∧ inDram d s.base s.size = true ∧ l ≤ s.size ∧ (s.pkgAddr + s.pkgLen ≤ s.base ∨ s.base + s.size ≤ s.pkgAddr)
    let signed := Config.ecdsaOk signer (pkgField d 0 (296 + l + 16)) (pkgField d (296 + l + 16) 96) = true
    let pinned := (∃ i < 8, pinBytes d i = Config.sha384 signer) ∨ ∀ i < 8, pinEmpty d i = true
    let bound := if bind = 1 then pkgField d 0x10 16 = leBytes 16 s.uid.toNat else s.keyValid = true ∧ pkgField d 0x10 8 = leBytes 8 s.keyId.toNat
    (pkgCheck d = some 1 ↔ ¬ form) ∧ (pkgCheck d = some 8 ↔ form ∧ ¬ window) ∧ (pkgCheck d = some 2 ↔ form ∧ window ∧ ¬ signed)
      ∧ (pkgCheck d = some 3 ↔ form ∧ window ∧ signed ∧ ¬ pinned) ∧ (pkgCheck d = some 4 ↔ form ∧ window ∧ signed ∧ pinned ∧ ¬ bound)
      ∧ (pkgCheck d = none ↔ form ∧ window ∧ signed ∧ pinned ∧ bound)) ∧
  (∀ (req : Req) (s : State), csrShut s.dev Reg.SCARAB_PKG_CMD = false →
    let may := s.dev.scarab.lc = .provisioned ∨ s.dev.scarab.lc = .deployed
    let d := setArmed req false s.dev
    let took : Scarab := { s.dev.scarab with
      pkgAddr := (rd64 s.dev Reg.SCARAB_PKG_ADDR_LO).toNat, pkgLen := (rd64 s.dev Reg.SCARAB_PKG_LEN_LO).toNat
      base := (rd64 s.dev Reg.SCARAB_PROT_BASE_LO).toNat, size := (rd64 s.dev Reg.SCARAB_PROT_SIZE_LO).toNat }
    (¬ may ∨ armed s.dev req = false → ∃ t, exec (.pkgOpen req) s = .next t ∧ denied s t) ∧
    (armed s.dev req = false → ∃ t, exec (.pkgClose req) s = .next t ∧ denied s t) ∧
    (may → armed s.dev req = true →
      (s.dev.scarab.phase = .opened ∨ s.dev.scarab.phase = .zeroing none → ∃ t, exec (.pkgOpen req) s = .next t ∧ t.clk = s.clk
        ∧ t.dev.scarab = s.dev.scarab ∧ rf t.dev Reg.SCARAB_PKG_STATUS 0 8 = 9 ∧ rb t.dev Reg.SCARAB_EVENT 4 = true) ∧
      (s.dev.scarab.phase = .closed → exec (.pkgOpen req) s = nextDev s { d with scarab := { took with
        phase := match pkgCheck { d with scarab := took } with | some r => .failing r | none => .opening } }) ∧
      (s.dev.scarab.phase ≠ .opened → s.dev.scarab.phase ≠ .zeroing none → s.dev.scarab.phase ≠ .closed → exec (.pkgOpen req) s = nextDev s d)) ∧
    (armed s.dev req = true → exec (.pkgClose req) s = nextDev s { d with scarab := { s.dev.scarab with
      phase := closing s.dev.scarab.phase, closing := s.dev.scarab.closing || s.dev.scarab.phase != .closed } })) ∧
  (∀ s : State, let base := s.dev.scarab.base
    let size := s.dev.scarab.size
    let zeroed (t : State) : Prop := (∀ a, base ≤ a → a < base + size → getByte t.dev a = 0) ∧ sameOutside base size s.dev t.dev
    let lifts (t : State) : Prop := t.clk = s.clk ∧ t.dev.scarab.phase = .closed ∧ protects t.dev = false
    let result (r : Nat) (t : State) : Prop := rf t.dev Reg.SCARAB_PKG_STATUS 0 8 = r ∧ rb t.dev Reg.SCARAB_EVENT (if r = 0 then 3 else 4) = true
    (∀ r, s.dev.scarab.phase = .failing r → r < 256 → ∃ t, exec .pkgOpenDone s = .next t ∧ lifts t ∧ (r ≠ 0 → result r t) ∧ sameMemory s.dev t.dev) ∧
    (∀ r, s.dev.scarab.phase = .opening → pkgDecrypt s.dev = .inl r → (r = 5 ∨ r = 6) ∧ ∃ t, exec .pkgOpenDone s = .next t ∧ lifts t ∧ result r t ∧ zeroed t) ∧
    (∀ p, s.dev.scarab.phase = .opening → pkgDecrypt s.dev = .inr p → ∃ t, exec .pkgOpenDone s = .next t ∧ t.clk = s.clk ∧ t.dev.scarab.phase = .opened
      ∧ protects t.dev = true ∧ result 0 t ∧ getBytes t.dev base p.length = p ∧ p.length ≤ pkgPayload s.dev ∧ sameOutside base p.length s.dev t.dev) ∧
    let grants := s.dev.scarab.granting ≠ 0 ∧ s.dev.scarab.lc ≠ .deployed
    let closes (r : Option Nat) (t : State) : Prop := lifts t ∧ t.dev.scarab.closing = false ∧ t.dev.scarab.granting = 0
      ∧ (grants → t.dev.scarab.scopes = s.dev.scarab.scopes ||| s.dev.scarab.granting ∧ t.dev.scarab.sessions = [])
      ∧ (¬ grants → t.dev.scarab.scopes = s.dev.scarab.scopes ∧ t.dev.scarab.sessions = s.dev.scarab.sessions)
      ∧ (∀ n, r = some n → n < 256 → n ≠ 0 → result n t) ∧ (r = none → t.dev.regs = s.dev.regs)
    (s.dev.scarab.phase = .closed ∨ s.dev.scarab.phase = .opened ∨ (∃ r, s.dev.scarab.phase = .zeroing r) ∨ (∃ z r, s.dev.scarab.phase = .stopping z r) →
      exec .pkgOpenDone s = .next s) ∧
    ((∀ r, s.dev.scarab.phase ≠ .zeroing r) → (∀ z r, s.dev.scarab.phase ≠ .stopping z r) → exec .windowZeroDone s = .next s) ∧
    (∀ r, s.dev.scarab.phase = .zeroing r → ∃ t, exec .windowZeroDone s = .next t ∧ closes r t ∧ zeroed t) ∧
    (∀ r, s.dev.scarab.phase = .stopping true r → ∃ t, exec .windowZeroDone s = .next t ∧ closes r t ∧ zeroed t) ∧
    (∀ r, s.dev.scarab.phase = .stopping false r → ∃ t, exec .windowZeroDone s = .next t ∧ closes r t ∧ t.dev.mem = s.dev.mem)) ∧
  (∀ (write : Bool) (off : BitVec 36) (len : Nat) (data : List W8) (s : State),
    let asked := if write then data.length else min len (2 ^ 36 - off.toNat)
    let n := min asked (dramSize s.dev - off.toNat)
    let a := dramBase + off.toNat
    let hits := protects s.dev = true ∧ a < s.dev.scarab.base + s.dev.scarab.size ∧ s.dev.scarab.base < a + n
    (∃ t, exec (.dramWindowAccess write off len data) s = .next t ∧ t.clk = s.clk ∧ t.dev.scarab = s.dev.scarab
      ∧ (write = false → sameMemory s.dev t.dev) ∧ (dramReady s.dev = false → sameMemory s.dev t.dev)
      ∧ (write = false → dramReady s.dev = false → t.dev.bus.win = List.replicate asked 0)
      ∧ (write = false → dramReady s.dev = true → (∀ w ∈ wordsOf a n, errOf s.dev w = .none) → t.dev.bus.poisoned = false ∧ t.dev.bus.win
          = ((List.range n).map fun i => if guardedByte s.dev (a + i) = true then 0 else getByte s.dev (a + i))
            ++ (List.range (asked - n)).map fun i => (Config.freeValue (s.dev.freeIdx + i)).truncate 8)
      ∧ (write = false → dramReady s.dev = true → ¬ hits → uncorrectable s.dev a n = true → t.dev.bus.poisoned = true)
      ∧ (write = true → dramReady s.dev = true → ∀ x, getByte t.dev x
          = if a ≤ x ∧ x < a + n ∧ guardedByte s.dev x = false then byteAt data (x - a) else getByte s.dev x)
      ∧ (dramReady s.dev = true → hits → rb t.dev Reg.SCARAB_EVENT 5 = true
          ∧ rd t.dev Reg.SCARAB_PROT_DENY_COUNT = w32 (min (2 ^ 32 - 1) ((rd s.dev Reg.SCARAB_PROT_DENY_COUNT).toNat + 1)))
      ∧ (¬ hits → rd t.dev Reg.SCARAB_PROT_DENY_COUNT = rd s.dev Reg.SCARAB_PROT_DENY_COUNT)))

/-- R272 and R369 to R374 for PIN_WRITE, PIN_READ, PAIR_FORM, SCARAB_MESSAGE_RX, SESS_CMD, CHAL_NEW, CHAL_EXPIRE and TOKEN_GO. The cryptographic
checks are functions that the model leaves open (Config), and a nonce is made of its free values. The messages of a formation, and that a token
names exactly one scope, are log entry 71 (PRESUMED and DEDUCED); the session operations, their operands and their replies are log entry 10 (DESIGN
CHOICE): the model's. -/
def Obligations.KeysSessionsTokens : Prop :=
  let denied (s t : State) : Prop := t.clk = s.clk ∧ rb t.dev Reg.GUARD_EVENT 1 = true
    ∧ onlyThese [Reg.GUARD_EVENT, Reg.GUARD_DENIED_COUNT, Reg.GUARD_DENY_INFO] s.dev t.dev
  let keyStands (s t : State) : Prop := t.dev.scarab.keyHeld = s.dev.scarab.keyHeld ∧ t.dev.scarab.keyValid = s.dev.scarab.keyValid
    ∧ t.dev.scarab.keyId = s.dev.scarab.keyId ∧ t.dev.pair.keyed = s.dev.pair.keyed
  let draw (s : State) (n : Nat) : List W8 := (List.range 48).map fun i => (Config.freeValue (s.dev.freeIdx + n + i)).truncate 8
  let failed (s t : State) : Prop := t.dev.scarab.forming = 0 ∧ rb t.dev Reg.SCARAB_EVENT 7 = true ∧ keyStands s t
  (∀ (req : Req) (s : State), csrShut s.dev Reg.SCARAB_PIN_CMD = false →
    let i := rf s.dev Reg.SCARAB_PIN_IDX 0 4
    let shut := s.dev.scarab.lc = .deployed ∨ s.dev.scarab.lc = .retired
    let may := i < 8 ∨ (i = 8 ∧ s.dev.scarab.lc = .provisioned)
    (shut ∨ armed s.dev req = false → ∃ t, exec (.pinWrite req) s = .next t ∧ denied s t) ∧
    (armed s.dev req = false → ∃ t, exec (.pinRead req) s = .next t ∧ denied s t) ∧
    (¬ shut → armed s.dev req = true → ¬ may → exec (.pinWrite req) s = nextDev s (setArmed req false s.dev)) ∧
    (¬ shut → armed s.dev req = true → may → ∃ t, exec (.pinWrite req) s = .next t ∧ t.clk = s.clk
      ∧ t.dev = { setArmed req false s.dev with scarab := { s.dev.scarab with pins := t.dev.scarab.pins } }
      ∧ pinBytes t.dev i = regBytes s.dev Reg.SCARAB_PIN_DATA 12 ∧ ∀ j, j ≠ i → pinBytes t.dev j = pinBytes s.dev j) ∧
    (armed s.dev req = true → (8 < i → exec (.pinRead req) s = nextDev s (setArmed req false s.dev)) ∧
      (i ≤ 8 → ∃ t, exec (.pinRead req) s = .next t ∧ t.clk = s.clk ∧ regBytes t.dev Reg.SCARAB_PIN_DATA 12 = pinBytes s.dev i
        ∧ onlyThese ((List.range 12).map Reg.SCARAB_PIN_DATA) (setArmed req false s.dev) t.dev))) ∧
  (∀ (req : Req) (s : State), csrShut s.dev Reg.SCARAB_PAIR_CMD = false →
    let may := s.dev.scarab.lc = .provisioned ∨ s.dev.scarab.lc = .deployed
    (¬ may ∨ armed s.dev req = false → ∃ t, exec (.pairForm req) s = .next t ∧ denied s t) ∧
    (may → armed s.dev req = true →
      (roleOne s.dev = true ∨ s.dev.scarab.forming ≠ 0 → exec (.pairForm req) s = nextDev s (setArmed req false s.dev)) ∧
      (roleOne s.dev = false → s.dev.scarab.forming = 0 → s.dev.pair.trained = false → ∃ t, exec (.pairForm req) s = .next t ∧ t.clk = s.clk ∧ failed s t
        ∧ onlyThese [Reg.SCARAB_EVENT] { setArmed req false s.dev with scarab := t.dev.scarab } t.dev) ∧
      (roleOne s.dev = false → s.dev.scarab.forming = 0 → s.dev.pair.trained = true → ∃ t, exec (.pairForm req) s = .next t ∧ t.clk = s.clk
        ∧ t.dev.scarab = { s.dev.scarab with nonce := draw s 0, forming := 1 } ∧ keyStands s t
        ∧ t.dev = cricketSend 5 (messageBytes 10 (contentOf [draw s 0])) s.clk
            { setArmed req false s.dev with scarab := t.dev.scarab, freeIdx := s.dev.freeIdx + 48 }))) ∧
  (∀ s : State, let first := s.dev.pair.inbox.find? (fun x => x.1 == 5)
    let took (m : Nat × List W8) (t : State) : Prop := t.clk = s.clk ∧ t.dev.pair.inbox = s.dev.pair.inbox.erase m ∧ t.dev.mem = s.dev.mem
    let less (m : Nat × List W8) : Dev := { s.dev with pair := { s.dev.pair with inbox := s.dev.pair.inbox.erase m } }
    (∀ nonce : List W8, let m := (5, messageBytes 10 (contentOf [nonce]))
     (first ≠ some m → exec (.scarabMessageRx (.request nonce)) s = .next s) ∧
     (first = some m → (mayForm s.dev = false → ∃ t, exec (.scarabMessageRx (.request nonce)) s = .next t ∧ took m t ∧ failed s t) ∧
       (mayForm s.dev = true → exec (.scarabMessageRx (.request nonce)) s = nextDev s (attestSend nonce s.clk
         { less m with scarab := { s.dev.scarab with nonce := draw s 0, forming := 1 }, freeIdx := s.dev.freeIdx + 48 })))) ∧
    (∀ a : Attestation, let m := (5, messageBytes 11 (attestContent a))
     let passes := mayForm s.dev = true ∧ Config.chainOk a.cert Config.rootHash = true ∧ (a.lc = 1 ∨ a.lc = 2) ∧ a.measurement = s.dev.scarab.measurement
       ∧ Config.ecdsaOk (Config.certSubject a.cert) (s.dev.scarab.nonce ++ a.lc :: a.measurement) a.sig = true
     (first ≠ some m → exec (.scarabMessageRx (.attestation a)) s = .next s) ∧
     (first = some m → (s.dev.scarab.forming ≠ 1 → exec (.scarabMessageRx (.attestation a)) s = nextDev s (less m)) ∧
       (s.dev.scarab.forming = 1 → ∃ t, exec (.scarabMessageRx (.attestation a)) s = .next t ∧ took m t ∧ (¬ passes → failed s t) ∧
         (passes → t.dev.scarab.forming = 2 ∧ t.dev.scarab.attested = true ∧ t.dev.scarab.partnerCert = a.cert ∧ keyStands s t
           ∧ t.dev.scarab.eph = draw s (if roleOne s.dev = true then 0 else 1)
           ∧ (linkUp s.dev = false → rb t.dev Reg.PAIR_EVENT 1 = true)
           ∧ (linkUp s.dev = false → s.dev.pair.mode = .cozy → t.dev.pair.mode = .sync ∧ t.dev.pair.matched = 0)
           ∧ (linkUp s.dev = true ∨ s.dev.pair.mode ≠ .cozy → t.dev.pair.mode = s.dev.pair.mode))))) ∧
    (∀ pub sig : List W8, let m := (5, messageBytes 12 (contentOf [pub, sig]))
     let signed := mayForm s.dev = true ∧ Config.ecdsaOk (Config.certSubject s.dev.scarab.partnerCert) pub sig = true
     let x := pairScalar s.dev pub
     let zero := ∀ b ∈ x, b = 0
     (first ≠ some m → exec (.scarabMessageRx (.share pub sig)) s = .next s) ∧
     (first = some m → (s.dev.scarab.forming ≠ 2 → exec (.scarabMessageRx (.share pub sig)) s = nextDev s (less m)) ∧
       (s.dev.scarab.forming = 2 → signed → zero → exec (.scarabMessageRx (.share pub sig)) s = nextDev s (shareSend s.clk (less m))) ∧
       (s.dev.scarab.forming = 2 → ∃ t, exec (.scarabMessageRx (.share pub sig)) s = .next t ∧ took m t ∧ (¬ signed → failed s t) ∧
         (signed → ¬ zero → t.dev.scarab.forming = 0 ∧ t.dev.scarab.keyHeld = true ∧ t.dev.scarab.keyValid = true ∧ t.dev.pair.keyed = true
           ∧ t.dev.scarab.keyId = pairKeyId (Config.ecPoint x) ∧ rd64 t.dev Reg.SCARAB_PAIR_ID_LO = t.dev.scarab.keyId
           ∧ t.dev.scarab.pakSealed = Config.skSeal (sk s.dev) x ∧ rb t.dev Reg.SCARAB_EVENT 6 = true
           ∧ ((Config.ecPoint x).length = 97 → (regBytes t.dev Reg.SCARAB_PAIR_PUB 25).take 97 = Config.ecPoint x)))))) ∧
  (∀ (nonce : List W8) (k : Clk) (d : Dev), let m := d.scarab.measurement
    let code := BitVec.ofNat 8 d.scarab.lc.code
    let sig := Config.ecdsaSign (dik d) (nonce ++ code :: m) d.freeIdx
    let a : Attestation := ⟨certBytes d, d.scarab.nonce, code, m, d.scarab.keyId, sig⟩
    attestSend nonce k d = cricketSend 5 (messageBytes 11 (attestContent a)) k { d with freeIdx := d.freeIdx + 1 }) ∧
  (∀ (d : Dev) (pub : List W8), let own := d.scarab.uid.toNat
    let other := (Config.certUid d.scarab.partnerCert).toNat
    (own ≤ other → pairScalar d pub = Config.reduceScalar (Config.hkdf (Config.ecdh d.scarab.eph pub) (leBytes 16 own ++ leBytes 16 other) (Config.keyLabel 4) 48)) ∧
    (other ≤ own → pairScalar d pub = Config.reduceScalar (Config.hkdf (Config.ecdh d.scarab.eph pub) (leBytes 16 other ++ leBytes 16 own) (Config.keyLabel 4) 48)) ∧
    (8 ≤ (Config.sha384 pub).length → leBytes 8 (pairKeyId pub).toNat = (Config.sha384 pub).take 8)) ∧
  (∀ (req : Req) (op : SessOp) (s : State), csrShut s.dev Reg.SCARAB_SESS_CMD = false →
    s.dev.scarab.lc = .blank ∨ s.dev.scarab.lc = .retired ∨ armed s.dev req = false → ∃ t, exec (.sessCmd req op) s = .next t ∧ denied s t) ∧
  (∀ (req : Req) (i : Fin 16) (key cert m : List W8) (s : State), csrShut s.dev Reg.SCARAB_SESS_CMD = false → s.dev.scarab.lc ≠ .blank → s.dev.scarab.lc ≠ .retired →
    armed s.dev req = true →
    let d := setArmed req false s.dev
    let session (t : State) (j : Nat) : Option Session := Tab.get none t.dev.scarab.sessions j
    let others (t : State) : Prop := t.clk = s.clk ∧ (∀ j, j ≠ i.val → session t j = session s j) ∧ t.dev.mem = s.dev.mem ∧ t.dev.regs = s.dev.regs
    let ok := Config.chainOk cert (if pinEmpty s.dev 8 then Config.rootHash else pinBytes s.dev 8)
    let own := Config.ecPoint (draw s 0)
    let script := Config.transcript own key cert
    (ok = false → exec (.sessCmd req (.establish i key cert)) s = nextDev s d) ∧
    (ok = true → ∃ t, exec (.sessCmd req (.establish i key cert)) s = .next t ∧ others t
      ∧ session t i = some { keys := Config.hkdf (Config.ecdh (draw s 0) key) script (Config.keyLabel 5) 64 }
      ∧ t.dev.bus.win = own ++ Config.ecdsaSign (dik s.dev) script (s.dev.freeIdx + 48)) ∧
    (session s i = none → exec (.sessCmd req (.seal i m)) s = nextDev s d ∧ exec (.sessCmd req (.unseal i m)) s = nextDev s d) ∧
    (∀ x, session s i = some x →
      (∃ t, exec (.sessCmd req (.seal i m)) s = .next t ∧ others t ∧ session t i = some { x with sent := x.sent + 1 }
        ∧ t.dev.bus.win = (Config.sessionMessage true x.keys x.sent m).getD []) ∧
      (Config.sessionMessage false x.keys x.received m = none → exec (.sessCmd req (.unseal i m)) s = nextDev s d) ∧
      (∀ l, Config.sessionMessage false x.keys x.received m = some l → ∃ t, exec (.sessCmd req (.unseal i m)) s = .next t ∧ others t
        ∧ session t i = some { x with received := x.received + 1 } ∧ t.dev.bus.win = l))) ∧
  (∀ (req : Req) (s : State), csrShut s.dev Reg.SCARAB_CHAL_CMD = false → ∃ t, exec (.chalNew req) s = .next t ∧ t.clk = s.clk
    ∧ t.dev.scarab = { s.dev.scarab with chal := some s.clk.ticks } ∧ (∀ w < 12, rd t.dev (Reg.SCARAB_CHAL w) = lo32 (Config.freeValue (s.dev.freeIdx + w)))
    ∧ onlyThese ((List.range 12).map Reg.SCARAB_CHAL) { s.dev with scarab := t.dev.scarab, freeIdx := s.dev.freeIdx + 12 } t.dev) ∧
  (∀ s : State, (s.dev.scarab.chal = none → exec .chalExpire s = .next s) ∧
    ∀ t0, s.dev.scarab.chal = some t0 → (since s.clk t0 < 75000000000 → exec .chalExpire s = .next s) ∧
      (75000000000 ≤ since s.clk t0 → exec .chalExpire s = nextDev s { s.dev with scarab := { s.dev.scarab with chal := none } })) ∧
  (∀ (req : Req) (s : State), csrShut s.dev Reg.SCARAB_TOKEN_CMD = false →
    let scope := rd s.dev Reg.SCARAB_TOKEN_SCOPE
    let debug := fld scope 0 3
    let one := ([0, 1, 2, 4, 5].filter (bit scope)).length = 1
    let live := ∃ t0, s.dev.scarab.chal = some t0 ∧ since s.clk t0 < 75000000000
    (armed s.dev req = false → ∃ t, exec (.tokenGo req) s = .next t ∧ denied s t) ∧
    (armed s.dev req = true → ∃ t, exec (.tokenGo req) s = .next t ∧ t.clk = s.clk ∧ t.dev.scarab.chal = none ∧ t.dev.scarab.lc = s.dev.scarab.lc ∧
      (¬ (live ∧ tokenOk s.dev = true ∧ one) → rb t.dev Reg.SCARAB_EVENT 2 = true ∧ t.dev.scarab = { s.dev.scarab with chal := none }) ∧
      (live → tokenOk s.dev = true → one → t.dev.scarab.held = (if bit scope 4 = true ∨ bit scope 5 = true then some scope else s.dev.scarab.held) ∧
        rd t.dev Reg.SCARAB_EVENT = rd s.dev Reg.SCARAB_EVENT ∧
        (debug = 0 ∨ s.dev.scarab.lc = .deployed → t.dev.scarab.scopes = s.dev.scarab.scopes ∧ t.dev.scarab.granting = s.dev.scarab.granting
          ∧ t.dev.scarab.sessions = s.dev.scarab.sessions) ∧
        (debug ≠ 0 → s.dev.scarab.lc ≠ .deployed → t.dev.scarab.sessions = [] ∧
          (s.dev.scarab.phase = .closed → t.dev.scarab.scopes = s.dev.scarab.scopes ||| (s.dev.scarab.granting ||| debug) ∧ t.dev.scarab.granting = 0) ∧
          (s.dev.scarab.phase ≠ .closed → t.dev.scarab.scopes = s.dev.scarab.scopes ∧ t.dev.scarab.granting = s.dev.scarab.granting ||| debug
            ∧ t.dev.scarab.phase ≠ .closed ∧ t.dev.scarab.phase ≠ .opened ∧ (protects s.dev = true → protects t.dev = true)))))) ∧
  (∀ (d : Dev) (i : Nat), (d.scarab.lc = .deployed → debugMay d i = false) ∧ (d.scarab.lc ≠ .deployed → debugMay d i = d.scarab.scopes.testBit i))

/-- R364, R376 to R380 and R393 for POWER_ON, SYS_RESET_N, SYS_RESET_SYSTEM, SYS_RESET_RECOVERY, LINK_RESET, STARTUP and SYS_BOOT_GO. DRAM
after POWER_ON reads 0 (log entry 2) and the registers that no rule gives a reset value hold the model's (log entry 3): of these two the
statement says what the model does. That STARTUP's steps before and after the boot are done whole (log entry 84), and that a move cut
by a reset leaves either state (log entry 72) are DESIGN CHOICE: the model's; that step 9 waits for a runner and its targets is log entry 101
(DEDUCED). -/
def Obligations.ResetsAndStartup : Prop :=
  let timebase (a : Nat) : Prop := ∃ o ∈ [0, snapOf .host 0, snapOf .fw 0], o + 0x10000 ≤ a ∧ a < o + 0x18000
  let table (a : Nat) : Prop := Reg.MSIX_TABLE 0 ≤ a ∧ a < Reg.MSIX_TABLE 256
  let keyReg (a : Nat) : Prop := a = Reg.SCARAB_PAIR_ID_LO ∨ a = Reg.SCARAB_PAIR_ID_HI ∨ (Reg.SCARAB_PAIR_PUB 0 ≤ a ∧ a < Reg.SCARAB_PAIR_PUB 25)
  let own (a : Nat) : Prop := a = Reg.SYS_RESET_CAUSE ∨ a = Reg.SYS_STARTUP_STATUS ∨ a = Reg.SYS_THERM_CTL ∨ (∃ w < 4, a = Reg.PACK_CID w)
  let silent (t : State) : Prop := t.dev.frm = {} ∧ t.dev.arr = {} ∧ t.dev.cores = [] ∧ t.dev.ket = {} ∧ t.dev.ports = [] ∧ t.dev.fwRx = []
    ∧ t.dev.sacnRx = [] ∧ t.dev.stRx = [] ∧ t.dev.pack = {} ∧ t.dev.dmx = [] ∧ t.dev.slow = {} ∧ t.dev.pair = {} ∧ t.dev.queues = [] ∧ t.dev.dma = []
    ∧ t.dev.abort = none ∧ t.dev.weevil = {} ∧ t.dev.bus.hostArmed = false ∧ t.dev.bus.fwArmed = false ∧ t.dev.bus.staged = []
  let fuses (s t : State) : Prop := t.dev.calib = { mram := s.dev.calib.mram } ∧ t.dev.scarab.orderE = s.dev.scarab.orderE
    ∧ t.dev.scarab.uid = s.dev.scarab.uid ∧ t.dev.scarab.lot = s.dev.scarab.lot ∧ t.dev.scarab.svn = s.dev.scarab.svn
    ∧ t.dev.scarab.pins = s.dev.scarab.pins ∧ t.dev.scarab.sessions = [] ∧ t.dev.scarab.scopes = 0 ∧ t.dev.scarab.chal = none
    ∧ t.dev.scarab.huk = s.dev.scarab.huk ∧ (s.dev.scarab.move = none ∨ lcWaits s.dev.scarab = true → t.dev.scarab.lc = s.dev.scarab.lc)
    ∧ (∀ b, s.dev.scarab.move = some b → t.dev.scarab.lc = s.dev.scarab.lc ∨ t.dev.scarab.lc = b) ∧ t.dev.scarab.move = none
    ∧ t.dev.dramMiB = s.dev.dramMiB
    ∧ (s.dev.scarab.move ≠ some .retired ∨ lcWaits s.dev.scarab = true → t.dev.scarab.keyHeld = s.dev.scarab.keyHeld
        ∧ t.dev.scarab.keyId = s.dev.scarab.keyId ∧ t.dev.scarab.pakSealed = s.dev.scarab.pakSealed ∧ ∀ a, keyReg a → rd t.dev a = rd s.dev a)
    ∧ rd t.dev Reg.SYS_THERM_CTL = (if s.dev.scarab.orderE = true then 0x80007369 else 0x8000695F)
  let resets (recovery : Bool) (cause : W32) (s t : State) : Prop := t.clk = s.clk ∧ silent t ∧ fuses s t
    ∧ (∀ a, timebase a ∨ (recovery = true ∧ (a = Reg.SYS_STRAPS ∨ table a)) → rd t.dev a = rd s.dev a)
    ∧ (∀ a, ¬ timebase a → ¬ (recovery = true ∧ (a = Reg.SYS_STRAPS ∨ table a)) → ¬ keyReg a → ¬ own a → rd t.dev a = Reg.resetOf a)
    ∧ (∀ a, dramBase ≤ a → a < dramBase + 2 ^ 36 → getByte t.dev a = getByte s.dev a)
    ∧ (∀ a, (a < dramBase ∨ dramBase + 2 ^ 36 ≤ a) → getByte t.dev a = 0)
    ∧ rd t.dev Reg.SYS_RESET_CAUSE = cause
    ∧ rd t.dev Reg.SYS_STARTUP_STATUS = (if recovery = true ∧ rb s.dev Reg.SYS_STARTUP_STATUS 1 = true then 2 else 0)
    ∧ t.dev.scarab.phase = (match s.dev.scarab.phase with
        | .closed => .closed
        | .failing r => .stopping (r != 1 && r != 8) none
        | .opening => .zeroing none
        | .opened => .zeroing none
        | .zeroing _ => .zeroing none
        | .stopping z _ => .stopping z none)
    ∧ t.dev.scarab.base = s.dev.scarab.base ∧ t.dev.scarab.size = s.dev.scarab.size ∧ selOut t.dev = false ∧ ownOut t.dev = false
  let requester (req : Req) : W32 := if req = .fw then 0x100 else 0
  let denied (s t : State) : Prop := t.clk = s.clk ∧ rb t.dev Reg.GUARD_EVENT 1 = true
    ∧ onlyThese [Reg.GUARD_EVENT, Reg.GUARD_DENIED_COUNT, Reg.GUARD_DENY_INFO] s.dev t.dev
  let started (s t : State) : Prop := t.clk = s.clk ∧ t.dev.pins.pllLock = true
    ∧ (∀ i ∈ [0, 2, 3, 4, 9, 10], rb t.dev Reg.SYS_STARTUP_STATUS i = true) ∧ rb t.dev Reg.SPI_CTL 1 = true
    ∧ rb t.dev Reg.SYS_STARTUP_STATUS 1 = (!s.dev.sys.pcieDown || rb s.dev Reg.SYS_STARTUP_STATUS 1)
    ∧ t.dev.ket.initDone = !kettleOut t.dev ∧ (∀ r, t.dev.scarab.phase ≠ .zeroing r) ∧ (∀ z r, t.dev.scarab.phase ≠ .stopping z r)
    ∧ (rf s.dev Reg.SYS_RESET_CAUSE 0 4 = 4 → ∀ p < 26, (calPath t.dev p).trusted = false ∧ measuredFor t.dev p = none)
  let ready (t : State) : Prop := rb t.dev Reg.SYS_STARTUP_STATUS 8 = true ∧ rb t.dev Reg.SYS_STARTUP_STATUS 31 = true
    ∧ rb t.dev Reg.SYS_EVENT 1 = true ∧ t.dev.calib.starting = false
  let runs (src : Nat) (f : Image) (s t : State) : Prop := rb t.dev Reg.SYS_STARTUP_STATUS 6 = true
      ∧ (∀ c < 4, let x := Tab.get {} t.dev.cores c; x.running = true ∧ x.pc = w64 (0x2000000 + imageNum f 12 4))
      ∧ rd t.dev Reg.SCARAB_BOOT_STATUS = w32 (src * 2 ^ 30 + imageNum f 4 2) ∧ s.dev.scarab.svn.toNat ≤ imageNum f 4 2
      ∧ t.dev.scarab.measurement = Config.sha384 (f 0 0x1D0)
      ∧ ((∀ r < 4, runner s.dev r = none) → rb t.dev Reg.SYS_STARTUP_STATUS 7 = true ∧ t.dev.sys.startReports = none
          ∧ (rb s.dev Reg.CAL_CTL 31 = true → (∀ p < 26, (calPath t.dev p).measuring = pathSignal t.dev p)
              ∧ ((∀ p < 26, pathSignal t.dev p = false) → ready t)
              ∧ ((∃ p < 26, pathSignal t.dev p = true) → t.dev.calib.starting = true ∧ rb t.dev Reg.SYS_STARTUP_STATUS 31 = false))
          ∧ (rb s.dev Reg.CAL_CTL 31 = false → s.dev.calib.starting = false → ready t))
  let fails (t : State) : Prop := rb t.dev Reg.SYS_STARTUP_STATUS 30 = true ∧ rb t.dev Reg.SYS_STARTUP_STATUS 6 = false
    ∧ rb t.dev Reg.SYS_STARTUP_STATUS 31 = false ∧ rb t.dev Reg.SYS_EVENT 2 = true
  (∀ s : State, ∃ t, exec .powerOn s = .next t ∧ t.clk = Clk.reset ∧ t.clk.ticks = 0 ∧ silent t ∧ fuses s t ∧ t.dev.mem = [] ∧ t.dev.pins = {}
    ∧ t.dev.scarab.phase = .closed ∧ t.dev.msix.inService = 0 ∧ t.dev.msix.pba = 0 ∧ t.dev.sys.tripped = false
    ∧ rd t.dev Reg.SYS_RESET_CAUSE = 1 ∧ rd t.dev Reg.SYS_STARTUP_STATUS = 0 ∧ ∀ a, ¬ keyReg a → ¬ own a → rd t.dev a = Reg.resetOf a) ∧
  (∀ s : State, ∃ t, exec .sysResetN s = .next t ∧ resets false 2 s t ∧ t.dev.msix.inService = 0 ∧ t.dev.msix.pba = 0) ∧
  (∀ (req : Req) (s : State), csrShut s.dev Reg.SYS_RESET_CMD = false →
    (armed s.dev req = false → (∃ t, exec (.sysResetSystem req) s = .next t ∧ denied s t) ∧ ∃ t, exec (.sysResetRecovery req) s = .next t ∧ denied s t) ∧
    (armed s.dev req = true →
      (∃ t, exec (.sysResetSystem req) s = .next t ∧ resets false (3 ||| requester req) s t ∧ t.dev.msix.inService = 0 ∧ t.dev.msix.pba = 0
        ∧ t.dev.msix.config = []) ∧
      (∃ t, exec (.sysResetRecovery req) s = .next t ∧ resets true (4 ||| requester req) s t ∧ t.dev.msix.pba = s.dev.msix.pba
        ∧ t.dev.msix.masked = s.dev.msix.masked ∧ t.dev.msix.config = s.dev.msix.config))) ∧
  (∀ s : State, ∃ t, exec (.linkReset false) s = .next t ∧ t.clk = s.clk ∧ rb t.dev Reg.SYS_STARTUP_STATUS 1 = false ∧ rb t.dev Reg.SYS_EVENT 0 = true
    ∧ t.dev.sys.pcieDown = true ∧ rd t.dev Reg.SYS_LINK_RESET_COUNT = w32 (min (2 ^ 32 - 1) ((rd s.dev Reg.SYS_LINK_RESET_COUNT).toNat + 1)) ∧ t.dev.dma = []
    ∧ (∀ a, table a → rd t.dev a = Reg.resetOf a) ∧ t.dev.msix.masked = false ∧ t.dev.msix.inService = 0
    ∧ ((∀ c < 16, dmaDesc s.dev c = none) → t.dev.mem = s.dev.mem ∧ t.dev.ket = s.dev.ket ∧ t.dev.bus = s.dev.bus)
    ∧ t.dev.frm = s.dev.frm ∧ t.dev.arr = s.dev.arr ∧ t.dev.cores = s.dev.cores ∧ t.dev.ports = s.dev.ports
    ∧ t.dev.pack = s.dev.pack ∧ t.dev.dmx = s.dev.dmx ∧ t.dev.pair = s.dev.pair ∧ t.dev.queues = s.dev.queues ∧ t.dev.weevil = s.dev.weevil
    ∧ t.dev.scarab = s.dev.scarab ∧ t.dev.pins = s.dev.pins ∧ (∀ a, timebase a → rd t.dev a = rd s.dev a)) ∧
  (∀ s : State, ∃ t, exec (.linkReset true) s = .next t ∧ t.clk = s.clk 
    ∧ rb t.dev Reg.SYS_STARTUP_STATUS 1 = (rb s.dev Reg.SYS_STARTUP_STATUS 10 || rb s.dev Reg.SYS_STARTUP_STATUS 1)
    ∧ t.dev.sys = { s.dev.sys with pcieDown := false } ∧ onlyThese [Reg.SYS_STARTUP_STATUS] { s.dev with sys := t.dev.sys } t.dev ∧ t.dev.msix = s.dev.msix) ∧
  (∀ (boot pair fast : Bool) (reports : List SliceReport) (primary secondary : List W8) (s : State),
    (rb s.dev Reg.SYS_STARTUP_STATUS 10 = true → exec (.startup boot pair fast reports primary secondary) s = .next s) ∧
    ((∀ i ∈ [6, 10, 31], rb s.dev Reg.SYS_STARTUP_STATUS i = false) → ∃ t,
      exec (.startup boot pair fast reports primary secondary) s = .next t ∧ started s t ∧
      (rf s.dev Reg.SYS_RESET_CAUSE 0 4 ≠ 4 → rd t.dev Reg.SYS_STRAPS = bitIf 0 boot ||| bitIf 1 pair ||| bitIf 2 fast) ∧
      (rf s.dev Reg.SYS_RESET_CAUSE 0 4 = 4 → rd t.dev Reg.SYS_STRAPS = rd s.dev Reg.SYS_STRAPS) ∧
      let good (l : List W8) : Prop := imageCheck s.dev.scarab.svn (flashImage l) = 0
      (rb t.dev Reg.SYS_STRAPS 0 = false → rb t.dev Reg.SYS_STARTUP_STATUS 5 = true ∧ rb t.dev Reg.SYS_STARTUP_STATUS 6 = false
        ∧ rb t.dev Reg.SYS_STARTUP_STATUS 31 = false ∧ rb t.dev Reg.SPI_STATUS 2 = true) ∧
      (rb t.dev Reg.SYS_STRAPS 0 = true → rb t.dev Reg.SPI_STATUS 2 = false ∧
        (good primary → runs 0 (flashImage primary) s t) ∧ (¬ good primary → good secondary → runs 1 (flashImage secondary) s t) ∧
        (¬ good primary → ¬ good secondary → fails t ∧ rd t.dev Reg.SCARAB_BOOT_STATUS =
          w32 (2 ^ 30 + imageCheck s.dev.scarab.svn (flashImage secondary) * 2 ^ 24))))) ∧
  (∀ (req : Req) (reports : List SliceReport) (s : State), csrShut s.dev Reg.SYS_BOOT_CMD = false →
    let f := hostImage s.dev
    let waits := rb s.dev Reg.SYS_STARTUP_STATUS 10 = true ∧ rb s.dev Reg.SYS_STRAPS 0 = false ∧ rb s.dev Reg.SYS_STARTUP_STATUS 6 = false
    (¬ waits → exec (.sysBootGo req reports) s = .next s) ∧
    (waits → rb s.dev Reg.SYS_STARTUP_STATUS 31 = false → ∃ t, exec (.sysBootGo req reports) s = .next t ∧ t.clk = s.clk ∧
      rb t.dev Reg.SYS_STARTUP_STATUS 5 = false ∧
      (imageCheck s.dev.scarab.svn f = 0 → runs 2 f s t
        ∧ ((∀ r < 4, (runner s.dev r).isSome = true) ∨ (∃ r < 4, ∃ x, runner s.dev r = some x ∧ (x.target / 4096 = 5 ∨ x.target / 4096 = 6)) →
            t.dev.sys.startReports = some reports ∧ t.dev.weevil = s.dev.weevil ∧ rb t.dev Reg.SYS_STARTUP_STATUS 31 = false)
        ∧ (rb s.dev Reg.CAL_CTL 31 = false → ∀ p < 26, (calPath t.dev p).measuring = (calPath s.dev p).measuring)) ∧
      (imageCheck s.dev.scarab.svn f ≠ 0 → fails t ∧ t.dev.mem = s.dev.mem
        ∧ rd t.dev Reg.SCARAB_BOOT_STATUS = w32 (2 * 2 ^ 30 + imageCheck s.dev.scarab.svn f * 2 ^ 24))))

/-- R383 to R390 and R411 for SWARM_CLK_WRITE, TEMP_SAMPLE, PMON_START_NEXT, PMON_FREEZE_NEXT, MSIX_ACK, MSIX_UNMASK and SYS_SW_SET, and what
PMON does at a boundary (R387): a snapshot holds what `settleCounts` has counted by then, under the old EN. That TEMP_WARN and TEMP_CRIT are judged
over all sensors together is log entry 77 (DEDUCED): R384 speaks of any sensor and of each upward crossing. What a trip ends on the board's
interfaces is log entry 81 (DESIGN CHOICE), and when a vector is sent again log entry 80 (DEDUCED). -/
def Obligations.ClocksHealthEvents : Prop :=
  let brew (d : Dev) (i : Nat) : Option Brew := Tab.get none d.arr.slots i
  (∀ (req : Req) (sw : Fin 8) (v : W32) (s : State), csrShut s.dev (Reg.SWARM_CLK_CTL sw) = false →
    (armed s.dev req = false → ∃ t, exec (.swarmClkWrite req sw v) s = .next t ∧ t.clk = s.clk ∧ rb t.dev Reg.GUARD_EVENT 1 = true
      ∧ onlyThese [Reg.GUARD_EVENT, Reg.GUARD_DENIED_COUNT, Reg.GUARD_DENY_INFO] s.dev t.dev) ∧
    (armed s.dev req = true →
      let stops := fld v 0 3 = 4 ∧ ((routeSet s.dev).testBit sw = true ∨ (busySlots s.dev).any (fun x => slotSwarm x.1 == sw) = true)
      (stops → ∃ t, exec (.swarmClkWrite req sw v) s = .next t ∧ t.clk = s.clk ∧ rb t.dev (Reg.SWARM_EVENT sw) 0 = true
        ∧ onlyThese [Reg.SWARM_EVENT sw] (setArmed req false s.dev) t.dev) ∧
      (¬ stops → Tab.canonical none s.dev.arr.slots → ∃ t, exec (.swarmClkWrite req sw v) s = .next t ∧ t.clk = s.clk
        ∧ rd t.dev (Reg.SWARM_CLK_CTL sw) = w32 (fld v 0 3) ∧ t.dev.mem = s.dev.mem ∧ t.dev.ports = s.dev.ports
        ∧ (∀ i : Nat, i < 1088 → slotSwarm i ≠ sw → brew t.dev i = brew s.dev i) ∧ (∀ i : Nat, brew s.dev i = none → brew t.dev i = none)
        ∧ (∀ (i : Nat) (b : Brew), slotSwarm i = sw → brew s.dev i = some b → ∃ c, brew t.dev i = some c
            ∧ c = { b with cycles := brewCycles s.clk s.dev i b, cycTick := s.clk.ticks })))) ∧
  (∀ (temps : List W16) (s : State), temps.length = 30 → ∃ t, exec (.tempSample temps) s = .next t ∧ t.clk = s.clk ∧
    let deg (i : Nat) : Int := (temps.getD i 0).toInt
    let above (n : Nat) : Prop := ∃ i < 30, 16 * (n : Int) < deg i
    let ctl := rd s.dev Reg.SYS_THERM_CTL
    let delta := [(26, 1), (27, 8), (28, 6), (29, 24)].foldl (fun m (p : Nat × Nat) => max m (deg p.1 - deg p.2).natAbs) 0
    (∀ i < 30, rd t.dev (Reg.SYS_TEMP i) = (temps.getD i 0).setWidth 32) ∧
    (above (fld ctl 0 8) → s.dev.sys.warnAbove = false → rb t.dev Reg.SYS_EVENT 3 = true) ∧
    (¬ above (fld ctl 0 8) ∨ s.dev.sys.warnAbove = true → rb t.dev Reg.SYS_EVENT 3 = rb s.dev Reg.SYS_EVENT 3) ∧
    (above (fld ctl 0 8) ↔ t.dev.sys.warnAbove = true) ∧
    (above (fld ctl 8 8) → bit ctl 31 = true → s.dev.sys.critAbove = false → rb t.dev Reg.SYS_EVENT 4 = true
      ∧ ∀ sw < 8, rd t.dev (Reg.SWARM_CLK_CTL sw) = (if swarmRuns s.dev sw = true then 3 else rd s.dev (Reg.SWARM_CLK_CTL sw))) ∧
    (¬ above (fld ctl 8 8) ∨ bit ctl 31 = false ∨ s.dev.sys.critAbove = true →
      (∀ sw < 8, rd t.dev (Reg.SWARM_CLK_CTL sw) = rd s.dev (Reg.SWARM_CLK_CTL sw)) ∧ rb t.dev Reg.SYS_EVENT 4 = rb s.dev Reg.SYS_EVENT 4) ∧
    (t.dev.ket.derated = if 240 < delta then true else if delta < 192 then false else s.dev.ket.derated) ∧
    (240 < delta → s.dev.ket.derated = false → rb t.dev Reg.KET_EVENT 4 = true) ∧
    (t.dev.sys.tripped = true ↔ s.dev.sys.tripped = true ∨ above 125) ∧
    (¬ above 125 → t.dev.mem = s.dev.mem ∧ t.dev.ports = s.dev.ports) ∧
    (above 125 → s.dev.sys.tripped = false → (∀ p < 10, (port t.dev p).link = false) ∧ t.dev.pair.trained = false ∧ t.dev.pins.ppsOut = false
      ∧ ownOut t.dev = false ∧ selOut t.dev = false ∧ t.dev.sys.i2c = [] ∧ t.dev.sys.spi = none ∧ t.dev.sys.mdio = []
      ∧ ∀ n < 16, (dmx t.dev n).line = none)) ∧
  (∀ (req : Req) (v : W32) (s : State), csrShut s.dev Reg.PMON_CTL = false →
    let wrote (t : State) : Prop := t.clk = s.clk ∧ rb t.dev Reg.PMON_CTL 0 = bit v 0 ∧ rb t.dev Reg.PMON_CTL 3 = bit v 3
      ∧ (rb t.dev Reg.PMON_CTL 1 = (rb s.dev Reg.PMON_CTL 1 || bit v 1)) ∧ (rb t.dev Reg.PMON_CTL 2 = (rb s.dev Reg.PMON_CTL 2 || bit v 2))
      ∧ t.dev.mem = s.dev.mem ∧ t.dev.ports = s.dev.ports ∧ t.dev.ket = s.dev.ket
    (bit v 1 = false → exec (.pmonStartNext req v) s = .next s) ∧ (bit v 2 = false → exec (.pmonFreezeNext req v) s = .next s) ∧
    (bit v 1 = true → ∃ t, exec (.pmonStartNext req v) s = .next t ∧ wrote t) ∧ (bit v 2 = true → ∃ t, exec (.pmonFreezeNext req v) s = .next t ∧ wrote t)) ∧
  (∀ (s : State) (n : W64) (b : Time) (g : Grid), nextBoundary s.clk s.dev = some (n, b) → s.dev.frm.run = some g → b ≤ now s.clk →
    let ctl := rd s.dev Reg.PMON_CTL
    ∃ t, exec .boundaryEmit s = .next t
      ∧ rd t.dev Reg.PMON_CTL = (ctl &&& 0xFFFFFFF8) ||| bitIf 0 ((bit ctl 0 || bit ctl 1) && !bit ctl 2)
      ∧ (bit ctl 3 = true → rd64 t.dev Reg.PMON_SNAP_FRAME_LO = n
          ∧ ∀ i < 32, rd64 t.dev (Reg.PMON_SNAP_LO i) = rd64 (settleCounts s.clk s.dev) (Reg.PMON_CNT_LO i))
      ∧ (bit ctl 3 = false → rd64 t.dev Reg.PMON_SNAP_FRAME_LO = rd64 s.dev Reg.PMON_SNAP_FRAME_LO
          ∧ ∀ i < 32, rd64 t.dev (Reg.PMON_SNAP_LO i) = rd64 s.dev (Reg.PMON_SNAP_LO i))) ∧
  (∀ (req : Req) (hi : W32) (s : State), csrShut s.dev Reg.SYS_MSIX_ACK_HI = false → ∃ t, exec (.msixAck req hi) s = .next t ∧ t.clk = s.clk ∧
    let acked := pair64 ((stagedLo s.dev req Reg.SYS_MSIX_ACK_LO).getD 0) hi
    let shut (v : Nat) : Bool := s.dev.msix.masked || rb s.dev (Reg.MSIX_TABLE (v * 4 + 3)) 0
    let line (v : Nat) : Prop := ∃ n < 64, bit (rd s.dev (Reg.SYS_EVT_ROUTE n)) 31 = true ∧ rf s.dev (Reg.SYS_EVT_ROUTE n) 0 6 = v ∧ lineLevel s.dev n = true
    let count (u : State) (v : Nat) : Nat := Tab.get 0 u.dev.msix.sent v
    (∀ v < 64, bit acked v = false → bit t.dev.msix.inService v = bit s.dev.msix.inService v ∧ bit t.dev.msix.pba v = bit s.dev.msix.pba v
      ∧ count t v = count s v) ∧
    (∀ v < 64, bit acked v = true → ¬ line v → bit t.dev.msix.inService v = false ∧ count t v = count s v) ∧
    (∀ v < 64, bit acked v = true → line v → shut v = false → bit t.dev.msix.inService v = true ∧ bit t.dev.msix.pba v = false ∧ count t v = count s v + 1) ∧
    (∀ v < 64, bit acked v = true → line v → shut v = true → bit t.dev.msix.inService v = false ∧ bit t.dev.msix.pba v = true ∧ count t v = count s v) ∧
    t.dev.regs = s.dev.regs ∧ t.dev.mem = s.dev.mem ∧ stagedLo t.dev req Reg.SYS_MSIX_ACK_LO = none) ∧
  (∀ (m : Bool) (s : State), ∃ t, exec (.msixUnmask m) s = .next t ∧ t.clk = s.clk ∧ t.dev.msix.masked = m ∧ t.dev = { s.dev with msix := t.dev.msix } ∧
    (m = true → t.dev.msix.inService = s.dev.msix.inService ∧ t.dev.msix.pba = s.dev.msix.pba) ∧
    (m = false → ∀ v < 64, let shut := rb s.dev (Reg.MSIX_TABLE (v * 4 + 3)) 0
      (bit t.dev.msix.pba v = (bit s.dev.msix.pba v && shut)) ∧ (bit t.dev.msix.inService v = (bit s.dev.msix.inService v || (bit s.dev.msix.pba v && !shut))))) ∧
  (∀ (req : Req) (v : W32) (s : State), csrShut s.dev Reg.SYS_SW_SET = false → ∃ t, exec (.sysSwSet req v) s = .next t ∧ t.clk = s.clk
    ∧ onlyThese [Reg.SYS_SW_EVENT] s.dev t.dev ∧ rd t.dev Reg.SYS_SW_EVENT = rd s.dev Reg.SYS_SW_EVENT ||| (v &&& 0xFFFF)
    ∧ ∀ j < 16, bit v j = true → rb s.dev Reg.SYS_SW_EVENT j = false → rb s.dev Reg.SYS_SW_EVENT_EN j = true →
        let route := rd s.dev (Reg.SYS_EVT_ROUTE (48 + j))
        bit route 31 = true → s.dev.msix.masked = false → rb s.dev (Reg.MSIX_TABLE (fld route 0 6 * 4 + 3)) 0 = false →
          bit t.dev.msix.inService (fld route 0 6) = true)

/-- R336, R341, R392, R400, R404 and R411 for GPIO_EDGE, I2C_GO, I2C_DONE, I2C_STRETCH_TIMEOUT, I2C_ALERT, SPI_GO, SPI_DONE, UART_TX_WRITE, UART_TX_BYTE, UART_RX_BYTE,
UART_RX_POP, MDIO_GO, MDIO_DONE and TAP_INSTRUCTION, and for the levels of the balls. That EN 0 discards a GO of I2C or MDIO is log entry 78
(DEDUCED), that a device that has tripped sends nothing on these interfaces log entry 81 (DESIGN CHOICE); what the boundary cells capture is a free
value (log entry 95), and which balls rest at which level, and the waveforms of those that run, are log entry 102 (DESIGN CHOICE): the model's. -/
def Obligations.BoardInterfaces : Prop :=
  let i2c (s : State) (c : Nat) : Option I2cRun := Tab.get none s.dev.sys.i2c c
  let mdio (s : State) (n : Nat) : Option W32 := Tab.get none s.dev.sys.mdio n
  (∀ (i : Fin 16) (rising : Bool) (s : State), ∃ t, exec (.gpioEdge i rising) s = .next t ∧ t.clk = s.clk
    ∧ t.dev.sys = { s.dev.sys with gpioIn := setBit s.dev.sys.gpioIn i rising }
    ∧ onlyThese [Reg.GPIO_EVENT, Reg.BOARD_EVENT] { s.dev with sys := t.dev.sys } t.dev
    ∧ (∀ j < 16, j ≠ i.val → rb t.dev Reg.GPIO_EVENT j = rb s.dev Reg.GPIO_EVENT j)
    ∧ (let out := rb s.dev Reg.GPIO_DIR i && !s.dev.sys.tripped
      let hit := !out && bit s.dev.sys.gpioIn i != rising && rb s.dev Reg.GPIO_EDGE (if rising then 16 + i.val else i.val)
      rb t.dev Reg.GPIO_EVENT i = (rb s.dev Reg.GPIO_EVENT i || hit)
        ∧ (bit (gpioLevel t.dev) i = if out = true then rb s.dev Reg.GPIO_OUT i else rising)
        ∧ rb t.dev Reg.BOARD_EVENT 0 = (rb s.dev Reg.BOARD_EVENT 0 || (hit && rb s.dev Reg.GPIO_EVENT_EN i)))) ∧
  (∀ (req : Req) (c : Fin 2) (v : W32) (s : State), csrShut s.dev (Reg.I2C_XFER c) = false →
    let fields := v &&& 0x7F3F3F00
    (bit v 0 = false → exec (.i2cGo req c v) s = .next s) ∧
    (bit v 0 = true → (i2c s c).isSome = true → ∃ t, exec (.i2cGo req c v) s = .next t ∧ t.clk = s.clk ∧ rd t.dev (Reg.I2C_XFER c) = fields ||| 1
      ∧ onlyThese [Reg.I2C_XFER c] s.dev t.dev ∧ t.dev.msix = s.dev.msix) ∧
    (bit v 0 = true → i2c s c = none → rb s.dev (Reg.I2C_CTL c) 31 = false ∨ s.dev.sys.tripped = true → ∃ t, exec (.i2cGo req c v) s = .next t ∧ t.clk = s.clk
      ∧ rd t.dev (Reg.I2C_XFER c) = fields ∧ onlyThese [Reg.I2C_XFER c] s.dev t.dev) ∧
    (bit v 0 = true → i2c s c = none → rb s.dev (Reg.I2C_CTL c) 31 = true → s.dev.sys.tripped = false → ∃ t, exec (.i2cGo req c v) s = .next t ∧ t.clk = s.clk
      ∧ rd t.dev (Reg.I2C_XFER c) = fields ||| 1 ∧ rd t.dev (Reg.I2C_STATUS c) = 1
      ∧ onlyThese [Reg.I2C_XFER c, Reg.I2C_STATUS c] { s.dev with sys := t.dev.sys } t.dev
      ∧ t.dev.sys = { s.dev.sys with i2c := t.dev.sys.i2c } ∧ (∀ e, e ≠ c.val → i2c t e = i2c s e)
      ∧ ∃ x, i2c t c = some x ∧ x.addr = fld v 24 7 ∧ x.rlen = min 32 (fld v 8 6) ∧ x.out.length = min 32 (fld v 16 6)
        ∧ ∀ j < x.out.length, x.out.getD j 0 = (rd s.dev (Reg.I2C_BUF c (j / 4)) >>> (8 * (j % 4))).truncate 8)) ∧
  (∀ (c : Fin 2) (o : I2cEnd) (data : List W8) (s : State), (i2c s c = none → exec (.i2cDone c o data) s = .next s) ∧
    ∀ x, i2c s c = some x → x.rlen ≤ 32 → x.rlen ≤ data.length → ∃ t, exec (.i2cDone c o data) s = .next t ∧ t.clk = s.clk ∧ i2c t c = none
      ∧ rd t.dev (Reg.I2C_STATUS c) = (match o with | .done => 0 | .nack => 4 | .arbLost => 2) ∧ rb t.dev (Reg.I2C_XFER c) 0 = false
      ∧ rb t.dev Reg.BOARD_EVENT (1 + c.val) = true
      ∧ (∀ j < 32, (rd t.dev (Reg.I2C_BUF c (j / 4)) >>> (8 * (j % 4))).truncate 8 =
          if o = .done ∧ j < x.rlen then data.getD j 0 else (rd s.dev (Reg.I2C_BUF c (j / 4)) >>> (8 * (j % 4))).truncate 8)
      ∧ onlyThese ([Reg.I2C_STATUS c, Reg.I2C_XFER c, Reg.BOARD_EVENT] ++ (List.range 8).map fun w => Reg.I2C_BUF c w)
          { s.dev with sys := t.dev.sys } t.dev) ∧
  (∀ (c : Fin 2) (s : State), exec (.i2cStretchTimeout c) s = exec (.i2cDone c .nack []) s ∧ ∃ t, exec (.i2cStretchTimeout c) s = .next t ∧ t.clk = s.clk
    ∧ i2c t c = none ∧ ((i2c s c).isSome = true → rd t.dev (Reg.I2C_STATUS c) = 4)) ∧
  (∀ s : State, ∃ t, exec .i2cAlert s = .next t ∧ t.clk = s.clk ∧ rb t.dev Reg.BOARD_EVENT 7 = true ∧ onlyThese [Reg.BOARD_EVENT] s.dev t.dev) ∧
  (∀ (req : Req) (s : State), csrShut s.dev Reg.SPI_CMD = false →
    let op := rd s.dev Reg.SPI_OP
    let mem := (rd64 s.dev Reg.SPI_MEM_LO).toNat
    let ranges := spiLen op = 0 ∨ inShared s.dev mem (spiLen op) = true
    let idle := rb s.dev Reg.SPI_STATUS 2 = false ∧ s.dev.sys.spi = none ∧ s.dev.sys.tripped = false
    (¬ idle → exec (.spiGo req) s = .next s) ∧
    (idle → ¬ ranges → ∃ t, exec (.spiGo req) s = .next t ∧ t.clk = s.clk ∧ rd t.dev Reg.SPI_STATUS = 2 ∧ t.dev.sys = s.dev.sys
      ∧ onlyThese [Reg.SPI_STATUS, Reg.BOARD_EVENT] s.dev t.dev) ∧
    (idle → ranges → ∃ t, exec (.spiGo req) s = .next t ∧ t.clk = s.clk ∧ rd t.dev Reg.SPI_STATUS = 1 ∧ t.dev.mem = s.dev.mem ∧ rb t.dev Reg.SPI_CMD 0 = true
      ∧ ∃ x, t.dev.sys.spi = some x ∧ x.op = op ∧ x.addr = rd s.dev Reg.SPI_ADDR ∧ x.mem = mem ∧ (bit op 15 = false → x.out = [])
        ∧ (bit op 15 = true → x.out.length = spiLen op ∧ (uncorrectable s.dev mem (spiLen op) = false → x.out = getBytes s.dev mem (spiLen op))))) ∧
  (∀ (data : List W8) (s : State), (s.dev.sys.spi = none → exec (.spiDone data) s = .next s) ∧
    ∀ x, s.dev.sys.spi = some x → ∃ t, exec (.spiDone data) s = .next t ∧ t.clk = s.clk ∧ t.dev.sys.spi = none ∧ rb t.dev Reg.BOARD_EVENT 4 = true
      ∧ rb t.dev Reg.SPI_STATUS 0 = false ∧ rb t.dev Reg.SPI_STATUS 1 = false ∧ (bit x.op 15 = true → sameMemory s.dev t.dev)
      ∧ (bit x.op 15 = false → sameOutside x.mem (spiLen x.op) s.dev t.dev ∧ (spiLen x.op ≤ data.length →
          ∀ j < spiLen x.op, getByte t.dev (x.mem + j) = data.getD j 0))) ∧
  (∀ (req : Req) (v : W32) (s : State), csrShut s.dev Reg.UART_TX = false →
    (64 ≤ s.dev.sys.uartTx.length → exec (.uartTxWrite req v) s = .next s) ∧
    (s.dev.sys.uartTx.length < 64 → exec (.uartTxWrite req v) s = nextDev s { s.dev with sys := { s.dev.sys with uartTx := s.dev.sys.uartTx ++ [v.truncate 8] } })) ∧
  (∀ s : State, (s.dev.sys.tripped = false → exec .uartTxByte s = nextDev s { s.dev with sys := { s.dev.sys with uartTx := s.dev.sys.uartTx.tail } }) ∧
    (s.dev.sys.tripped = true → exec .uartTxByte s = .next s)) ∧
  (∀ (b : W8) (s : State), ∃ t, exec (.uartRxByte b) s = .next t ∧ t.clk = s.clk ∧ rb t.dev Reg.BOARD_EVENT 6 = true ∧
    (s.dev.sys.uartRx.length < 64 → t.dev.sys = { s.dev.sys with uartRx := s.dev.sys.uartRx ++ [b] }
      ∧ onlyThese [Reg.BOARD_EVENT] { s.dev with sys := t.dev.sys } t.dev ∧ rb t.dev Reg.BOARD_EVENT 5 = rb s.dev Reg.BOARD_EVENT 5) ∧
    (64 ≤ s.dev.sys.uartRx.length → t.dev.sys = s.dev.sys ∧ rf t.dev Reg.UART_STAT 24 8 = min 255 (rf s.dev Reg.UART_STAT 24 8 + 1)
      ∧ rb t.dev Reg.BOARD_EVENT 5 = true ∧ onlyThese [Reg.BOARD_EVENT, Reg.UART_STAT] s.dev t.dev)) ∧
  (∀ (req : Req) (s : State), csrShut s.dev Reg.UART_RX = false → ∃ t, exec (.uartRxPop req) s = .next t ∧ t.clk = s.clk ∧ t.dev.regs = s.dev.regs
    ∧ t.dev.mem = s.dev.mem ∧ t.dev.sys = { s.dev.sys with uartRx := s.dev.sys.uartRx.tail }
    ∧ t.dev.bus.data = (match s.dev.sys.uartRx with | [] => 0x80000000 | b :: _ => b.setWidth 32)) ∧
  (∀ (req : Req) (n : Fin 2) (v : W32) (s : State), csrShut s.dev (Reg.MDIO_CMD n) = false →
    (bit v 31 = false → exec (.mdioGo req n v) s = .next s) ∧
    (bit v 31 = true → (mdio s n).isSome = true ∨ rb s.dev (Reg.MDIO_CTL n) 31 = false ∨ s.dev.sys.tripped = true → ∃ t, exec (.mdioGo req n v) s = .next t ∧ t.clk = s.clk
      ∧ onlyThese [Reg.MDIO_CMD n] s.dev t.dev) ∧
    (bit v 31 = true → mdio s n = none → rb s.dev (Reg.MDIO_CTL n) 31 = true → s.dev.sys.tripped = false → ∃ t, exec (.mdioGo req n v) s = .next t ∧ t.clk = s.clk ∧ mdio t n = some v
      ∧ rb t.dev (Reg.MDIO_STATUS n) 31 = true ∧ rf t.dev (Reg.MDIO_STATUS n) 0 16 = rf s.dev (Reg.MDIO_STATUS n) 0 16
      ∧ rd t.dev (Reg.MDIO_CMD n) = v &&& 0xF3FFFFFF ∧ (∀ m, m ≠ n.val → mdio t m = mdio s m)
      ∧ onlyThese [Reg.MDIO_CMD n, Reg.MDIO_STATUS n] { s.dev with sys := t.dev.sys } t.dev)) ∧
  (∀ (n : Fin 2) (data : W16) (s : State), (mdio s n = none → exec (.mdioDone n data) s = .next s) ∧
    ∀ v, mdio s n = some v → ∃ t, exec (.mdioDone n data) s = .next t ∧ t.clk = s.clk ∧ mdio t n = none ∧ rb t.dev Reg.BOARD_EVENT 3 = true
      ∧ rb t.dev (Reg.MDIO_CMD n) 31 = false ∧ rb t.dev (Reg.MDIO_STATUS n) 31 = false
      ∧ (let reads := fld v 28 2 = 2 ∨ (bit v 30 = true ∧ fld v 28 2 = 3)
        (reads → rf t.dev (Reg.MDIO_STATUS n) 0 16 = data.toNat) ∧ (¬ reads → rf t.dev (Reg.MDIO_STATUS n) 0 16 = rf s.dev (Reg.MDIO_STATUS n) 0 16))
      ∧ onlyThese [Reg.MDIO_CMD n, Reg.MDIO_STATUS n, Reg.BOARD_EVENT] { s.dev with sys := t.dev.sys } t.dev) ∧
  (∀ (i : TapInstr) (held : Bool) (scan : Option (List Bool)) (s : State), ∃ t, exec (.tapInstruction (i, scan) held) s = nextDev s t
    ∧ t = { s.dev with sys := t.sys, freeIdx := t.freeIdx }
    ∧ t.sys = { s.dev.sys with tap := i, tapHeld := held, tdo := t.sys.tdo, boundary := t.sys.boundary }
    ∧ (held = false → tapNow t = .idcode)
    ∧ (held = true → s.dev.scarab.lc ≠ .deployed ∨ i = .bypass ∨ i = .idcode ∨ i = .sample → tapNow t = i)
    ∧ (held = true → s.dev.scarab.lc = .deployed → i ≠ .idcode → i ≠ .sample → tapNow t = .bypass)
    ∧ (scan = none → t.sys.tdo = s.dev.sys.tdo ∧ t.sys.boundary = s.dev.sys.boundary)
    ∧ ∀ bits, scan = some bits →
      let cells := (List.range Config.boundaryLength).map fun j => bit (Config.freeValue (s.dev.freeIdx + j)) 0
      (tapNow t ∈ [.bypass, .clamp, .highz] → t.sys.tdo = (false :: bits).take bits.length ∧ t.sys.boundary = s.dev.sys.boundary) ∧
      (tapNow t = .idcode → t.sys.tdo = (((List.range 32).map fun j => bit (0x19710000 ||| Config.idcodeLow.setWidth 32 : W32) j) ++ bits).take bits.length
        ∧ t.sys.boundary = s.dev.sys.boundary) ∧
      (tapNow t ∈ [.sample, .extest, .extestPulse, .extestTrain] → t.sys.tdo = (cells ++ bits).take bits.length
        ∧ t.sys.boundary = (cells ++ bits).drop bits.length)) ∧
  (∀ (b : Ball) (k : Clk) (d : Dev), let cell := d.sys.boundary.getD (Config.boundaryCell b) false
    (tapNow d = .highz → ballLevel b k d = none) ∧ (tapNow d ∈ [.extest, .clamp] → ballLevel b k d = some cell) ∧
    (tapNow d ∈ [.extestPulse, .extestTrain] → acLane b = false → ballLevel b k d = some cell) ∧
    (tapNow d = .extestPulse → acLane b = true → ballLevel b k d = some (cell != Config.acInverse false b k.ticks)) ∧
    (tapNow d = .extestTrain → acLane b = true → ballLevel b k d = some (cell != Config.acInverse true b k.ticks)) ∧
    (acLane b = true ↔ (∃ l, b = .lane l) ∨ (∃ n, b = .sgmii n) ∨ ∃ l, b = .pcieLane l) ∧
    (d.sys.tapHeld = false → wrapping d = true → wrapBall b = true → ballLevel b k d = some cell) ∧
    (tapNow d ∈ [.bypass, .idcode, .sample] ∨ d.scarab.lc = .deployed → d.sys.tapHeld = true ∨ wrapping d = false ∨ wrapBall b = false →
      ballLevel b k d = ballFunction b k d)) ∧
  (∀ (k : Clk) (d : Dev), let level (b : Ball) : Option Bool := ballFunction b k d
    (awake d = (rb d Reg.SYS_STARTUP_STATUS 10 && !d.sys.tripped)) ∧
    (level .thermTripN = if d.sys.tripped = true then some false else none) ∧
    (awake d = false → level .ownN = none ∧ level .pairSelOut = some false ∧ level .ppsOut = some false ∧ level .spiClk = some false
      ∧ level .spiCsN = some true ∧ level .spiResetN = some false ∧ level .uartTxd = some true ∧ level .ltcOut = some false ∧ level .midiOut = some true
      ∧ ∀ n, level (.perOut n) = some false ∧ level (.dmxDe n) = some false ∧ level (.dmxTxd n) = some true ∧ level (.gpio n) = none
        ∧ level (.lportRefclk n) = some false ∧ level (.mdc n) = some false ∧ ∀ i, level (.rgmii n i) = some false) ∧
    (awake d = true → (level .ownN = if ownOut d = true then some false else none) ∧ level .pairSelOut = some (selOut d)
      ∧ level .ppsOut = some d.pins.ppsOut ∧ level .spiCsN = some d.sys.spi.isNone ∧ level .spiResetN = some (rb d Reg.SPI_CTL 1)
      ∧ ∀ n, level (.perOut n) = some (perOutLevel d n) ∧ level (.dmxDe n) = some (dmxDe d n k) ∧ level (.lportRefclk n) = some (Config.lineLevel (.lportRefclk n) k.ticks)
        ∧ (level (.gpio n) = if rb d Reg.GPIO_DIR n = true then some (rb d Reg.GPIO_OUT n) else none)
        ∧ (Tab.get none d.sys.mdio n = none → level (.mdc n) = some false) ∧ (dmxDe d n k = false → level (.dmxTxd n) = some true)
        ∧ ∀ i, rb d (Reg.SPORT_CTL (8 + n)) 7 = false → level (.rgmii n i) = some false))
end

