-- ==== Sys2Proof/Laws/State.lean ====
section
/-!
SUPPORT. What each named update leaves of each part of the state, so that no proof unfolds a record update.
-/

namespace Sys2Proof.Machine

variable (d : Dev)

/-! wr. -/

@[simp] theorem wr_mem (a : Nat) (v : W32) : (wr a v d).mem = d.mem := rfl
@[simp] theorem wr_ecc (a : Nat) (v : W32) : (wr a v d).ecc = d.ecc := rfl
@[simp] theorem wr_dramMiB (a : Nat) (v : W32) : (wr a v d).dramMiB = d.dramMiB := rfl
@[simp] theorem wr_freeIdx (a : Nat) (v : W32) : (wr a v d).freeIdx = d.freeIdx := rfl
@[simp] theorem wr_bus (a : Nat) (v : W32) : (wr a v d).bus = d.bus := rfl
@[simp] theorem wr_msix (a : Nat) (v : W32) : (wr a v d).msix = d.msix := rfl
@[simp] theorem wr_pins (a : Nat) (v : W32) : (wr a v d).pins = d.pins := rfl
@[simp] theorem wr_frm (a : Nat) (v : W32) : (wr a v d).frm = d.frm := rfl
@[simp] theorem wr_arr (a : Nat) (v : W32) : (wr a v d).arr = d.arr := rfl
@[simp] theorem wr_cores (a : Nat) (v : W32) : (wr a v d).cores = d.cores := rfl
@[simp] theorem wr_ket (a : Nat) (v : W32) : (wr a v d).ket = d.ket := rfl
@[simp] theorem wr_ports (a : Nat) (v : W32) : (wr a v d).ports = d.ports := rfl
@[simp] theorem wr_fwRx (a : Nat) (v : W32) : (wr a v d).fwRx = d.fwRx := rfl
@[simp] theorem wr_sacnRx (a : Nat) (v : W32) : (wr a v d).sacnRx = d.sacnRx := rfl
@[simp] theorem wr_stRx (a : Nat) (v : W32) : (wr a v d).stRx = d.stRx := rfl
@[simp] theorem wr_pack (a : Nat) (v : W32) : (wr a v d).pack = d.pack := rfl
@[simp] theorem wr_dmx (a : Nat) (v : W32) : (wr a v d).dmx = d.dmx := rfl
@[simp] theorem wr_slow (a : Nat) (v : W32) : (wr a v d).slow = d.slow := rfl
@[simp] theorem wr_pair (a : Nat) (v : W32) : (wr a v d).pair = d.pair := rfl
@[simp] theorem wr_queues (a : Nat) (v : W32) : (wr a v d).queues = d.queues := rfl
@[simp] theorem wr_dma (a : Nat) (v : W32) : (wr a v d).dma = d.dma := rfl
@[simp] theorem wr_abort (a : Nat) (v : W32) : (wr a v d).abort = d.abort := rfl
@[simp] theorem wr_weevil (a : Nat) (v : W32) : (wr a v d).weevil = d.weevil := rfl
@[simp] theorem wr_calib (a : Nat) (v : W32) : (wr a v d).calib = d.calib := rfl
@[simp] theorem wr_scarab (a : Nat) (v : W32) : (wr a v d).scarab = d.scarab := rfl
@[simp] theorem wr_sys (a : Nat) (v : W32) : (wr a v d).sys = d.sys := rfl
@[simp] theorem wr_regs (a : Nat) (v : W32) : (wr a v d).regs = Tab.put (Reg.resetOf a) d.regs a v := rfl

/-! ret. -/

@[simp] theorem ret_regs (v : W32) : (ret v d).regs = d.regs := rfl
@[simp] theorem ret_mem (v : W32) : (ret v d).mem = d.mem := rfl
@[simp] theorem ret_ecc (v : W32) : (ret v d).ecc = d.ecc := rfl
@[simp] theorem ret_dramMiB (v : W32) : (ret v d).dramMiB = d.dramMiB := rfl
@[simp] theorem ret_freeIdx (v : W32) : (ret v d).freeIdx = d.freeIdx := rfl
@[simp] theorem ret_msix (v : W32) : (ret v d).msix = d.msix := rfl
@[simp] theorem ret_pins (v : W32) : (ret v d).pins = d.pins := rfl
@[simp] theorem ret_frm (v : W32) : (ret v d).frm = d.frm := rfl
@[simp] theorem ret_arr (v : W32) : (ret v d).arr = d.arr := rfl
@[simp] theorem ret_cores (v : W32) : (ret v d).cores = d.cores := rfl
@[simp] theorem ret_ket (v : W32) : (ret v d).ket = d.ket := rfl
@[simp] theorem ret_ports (v : W32) : (ret v d).ports = d.ports := rfl
@[simp] theorem ret_fwRx (v : W32) : (ret v d).fwRx = d.fwRx := rfl
@[simp] theorem ret_sacnRx (v : W32) : (ret v d).sacnRx = d.sacnRx := rfl
@[simp] theorem ret_stRx (v : W32) : (ret v d).stRx = d.stRx := rfl
@[simp] theorem ret_pack (v : W32) : (ret v d).pack = d.pack := rfl
@[simp] theorem ret_dmx (v : W32) : (ret v d).dmx = d.dmx := rfl
@[simp] theorem ret_slow (v : W32) : (ret v d).slow = d.slow := rfl
@[simp] theorem ret_pair (v : W32) : (ret v d).pair = d.pair := rfl
@[simp] theorem ret_queues (v : W32) : (ret v d).queues = d.queues := rfl
@[simp] theorem ret_dma (v : W32) : (ret v d).dma = d.dma := rfl
@[simp] theorem ret_abort (v : W32) : (ret v d).abort = d.abort := rfl
@[simp] theorem ret_weevil (v : W32) : (ret v d).weevil = d.weevil := rfl
@[simp] theorem ret_calib (v : W32) : (ret v d).calib = d.calib := rfl
@[simp] theorem ret_scarab (v : W32) : (ret v d).scarab = d.scarab := rfl
@[simp] theorem ret_sys (v : W32) : (ret v d).sys = d.sys := rfl
@[simp] theorem ret_bus_data (v : W32) : (ret v d).bus.data = v := rfl
@[simp] theorem ret_bus_staged (v : W32) : (ret v d).bus.staged = d.bus.staged := rfl
@[simp] theorem ret_bus_hostArmed (v : W32) : (ret v d).bus.hostArmed = d.bus.hostArmed := rfl
@[simp] theorem ret_bus_fwArmed (v : W32) : (ret v d).bus.fwArmed = d.bus.fwArmed := rfl
@[simp] theorem ret_bus_sealRun (v : W32) : (ret v d).bus.sealRun = d.bus.sealRun := rfl
@[simp] theorem ret_bus_win (v : W32) : (ret v d).bus.win = d.bus.win := rfl
@[simp] theorem ret_bus_poisoned (v : W32) : (ret v d).bus.poisoned = d.bus.poisoned := rfl
@[simp] theorem ret_bus_hostTick (v : W32) : (ret v d).bus.hostTick = d.bus.hostTick := rfl
@[simp] theorem ret_bus_fwTick (v : W32) : (ret v d).bus.fwTick = d.bus.fwTick := rfl
@[simp] theorem ret_bus_lockClear (v : W32) : (ret v d).bus.lockClear = d.bus.lockClear := rfl
@[simp] theorem ret_bus_denyClear (v : W32) : (ret v d).bus.denyClear = d.bus.denyClear := rfl

/-! unstage. -/

@[simp] theorem unstage_regs (req : Req) (a : Nat) : (unstage req a d).regs = d.regs := rfl
@[simp] theorem unstage_mem (req : Req) (a : Nat) : (unstage req a d).mem = d.mem := rfl
@[simp] theorem unstage_ecc (req : Req) (a : Nat) : (unstage req a d).ecc = d.ecc := rfl
@[simp] theorem unstage_dramMiB (req : Req) (a : Nat) : (unstage req a d).dramMiB = d.dramMiB := rfl
@[simp] theorem unstage_freeIdx (req : Req) (a : Nat) : (unstage req a d).freeIdx = d.freeIdx := rfl
@[simp] theorem unstage_msix (req : Req) (a : Nat) : (unstage req a d).msix = d.msix := rfl
@[simp] theorem unstage_pins (req : Req) (a : Nat) : (unstage req a d).pins = d.pins := rfl
@[simp] theorem unstage_frm (req : Req) (a : Nat) : (unstage req a d).frm = d.frm := rfl
@[simp] theorem unstage_arr (req : Req) (a : Nat) : (unstage req a d).arr = d.arr := rfl
@[simp] theorem unstage_cores (req : Req) (a : Nat) : (unstage req a d).cores = d.cores := rfl
@[simp] theorem unstage_ket (req : Req) (a : Nat) : (unstage req a d).ket = d.ket := rfl
@[simp] theorem unstage_ports (req : Req) (a : Nat) : (unstage req a d).ports = d.ports := rfl
@[simp] theorem unstage_fwRx (req : Req) (a : Nat) : (unstage req a d).fwRx = d.fwRx := rfl
@[simp] theorem unstage_sacnRx (req : Req) (a : Nat) : (unstage req a d).sacnRx = d.sacnRx := rfl
@[simp] theorem unstage_stRx (req : Req) (a : Nat) : (unstage req a d).stRx = d.stRx := rfl
@[simp] theorem unstage_pack (req : Req) (a : Nat) : (unstage req a d).pack = d.pack := rfl
@[simp] theorem unstage_dmx (req : Req) (a : Nat) : (unstage req a d).dmx = d.dmx := rfl
@[simp] theorem unstage_slow (req : Req) (a : Nat) : (unstage req a d).slow = d.slow := rfl
@[simp] theorem unstage_pair (req : Req) (a : Nat) : (unstage req a d).pair = d.pair := rfl
@[simp] theorem unstage_queues (req : Req) (a : Nat) : (unstage req a d).queues = d.queues := rfl
@[simp] theorem unstage_dma (req : Req) (a : Nat) : (unstage req a d).dma = d.dma := rfl
@[simp] theorem unstage_abort (req : Req) (a : Nat) : (unstage req a d).abort = d.abort := rfl
@[simp] theorem unstage_weevil (req : Req) (a : Nat) : (unstage req a d).weevil = d.weevil := rfl
@[simp] theorem unstage_calib (req : Req) (a : Nat) : (unstage req a d).calib = d.calib := rfl
@[simp] theorem unstage_scarab (req : Req) (a : Nat) : (unstage req a d).scarab = d.scarab := rfl
@[simp] theorem unstage_sys (req : Req) (a : Nat) : (unstage req a d).sys = d.sys := rfl
@[simp] theorem unstage_bus_win (req : Req) (a : Nat) : (unstage req a d).bus.win = d.bus.win := rfl
@[simp] theorem unstage_bus_poisoned (req : Req) (a : Nat) : (unstage req a d).bus.poisoned = d.bus.poisoned := rfl
@[simp] theorem unstage_bus_hostTick (req : Req) (a : Nat) : (unstage req a d).bus.hostTick = d.bus.hostTick := rfl
@[simp] theorem unstage_bus_fwTick (req : Req) (a : Nat) : (unstage req a d).bus.fwTick = d.bus.fwTick := rfl
@[simp] theorem unstage_bus_lockClear (req : Req) (a : Nat) : (unstage req a d).bus.lockClear = d.bus.lockClear := rfl
@[simp] theorem unstage_bus_denyClear (req : Req) (a : Nat) : (unstage req a d).bus.denyClear = d.bus.denyClear := rfl
@[simp] theorem unstage_bus_data (req : Req) (a : Nat) : (unstage req a d).bus.data = d.bus.data := rfl
@[simp] theorem unstage_bus_hostArmed (req : Req) (a : Nat) : (unstage req a d).bus.hostArmed = d.bus.hostArmed := rfl
@[simp] theorem unstage_bus_fwArmed (req : Req) (a : Nat) : (unstage req a d).bus.fwArmed = d.bus.fwArmed := rfl
@[simp] theorem unstage_bus_sealRun (req : Req) (a : Nat) : (unstage req a d).bus.sealRun = d.bus.sealRun := rfl

/-! stage. -/

@[simp] theorem stage_regs (req : Req) (a : Nat) (v : W32) : (stage req a v d).regs = d.regs := rfl
@[simp] theorem stage_mem (req : Req) (a : Nat) (v : W32) : (stage req a v d).mem = d.mem := rfl
@[simp] theorem stage_ecc (req : Req) (a : Nat) (v : W32) : (stage req a v d).ecc = d.ecc := rfl
@[simp] theorem stage_dramMiB (req : Req) (a : Nat) (v : W32) : (stage req a v d).dramMiB = d.dramMiB := rfl
@[simp] theorem stage_freeIdx (req : Req) (a : Nat) (v : W32) : (stage req a v d).freeIdx = d.freeIdx := rfl
@[simp] theorem stage_msix (req : Req) (a : Nat) (v : W32) : (stage req a v d).msix = d.msix := rfl
@[simp] theorem stage_pins (req : Req) (a : Nat) (v : W32) : (stage req a v d).pins = d.pins := rfl
@[simp] theorem stage_frm (req : Req) (a : Nat) (v : W32) : (stage req a v d).frm = d.frm := rfl
@[simp] theorem stage_arr (req : Req) (a : Nat) (v : W32) : (stage req a v d).arr = d.arr := rfl
@[simp] theorem stage_cores (req : Req) (a : Nat) (v : W32) : (stage req a v d).cores = d.cores := rfl
@[simp] theorem stage_ket (req : Req) (a : Nat) (v : W32) : (stage req a v d).ket = d.ket := rfl
@[simp] theorem stage_ports (req : Req) (a : Nat) (v : W32) : (stage req a v d).ports = d.ports := rfl
@[simp] theorem stage_fwRx (req : Req) (a : Nat) (v : W32) : (stage req a v d).fwRx = d.fwRx := rfl
@[simp] theorem stage_sacnRx (req : Req) (a : Nat) (v : W32) : (stage req a v d).sacnRx = d.sacnRx := rfl
@[simp] theorem stage_stRx (req : Req) (a : Nat) (v : W32) : (stage req a v d).stRx = d.stRx := rfl
@[simp] theorem stage_pack (req : Req) (a : Nat) (v : W32) : (stage req a v d).pack = d.pack := rfl
@[simp] theorem stage_dmx (req : Req) (a : Nat) (v : W32) : (stage req a v d).dmx = d.dmx := rfl
@[simp] theorem stage_slow (req : Req) (a : Nat) (v : W32) : (stage req a v d).slow = d.slow := rfl
@[simp] theorem stage_pair (req : Req) (a : Nat) (v : W32) : (stage req a v d).pair = d.pair := rfl
@[simp] theorem stage_queues (req : Req) (a : Nat) (v : W32) : (stage req a v d).queues = d.queues := rfl
@[simp] theorem stage_dma (req : Req) (a : Nat) (v : W32) : (stage req a v d).dma = d.dma := rfl
@[simp] theorem stage_abort (req : Req) (a : Nat) (v : W32) : (stage req a v d).abort = d.abort := rfl
@[simp] theorem stage_weevil (req : Req) (a : Nat) (v : W32) : (stage req a v d).weevil = d.weevil := rfl
@[simp] theorem stage_calib (req : Req) (a : Nat) (v : W32) : (stage req a v d).calib = d.calib := rfl
@[simp] theorem stage_scarab (req : Req) (a : Nat) (v : W32) : (stage req a v d).scarab = d.scarab := rfl
@[simp] theorem stage_sys (req : Req) (a : Nat) (v : W32) : (stage req a v d).sys = d.sys := rfl
@[simp] theorem stage_bus_win (req : Req) (a : Nat) (v : W32) : (stage req a v d).bus.win = d.bus.win := rfl
@[simp] theorem stage_bus_poisoned (req : Req) (a : Nat) (v : W32) : (stage req a v d).bus.poisoned = d.bus.poisoned := rfl
@[simp] theorem stage_bus_hostTick (req : Req) (a : Nat) (v : W32) : (stage req a v d).bus.hostTick = d.bus.hostTick := rfl
@[simp] theorem stage_bus_fwTick (req : Req) (a : Nat) (v : W32) : (stage req a v d).bus.fwTick = d.bus.fwTick := rfl
@[simp] theorem stage_bus_lockClear (req : Req) (a : Nat) (v : W32) : (stage req a v d).bus.lockClear = d.bus.lockClear := rfl
@[simp] theorem stage_bus_denyClear (req : Req) (a : Nat) (v : W32) : (stage req a v d).bus.denyClear = d.bus.denyClear := rfl
@[simp] theorem stage_bus_data (req : Req) (a : Nat) (v : W32) : (stage req a v d).bus.data = d.bus.data := rfl
@[simp] theorem stage_bus_hostArmed (req : Req) (a : Nat) (v : W32) : (stage req a v d).bus.hostArmed = d.bus.hostArmed := rfl
@[simp] theorem stage_bus_fwArmed (req : Req) (a : Nat) (v : W32) : (stage req a v d).bus.fwArmed = d.bus.fwArmed := rfl
@[simp] theorem stage_bus_sealRun (req : Req) (a : Nat) (v : W32) : (stage req a v d).bus.sealRun = d.bus.sealRun := rfl

/-! setArmed. -/

@[simp] theorem setArmed_regs (req : Req) (b : Bool) : (setArmed req b d).regs = d.regs := rfl
@[simp] theorem setArmed_mem (req : Req) (b : Bool) : (setArmed req b d).mem = d.mem := rfl
@[simp] theorem setArmed_ecc (req : Req) (b : Bool) : (setArmed req b d).ecc = d.ecc := rfl
@[simp] theorem setArmed_dramMiB (req : Req) (b : Bool) : (setArmed req b d).dramMiB = d.dramMiB := rfl
@[simp] theorem setArmed_freeIdx (req : Req) (b : Bool) : (setArmed req b d).freeIdx = d.freeIdx := rfl
@[simp] theorem setArmed_msix (req : Req) (b : Bool) : (setArmed req b d).msix = d.msix := rfl
@[simp] theorem setArmed_pins (req : Req) (b : Bool) : (setArmed req b d).pins = d.pins := rfl
@[simp] theorem setArmed_frm (req : Req) (b : Bool) : (setArmed req b d).frm = d.frm := rfl
@[simp] theorem setArmed_arr (req : Req) (b : Bool) : (setArmed req b d).arr = d.arr := rfl
@[simp] theorem setArmed_cores (req : Req) (b : Bool) : (setArmed req b d).cores = d.cores := rfl
@[simp] theorem setArmed_ket (req : Req) (b : Bool) : (setArmed req b d).ket = d.ket := rfl
@[simp] theorem setArmed_ports (req : Req) (b : Bool) : (setArmed req b d).ports = d.ports := rfl
@[simp] theorem setArmed_fwRx (req : Req) (b : Bool) : (setArmed req b d).fwRx = d.fwRx := rfl
@[simp] theorem setArmed_sacnRx (req : Req) (b : Bool) : (setArmed req b d).sacnRx = d.sacnRx := rfl
@[simp] theorem setArmed_stRx (req : Req) (b : Bool) : (setArmed req b d).stRx = d.stRx := rfl
@[simp] theorem setArmed_pack (req : Req) (b : Bool) : (setArmed req b d).pack = d.pack := rfl
@[simp] theorem setArmed_dmx (req : Req) (b : Bool) : (setArmed req b d).dmx = d.dmx := rfl
@[simp] theorem setArmed_slow (req : Req) (b : Bool) : (setArmed req b d).slow = d.slow := rfl
@[simp] theorem setArmed_pair (req : Req) (b : Bool) : (setArmed req b d).pair = d.pair := rfl
@[simp] theorem setArmed_queues (req : Req) (b : Bool) : (setArmed req b d).queues = d.queues := rfl
@[simp] theorem setArmed_dma (req : Req) (b : Bool) : (setArmed req b d).dma = d.dma := rfl
@[simp] theorem setArmed_abort (req : Req) (b : Bool) : (setArmed req b d).abort = d.abort := rfl
@[simp] theorem setArmed_weevil (req : Req) (b : Bool) : (setArmed req b d).weevil = d.weevil := rfl
@[simp] theorem setArmed_calib (req : Req) (b : Bool) : (setArmed req b d).calib = d.calib := rfl
@[simp] theorem setArmed_scarab (req : Req) (b : Bool) : (setArmed req b d).scarab = d.scarab := rfl
@[simp] theorem setArmed_sys (req : Req) (b : Bool) : (setArmed req b d).sys = d.sys := rfl

/-! setEvtCap. -/

@[simp] theorem setEvtCap_regs (n : Nat) (e : EvtCap) : (setEvtCap n e d).regs = d.regs := rfl
@[simp] theorem setEvtCap_mem (n : Nat) (e : EvtCap) : (setEvtCap n e d).mem = d.mem := rfl
@[simp] theorem setEvtCap_ecc (n : Nat) (e : EvtCap) : (setEvtCap n e d).ecc = d.ecc := rfl
@[simp] theorem setEvtCap_dramMiB (n : Nat) (e : EvtCap) : (setEvtCap n e d).dramMiB = d.dramMiB := rfl
@[simp] theorem setEvtCap_freeIdx (n : Nat) (e : EvtCap) : (setEvtCap n e d).freeIdx = d.freeIdx := rfl
@[simp] theorem setEvtCap_bus (n : Nat) (e : EvtCap) : (setEvtCap n e d).bus = d.bus := rfl
@[simp] theorem setEvtCap_msix (n : Nat) (e : EvtCap) : (setEvtCap n e d).msix = d.msix := rfl
@[simp] theorem setEvtCap_frm (n : Nat) (e : EvtCap) : (setEvtCap n e d).frm = d.frm := rfl
@[simp] theorem setEvtCap_arr (n : Nat) (e : EvtCap) : (setEvtCap n e d).arr = d.arr := rfl
@[simp] theorem setEvtCap_cores (n : Nat) (e : EvtCap) : (setEvtCap n e d).cores = d.cores := rfl
@[simp] theorem setEvtCap_ket (n : Nat) (e : EvtCap) : (setEvtCap n e d).ket = d.ket := rfl
@[simp] theorem setEvtCap_ports (n : Nat) (e : EvtCap) : (setEvtCap n e d).ports = d.ports := rfl
@[simp] theorem setEvtCap_fwRx (n : Nat) (e : EvtCap) : (setEvtCap n e d).fwRx = d.fwRx := rfl
@[simp] theorem setEvtCap_sacnRx (n : Nat) (e : EvtCap) : (setEvtCap n e d).sacnRx = d.sacnRx := rfl
@[simp] theorem setEvtCap_stRx (n : Nat) (e : EvtCap) : (setEvtCap n e d).stRx = d.stRx := rfl
@[simp] theorem setEvtCap_pack (n : Nat) (e : EvtCap) : (setEvtCap n e d).pack = d.pack := rfl
@[simp] theorem setEvtCap_dmx (n : Nat) (e : EvtCap) : (setEvtCap n e d).dmx = d.dmx := rfl
@[simp] theorem setEvtCap_slow (n : Nat) (e : EvtCap) : (setEvtCap n e d).slow = d.slow := rfl
@[simp] theorem setEvtCap_pair (n : Nat) (e : EvtCap) : (setEvtCap n e d).pair = d.pair := rfl
@[simp] theorem setEvtCap_queues (n : Nat) (e : EvtCap) : (setEvtCap n e d).queues = d.queues := rfl
@[simp] theorem setEvtCap_dma (n : Nat) (e : EvtCap) : (setEvtCap n e d).dma = d.dma := rfl
@[simp] theorem setEvtCap_abort (n : Nat) (e : EvtCap) : (setEvtCap n e d).abort = d.abort := rfl
@[simp] theorem setEvtCap_weevil (n : Nat) (e : EvtCap) : (setEvtCap n e d).weevil = d.weevil := rfl
@[simp] theorem setEvtCap_calib (n : Nat) (e : EvtCap) : (setEvtCap n e d).calib = d.calib := rfl
@[simp] theorem setEvtCap_scarab (n : Nat) (e : EvtCap) : (setEvtCap n e d).scarab = d.scarab := rfl
@[simp] theorem setEvtCap_sys (n : Nat) (e : EvtCap) : (setEvtCap n e d).sys = d.sys := rfl
@[simp] theorem setEvtCap_pins_refActive (n : Nat) (e : EvtCap) : (setEvtCap n e d).pins.refActive = d.pins.refActive := rfl
@[simp] theorem setEvtCap_pins_pllLock (n : Nat) (e : EvtCap) : (setEvtCap n e d).pins.pllLock = d.pins.pllLock := rfl
@[simp] theorem setEvtCap_pins_perOut (n : Nat) (e : EvtCap) : (setEvtCap n e d).pins.perOut = d.pins.perOut := rfl
@[simp] theorem setEvtCap_pins_pairSlaved (n : Nat) (e : EvtCap) : (setEvtCap n e d).pins.pairSlaved = d.pins.pairSlaved := rfl

/-! setPerOut. -/

@[simp] theorem setPerOut_regs (n : Nat) (p : PerOut) : (setPerOut n p d).regs = d.regs := rfl
@[simp] theorem setPerOut_mem (n : Nat) (p : PerOut) : (setPerOut n p d).mem = d.mem := rfl
@[simp] theorem setPerOut_ecc (n : Nat) (p : PerOut) : (setPerOut n p d).ecc = d.ecc := rfl
@[simp] theorem setPerOut_dramMiB (n : Nat) (p : PerOut) : (setPerOut n p d).dramMiB = d.dramMiB := rfl
@[simp] theorem setPerOut_freeIdx (n : Nat) (p : PerOut) : (setPerOut n p d).freeIdx = d.freeIdx := rfl
@[simp] theorem setPerOut_bus (n : Nat) (p : PerOut) : (setPerOut n p d).bus = d.bus := rfl
@[simp] theorem setPerOut_msix (n : Nat) (p : PerOut) : (setPerOut n p d).msix = d.msix := rfl
@[simp] theorem setPerOut_frm (n : Nat) (p : PerOut) : (setPerOut n p d).frm = d.frm := rfl
@[simp] theorem setPerOut_arr (n : Nat) (p : PerOut) : (setPerOut n p d).arr = d.arr := rfl
@[simp] theorem setPerOut_cores (n : Nat) (p : PerOut) : (setPerOut n p d).cores = d.cores := rfl
@[simp] theorem setPerOut_ket (n : Nat) (p : PerOut) : (setPerOut n p d).ket = d.ket := rfl
@[simp] theorem setPerOut_ports (n : Nat) (p : PerOut) : (setPerOut n p d).ports = d.ports := rfl
@[simp] theorem setPerOut_fwRx (n : Nat) (p : PerOut) : (setPerOut n p d).fwRx = d.fwRx := rfl
@[simp] theorem setPerOut_sacnRx (n : Nat) (p : PerOut) : (setPerOut n p d).sacnRx = d.sacnRx := rfl
@[simp] theorem setPerOut_stRx (n : Nat) (p : PerOut) : (setPerOut n p d).stRx = d.stRx := rfl
@[simp] theorem setPerOut_pack (n : Nat) (p : PerOut) : (setPerOut n p d).pack = d.pack := rfl
@[simp] theorem setPerOut_dmx (n : Nat) (p : PerOut) : (setPerOut n p d).dmx = d.dmx := rfl
@[simp] theorem setPerOut_slow (n : Nat) (p : PerOut) : (setPerOut n p d).slow = d.slow := rfl
@[simp] theorem setPerOut_pair (n : Nat) (p : PerOut) : (setPerOut n p d).pair = d.pair := rfl
@[simp] theorem setPerOut_queues (n : Nat) (p : PerOut) : (setPerOut n p d).queues = d.queues := rfl
@[simp] theorem setPerOut_dma (n : Nat) (p : PerOut) : (setPerOut n p d).dma = d.dma := rfl
@[simp] theorem setPerOut_abort (n : Nat) (p : PerOut) : (setPerOut n p d).abort = d.abort := rfl
@[simp] theorem setPerOut_weevil (n : Nat) (p : PerOut) : (setPerOut n p d).weevil = d.weevil := rfl
@[simp] theorem setPerOut_calib (n : Nat) (p : PerOut) : (setPerOut n p d).calib = d.calib := rfl
@[simp] theorem setPerOut_scarab (n : Nat) (p : PerOut) : (setPerOut n p d).scarab = d.scarab := rfl
@[simp] theorem setPerOut_sys (n : Nat) (p : PerOut) : (setPerOut n p d).sys = d.sys := rfl
@[simp] theorem setPerOut_pins_refActive (n : Nat) (p : PerOut) : (setPerOut n p d).pins.refActive = d.pins.refActive := rfl
@[simp] theorem setPerOut_pins_pllLock (n : Nat) (p : PerOut) : (setPerOut n p d).pins.pllLock = d.pins.pllLock := rfl
@[simp] theorem setPerOut_pins_evtCap (n : Nat) (p : PerOut) : (setPerOut n p d).pins.evtCap = d.pins.evtCap := rfl
@[simp] theorem setPerOut_pins_pairSlaved (n : Nat) (p : PerOut) : (setPerOut n p d).pins.pairSlaved = d.pins.pairSlaved := rfl

/-! onFrm. -/

@[simp] theorem onFrm_regs (f : Frm → Frm) : (onFrm f d).regs = d.regs := rfl
@[simp] theorem onFrm_mem (f : Frm → Frm) : (onFrm f d).mem = d.mem := rfl
@[simp] theorem onFrm_ecc (f : Frm → Frm) : (onFrm f d).ecc = d.ecc := rfl
@[simp] theorem onFrm_dramMiB (f : Frm → Frm) : (onFrm f d).dramMiB = d.dramMiB := rfl
@[simp] theorem onFrm_freeIdx (f : Frm → Frm) : (onFrm f d).freeIdx = d.freeIdx := rfl
@[simp] theorem onFrm_bus (f : Frm → Frm) : (onFrm f d).bus = d.bus := rfl
@[simp] theorem onFrm_msix (f : Frm → Frm) : (onFrm f d).msix = d.msix := rfl
@[simp] theorem onFrm_pins (f : Frm → Frm) : (onFrm f d).pins = d.pins := rfl
@[simp] theorem onFrm_arr (f : Frm → Frm) : (onFrm f d).arr = d.arr := rfl
@[simp] theorem onFrm_cores (f : Frm → Frm) : (onFrm f d).cores = d.cores := rfl
@[simp] theorem onFrm_ket (f : Frm → Frm) : (onFrm f d).ket = d.ket := rfl
@[simp] theorem onFrm_ports (f : Frm → Frm) : (onFrm f d).ports = d.ports := rfl
@[simp] theorem onFrm_fwRx (f : Frm → Frm) : (onFrm f d).fwRx = d.fwRx := rfl
@[simp] theorem onFrm_sacnRx (f : Frm → Frm) : (onFrm f d).sacnRx = d.sacnRx := rfl
@[simp] theorem onFrm_stRx (f : Frm → Frm) : (onFrm f d).stRx = d.stRx := rfl
@[simp] theorem onFrm_pack (f : Frm → Frm) : (onFrm f d).pack = d.pack := rfl
@[simp] theorem onFrm_dmx (f : Frm → Frm) : (onFrm f d).dmx = d.dmx := rfl
@[simp] theorem onFrm_slow (f : Frm → Frm) : (onFrm f d).slow = d.slow := rfl
@[simp] theorem onFrm_pair (f : Frm → Frm) : (onFrm f d).pair = d.pair := rfl
@[simp] theorem onFrm_queues (f : Frm → Frm) : (onFrm f d).queues = d.queues := rfl
@[simp] theorem onFrm_dma (f : Frm → Frm) : (onFrm f d).dma = d.dma := rfl
@[simp] theorem onFrm_abort (f : Frm → Frm) : (onFrm f d).abort = d.abort := rfl
@[simp] theorem onFrm_weevil (f : Frm → Frm) : (onFrm f d).weevil = d.weevil := rfl
@[simp] theorem onFrm_calib (f : Frm → Frm) : (onFrm f d).calib = d.calib := rfl
@[simp] theorem onFrm_scarab (f : Frm → Frm) : (onFrm f d).scarab = d.scarab := rfl
@[simp] theorem onFrm_sys (f : Frm → Frm) : (onFrm f d).sys = d.sys := rfl
@[simp] theorem onFrm_frm (f : Frm → Frm) : (onFrm f d).frm = f d.frm := rfl

/-! onArr. -/

@[simp] theorem onArr_regs (f : ArrayState → ArrayState) : (onArr f d).regs = d.regs := rfl
@[simp] theorem onArr_mem (f : ArrayState → ArrayState) : (onArr f d).mem = d.mem := rfl
@[simp] theorem onArr_ecc (f : ArrayState → ArrayState) : (onArr f d).ecc = d.ecc := rfl
@[simp] theorem onArr_dramMiB (f : ArrayState → ArrayState) : (onArr f d).dramMiB = d.dramMiB := rfl
@[simp] theorem onArr_freeIdx (f : ArrayState → ArrayState) : (onArr f d).freeIdx = d.freeIdx := rfl
@[simp] theorem onArr_bus (f : ArrayState → ArrayState) : (onArr f d).bus = d.bus := rfl
@[simp] theorem onArr_msix (f : ArrayState → ArrayState) : (onArr f d).msix = d.msix := rfl
@[simp] theorem onArr_pins (f : ArrayState → ArrayState) : (onArr f d).pins = d.pins := rfl
@[simp] theorem onArr_frm (f : ArrayState → ArrayState) : (onArr f d).frm = d.frm := rfl
@[simp] theorem onArr_cores (f : ArrayState → ArrayState) : (onArr f d).cores = d.cores := rfl
@[simp] theorem onArr_ket (f : ArrayState → ArrayState) : (onArr f d).ket = d.ket := rfl
@[simp] theorem onArr_ports (f : ArrayState → ArrayState) : (onArr f d).ports = d.ports := rfl
@[simp] theorem onArr_fwRx (f : ArrayState → ArrayState) : (onArr f d).fwRx = d.fwRx := rfl
@[simp] theorem onArr_sacnRx (f : ArrayState → ArrayState) : (onArr f d).sacnRx = d.sacnRx := rfl
@[simp] theorem onArr_stRx (f : ArrayState → ArrayState) : (onArr f d).stRx = d.stRx := rfl
@[simp] theorem onArr_pack (f : ArrayState → ArrayState) : (onArr f d).pack = d.pack := rfl
@[simp] theorem onArr_dmx (f : ArrayState → ArrayState) : (onArr f d).dmx = d.dmx := rfl
@[simp] theorem onArr_slow (f : ArrayState → ArrayState) : (onArr f d).slow = d.slow := rfl
@[simp] theorem onArr_pair (f : ArrayState → ArrayState) : (onArr f d).pair = d.pair := rfl
@[simp] theorem onArr_queues (f : ArrayState → ArrayState) : (onArr f d).queues = d.queues := rfl
@[simp] theorem onArr_dma (f : ArrayState → ArrayState) : (onArr f d).dma = d.dma := rfl
@[simp] theorem onArr_abort (f : ArrayState → ArrayState) : (onArr f d).abort = d.abort := rfl
@[simp] theorem onArr_weevil (f : ArrayState → ArrayState) : (onArr f d).weevil = d.weevil := rfl
@[simp] theorem onArr_calib (f : ArrayState → ArrayState) : (onArr f d).calib = d.calib := rfl
@[simp] theorem onArr_scarab (f : ArrayState → ArrayState) : (onArr f d).scarab = d.scarab := rfl
@[simp] theorem onArr_sys (f : ArrayState → ArrayState) : (onArr f d).sys = d.sys := rfl
@[simp] theorem onArr_arr (f : ArrayState → ArrayState) : (onArr f d).arr = f d.arr := rfl

/-! setBrew. -/

@[simp] theorem setBrew_regs (i : Nat) (b : Option Brew) : (setBrew i b d).regs = d.regs := rfl
@[simp] theorem setBrew_mem (i : Nat) (b : Option Brew) : (setBrew i b d).mem = d.mem := rfl
@[simp] theorem setBrew_ecc (i : Nat) (b : Option Brew) : (setBrew i b d).ecc = d.ecc := rfl
@[simp] theorem setBrew_dramMiB (i : Nat) (b : Option Brew) : (setBrew i b d).dramMiB = d.dramMiB := rfl
@[simp] theorem setBrew_freeIdx (i : Nat) (b : Option Brew) : (setBrew i b d).freeIdx = d.freeIdx := rfl
@[simp] theorem setBrew_bus (i : Nat) (b : Option Brew) : (setBrew i b d).bus = d.bus := rfl
@[simp] theorem setBrew_msix (i : Nat) (b : Option Brew) : (setBrew i b d).msix = d.msix := rfl
@[simp] theorem setBrew_pins (i : Nat) (b : Option Brew) : (setBrew i b d).pins = d.pins := rfl
@[simp] theorem setBrew_frm (i : Nat) (b : Option Brew) : (setBrew i b d).frm = d.frm := rfl
@[simp] theorem setBrew_cores (i : Nat) (b : Option Brew) : (setBrew i b d).cores = d.cores := rfl
@[simp] theorem setBrew_ket (i : Nat) (b : Option Brew) : (setBrew i b d).ket = d.ket := rfl
@[simp] theorem setBrew_ports (i : Nat) (b : Option Brew) : (setBrew i b d).ports = d.ports := rfl
@[simp] theorem setBrew_fwRx (i : Nat) (b : Option Brew) : (setBrew i b d).fwRx = d.fwRx := rfl
@[simp] theorem setBrew_sacnRx (i : Nat) (b : Option Brew) : (setBrew i b d).sacnRx = d.sacnRx := rfl
@[simp] theorem setBrew_stRx (i : Nat) (b : Option Brew) : (setBrew i b d).stRx = d.stRx := rfl
@[simp] theorem setBrew_pack (i : Nat) (b : Option Brew) : (setBrew i b d).pack = d.pack := rfl
@[simp] theorem setBrew_dmx (i : Nat) (b : Option Brew) : (setBrew i b d).dmx = d.dmx := rfl
@[simp] theorem setBrew_slow (i : Nat) (b : Option Brew) : (setBrew i b d).slow = d.slow := rfl
@[simp] theorem setBrew_pair (i : Nat) (b : Option Brew) : (setBrew i b d).pair = d.pair := rfl
@[simp] theorem setBrew_queues (i : Nat) (b : Option Brew) : (setBrew i b d).queues = d.queues := rfl
@[simp] theorem setBrew_dma (i : Nat) (b : Option Brew) : (setBrew i b d).dma = d.dma := rfl
@[simp] theorem setBrew_abort (i : Nat) (b : Option Brew) : (setBrew i b d).abort = d.abort := rfl
@[simp] theorem setBrew_weevil (i : Nat) (b : Option Brew) : (setBrew i b d).weevil = d.weevil := rfl
@[simp] theorem setBrew_calib (i : Nat) (b : Option Brew) : (setBrew i b d).calib = d.calib := rfl
@[simp] theorem setBrew_scarab (i : Nat) (b : Option Brew) : (setBrew i b d).scarab = d.scarab := rfl
@[simp] theorem setBrew_sys (i : Nat) (b : Option Brew) : (setBrew i b d).sys = d.sys := rfl
@[simp] theorem setBrew_arr_tmpl (i : Nat) (b : Option Brew) : (setBrew i b d).arr.tmpl = d.arr.tmpl := rfl
@[simp] theorem setBrew_arr_steep (i : Nat) (b : Option Brew) : (setBrew i b d).arr.steep = d.arr.steep := rfl
@[simp] theorem setBrew_arr_sends (i : Nat) (b : Option Brew) : (setBrew i b d).arr.sends = d.arr.sends := rfl
@[simp] theorem setBrew_arr_frameLeaves (i : Nat) (b : Option Brew) : (setBrew i b d).arr.frameLeaves = d.arr.frameLeaves := rfl
@[simp] theorem setBrew_arr_inputs (i : Nat) (b : Option Brew) : (setBrew i b d).arr.inputs = d.arr.inputs := rfl
@[simp] theorem setBrew_arr_latched (i : Nat) (b : Option Brew) : (setBrew i b d).arr.latched = d.arr.latched := rfl
@[simp] theorem setBrew_arr_immediate (i : Nat) (b : Option Brew) : (setBrew i b d).arr.immediate = d.arr.immediate := rfl
@[simp] theorem setBrew_arr_flows (i : Nat) (b : Option Brew) : (setBrew i b d).arr.flows = d.arr.flows := rfl
@[simp] theorem setBrew_arr_tombs (i : Nat) (b : Option Brew) : (setBrew i b d).arr.tombs = d.arr.tombs := rfl
@[simp] theorem setBrew_arr_loose (i : Nat) (b : Option Brew) : (setBrew i b d).arr.loose = d.arr.loose := rfl
@[simp] theorem setBrew_arr_tickOld (i : Nat) (b : Option Brew) : (setBrew i b d).arr.tickOld = d.arr.tickOld := rfl
@[simp] theorem setBrew_arr_delays (i : Nat) (b : Option Brew) : (setBrew i b d).arr.delays = d.arr.delays := rfl
@[simp] theorem setBrew_arr_infuser (i : Nat) (b : Option Brew) : (setBrew i b d).arr.infuser = d.arr.infuser := rfl
@[simp] theorem setBrew_arr_infuserStalled (i : Nat) (b : Option Brew) : (setBrew i b d).arr.infuserStalled = d.arr.infuserStalled := rfl
@[simp] theorem setBrew_arr_icache (i : Nat) (b : Option Brew) : (setBrew i b d).arr.icache = d.arr.icache := rfl
@[simp] theorem setBrew_arr_meters (i : Nat) (b : Option Brew) : (setBrew i b d).arr.meters = d.arr.meters := rfl

/-! setSteep. -/

@[simp] theorem setSteep_regs (i : Nat) (x : Steep) : (setSteep i x d).regs = d.regs := rfl
@[simp] theorem setSteep_mem (i : Nat) (x : Steep) : (setSteep i x d).mem = d.mem := rfl
@[simp] theorem setSteep_ecc (i : Nat) (x : Steep) : (setSteep i x d).ecc = d.ecc := rfl
@[simp] theorem setSteep_dramMiB (i : Nat) (x : Steep) : (setSteep i x d).dramMiB = d.dramMiB := rfl
@[simp] theorem setSteep_freeIdx (i : Nat) (x : Steep) : (setSteep i x d).freeIdx = d.freeIdx := rfl
@[simp] theorem setSteep_bus (i : Nat) (x : Steep) : (setSteep i x d).bus = d.bus := rfl
@[simp] theorem setSteep_msix (i : Nat) (x : Steep) : (setSteep i x d).msix = d.msix := rfl
@[simp] theorem setSteep_pins (i : Nat) (x : Steep) : (setSteep i x d).pins = d.pins := rfl
@[simp] theorem setSteep_frm (i : Nat) (x : Steep) : (setSteep i x d).frm = d.frm := rfl
@[simp] theorem setSteep_cores (i : Nat) (x : Steep) : (setSteep i x d).cores = d.cores := rfl
@[simp] theorem setSteep_ket (i : Nat) (x : Steep) : (setSteep i x d).ket = d.ket := rfl
@[simp] theorem setSteep_ports (i : Nat) (x : Steep) : (setSteep i x d).ports = d.ports := rfl
@[simp] theorem setSteep_fwRx (i : Nat) (x : Steep) : (setSteep i x d).fwRx = d.fwRx := rfl
@[simp] theorem setSteep_sacnRx (i : Nat) (x : Steep) : (setSteep i x d).sacnRx = d.sacnRx := rfl
@[simp] theorem setSteep_stRx (i : Nat) (x : Steep) : (setSteep i x d).stRx = d.stRx := rfl
@[simp] theorem setSteep_pack (i : Nat) (x : Steep) : (setSteep i x d).pack = d.pack := rfl
@[simp] theorem setSteep_dmx (i : Nat) (x : Steep) : (setSteep i x d).dmx = d.dmx := rfl
@[simp] theorem setSteep_slow (i : Nat) (x : Steep) : (setSteep i x d).slow = d.slow := rfl
@[simp] theorem setSteep_pair (i : Nat) (x : Steep) : (setSteep i x d).pair = d.pair := rfl
@[simp] theorem setSteep_queues (i : Nat) (x : Steep) : (setSteep i x d).queues = d.queues := rfl
@[simp] theorem setSteep_dma (i : Nat) (x : Steep) : (setSteep i x d).dma = d.dma := rfl
@[simp] theorem setSteep_abort (i : Nat) (x : Steep) : (setSteep i x d).abort = d.abort := rfl
@[simp] theorem setSteep_weevil (i : Nat) (x : Steep) : (setSteep i x d).weevil = d.weevil := rfl
@[simp] theorem setSteep_calib (i : Nat) (x : Steep) : (setSteep i x d).calib = d.calib := rfl
@[simp] theorem setSteep_scarab (i : Nat) (x : Steep) : (setSteep i x d).scarab = d.scarab := rfl
@[simp] theorem setSteep_sys (i : Nat) (x : Steep) : (setSteep i x d).sys = d.sys := rfl
@[simp] theorem setSteep_arr_tmpl (i : Nat) (x : Steep) : (setSteep i x d).arr.tmpl = d.arr.tmpl := rfl
@[simp] theorem setSteep_arr_slots (i : Nat) (x : Steep) : (setSteep i x d).arr.slots = d.arr.slots := rfl
@[simp] theorem setSteep_arr_sends (i : Nat) (x : Steep) : (setSteep i x d).arr.sends = d.arr.sends := rfl
@[simp] theorem setSteep_arr_frameLeaves (i : Nat) (x : Steep) : (setSteep i x d).arr.frameLeaves = d.arr.frameLeaves := rfl
@[simp] theorem setSteep_arr_inputs (i : Nat) (x : Steep) : (setSteep i x d).arr.inputs = d.arr.inputs := rfl
@[simp] theorem setSteep_arr_latched (i : Nat) (x : Steep) : (setSteep i x d).arr.latched = d.arr.latched := rfl
@[simp] theorem setSteep_arr_immediate (i : Nat) (x : Steep) : (setSteep i x d).arr.immediate = d.arr.immediate := rfl
@[simp] theorem setSteep_arr_flows (i : Nat) (x : Steep) : (setSteep i x d).arr.flows = d.arr.flows := rfl
@[simp] theorem setSteep_arr_tombs (i : Nat) (x : Steep) : (setSteep i x d).arr.tombs = d.arr.tombs := rfl
@[simp] theorem setSteep_arr_loose (i : Nat) (x : Steep) : (setSteep i x d).arr.loose = d.arr.loose := rfl
@[simp] theorem setSteep_arr_tickOld (i : Nat) (x : Steep) : (setSteep i x d).arr.tickOld = d.arr.tickOld := rfl
@[simp] theorem setSteep_arr_delays (i : Nat) (x : Steep) : (setSteep i x d).arr.delays = d.arr.delays := rfl
@[simp] theorem setSteep_arr_infuser (i : Nat) (x : Steep) : (setSteep i x d).arr.infuser = d.arr.infuser := rfl
@[simp] theorem setSteep_arr_infuserStalled (i : Nat) (x : Steep) : (setSteep i x d).arr.infuserStalled = d.arr.infuserStalled := rfl
@[simp] theorem setSteep_arr_icache (i : Nat) (x : Steep) : (setSteep i x d).arr.icache = d.arr.icache := rfl
@[simp] theorem setSteep_arr_meters (i : Nat) (x : Steep) : (setSteep i x d).arr.meters = d.arr.meters := rfl

/-! setDelayList. -/

@[simp] theorem setDelayList_regs (n : Nat) (l : List DelayEntry) : (setDelayList n l d).regs = d.regs := rfl
@[simp] theorem setDelayList_mem (n : Nat) (l : List DelayEntry) : (setDelayList n l d).mem = d.mem := rfl
@[simp] theorem setDelayList_ecc (n : Nat) (l : List DelayEntry) : (setDelayList n l d).ecc = d.ecc := rfl
@[simp] theorem setDelayList_dramMiB (n : Nat) (l : List DelayEntry) : (setDelayList n l d).dramMiB = d.dramMiB := rfl
@[simp] theorem setDelayList_freeIdx (n : Nat) (l : List DelayEntry) : (setDelayList n l d).freeIdx = d.freeIdx := rfl
@[simp] theorem setDelayList_bus (n : Nat) (l : List DelayEntry) : (setDelayList n l d).bus = d.bus := rfl
@[simp] theorem setDelayList_msix (n : Nat) (l : List DelayEntry) : (setDelayList n l d).msix = d.msix := rfl
@[simp] theorem setDelayList_pins (n : Nat) (l : List DelayEntry) : (setDelayList n l d).pins = d.pins := rfl
@[simp] theorem setDelayList_frm (n : Nat) (l : List DelayEntry) : (setDelayList n l d).frm = d.frm := rfl
@[simp] theorem setDelayList_cores (n : Nat) (l : List DelayEntry) : (setDelayList n l d).cores = d.cores := rfl
@[simp] theorem setDelayList_ket (n : Nat) (l : List DelayEntry) : (setDelayList n l d).ket = d.ket := rfl
@[simp] theorem setDelayList_ports (n : Nat) (l : List DelayEntry) : (setDelayList n l d).ports = d.ports := rfl
@[simp] theorem setDelayList_fwRx (n : Nat) (l : List DelayEntry) : (setDelayList n l d).fwRx = d.fwRx := rfl
@[simp] theorem setDelayList_sacnRx (n : Nat) (l : List DelayEntry) : (setDelayList n l d).sacnRx = d.sacnRx := rfl
@[simp] theorem setDelayList_stRx (n : Nat) (l : List DelayEntry) : (setDelayList n l d).stRx = d.stRx := rfl
@[simp] theorem setDelayList_pack (n : Nat) (l : List DelayEntry) : (setDelayList n l d).pack = d.pack := rfl
@[simp] theorem setDelayList_dmx (n : Nat) (l : List DelayEntry) : (setDelayList n l d).dmx = d.dmx := rfl
@[simp] theorem setDelayList_slow (n : Nat) (l : List DelayEntry) : (setDelayList n l d).slow = d.slow := rfl
@[simp] theorem setDelayList_pair (n : Nat) (l : List DelayEntry) : (setDelayList n l d).pair = d.pair := rfl
@[simp] theorem setDelayList_queues (n : Nat) (l : List DelayEntry) : (setDelayList n l d).queues = d.queues := rfl
@[simp] theorem setDelayList_dma (n : Nat) (l : List DelayEntry) : (setDelayList n l d).dma = d.dma := rfl
@[simp] theorem setDelayList_abort (n : Nat) (l : List DelayEntry) : (setDelayList n l d).abort = d.abort := rfl
@[simp] theorem setDelayList_weevil (n : Nat) (l : List DelayEntry) : (setDelayList n l d).weevil = d.weevil := rfl
@[simp] theorem setDelayList_calib (n : Nat) (l : List DelayEntry) : (setDelayList n l d).calib = d.calib := rfl
@[simp] theorem setDelayList_scarab (n : Nat) (l : List DelayEntry) : (setDelayList n l d).scarab = d.scarab := rfl
@[simp] theorem setDelayList_sys (n : Nat) (l : List DelayEntry) : (setDelayList n l d).sys = d.sys := rfl
@[simp] theorem setDelayList_arr_tmpl (n : Nat) (l : List DelayEntry) : (setDelayList n l d).arr.tmpl = d.arr.tmpl := rfl
@[simp] theorem setDelayList_arr_slots (n : Nat) (l : List DelayEntry) : (setDelayList n l d).arr.slots = d.arr.slots := rfl
@[simp] theorem setDelayList_arr_steep (n : Nat) (l : List DelayEntry) : (setDelayList n l d).arr.steep = d.arr.steep := rfl
@[simp] theorem setDelayList_arr_sends (n : Nat) (l : List DelayEntry) : (setDelayList n l d).arr.sends = d.arr.sends := rfl
@[simp] theorem setDelayList_arr_frameLeaves (n : Nat) (l : List DelayEntry) : (setDelayList n l d).arr.frameLeaves = d.arr.frameLeaves := rfl
@[simp] theorem setDelayList_arr_inputs (n : Nat) (l : List DelayEntry) : (setDelayList n l d).arr.inputs = d.arr.inputs := rfl
@[simp] theorem setDelayList_arr_latched (n : Nat) (l : List DelayEntry) : (setDelayList n l d).arr.latched = d.arr.latched := rfl
@[simp] theorem setDelayList_arr_immediate (n : Nat) (l : List DelayEntry) : (setDelayList n l d).arr.immediate = d.arr.immediate := rfl
@[simp] theorem setDelayList_arr_flows (n : Nat) (l : List DelayEntry) : (setDelayList n l d).arr.flows = d.arr.flows := rfl
@[simp] theorem setDelayList_arr_tombs (n : Nat) (l : List DelayEntry) : (setDelayList n l d).arr.tombs = d.arr.tombs := rfl
@[simp] theorem setDelayList_arr_loose (n : Nat) (l : List DelayEntry) : (setDelayList n l d).arr.loose = d.arr.loose := rfl
@[simp] theorem setDelayList_arr_tickOld (n : Nat) (l : List DelayEntry) : (setDelayList n l d).arr.tickOld = d.arr.tickOld := rfl
@[simp] theorem setDelayList_arr_infuser (n : Nat) (l : List DelayEntry) : (setDelayList n l d).arr.infuser = d.arr.infuser := rfl
@[simp] theorem setDelayList_arr_infuserStalled (n : Nat) (l : List DelayEntry) : (setDelayList n l d).arr.infuserStalled = d.arr.infuserStalled := rfl
@[simp] theorem setDelayList_arr_icache (n : Nat) (l : List DelayEntry) : (setDelayList n l d).arr.icache = d.arr.icache := rfl
@[simp] theorem setDelayList_arr_meters (n : Nat) (l : List DelayEntry) : (setDelayList n l d).arr.meters = d.arr.meters := rfl

/-! setFlow. -/

@[simp] theorem setFlow_regs (n : Nat) (x : Flow) : (setFlow n x d).regs = d.regs := rfl
@[simp] theorem setFlow_mem (n : Nat) (x : Flow) : (setFlow n x d).mem = d.mem := rfl
@[simp] theorem setFlow_ecc (n : Nat) (x : Flow) : (setFlow n x d).ecc = d.ecc := rfl
@[simp] theorem setFlow_dramMiB (n : Nat) (x : Flow) : (setFlow n x d).dramMiB = d.dramMiB := rfl
@[simp] theorem setFlow_freeIdx (n : Nat) (x : Flow) : (setFlow n x d).freeIdx = d.freeIdx := rfl
@[simp] theorem setFlow_bus (n : Nat) (x : Flow) : (setFlow n x d).bus = d.bus := rfl
@[simp] theorem setFlow_msix (n : Nat) (x : Flow) : (setFlow n x d).msix = d.msix := rfl
@[simp] theorem setFlow_pins (n : Nat) (x : Flow) : (setFlow n x d).pins = d.pins := rfl
@[simp] theorem setFlow_frm (n : Nat) (x : Flow) : (setFlow n x d).frm = d.frm := rfl
@[simp] theorem setFlow_cores (n : Nat) (x : Flow) : (setFlow n x d).cores = d.cores := rfl
@[simp] theorem setFlow_ket (n : Nat) (x : Flow) : (setFlow n x d).ket = d.ket := rfl
@[simp] theorem setFlow_ports (n : Nat) (x : Flow) : (setFlow n x d).ports = d.ports := rfl
@[simp] theorem setFlow_fwRx (n : Nat) (x : Flow) : (setFlow n x d).fwRx = d.fwRx := rfl
@[simp] theorem setFlow_sacnRx (n : Nat) (x : Flow) : (setFlow n x d).sacnRx = d.sacnRx := rfl
@[simp] theorem setFlow_stRx (n : Nat) (x : Flow) : (setFlow n x d).stRx = d.stRx := rfl
@[simp] theorem setFlow_pack (n : Nat) (x : Flow) : (setFlow n x d).pack = d.pack := rfl
@[simp] theorem setFlow_dmx (n : Nat) (x : Flow) : (setFlow n x d).dmx = d.dmx := rfl
@[simp] theorem setFlow_slow (n : Nat) (x : Flow) : (setFlow n x d).slow = d.slow := rfl
@[simp] theorem setFlow_pair (n : Nat) (x : Flow) : (setFlow n x d).pair = d.pair := rfl
@[simp] theorem setFlow_queues (n : Nat) (x : Flow) : (setFlow n x d).queues = d.queues := rfl
@[simp] theorem setFlow_dma (n : Nat) (x : Flow) : (setFlow n x d).dma = d.dma := rfl
@[simp] theorem setFlow_abort (n : Nat) (x : Flow) : (setFlow n x d).abort = d.abort := rfl
@[simp] theorem setFlow_weevil (n : Nat) (x : Flow) : (setFlow n x d).weevil = d.weevil := rfl
@[simp] theorem setFlow_calib (n : Nat) (x : Flow) : (setFlow n x d).calib = d.calib := rfl
@[simp] theorem setFlow_scarab (n : Nat) (x : Flow) : (setFlow n x d).scarab = d.scarab := rfl
@[simp] theorem setFlow_sys (n : Nat) (x : Flow) : (setFlow n x d).sys = d.sys := rfl
@[simp] theorem setFlow_arr_tmpl (n : Nat) (x : Flow) : (setFlow n x d).arr.tmpl = d.arr.tmpl := rfl
@[simp] theorem setFlow_arr_slots (n : Nat) (x : Flow) : (setFlow n x d).arr.slots = d.arr.slots := rfl
@[simp] theorem setFlow_arr_steep (n : Nat) (x : Flow) : (setFlow n x d).arr.steep = d.arr.steep := rfl
@[simp] theorem setFlow_arr_sends (n : Nat) (x : Flow) : (setFlow n x d).arr.sends = d.arr.sends := rfl
@[simp] theorem setFlow_arr_frameLeaves (n : Nat) (x : Flow) : (setFlow n x d).arr.frameLeaves = d.arr.frameLeaves := rfl
@[simp] theorem setFlow_arr_inputs (n : Nat) (x : Flow) : (setFlow n x d).arr.inputs = d.arr.inputs := rfl
@[simp] theorem setFlow_arr_latched (n : Nat) (x : Flow) : (setFlow n x d).arr.latched = d.arr.latched := rfl
@[simp] theorem setFlow_arr_immediate (n : Nat) (x : Flow) : (setFlow n x d).arr.immediate = d.arr.immediate := rfl
@[simp] theorem setFlow_arr_tombs (n : Nat) (x : Flow) : (setFlow n x d).arr.tombs = d.arr.tombs := rfl
@[simp] theorem setFlow_arr_loose (n : Nat) (x : Flow) : (setFlow n x d).arr.loose = d.arr.loose := rfl
@[simp] theorem setFlow_arr_tickOld (n : Nat) (x : Flow) : (setFlow n x d).arr.tickOld = d.arr.tickOld := rfl
@[simp] theorem setFlow_arr_delays (n : Nat) (x : Flow) : (setFlow n x d).arr.delays = d.arr.delays := rfl
@[simp] theorem setFlow_arr_infuser (n : Nat) (x : Flow) : (setFlow n x d).arr.infuser = d.arr.infuser := rfl
@[simp] theorem setFlow_arr_infuserStalled (n : Nat) (x : Flow) : (setFlow n x d).arr.infuserStalled = d.arr.infuserStalled := rfl
@[simp] theorem setFlow_arr_icache (n : Nat) (x : Flow) : (setFlow n x d).arr.icache = d.arr.icache := rfl
@[simp] theorem setFlow_arr_meters (n : Nat) (x : Flow) : (setFlow n x d).arr.meters = d.arr.meters := rfl

/-! setCore. -/

@[simp] theorem setCore_regs (c : Nat) (x : Core) : (setCore c x d).regs = d.regs := rfl
@[simp] theorem setCore_mem (c : Nat) (x : Core) : (setCore c x d).mem = d.mem := rfl
@[simp] theorem setCore_ecc (c : Nat) (x : Core) : (setCore c x d).ecc = d.ecc := rfl
@[simp] theorem setCore_dramMiB (c : Nat) (x : Core) : (setCore c x d).dramMiB = d.dramMiB := rfl
@[simp] theorem setCore_freeIdx (c : Nat) (x : Core) : (setCore c x d).freeIdx = d.freeIdx := rfl
@[simp] theorem setCore_bus (c : Nat) (x : Core) : (setCore c x d).bus = d.bus := rfl
@[simp] theorem setCore_msix (c : Nat) (x : Core) : (setCore c x d).msix = d.msix := rfl
@[simp] theorem setCore_pins (c : Nat) (x : Core) : (setCore c x d).pins = d.pins := rfl
@[simp] theorem setCore_frm (c : Nat) (x : Core) : (setCore c x d).frm = d.frm := rfl
@[simp] theorem setCore_arr (c : Nat) (x : Core) : (setCore c x d).arr = d.arr := rfl
@[simp] theorem setCore_ket (c : Nat) (x : Core) : (setCore c x d).ket = d.ket := rfl
@[simp] theorem setCore_ports (c : Nat) (x : Core) : (setCore c x d).ports = d.ports := rfl
@[simp] theorem setCore_fwRx (c : Nat) (x : Core) : (setCore c x d).fwRx = d.fwRx := rfl
@[simp] theorem setCore_sacnRx (c : Nat) (x : Core) : (setCore c x d).sacnRx = d.sacnRx := rfl
@[simp] theorem setCore_stRx (c : Nat) (x : Core) : (setCore c x d).stRx = d.stRx := rfl
@[simp] theorem setCore_pack (c : Nat) (x : Core) : (setCore c x d).pack = d.pack := rfl
@[simp] theorem setCore_dmx (c : Nat) (x : Core) : (setCore c x d).dmx = d.dmx := rfl
@[simp] theorem setCore_slow (c : Nat) (x : Core) : (setCore c x d).slow = d.slow := rfl
@[simp] theorem setCore_pair (c : Nat) (x : Core) : (setCore c x d).pair = d.pair := rfl
@[simp] theorem setCore_queues (c : Nat) (x : Core) : (setCore c x d).queues = d.queues := rfl
@[simp] theorem setCore_dma (c : Nat) (x : Core) : (setCore c x d).dma = d.dma := rfl
@[simp] theorem setCore_abort (c : Nat) (x : Core) : (setCore c x d).abort = d.abort := rfl
@[simp] theorem setCore_weevil (c : Nat) (x : Core) : (setCore c x d).weevil = d.weevil := rfl
@[simp] theorem setCore_calib (c : Nat) (x : Core) : (setCore c x d).calib = d.calib := rfl
@[simp] theorem setCore_scarab (c : Nat) (x : Core) : (setCore c x d).scarab = d.scarab := rfl
@[simp] theorem setCore_sys (c : Nat) (x : Core) : (setCore c x d).sys = d.sys := rfl
@[simp] theorem setCore_cores (c : Nat) (x : Core) : (setCore c x d).cores = Tab.put {} d.cores c x := rfl

/-! setErr. -/

@[simp] theorem setErr_regs (w : Nat) (e : WordErr) : (setErr w e d).regs = d.regs := rfl
@[simp] theorem setErr_mem (w : Nat) (e : WordErr) : (setErr w e d).mem = d.mem := rfl
@[simp] theorem setErr_dramMiB (w : Nat) (e : WordErr) : (setErr w e d).dramMiB = d.dramMiB := rfl
@[simp] theorem setErr_freeIdx (w : Nat) (e : WordErr) : (setErr w e d).freeIdx = d.freeIdx := rfl
@[simp] theorem setErr_bus (w : Nat) (e : WordErr) : (setErr w e d).bus = d.bus := rfl
@[simp] theorem setErr_msix (w : Nat) (e : WordErr) : (setErr w e d).msix = d.msix := rfl
@[simp] theorem setErr_pins (w : Nat) (e : WordErr) : (setErr w e d).pins = d.pins := rfl
@[simp] theorem setErr_frm (w : Nat) (e : WordErr) : (setErr w e d).frm = d.frm := rfl
@[simp] theorem setErr_arr (w : Nat) (e : WordErr) : (setErr w e d).arr = d.arr := rfl
@[simp] theorem setErr_cores (w : Nat) (e : WordErr) : (setErr w e d).cores = d.cores := rfl
@[simp] theorem setErr_ket (w : Nat) (e : WordErr) : (setErr w e d).ket = d.ket := rfl
@[simp] theorem setErr_ports (w : Nat) (e : WordErr) : (setErr w e d).ports = d.ports := rfl
@[simp] theorem setErr_fwRx (w : Nat) (e : WordErr) : (setErr w e d).fwRx = d.fwRx := rfl
@[simp] theorem setErr_sacnRx (w : Nat) (e : WordErr) : (setErr w e d).sacnRx = d.sacnRx := rfl
@[simp] theorem setErr_stRx (w : Nat) (e : WordErr) : (setErr w e d).stRx = d.stRx := rfl
@[simp] theorem setErr_pack (w : Nat) (e : WordErr) : (setErr w e d).pack = d.pack := rfl
@[simp] theorem setErr_dmx (w : Nat) (e : WordErr) : (setErr w e d).dmx = d.dmx := rfl
@[simp] theorem setErr_slow (w : Nat) (e : WordErr) : (setErr w e d).slow = d.slow := rfl
@[simp] theorem setErr_pair (w : Nat) (e : WordErr) : (setErr w e d).pair = d.pair := rfl
@[simp] theorem setErr_queues (w : Nat) (e : WordErr) : (setErr w e d).queues = d.queues := rfl
@[simp] theorem setErr_dma (w : Nat) (e : WordErr) : (setErr w e d).dma = d.dma := rfl
@[simp] theorem setErr_abort (w : Nat) (e : WordErr) : (setErr w e d).abort = d.abort := rfl
@[simp] theorem setErr_weevil (w : Nat) (e : WordErr) : (setErr w e d).weevil = d.weevil := rfl
@[simp] theorem setErr_calib (w : Nat) (e : WordErr) : (setErr w e d).calib = d.calib := rfl
@[simp] theorem setErr_scarab (w : Nat) (e : WordErr) : (setErr w e d).scarab = d.scarab := rfl
@[simp] theorem setErr_sys (w : Nat) (e : WordErr) : (setErr w e d).sys = d.sys := rfl
@[simp] theorem setErr_ecc (w : Nat) (e : WordErr) : (setErr w e d).ecc = Tab.put .none d.ecc w e := rfl

/-! setHead. -/

@[simp] theorem setHead_regs (h : Nat) (x : Head) : (setHead h x d).regs = d.regs := rfl
@[simp] theorem setHead_mem (h : Nat) (x : Head) : (setHead h x d).mem = d.mem := rfl
@[simp] theorem setHead_ecc (h : Nat) (x : Head) : (setHead h x d).ecc = d.ecc := rfl
@[simp] theorem setHead_dramMiB (h : Nat) (x : Head) : (setHead h x d).dramMiB = d.dramMiB := rfl
@[simp] theorem setHead_freeIdx (h : Nat) (x : Head) : (setHead h x d).freeIdx = d.freeIdx := rfl
@[simp] theorem setHead_bus (h : Nat) (x : Head) : (setHead h x d).bus = d.bus := rfl
@[simp] theorem setHead_msix (h : Nat) (x : Head) : (setHead h x d).msix = d.msix := rfl
@[simp] theorem setHead_pins (h : Nat) (x : Head) : (setHead h x d).pins = d.pins := rfl
@[simp] theorem setHead_frm (h : Nat) (x : Head) : (setHead h x d).frm = d.frm := rfl
@[simp] theorem setHead_arr (h : Nat) (x : Head) : (setHead h x d).arr = d.arr := rfl
@[simp] theorem setHead_cores (h : Nat) (x : Head) : (setHead h x d).cores = d.cores := rfl
@[simp] theorem setHead_ports (h : Nat) (x : Head) : (setHead h x d).ports = d.ports := rfl
@[simp] theorem setHead_fwRx (h : Nat) (x : Head) : (setHead h x d).fwRx = d.fwRx := rfl
@[simp] theorem setHead_sacnRx (h : Nat) (x : Head) : (setHead h x d).sacnRx = d.sacnRx := rfl
@[simp] theorem setHead_stRx (h : Nat) (x : Head) : (setHead h x d).stRx = d.stRx := rfl
@[simp] theorem setHead_pack (h : Nat) (x : Head) : (setHead h x d).pack = d.pack := rfl
@[simp] theorem setHead_dmx (h : Nat) (x : Head) : (setHead h x d).dmx = d.dmx := rfl
@[simp] theorem setHead_slow (h : Nat) (x : Head) : (setHead h x d).slow = d.slow := rfl
@[simp] theorem setHead_pair (h : Nat) (x : Head) : (setHead h x d).pair = d.pair := rfl
@[simp] theorem setHead_queues (h : Nat) (x : Head) : (setHead h x d).queues = d.queues := rfl
@[simp] theorem setHead_dma (h : Nat) (x : Head) : (setHead h x d).dma = d.dma := rfl
@[simp] theorem setHead_abort (h : Nat) (x : Head) : (setHead h x d).abort = d.abort := rfl
@[simp] theorem setHead_weevil (h : Nat) (x : Head) : (setHead h x d).weevil = d.weevil := rfl
@[simp] theorem setHead_calib (h : Nat) (x : Head) : (setHead h x d).calib = d.calib := rfl
@[simp] theorem setHead_scarab (h : Nat) (x : Head) : (setHead h x d).scarab = d.scarab := rfl
@[simp] theorem setHead_sys (h : Nat) (x : Head) : (setHead h x d).sys = d.sys := rfl

/-! setSurfDesc. -/

@[simp] theorem setSurfDesc_regs (n : Nat) (ws : List W32) : (setSurfDesc n ws d).regs = d.regs := rfl
@[simp] theorem setSurfDesc_mem (n : Nat) (ws : List W32) : (setSurfDesc n ws d).mem = d.mem := rfl
@[simp] theorem setSurfDesc_ecc (n : Nat) (ws : List W32) : (setSurfDesc n ws d).ecc = d.ecc := rfl
@[simp] theorem setSurfDesc_dramMiB (n : Nat) (ws : List W32) : (setSurfDesc n ws d).dramMiB = d.dramMiB := rfl
@[simp] theorem setSurfDesc_freeIdx (n : Nat) (ws : List W32) : (setSurfDesc n ws d).freeIdx = d.freeIdx := rfl
@[simp] theorem setSurfDesc_bus (n : Nat) (ws : List W32) : (setSurfDesc n ws d).bus = d.bus := rfl
@[simp] theorem setSurfDesc_msix (n : Nat) (ws : List W32) : (setSurfDesc n ws d).msix = d.msix := rfl
@[simp] theorem setSurfDesc_pins (n : Nat) (ws : List W32) : (setSurfDesc n ws d).pins = d.pins := rfl
@[simp] theorem setSurfDesc_frm (n : Nat) (ws : List W32) : (setSurfDesc n ws d).frm = d.frm := rfl
@[simp] theorem setSurfDesc_arr (n : Nat) (ws : List W32) : (setSurfDesc n ws d).arr = d.arr := rfl
@[simp] theorem setSurfDesc_cores (n : Nat) (ws : List W32) : (setSurfDesc n ws d).cores = d.cores := rfl
@[simp] theorem setSurfDesc_ports (n : Nat) (ws : List W32) : (setSurfDesc n ws d).ports = d.ports := rfl
@[simp] theorem setSurfDesc_fwRx (n : Nat) (ws : List W32) : (setSurfDesc n ws d).fwRx = d.fwRx := rfl
@[simp] theorem setSurfDesc_sacnRx (n : Nat) (ws : List W32) : (setSurfDesc n ws d).sacnRx = d.sacnRx := rfl
@[simp] theorem setSurfDesc_stRx (n : Nat) (ws : List W32) : (setSurfDesc n ws d).stRx = d.stRx := rfl
@[simp] theorem setSurfDesc_pack (n : Nat) (ws : List W32) : (setSurfDesc n ws d).pack = d.pack := rfl
@[simp] theorem setSurfDesc_dmx (n : Nat) (ws : List W32) : (setSurfDesc n ws d).dmx = d.dmx := rfl
@[simp] theorem setSurfDesc_slow (n : Nat) (ws : List W32) : (setSurfDesc n ws d).slow = d.slow := rfl
@[simp] theorem setSurfDesc_pair (n : Nat) (ws : List W32) : (setSurfDesc n ws d).pair = d.pair := rfl
@[simp] theorem setSurfDesc_queues (n : Nat) (ws : List W32) : (setSurfDesc n ws d).queues = d.queues := rfl
@[simp] theorem setSurfDesc_dma (n : Nat) (ws : List W32) : (setSurfDesc n ws d).dma = d.dma := rfl
@[simp] theorem setSurfDesc_abort (n : Nat) (ws : List W32) : (setSurfDesc n ws d).abort = d.abort := rfl
@[simp] theorem setSurfDesc_weevil (n : Nat) (ws : List W32) : (setSurfDesc n ws d).weevil = d.weevil := rfl
@[simp] theorem setSurfDesc_calib (n : Nat) (ws : List W32) : (setSurfDesc n ws d).calib = d.calib := rfl
@[simp] theorem setSurfDesc_scarab (n : Nat) (ws : List W32) : (setSurfDesc n ws d).scarab = d.scarab := rfl
@[simp] theorem setSurfDesc_sys (n : Nat) (ws : List W32) : (setSurfDesc n ws d).sys = d.sys := rfl

/-! setPort. -/

@[simp] theorem setPort_regs (p : Nat) (x : Port) : (setPort p x d).regs = d.regs := rfl
@[simp] theorem setPort_mem (p : Nat) (x : Port) : (setPort p x d).mem = d.mem := rfl
@[simp] theorem setPort_ecc (p : Nat) (x : Port) : (setPort p x d).ecc = d.ecc := rfl
@[simp] theorem setPort_dramMiB (p : Nat) (x : Port) : (setPort p x d).dramMiB = d.dramMiB := rfl
@[simp] theorem setPort_freeIdx (p : Nat) (x : Port) : (setPort p x d).freeIdx = d.freeIdx := rfl
@[simp] theorem setPort_bus (p : Nat) (x : Port) : (setPort p x d).bus = d.bus := rfl
@[simp] theorem setPort_msix (p : Nat) (x : Port) : (setPort p x d).msix = d.msix := rfl
@[simp] theorem setPort_pins (p : Nat) (x : Port) : (setPort p x d).pins = d.pins := rfl
@[simp] theorem setPort_frm (p : Nat) (x : Port) : (setPort p x d).frm = d.frm := rfl
@[simp] theorem setPort_arr (p : Nat) (x : Port) : (setPort p x d).arr = d.arr := rfl
@[simp] theorem setPort_cores (p : Nat) (x : Port) : (setPort p x d).cores = d.cores := rfl
@[simp] theorem setPort_ket (p : Nat) (x : Port) : (setPort p x d).ket = d.ket := rfl
@[simp] theorem setPort_fwRx (p : Nat) (x : Port) : (setPort p x d).fwRx = d.fwRx := rfl
@[simp] theorem setPort_sacnRx (p : Nat) (x : Port) : (setPort p x d).sacnRx = d.sacnRx := rfl
@[simp] theorem setPort_stRx (p : Nat) (x : Port) : (setPort p x d).stRx = d.stRx := rfl
@[simp] theorem setPort_pack (p : Nat) (x : Port) : (setPort p x d).pack = d.pack := rfl
@[simp] theorem setPort_dmx (p : Nat) (x : Port) : (setPort p x d).dmx = d.dmx := rfl
@[simp] theorem setPort_slow (p : Nat) (x : Port) : (setPort p x d).slow = d.slow := rfl
@[simp] theorem setPort_pair (p : Nat) (x : Port) : (setPort p x d).pair = d.pair := rfl
@[simp] theorem setPort_queues (p : Nat) (x : Port) : (setPort p x d).queues = d.queues := rfl
@[simp] theorem setPort_dma (p : Nat) (x : Port) : (setPort p x d).dma = d.dma := rfl
@[simp] theorem setPort_abort (p : Nat) (x : Port) : (setPort p x d).abort = d.abort := rfl
@[simp] theorem setPort_weevil (p : Nat) (x : Port) : (setPort p x d).weevil = d.weevil := rfl
@[simp] theorem setPort_calib (p : Nat) (x : Port) : (setPort p x d).calib = d.calib := rfl
@[simp] theorem setPort_scarab (p : Nat) (x : Port) : (setPort p x d).scarab = d.scarab := rfl
@[simp] theorem setPort_sys (p : Nat) (x : Port) : (setPort p x d).sys = d.sys := rfl
@[simp] theorem setPort_ports (p : Nat) (x : Port) : (setPort p x d).ports = Tab.put {} d.ports p x := rfl

/-! onPort. -/

@[simp] theorem onPort_regs (p : Nat) (f : Port → Port) : (onPort p f d).regs = d.regs := rfl
@[simp] theorem onPort_mem (p : Nat) (f : Port → Port) : (onPort p f d).mem = d.mem := rfl
@[simp] theorem onPort_ecc (p : Nat) (f : Port → Port) : (onPort p f d).ecc = d.ecc := rfl
@[simp] theorem onPort_dramMiB (p : Nat) (f : Port → Port) : (onPort p f d).dramMiB = d.dramMiB := rfl
@[simp] theorem onPort_freeIdx (p : Nat) (f : Port → Port) : (onPort p f d).freeIdx = d.freeIdx := rfl
@[simp] theorem onPort_bus (p : Nat) (f : Port → Port) : (onPort p f d).bus = d.bus := rfl
@[simp] theorem onPort_msix (p : Nat) (f : Port → Port) : (onPort p f d).msix = d.msix := rfl
@[simp] theorem onPort_pins (p : Nat) (f : Port → Port) : (onPort p f d).pins = d.pins := rfl
@[simp] theorem onPort_frm (p : Nat) (f : Port → Port) : (onPort p f d).frm = d.frm := rfl
@[simp] theorem onPort_arr (p : Nat) (f : Port → Port) : (onPort p f d).arr = d.arr := rfl
@[simp] theorem onPort_cores (p : Nat) (f : Port → Port) : (onPort p f d).cores = d.cores := rfl
@[simp] theorem onPort_ket (p : Nat) (f : Port → Port) : (onPort p f d).ket = d.ket := rfl
@[simp] theorem onPort_fwRx (p : Nat) (f : Port → Port) : (onPort p f d).fwRx = d.fwRx := rfl
@[simp] theorem onPort_sacnRx (p : Nat) (f : Port → Port) : (onPort p f d).sacnRx = d.sacnRx := rfl
@[simp] theorem onPort_stRx (p : Nat) (f : Port → Port) : (onPort p f d).stRx = d.stRx := rfl
@[simp] theorem onPort_pack (p : Nat) (f : Port → Port) : (onPort p f d).pack = d.pack := rfl
@[simp] theorem onPort_dmx (p : Nat) (f : Port → Port) : (onPort p f d).dmx = d.dmx := rfl
@[simp] theorem onPort_slow (p : Nat) (f : Port → Port) : (onPort p f d).slow = d.slow := rfl
@[simp] theorem onPort_pair (p : Nat) (f : Port → Port) : (onPort p f d).pair = d.pair := rfl
@[simp] theorem onPort_queues (p : Nat) (f : Port → Port) : (onPort p f d).queues = d.queues := rfl
@[simp] theorem onPort_dma (p : Nat) (f : Port → Port) : (onPort p f d).dma = d.dma := rfl
@[simp] theorem onPort_abort (p : Nat) (f : Port → Port) : (onPort p f d).abort = d.abort := rfl
@[simp] theorem onPort_weevil (p : Nat) (f : Port → Port) : (onPort p f d).weevil = d.weevil := rfl
@[simp] theorem onPort_calib (p : Nat) (f : Port → Port) : (onPort p f d).calib = d.calib := rfl
@[simp] theorem onPort_scarab (p : Nat) (f : Port → Port) : (onPort p f d).scarab = d.scarab := rfl
@[simp] theorem onPort_sys (p : Nat) (f : Port → Port) : (onPort p f d).sys = d.sys := rfl

/-! onPack. -/

@[simp] theorem onPack_regs (f : Pack → Pack) : (onPack f d).regs = d.regs := rfl
@[simp] theorem onPack_mem (f : Pack → Pack) : (onPack f d).mem = d.mem := rfl
@[simp] theorem onPack_ecc (f : Pack → Pack) : (onPack f d).ecc = d.ecc := rfl
@[simp] theorem onPack_dramMiB (f : Pack → Pack) : (onPack f d).dramMiB = d.dramMiB := rfl
@[simp] theorem onPack_freeIdx (f : Pack → Pack) : (onPack f d).freeIdx = d.freeIdx := rfl
@[simp] theorem onPack_bus (f : Pack → Pack) : (onPack f d).bus = d.bus := rfl
@[simp] theorem onPack_msix (f : Pack → Pack) : (onPack f d).msix = d.msix := rfl
@[simp] theorem onPack_pins (f : Pack → Pack) : (onPack f d).pins = d.pins := rfl
@[simp] theorem onPack_frm (f : Pack → Pack) : (onPack f d).frm = d.frm := rfl
@[simp] theorem onPack_arr (f : Pack → Pack) : (onPack f d).arr = d.arr := rfl
@[simp] theorem onPack_cores (f : Pack → Pack) : (onPack f d).cores = d.cores := rfl
@[simp] theorem onPack_ket (f : Pack → Pack) : (onPack f d).ket = d.ket := rfl
@[simp] theorem onPack_ports (f : Pack → Pack) : (onPack f d).ports = d.ports := rfl
@[simp] theorem onPack_fwRx (f : Pack → Pack) : (onPack f d).fwRx = d.fwRx := rfl
@[simp] theorem onPack_sacnRx (f : Pack → Pack) : (onPack f d).sacnRx = d.sacnRx := rfl
@[simp] theorem onPack_stRx (f : Pack → Pack) : (onPack f d).stRx = d.stRx := rfl
@[simp] theorem onPack_dmx (f : Pack → Pack) : (onPack f d).dmx = d.dmx := rfl
@[simp] theorem onPack_slow (f : Pack → Pack) : (onPack f d).slow = d.slow := rfl
@[simp] theorem onPack_pair (f : Pack → Pack) : (onPack f d).pair = d.pair := rfl
@[simp] theorem onPack_queues (f : Pack → Pack) : (onPack f d).queues = d.queues := rfl
@[simp] theorem onPack_dma (f : Pack → Pack) : (onPack f d).dma = d.dma := rfl
@[simp] theorem onPack_abort (f : Pack → Pack) : (onPack f d).abort = d.abort := rfl
@[simp] theorem onPack_weevil (f : Pack → Pack) : (onPack f d).weevil = d.weevil := rfl
@[simp] theorem onPack_calib (f : Pack → Pack) : (onPack f d).calib = d.calib := rfl
@[simp] theorem onPack_scarab (f : Pack → Pack) : (onPack f d).scarab = d.scarab := rfl
@[simp] theorem onPack_sys (f : Pack → Pack) : (onPack f d).sys = d.sys := rfl
@[simp] theorem onPack_pack (f : Pack → Pack) : (onPack f d).pack = f d.pack := rfl

/-! setDmx. -/

@[simp] theorem setDmx_regs (n : Nat) (x : Dmx) : (setDmx n x d).regs = d.regs := rfl
@[simp] theorem setDmx_mem (n : Nat) (x : Dmx) : (setDmx n x d).mem = d.mem := rfl
@[simp] theorem setDmx_ecc (n : Nat) (x : Dmx) : (setDmx n x d).ecc = d.ecc := rfl
@[simp] theorem setDmx_dramMiB (n : Nat) (x : Dmx) : (setDmx n x d).dramMiB = d.dramMiB := rfl
@[simp] theorem setDmx_freeIdx (n : Nat) (x : Dmx) : (setDmx n x d).freeIdx = d.freeIdx := rfl
@[simp] theorem setDmx_bus (n : Nat) (x : Dmx) : (setDmx n x d).bus = d.bus := rfl
@[simp] theorem setDmx_msix (n : Nat) (x : Dmx) : (setDmx n x d).msix = d.msix := rfl
@[simp] theorem setDmx_pins (n : Nat) (x : Dmx) : (setDmx n x d).pins = d.pins := rfl
@[simp] theorem setDmx_frm (n : Nat) (x : Dmx) : (setDmx n x d).frm = d.frm := rfl
@[simp] theorem setDmx_arr (n : Nat) (x : Dmx) : (setDmx n x d).arr = d.arr := rfl
@[simp] theorem setDmx_cores (n : Nat) (x : Dmx) : (setDmx n x d).cores = d.cores := rfl
@[simp] theorem setDmx_ket (n : Nat) (x : Dmx) : (setDmx n x d).ket = d.ket := rfl
@[simp] theorem setDmx_ports (n : Nat) (x : Dmx) : (setDmx n x d).ports = d.ports := rfl
@[simp] theorem setDmx_fwRx (n : Nat) (x : Dmx) : (setDmx n x d).fwRx = d.fwRx := rfl
@[simp] theorem setDmx_sacnRx (n : Nat) (x : Dmx) : (setDmx n x d).sacnRx = d.sacnRx := rfl
@[simp] theorem setDmx_stRx (n : Nat) (x : Dmx) : (setDmx n x d).stRx = d.stRx := rfl
@[simp] theorem setDmx_pack (n : Nat) (x : Dmx) : (setDmx n x d).pack = d.pack := rfl
@[simp] theorem setDmx_slow (n : Nat) (x : Dmx) : (setDmx n x d).slow = d.slow := rfl
@[simp] theorem setDmx_pair (n : Nat) (x : Dmx) : (setDmx n x d).pair = d.pair := rfl
@[simp] theorem setDmx_queues (n : Nat) (x : Dmx) : (setDmx n x d).queues = d.queues := rfl
@[simp] theorem setDmx_dma (n : Nat) (x : Dmx) : (setDmx n x d).dma = d.dma := rfl
@[simp] theorem setDmx_abort (n : Nat) (x : Dmx) : (setDmx n x d).abort = d.abort := rfl
@[simp] theorem setDmx_weevil (n : Nat) (x : Dmx) : (setDmx n x d).weevil = d.weevil := rfl
@[simp] theorem setDmx_calib (n : Nat) (x : Dmx) : (setDmx n x d).calib = d.calib := rfl
@[simp] theorem setDmx_scarab (n : Nat) (x : Dmx) : (setDmx n x d).scarab = d.scarab := rfl
@[simp] theorem setDmx_sys (n : Nat) (x : Dmx) : (setDmx n x d).sys = d.sys := rfl
@[simp] theorem setDmx_dmx (n : Nat) (x : Dmx) : (setDmx n x d).dmx = Tab.put {} d.dmx n x := rfl

/-! onSlow. -/

@[simp] theorem onSlow_regs (f : Slow → Slow) : (onSlow f d).regs = d.regs := rfl
@[simp] theorem onSlow_mem (f : Slow → Slow) : (onSlow f d).mem = d.mem := rfl
@[simp] theorem onSlow_ecc (f : Slow → Slow) : (onSlow f d).ecc = d.ecc := rfl
@[simp] theorem onSlow_dramMiB (f : Slow → Slow) : (onSlow f d).dramMiB = d.dramMiB := rfl
@[simp] theorem onSlow_freeIdx (f : Slow → Slow) : (onSlow f d).freeIdx = d.freeIdx := rfl
@[simp] theorem onSlow_bus (f : Slow → Slow) : (onSlow f d).bus = d.bus := rfl
@[simp] theorem onSlow_msix (f : Slow → Slow) : (onSlow f d).msix = d.msix := rfl
@[simp] theorem onSlow_pins (f : Slow → Slow) : (onSlow f d).pins = d.pins := rfl
@[simp] theorem onSlow_frm (f : Slow → Slow) : (onSlow f d).frm = d.frm := rfl
@[simp] theorem onSlow_arr (f : Slow → Slow) : (onSlow f d).arr = d.arr := rfl
@[simp] theorem onSlow_cores (f : Slow → Slow) : (onSlow f d).cores = d.cores := rfl
@[simp] theorem onSlow_ket (f : Slow → Slow) : (onSlow f d).ket = d.ket := rfl
@[simp] theorem onSlow_ports (f : Slow → Slow) : (onSlow f d).ports = d.ports := rfl
@[simp] theorem onSlow_fwRx (f : Slow → Slow) : (onSlow f d).fwRx = d.fwRx := rfl
@[simp] theorem onSlow_sacnRx (f : Slow → Slow) : (onSlow f d).sacnRx = d.sacnRx := rfl
@[simp] theorem onSlow_stRx (f : Slow → Slow) : (onSlow f d).stRx = d.stRx := rfl
@[simp] theorem onSlow_pack (f : Slow → Slow) : (onSlow f d).pack = d.pack := rfl
@[simp] theorem onSlow_dmx (f : Slow → Slow) : (onSlow f d).dmx = d.dmx := rfl
@[simp] theorem onSlow_pair (f : Slow → Slow) : (onSlow f d).pair = d.pair := rfl
@[simp] theorem onSlow_queues (f : Slow → Slow) : (onSlow f d).queues = d.queues := rfl
@[simp] theorem onSlow_dma (f : Slow → Slow) : (onSlow f d).dma = d.dma := rfl
@[simp] theorem onSlow_abort (f : Slow → Slow) : (onSlow f d).abort = d.abort := rfl
@[simp] theorem onSlow_weevil (f : Slow → Slow) : (onSlow f d).weevil = d.weevil := rfl
@[simp] theorem onSlow_calib (f : Slow → Slow) : (onSlow f d).calib = d.calib := rfl
@[simp] theorem onSlow_scarab (f : Slow → Slow) : (onSlow f d).scarab = d.scarab := rfl
@[simp] theorem onSlow_sys (f : Slow → Slow) : (onSlow f d).sys = d.sys := rfl
@[simp] theorem onSlow_slow (f : Slow → Slow) : (onSlow f d).slow = f d.slow := rfl

/-! onPair. -/

@[simp] theorem onPair_regs (f : Pair → Pair) : (onPair f d).regs = d.regs := rfl
@[simp] theorem onPair_mem (f : Pair → Pair) : (onPair f d).mem = d.mem := rfl
@[simp] theorem onPair_ecc (f : Pair → Pair) : (onPair f d).ecc = d.ecc := rfl
@[simp] theorem onPair_dramMiB (f : Pair → Pair) : (onPair f d).dramMiB = d.dramMiB := rfl
@[simp] theorem onPair_freeIdx (f : Pair → Pair) : (onPair f d).freeIdx = d.freeIdx := rfl
@[simp] theorem onPair_bus (f : Pair → Pair) : (onPair f d).bus = d.bus := rfl
@[simp] theorem onPair_msix (f : Pair → Pair) : (onPair f d).msix = d.msix := rfl
@[simp] theorem onPair_pins (f : Pair → Pair) : (onPair f d).pins = d.pins := rfl
@[simp] theorem onPair_frm (f : Pair → Pair) : (onPair f d).frm = d.frm := rfl
@[simp] theorem onPair_arr (f : Pair → Pair) : (onPair f d).arr = d.arr := rfl
@[simp] theorem onPair_cores (f : Pair → Pair) : (onPair f d).cores = d.cores := rfl
@[simp] theorem onPair_ket (f : Pair → Pair) : (onPair f d).ket = d.ket := rfl
@[simp] theorem onPair_ports (f : Pair → Pair) : (onPair f d).ports = d.ports := rfl
@[simp] theorem onPair_fwRx (f : Pair → Pair) : (onPair f d).fwRx = d.fwRx := rfl
@[simp] theorem onPair_sacnRx (f : Pair → Pair) : (onPair f d).sacnRx = d.sacnRx := rfl
@[simp] theorem onPair_stRx (f : Pair → Pair) : (onPair f d).stRx = d.stRx := rfl
@[simp] theorem onPair_pack (f : Pair → Pair) : (onPair f d).pack = d.pack := rfl
@[simp] theorem onPair_dmx (f : Pair → Pair) : (onPair f d).dmx = d.dmx := rfl
@[simp] theorem onPair_slow (f : Pair → Pair) : (onPair f d).slow = d.slow := rfl
@[simp] theorem onPair_queues (f : Pair → Pair) : (onPair f d).queues = d.queues := rfl
@[simp] theorem onPair_dma (f : Pair → Pair) : (onPair f d).dma = d.dma := rfl
@[simp] theorem onPair_abort (f : Pair → Pair) : (onPair f d).abort = d.abort := rfl
@[simp] theorem onPair_weevil (f : Pair → Pair) : (onPair f d).weevil = d.weevil := rfl
@[simp] theorem onPair_calib (f : Pair → Pair) : (onPair f d).calib = d.calib := rfl
@[simp] theorem onPair_scarab (f : Pair → Pair) : (onPair f d).scarab = d.scarab := rfl
@[simp] theorem onPair_sys (f : Pair → Pair) : (onPair f d).sys = d.sys := rfl
@[simp] theorem onPair_pair (f : Pair → Pair) : (onPair f d).pair = f d.pair := rfl

/-! setQueue. -/

@[simp] theorem setQueue_regs (q : Nat) (x : Queue) : (setQueue q x d).regs = d.regs := rfl
@[simp] theorem setQueue_mem (q : Nat) (x : Queue) : (setQueue q x d).mem = d.mem := rfl
@[simp] theorem setQueue_ecc (q : Nat) (x : Queue) : (setQueue q x d).ecc = d.ecc := rfl
@[simp] theorem setQueue_dramMiB (q : Nat) (x : Queue) : (setQueue q x d).dramMiB = d.dramMiB := rfl
@[simp] theorem setQueue_freeIdx (q : Nat) (x : Queue) : (setQueue q x d).freeIdx = d.freeIdx := rfl
@[simp] theorem setQueue_bus (q : Nat) (x : Queue) : (setQueue q x d).bus = d.bus := rfl
@[simp] theorem setQueue_msix (q : Nat) (x : Queue) : (setQueue q x d).msix = d.msix := rfl
@[simp] theorem setQueue_pins (q : Nat) (x : Queue) : (setQueue q x d).pins = d.pins := rfl
@[simp] theorem setQueue_frm (q : Nat) (x : Queue) : (setQueue q x d).frm = d.frm := rfl
@[simp] theorem setQueue_arr (q : Nat) (x : Queue) : (setQueue q x d).arr = d.arr := rfl
@[simp] theorem setQueue_cores (q : Nat) (x : Queue) : (setQueue q x d).cores = d.cores := rfl
@[simp] theorem setQueue_ket (q : Nat) (x : Queue) : (setQueue q x d).ket = d.ket := rfl
@[simp] theorem setQueue_ports (q : Nat) (x : Queue) : (setQueue q x d).ports = d.ports := rfl
@[simp] theorem setQueue_fwRx (q : Nat) (x : Queue) : (setQueue q x d).fwRx = d.fwRx := rfl
@[simp] theorem setQueue_sacnRx (q : Nat) (x : Queue) : (setQueue q x d).sacnRx = d.sacnRx := rfl
@[simp] theorem setQueue_stRx (q : Nat) (x : Queue) : (setQueue q x d).stRx = d.stRx := rfl
@[simp] theorem setQueue_pack (q : Nat) (x : Queue) : (setQueue q x d).pack = d.pack := rfl
@[simp] theorem setQueue_dmx (q : Nat) (x : Queue) : (setQueue q x d).dmx = d.dmx := rfl
@[simp] theorem setQueue_slow (q : Nat) (x : Queue) : (setQueue q x d).slow = d.slow := rfl
@[simp] theorem setQueue_pair (q : Nat) (x : Queue) : (setQueue q x d).pair = d.pair := rfl
@[simp] theorem setQueue_dma (q : Nat) (x : Queue) : (setQueue q x d).dma = d.dma := rfl
@[simp] theorem setQueue_abort (q : Nat) (x : Queue) : (setQueue q x d).abort = d.abort := rfl
@[simp] theorem setQueue_weevil (q : Nat) (x : Queue) : (setQueue q x d).weevil = d.weevil := rfl
@[simp] theorem setQueue_calib (q : Nat) (x : Queue) : (setQueue q x d).calib = d.calib := rfl
@[simp] theorem setQueue_scarab (q : Nat) (x : Queue) : (setQueue q x d).scarab = d.scarab := rfl
@[simp] theorem setQueue_sys (q : Nat) (x : Queue) : (setQueue q x d).sys = d.sys := rfl
@[simp] theorem setQueue_queues (q : Nat) (x : Queue) : (setQueue q x d).queues = Tab.put {} d.queues q x := rfl

/-! setDmaChan. -/

@[simp] theorem setDmaChan_regs (c : Nat) (x : DmaChan) : (setDmaChan c x d).regs = d.regs := rfl
@[simp] theorem setDmaChan_mem (c : Nat) (x : DmaChan) : (setDmaChan c x d).mem = d.mem := rfl
@[simp] theorem setDmaChan_ecc (c : Nat) (x : DmaChan) : (setDmaChan c x d).ecc = d.ecc := rfl
@[simp] theorem setDmaChan_dramMiB (c : Nat) (x : DmaChan) : (setDmaChan c x d).dramMiB = d.dramMiB := rfl
@[simp] theorem setDmaChan_freeIdx (c : Nat) (x : DmaChan) : (setDmaChan c x d).freeIdx = d.freeIdx := rfl
@[simp] theorem setDmaChan_bus (c : Nat) (x : DmaChan) : (setDmaChan c x d).bus = d.bus := rfl
@[simp] theorem setDmaChan_msix (c : Nat) (x : DmaChan) : (setDmaChan c x d).msix = d.msix := rfl
@[simp] theorem setDmaChan_pins (c : Nat) (x : DmaChan) : (setDmaChan c x d).pins = d.pins := rfl
@[simp] theorem setDmaChan_frm (c : Nat) (x : DmaChan) : (setDmaChan c x d).frm = d.frm := rfl
@[simp] theorem setDmaChan_arr (c : Nat) (x : DmaChan) : (setDmaChan c x d).arr = d.arr := rfl
@[simp] theorem setDmaChan_cores (c : Nat) (x : DmaChan) : (setDmaChan c x d).cores = d.cores := rfl
@[simp] theorem setDmaChan_ket (c : Nat) (x : DmaChan) : (setDmaChan c x d).ket = d.ket := rfl
@[simp] theorem setDmaChan_ports (c : Nat) (x : DmaChan) : (setDmaChan c x d).ports = d.ports := rfl
@[simp] theorem setDmaChan_fwRx (c : Nat) (x : DmaChan) : (setDmaChan c x d).fwRx = d.fwRx := rfl
@[simp] theorem setDmaChan_sacnRx (c : Nat) (x : DmaChan) : (setDmaChan c x d).sacnRx = d.sacnRx := rfl
@[simp] theorem setDmaChan_stRx (c : Nat) (x : DmaChan) : (setDmaChan c x d).stRx = d.stRx := rfl
@[simp] theorem setDmaChan_pack (c : Nat) (x : DmaChan) : (setDmaChan c x d).pack = d.pack := rfl
@[simp] theorem setDmaChan_dmx (c : Nat) (x : DmaChan) : (setDmaChan c x d).dmx = d.dmx := rfl
@[simp] theorem setDmaChan_slow (c : Nat) (x : DmaChan) : (setDmaChan c x d).slow = d.slow := rfl
@[simp] theorem setDmaChan_pair (c : Nat) (x : DmaChan) : (setDmaChan c x d).pair = d.pair := rfl
@[simp] theorem setDmaChan_queues (c : Nat) (x : DmaChan) : (setDmaChan c x d).queues = d.queues := rfl
@[simp] theorem setDmaChan_abort (c : Nat) (x : DmaChan) : (setDmaChan c x d).abort = d.abort := rfl
@[simp] theorem setDmaChan_weevil (c : Nat) (x : DmaChan) : (setDmaChan c x d).weevil = d.weevil := rfl
@[simp] theorem setDmaChan_calib (c : Nat) (x : DmaChan) : (setDmaChan c x d).calib = d.calib := rfl
@[simp] theorem setDmaChan_scarab (c : Nat) (x : DmaChan) : (setDmaChan c x d).scarab = d.scarab := rfl
@[simp] theorem setDmaChan_sys (c : Nat) (x : DmaChan) : (setDmaChan c x d).sys = d.sys := rfl
@[simp] theorem setDmaChan_dma (c : Nat) (x : DmaChan) : (setDmaChan c x d).dma = Tab.put {} d.dma c x := rfl

/-! onCalib. -/

@[simp] theorem onCalib_regs (f : Calib → Calib) : (onCalib f d).regs = d.regs := rfl
@[simp] theorem onCalib_mem (f : Calib → Calib) : (onCalib f d).mem = d.mem := rfl
@[simp] theorem onCalib_ecc (f : Calib → Calib) : (onCalib f d).ecc = d.ecc := rfl
@[simp] theorem onCalib_dramMiB (f : Calib → Calib) : (onCalib f d).dramMiB = d.dramMiB := rfl
@[simp] theorem onCalib_freeIdx (f : Calib → Calib) : (onCalib f d).freeIdx = d.freeIdx := rfl
@[simp] theorem onCalib_bus (f : Calib → Calib) : (onCalib f d).bus = d.bus := rfl
@[simp] theorem onCalib_msix (f : Calib → Calib) : (onCalib f d).msix = d.msix := rfl
@[simp] theorem onCalib_pins (f : Calib → Calib) : (onCalib f d).pins = d.pins := rfl
@[simp] theorem onCalib_frm (f : Calib → Calib) : (onCalib f d).frm = d.frm := rfl
@[simp] theorem onCalib_arr (f : Calib → Calib) : (onCalib f d).arr = d.arr := rfl
@[simp] theorem onCalib_cores (f : Calib → Calib) : (onCalib f d).cores = d.cores := rfl
@[simp] theorem onCalib_ket (f : Calib → Calib) : (onCalib f d).ket = d.ket := rfl
@[simp] theorem onCalib_ports (f : Calib → Calib) : (onCalib f d).ports = d.ports := rfl
@[simp] theorem onCalib_fwRx (f : Calib → Calib) : (onCalib f d).fwRx = d.fwRx := rfl
@[simp] theorem onCalib_sacnRx (f : Calib → Calib) : (onCalib f d).sacnRx = d.sacnRx := rfl
@[simp] theorem onCalib_stRx (f : Calib → Calib) : (onCalib f d).stRx = d.stRx := rfl
@[simp] theorem onCalib_pack (f : Calib → Calib) : (onCalib f d).pack = d.pack := rfl
@[simp] theorem onCalib_dmx (f : Calib → Calib) : (onCalib f d).dmx = d.dmx := rfl
@[simp] theorem onCalib_slow (f : Calib → Calib) : (onCalib f d).slow = d.slow := rfl
@[simp] theorem onCalib_pair (f : Calib → Calib) : (onCalib f d).pair = d.pair := rfl
@[simp] theorem onCalib_queues (f : Calib → Calib) : (onCalib f d).queues = d.queues := rfl
@[simp] theorem onCalib_dma (f : Calib → Calib) : (onCalib f d).dma = d.dma := rfl
@[simp] theorem onCalib_abort (f : Calib → Calib) : (onCalib f d).abort = d.abort := rfl
@[simp] theorem onCalib_weevil (f : Calib → Calib) : (onCalib f d).weevil = d.weevil := rfl
@[simp] theorem onCalib_scarab (f : Calib → Calib) : (onCalib f d).scarab = d.scarab := rfl
@[simp] theorem onCalib_sys (f : Calib → Calib) : (onCalib f d).sys = d.sys := rfl
@[simp] theorem onCalib_calib (f : Calib → Calib) : (onCalib f d).calib = f d.calib := rfl

/-! onScarab. -/

@[simp] theorem onScarab_regs (f : Scarab → Scarab) : (onScarab f d).regs = d.regs := rfl
@[simp] theorem onScarab_mem (f : Scarab → Scarab) : (onScarab f d).mem = d.mem := rfl
@[simp] theorem onScarab_ecc (f : Scarab → Scarab) : (onScarab f d).ecc = d.ecc := rfl
@[simp] theorem onScarab_dramMiB (f : Scarab → Scarab) : (onScarab f d).dramMiB = d.dramMiB := rfl
@[simp] theorem onScarab_freeIdx (f : Scarab → Scarab) : (onScarab f d).freeIdx = d.freeIdx := rfl
@[simp] theorem onScarab_bus (f : Scarab → Scarab) : (onScarab f d).bus = d.bus := rfl
@[simp] theorem onScarab_msix (f : Scarab → Scarab) : (onScarab f d).msix = d.msix := rfl
@[simp] theorem onScarab_pins (f : Scarab → Scarab) : (onScarab f d).pins = d.pins := rfl
@[simp] theorem onScarab_frm (f : Scarab → Scarab) : (onScarab f d).frm = d.frm := rfl
@[simp] theorem onScarab_arr (f : Scarab → Scarab) : (onScarab f d).arr = d.arr := rfl
@[simp] theorem onScarab_cores (f : Scarab → Scarab) : (onScarab f d).cores = d.cores := rfl
@[simp] theorem onScarab_ket (f : Scarab → Scarab) : (onScarab f d).ket = d.ket := rfl
@[simp] theorem onScarab_ports (f : Scarab → Scarab) : (onScarab f d).ports = d.ports := rfl
@[simp] theorem onScarab_fwRx (f : Scarab → Scarab) : (onScarab f d).fwRx = d.fwRx := rfl
@[simp] theorem onScarab_sacnRx (f : Scarab → Scarab) : (onScarab f d).sacnRx = d.sacnRx := rfl
@[simp] theorem onScarab_stRx (f : Scarab → Scarab) : (onScarab f d).stRx = d.stRx := rfl
@[simp] theorem onScarab_pack (f : Scarab → Scarab) : (onScarab f d).pack = d.pack := rfl
@[simp] theorem onScarab_dmx (f : Scarab → Scarab) : (onScarab f d).dmx = d.dmx := rfl
@[simp] theorem onScarab_slow (f : Scarab → Scarab) : (onScarab f d).slow = d.slow := rfl
@[simp] theorem onScarab_pair (f : Scarab → Scarab) : (onScarab f d).pair = d.pair := rfl
@[simp] theorem onScarab_queues (f : Scarab → Scarab) : (onScarab f d).queues = d.queues := rfl
@[simp] theorem onScarab_dma (f : Scarab → Scarab) : (onScarab f d).dma = d.dma := rfl
@[simp] theorem onScarab_abort (f : Scarab → Scarab) : (onScarab f d).abort = d.abort := rfl
@[simp] theorem onScarab_weevil (f : Scarab → Scarab) : (onScarab f d).weevil = d.weevil := rfl
@[simp] theorem onScarab_calib (f : Scarab → Scarab) : (onScarab f d).calib = d.calib := rfl
@[simp] theorem onScarab_sys (f : Scarab → Scarab) : (onScarab f d).sys = d.sys := rfl
@[simp] theorem onScarab_scarab (f : Scarab → Scarab) : (onScarab f d).scarab = f d.scarab := rfl

/-! onSys. -/

@[simp] theorem onSys_regs (f : Sys → Sys) : (onSys f d).regs = d.regs := rfl
@[simp] theorem onSys_mem (f : Sys → Sys) : (onSys f d).mem = d.mem := rfl
@[simp] theorem onSys_ecc (f : Sys → Sys) : (onSys f d).ecc = d.ecc := rfl
@[simp] theorem onSys_dramMiB (f : Sys → Sys) : (onSys f d).dramMiB = d.dramMiB := rfl
@[simp] theorem onSys_freeIdx (f : Sys → Sys) : (onSys f d).freeIdx = d.freeIdx := rfl
@[simp] theorem onSys_bus (f : Sys → Sys) : (onSys f d).bus = d.bus := rfl
@[simp] theorem onSys_msix (f : Sys → Sys) : (onSys f d).msix = d.msix := rfl
@[simp] theorem onSys_pins (f : Sys → Sys) : (onSys f d).pins = d.pins := rfl
@[simp] theorem onSys_frm (f : Sys → Sys) : (onSys f d).frm = d.frm := rfl
@[simp] theorem onSys_arr (f : Sys → Sys) : (onSys f d).arr = d.arr := rfl
@[simp] theorem onSys_cores (f : Sys → Sys) : (onSys f d).cores = d.cores := rfl
@[simp] theorem onSys_ket (f : Sys → Sys) : (onSys f d).ket = d.ket := rfl
@[simp] theorem onSys_ports (f : Sys → Sys) : (onSys f d).ports = d.ports := rfl
@[simp] theorem onSys_fwRx (f : Sys → Sys) : (onSys f d).fwRx = d.fwRx := rfl
@[simp] theorem onSys_sacnRx (f : Sys → Sys) : (onSys f d).sacnRx = d.sacnRx := rfl
@[simp] theorem onSys_stRx (f : Sys → Sys) : (onSys f d).stRx = d.stRx := rfl
@[simp] theorem onSys_pack (f : Sys → Sys) : (onSys f d).pack = d.pack := rfl
@[simp] theorem onSys_dmx (f : Sys → Sys) : (onSys f d).dmx = d.dmx := rfl
@[simp] theorem onSys_slow (f : Sys → Sys) : (onSys f d).slow = d.slow := rfl
@[simp] theorem onSys_pair (f : Sys → Sys) : (onSys f d).pair = d.pair := rfl
@[simp] theorem onSys_queues (f : Sys → Sys) : (onSys f d).queues = d.queues := rfl
@[simp] theorem onSys_dma (f : Sys → Sys) : (onSys f d).dma = d.dma := rfl
@[simp] theorem onSys_abort (f : Sys → Sys) : (onSys f d).abort = d.abort := rfl
@[simp] theorem onSys_weevil (f : Sys → Sys) : (onSys f d).weevil = d.weevil := rfl
@[simp] theorem onSys_calib (f : Sys → Sys) : (onSys f d).calib = d.calib := rfl
@[simp] theorem onSys_scarab (f : Sys → Sys) : (onSys f d).scarab = d.scarab := rfl
@[simp] theorem onSys_sys (f : Sys → Sys) : (onSys f d).sys = f d.sys := rfl

/-! setHostPort. -/

@[simp] theorem setHostPort_regs (p : Nat) (l : List Push) : (setHostPort p l d).regs = d.regs := rfl
@[simp] theorem setHostPort_mem (p : Nat) (l : List Push) : (setHostPort p l d).mem = d.mem := rfl
@[simp] theorem setHostPort_ecc (p : Nat) (l : List Push) : (setHostPort p l d).ecc = d.ecc := rfl
@[simp] theorem setHostPort_dramMiB (p : Nat) (l : List Push) : (setHostPort p l d).dramMiB = d.dramMiB := rfl
@[simp] theorem setHostPort_freeIdx (p : Nat) (l : List Push) : (setHostPort p l d).freeIdx = d.freeIdx := rfl
@[simp] theorem setHostPort_bus (p : Nat) (l : List Push) : (setHostPort p l d).bus = d.bus := rfl
@[simp] theorem setHostPort_msix (p : Nat) (l : List Push) : (setHostPort p l d).msix = d.msix := rfl
@[simp] theorem setHostPort_pins (p : Nat) (l : List Push) : (setHostPort p l d).pins = d.pins := rfl
@[simp] theorem setHostPort_frm (p : Nat) (l : List Push) : (setHostPort p l d).frm = d.frm := rfl
@[simp] theorem setHostPort_cores (p : Nat) (l : List Push) : (setHostPort p l d).cores = d.cores := rfl
@[simp] theorem setHostPort_ket (p : Nat) (l : List Push) : (setHostPort p l d).ket = d.ket := rfl
@[simp] theorem setHostPort_ports (p : Nat) (l : List Push) : (setHostPort p l d).ports = d.ports := rfl
@[simp] theorem setHostPort_fwRx (p : Nat) (l : List Push) : (setHostPort p l d).fwRx = d.fwRx := rfl
@[simp] theorem setHostPort_sacnRx (p : Nat) (l : List Push) : (setHostPort p l d).sacnRx = d.sacnRx := rfl
@[simp] theorem setHostPort_stRx (p : Nat) (l : List Push) : (setHostPort p l d).stRx = d.stRx := rfl
@[simp] theorem setHostPort_pack (p : Nat) (l : List Push) : (setHostPort p l d).pack = d.pack := rfl
@[simp] theorem setHostPort_dmx (p : Nat) (l : List Push) : (setHostPort p l d).dmx = d.dmx := rfl
@[simp] theorem setHostPort_slow (p : Nat) (l : List Push) : (setHostPort p l d).slow = d.slow := rfl
@[simp] theorem setHostPort_pair (p : Nat) (l : List Push) : (setHostPort p l d).pair = d.pair := rfl
@[simp] theorem setHostPort_queues (p : Nat) (l : List Push) : (setHostPort p l d).queues = d.queues := rfl
@[simp] theorem setHostPort_dma (p : Nat) (l : List Push) : (setHostPort p l d).dma = d.dma := rfl
@[simp] theorem setHostPort_abort (p : Nat) (l : List Push) : (setHostPort p l d).abort = d.abort := rfl
@[simp] theorem setHostPort_weevil (p : Nat) (l : List Push) : (setHostPort p l d).weevil = d.weevil := rfl
@[simp] theorem setHostPort_calib (p : Nat) (l : List Push) : (setHostPort p l d).calib = d.calib := rfl
@[simp] theorem setHostPort_scarab (p : Nat) (l : List Push) : (setHostPort p l d).scarab = d.scarab := rfl
@[simp] theorem setHostPort_sys (p : Nat) (l : List Push) : (setHostPort p l d).sys = d.sys := rfl

/-! setInfuserQueue. -/

@[simp] theorem setInfuserQueue_regs (s : Nat) (l : List Infusion) : (setInfuserQueue s l d).regs = d.regs := rfl
@[simp] theorem setInfuserQueue_mem (s : Nat) (l : List Infusion) : (setInfuserQueue s l d).mem = d.mem := rfl
@[simp] theorem setInfuserQueue_ecc (s : Nat) (l : List Infusion) : (setInfuserQueue s l d).ecc = d.ecc := rfl
@[simp] theorem setInfuserQueue_dramMiB (s : Nat) (l : List Infusion) : (setInfuserQueue s l d).dramMiB = d.dramMiB := rfl
@[simp] theorem setInfuserQueue_freeIdx (s : Nat) (l : List Infusion) : (setInfuserQueue s l d).freeIdx = d.freeIdx := rfl
@[simp] theorem setInfuserQueue_bus (s : Nat) (l : List Infusion) : (setInfuserQueue s l d).bus = d.bus := rfl
@[simp] theorem setInfuserQueue_msix (s : Nat) (l : List Infusion) : (setInfuserQueue s l d).msix = d.msix := rfl
@[simp] theorem setInfuserQueue_pins (s : Nat) (l : List Infusion) : (setInfuserQueue s l d).pins = d.pins := rfl
@[simp] theorem setInfuserQueue_frm (s : Nat) (l : List Infusion) : (setInfuserQueue s l d).frm = d.frm := rfl
@[simp] theorem setInfuserQueue_cores (s : Nat) (l : List Infusion) : (setInfuserQueue s l d).cores = d.cores := rfl
@[simp] theorem setInfuserQueue_ket (s : Nat) (l : List Infusion) : (setInfuserQueue s l d).ket = d.ket := rfl
@[simp] theorem setInfuserQueue_ports (s : Nat) (l : List Infusion) : (setInfuserQueue s l d).ports = d.ports := rfl
@[simp] theorem setInfuserQueue_fwRx (s : Nat) (l : List Infusion) : (setInfuserQueue s l d).fwRx = d.fwRx := rfl
@[simp] theorem setInfuserQueue_sacnRx (s : Nat) (l : List Infusion) : (setInfuserQueue s l d).sacnRx = d.sacnRx := rfl
@[simp] theorem setInfuserQueue_stRx (s : Nat) (l : List Infusion) : (setInfuserQueue s l d).stRx = d.stRx := rfl
@[simp] theorem setInfuserQueue_pack (s : Nat) (l : List Infusion) : (setInfuserQueue s l d).pack = d.pack := rfl
@[simp] theorem setInfuserQueue_dmx (s : Nat) (l : List Infusion) : (setInfuserQueue s l d).dmx = d.dmx := rfl
@[simp] theorem setInfuserQueue_slow (s : Nat) (l : List Infusion) : (setInfuserQueue s l d).slow = d.slow := rfl
@[simp] theorem setInfuserQueue_pair (s : Nat) (l : List Infusion) : (setInfuserQueue s l d).pair = d.pair := rfl
@[simp] theorem setInfuserQueue_queues (s : Nat) (l : List Infusion) : (setInfuserQueue s l d).queues = d.queues := rfl
@[simp] theorem setInfuserQueue_dma (s : Nat) (l : List Infusion) : (setInfuserQueue s l d).dma = d.dma := rfl
@[simp] theorem setInfuserQueue_abort (s : Nat) (l : List Infusion) : (setInfuserQueue s l d).abort = d.abort := rfl
@[simp] theorem setInfuserQueue_weevil (s : Nat) (l : List Infusion) : (setInfuserQueue s l d).weevil = d.weevil := rfl
@[simp] theorem setInfuserQueue_calib (s : Nat) (l : List Infusion) : (setInfuserQueue s l d).calib = d.calib := rfl
@[simp] theorem setInfuserQueue_scarab (s : Nat) (l : List Infusion) : (setInfuserQueue s l d).scarab = d.scarab := rfl
@[simp] theorem setInfuserQueue_sys (s : Nat) (l : List Infusion) : (setInfuserQueue s l d).sys = d.sys := rfl
@[simp] theorem setInfuserQueue_arr_tmpl (s : Nat) (l : List Infusion) : (setInfuserQueue s l d).arr.tmpl = d.arr.tmpl := rfl
@[simp] theorem setInfuserQueue_arr_slots (s : Nat) (l : List Infusion) : (setInfuserQueue s l d).arr.slots = d.arr.slots := rfl
@[simp] theorem setInfuserQueue_arr_steep (s : Nat) (l : List Infusion) : (setInfuserQueue s l d).arr.steep = d.arr.steep := rfl
@[simp] theorem setInfuserQueue_arr_sends (s : Nat) (l : List Infusion) : (setInfuserQueue s l d).arr.sends = d.arr.sends := rfl
@[simp] theorem setInfuserQueue_arr_frameLeaves (s : Nat) (l : List Infusion) : (setInfuserQueue s l d).arr.frameLeaves = d.arr.frameLeaves := rfl
@[simp] theorem setInfuserQueue_arr_inputs (s : Nat) (l : List Infusion) : (setInfuserQueue s l d).arr.inputs = d.arr.inputs := rfl
@[simp] theorem setInfuserQueue_arr_latched (s : Nat) (l : List Infusion) : (setInfuserQueue s l d).arr.latched = d.arr.latched := rfl
@[simp] theorem setInfuserQueue_arr_immediate (s : Nat) (l : List Infusion) : (setInfuserQueue s l d).arr.immediate = d.arr.immediate := rfl
@[simp] theorem setInfuserQueue_arr_flows (s : Nat) (l : List Infusion) : (setInfuserQueue s l d).arr.flows = d.arr.flows := rfl
@[simp] theorem setInfuserQueue_arr_tombs (s : Nat) (l : List Infusion) : (setInfuserQueue s l d).arr.tombs = d.arr.tombs := rfl
@[simp] theorem setInfuserQueue_arr_loose (s : Nat) (l : List Infusion) : (setInfuserQueue s l d).arr.loose = d.arr.loose := rfl
@[simp] theorem setInfuserQueue_arr_tickOld (s : Nat) (l : List Infusion) : (setInfuserQueue s l d).arr.tickOld = d.arr.tickOld := rfl
@[simp] theorem setInfuserQueue_arr_delays (s : Nat) (l : List Infusion) : (setInfuserQueue s l d).arr.delays = d.arr.delays := rfl
@[simp] theorem setInfuserQueue_arr_infuserStalled (s : Nat) (l : List Infusion) : (setInfuserQueue s l d).arr.infuserStalled = d.arr.infuserStalled := rfl
@[simp] theorem setInfuserQueue_arr_icache (s : Nat) (l : List Infusion) : (setInfuserQueue s l d).arr.icache = d.arr.icache := rfl
@[simp] theorem setInfuserQueue_arr_meters (s : Nat) (l : List Infusion) : (setInfuserQueue s l d).arr.meters = d.arr.meters := rfl

/-! setRxRing. -/

@[simp] theorem setRxRing_regs (p q : Nat) (r : RxRing) : (setRxRing p q r d).regs = d.regs := rfl
@[simp] theorem setRxRing_mem (p q : Nat) (r : RxRing) : (setRxRing p q r d).mem = d.mem := rfl
@[simp] theorem setRxRing_ecc (p q : Nat) (r : RxRing) : (setRxRing p q r d).ecc = d.ecc := rfl
@[simp] theorem setRxRing_dramMiB (p q : Nat) (r : RxRing) : (setRxRing p q r d).dramMiB = d.dramMiB := rfl
@[simp] theorem setRxRing_freeIdx (p q : Nat) (r : RxRing) : (setRxRing p q r d).freeIdx = d.freeIdx := rfl
@[simp] theorem setRxRing_bus (p q : Nat) (r : RxRing) : (setRxRing p q r d).bus = d.bus := rfl
@[simp] theorem setRxRing_msix (p q : Nat) (r : RxRing) : (setRxRing p q r d).msix = d.msix := rfl
@[simp] theorem setRxRing_pins (p q : Nat) (r : RxRing) : (setRxRing p q r d).pins = d.pins := rfl
@[simp] theorem setRxRing_frm (p q : Nat) (r : RxRing) : (setRxRing p q r d).frm = d.frm := rfl
@[simp] theorem setRxRing_arr (p q : Nat) (r : RxRing) : (setRxRing p q r d).arr = d.arr := rfl
@[simp] theorem setRxRing_cores (p q : Nat) (r : RxRing) : (setRxRing p q r d).cores = d.cores := rfl
@[simp] theorem setRxRing_ket (p q : Nat) (r : RxRing) : (setRxRing p q r d).ket = d.ket := rfl
@[simp] theorem setRxRing_fwRx (p q : Nat) (r : RxRing) : (setRxRing p q r d).fwRx = d.fwRx := rfl
@[simp] theorem setRxRing_sacnRx (p q : Nat) (r : RxRing) : (setRxRing p q r d).sacnRx = d.sacnRx := rfl
@[simp] theorem setRxRing_stRx (p q : Nat) (r : RxRing) : (setRxRing p q r d).stRx = d.stRx := rfl
@[simp] theorem setRxRing_pack (p q : Nat) (r : RxRing) : (setRxRing p q r d).pack = d.pack := rfl
@[simp] theorem setRxRing_dmx (p q : Nat) (r : RxRing) : (setRxRing p q r d).dmx = d.dmx := rfl
@[simp] theorem setRxRing_slow (p q : Nat) (r : RxRing) : (setRxRing p q r d).slow = d.slow := rfl
@[simp] theorem setRxRing_pair (p q : Nat) (r : RxRing) : (setRxRing p q r d).pair = d.pair := rfl
@[simp] theorem setRxRing_queues (p q : Nat) (r : RxRing) : (setRxRing p q r d).queues = d.queues := rfl
@[simp] theorem setRxRing_dma (p q : Nat) (r : RxRing) : (setRxRing p q r d).dma = d.dma := rfl
@[simp] theorem setRxRing_abort (p q : Nat) (r : RxRing) : (setRxRing p q r d).abort = d.abort := rfl
@[simp] theorem setRxRing_weevil (p q : Nat) (r : RxRing) : (setRxRing p q r d).weevil = d.weevil := rfl
@[simp] theorem setRxRing_calib (p q : Nat) (r : RxRing) : (setRxRing p q r d).calib = d.calib := rfl
@[simp] theorem setRxRing_scarab (p q : Nat) (r : RxRing) : (setRxRing p q r d).scarab = d.scarab := rfl
@[simp] theorem setRxRing_sys (p q : Nat) (r : RxRing) : (setRxRing p q r d).sys = d.sys := rfl

/-! setUniverse. -/

@[simp] theorem setUniverse_regs (u : Nat) (x : Universe) : (setUniverse u x d).regs = d.regs := rfl
@[simp] theorem setUniverse_mem (u : Nat) (x : Universe) : (setUniverse u x d).mem = d.mem := rfl
@[simp] theorem setUniverse_ecc (u : Nat) (x : Universe) : (setUniverse u x d).ecc = d.ecc := rfl
@[simp] theorem setUniverse_dramMiB (u : Nat) (x : Universe) : (setUniverse u x d).dramMiB = d.dramMiB := rfl
@[simp] theorem setUniverse_freeIdx (u : Nat) (x : Universe) : (setUniverse u x d).freeIdx = d.freeIdx := rfl
@[simp] theorem setUniverse_bus (u : Nat) (x : Universe) : (setUniverse u x d).bus = d.bus := rfl
@[simp] theorem setUniverse_msix (u : Nat) (x : Universe) : (setUniverse u x d).msix = d.msix := rfl
@[simp] theorem setUniverse_pins (u : Nat) (x : Universe) : (setUniverse u x d).pins = d.pins := rfl
@[simp] theorem setUniverse_frm (u : Nat) (x : Universe) : (setUniverse u x d).frm = d.frm := rfl
@[simp] theorem setUniverse_arr (u : Nat) (x : Universe) : (setUniverse u x d).arr = d.arr := rfl
@[simp] theorem setUniverse_cores (u : Nat) (x : Universe) : (setUniverse u x d).cores = d.cores := rfl
@[simp] theorem setUniverse_ket (u : Nat) (x : Universe) : (setUniverse u x d).ket = d.ket := rfl
@[simp] theorem setUniverse_ports (u : Nat) (x : Universe) : (setUniverse u x d).ports = d.ports := rfl
@[simp] theorem setUniverse_fwRx (u : Nat) (x : Universe) : (setUniverse u x d).fwRx = d.fwRx := rfl
@[simp] theorem setUniverse_sacnRx (u : Nat) (x : Universe) : (setUniverse u x d).sacnRx = d.sacnRx := rfl
@[simp] theorem setUniverse_stRx (u : Nat) (x : Universe) : (setUniverse u x d).stRx = d.stRx := rfl
@[simp] theorem setUniverse_dmx (u : Nat) (x : Universe) : (setUniverse u x d).dmx = d.dmx := rfl
@[simp] theorem setUniverse_slow (u : Nat) (x : Universe) : (setUniverse u x d).slow = d.slow := rfl
@[simp] theorem setUniverse_pair (u : Nat) (x : Universe) : (setUniverse u x d).pair = d.pair := rfl
@[simp] theorem setUniverse_queues (u : Nat) (x : Universe) : (setUniverse u x d).queues = d.queues := rfl
@[simp] theorem setUniverse_dma (u : Nat) (x : Universe) : (setUniverse u x d).dma = d.dma := rfl
@[simp] theorem setUniverse_abort (u : Nat) (x : Universe) : (setUniverse u x d).abort = d.abort := rfl
@[simp] theorem setUniverse_weevil (u : Nat) (x : Universe) : (setUniverse u x d).weevil = d.weevil := rfl
@[simp] theorem setUniverse_calib (u : Nat) (x : Universe) : (setUniverse u x d).calib = d.calib := rfl
@[simp] theorem setUniverse_scarab (u : Nat) (x : Universe) : (setUniverse u x d).scarab = d.scarab := rfl
@[simp] theorem setUniverse_sys (u : Nat) (x : Universe) : (setUniverse u x d).sys = d.sys := rfl
@[simp] theorem setUniverse_pack_sync (u : Nat) (x : Universe) : (setUniverse u x d).pack.sync = d.pack.sync := rfl
@[simp] theorem setUniverse_pack_inputs (u : Nat) (x : Universe) : (setUniverse u x d).pack.inputs = d.pack.inputs := rfl
@[simp] theorem setUniverse_pack_streams (u : Nat) (x : Universe) : (setUniverse u x d).pack.streams = d.pack.streams := rfl
@[simp] theorem setUniverse_pack_trazh (u : Nat) (x : Universe) : (setUniverse u x d).pack.trazh = d.pack.trazh := rfl

/-! setSync. -/

@[simp] theorem setSync_regs (p : Nat) (y : SyncPort) : (setSync p y d).regs = d.regs := rfl
@[simp] theorem setSync_mem (p : Nat) (y : SyncPort) : (setSync p y d).mem = d.mem := rfl
@[simp] theorem setSync_ecc (p : Nat) (y : SyncPort) : (setSync p y d).ecc = d.ecc := rfl
@[simp] theorem setSync_dramMiB (p : Nat) (y : SyncPort) : (setSync p y d).dramMiB = d.dramMiB := rfl
@[simp] theorem setSync_freeIdx (p : Nat) (y : SyncPort) : (setSync p y d).freeIdx = d.freeIdx := rfl
@[simp] theorem setSync_bus (p : Nat) (y : SyncPort) : (setSync p y d).bus = d.bus := rfl
@[simp] theorem setSync_msix (p : Nat) (y : SyncPort) : (setSync p y d).msix = d.msix := rfl
@[simp] theorem setSync_pins (p : Nat) (y : SyncPort) : (setSync p y d).pins = d.pins := rfl
@[simp] theorem setSync_frm (p : Nat) (y : SyncPort) : (setSync p y d).frm = d.frm := rfl
@[simp] theorem setSync_arr (p : Nat) (y : SyncPort) : (setSync p y d).arr = d.arr := rfl
@[simp] theorem setSync_cores (p : Nat) (y : SyncPort) : (setSync p y d).cores = d.cores := rfl
@[simp] theorem setSync_ket (p : Nat) (y : SyncPort) : (setSync p y d).ket = d.ket := rfl
@[simp] theorem setSync_ports (p : Nat) (y : SyncPort) : (setSync p y d).ports = d.ports := rfl
@[simp] theorem setSync_fwRx (p : Nat) (y : SyncPort) : (setSync p y d).fwRx = d.fwRx := rfl
@[simp] theorem setSync_sacnRx (p : Nat) (y : SyncPort) : (setSync p y d).sacnRx = d.sacnRx := rfl
@[simp] theorem setSync_stRx (p : Nat) (y : SyncPort) : (setSync p y d).stRx = d.stRx := rfl
@[simp] theorem setSync_dmx (p : Nat) (y : SyncPort) : (setSync p y d).dmx = d.dmx := rfl
@[simp] theorem setSync_slow (p : Nat) (y : SyncPort) : (setSync p y d).slow = d.slow := rfl
@[simp] theorem setSync_pair (p : Nat) (y : SyncPort) : (setSync p y d).pair = d.pair := rfl
@[simp] theorem setSync_queues (p : Nat) (y : SyncPort) : (setSync p y d).queues = d.queues := rfl
@[simp] theorem setSync_dma (p : Nat) (y : SyncPort) : (setSync p y d).dma = d.dma := rfl
@[simp] theorem setSync_abort (p : Nat) (y : SyncPort) : (setSync p y d).abort = d.abort := rfl
@[simp] theorem setSync_weevil (p : Nat) (y : SyncPort) : (setSync p y d).weevil = d.weevil := rfl
@[simp] theorem setSync_calib (p : Nat) (y : SyncPort) : (setSync p y d).calib = d.calib := rfl
@[simp] theorem setSync_scarab (p : Nat) (y : SyncPort) : (setSync p y d).scarab = d.scarab := rfl
@[simp] theorem setSync_sys (p : Nat) (y : SyncPort) : (setSync p y d).sys = d.sys := rfl
@[simp] theorem setSync_pack_univ (p : Nat) (y : SyncPort) : (setSync p y d).pack.univ = d.pack.univ := rfl
@[simp] theorem setSync_pack_inputs (p : Nat) (y : SyncPort) : (setSync p y d).pack.inputs = d.pack.inputs := rfl
@[simp] theorem setSync_pack_streams (p : Nat) (y : SyncPort) : (setSync p y d).pack.streams = d.pack.streams := rfl
@[simp] theorem setSync_pack_trazh (p : Nat) (y : SyncPort) : (setSync p y d).pack.trazh = d.pack.trazh := rfl

/-! setInEntry. -/

@[simp] theorem setInEntry_regs (e : Nat) (x : InEntry) : (setInEntry e x d).regs = d.regs := rfl
@[simp] theorem setInEntry_mem (e : Nat) (x : InEntry) : (setInEntry e x d).mem = d.mem := rfl
@[simp] theorem setInEntry_ecc (e : Nat) (x : InEntry) : (setInEntry e x d).ecc = d.ecc := rfl
@[simp] theorem setInEntry_dramMiB (e : Nat) (x : InEntry) : (setInEntry e x d).dramMiB = d.dramMiB := rfl
@[simp] theorem setInEntry_freeIdx (e : Nat) (x : InEntry) : (setInEntry e x d).freeIdx = d.freeIdx := rfl
@[simp] theorem setInEntry_bus (e : Nat) (x : InEntry) : (setInEntry e x d).bus = d.bus := rfl
@[simp] theorem setInEntry_msix (e : Nat) (x : InEntry) : (setInEntry e x d).msix = d.msix := rfl
@[simp] theorem setInEntry_pins (e : Nat) (x : InEntry) : (setInEntry e x d).pins = d.pins := rfl
@[simp] theorem setInEntry_frm (e : Nat) (x : InEntry) : (setInEntry e x d).frm = d.frm := rfl
@[simp] theorem setInEntry_arr (e : Nat) (x : InEntry) : (setInEntry e x d).arr = d.arr := rfl
@[simp] theorem setInEntry_cores (e : Nat) (x : InEntry) : (setInEntry e x d).cores = d.cores := rfl
@[simp] theorem setInEntry_ket (e : Nat) (x : InEntry) : (setInEntry e x d).ket = d.ket := rfl
@[simp] theorem setInEntry_ports (e : Nat) (x : InEntry) : (setInEntry e x d).ports = d.ports := rfl
@[simp] theorem setInEntry_fwRx (e : Nat) (x : InEntry) : (setInEntry e x d).fwRx = d.fwRx := rfl
@[simp] theorem setInEntry_sacnRx (e : Nat) (x : InEntry) : (setInEntry e x d).sacnRx = d.sacnRx := rfl
@[simp] theorem setInEntry_stRx (e : Nat) (x : InEntry) : (setInEntry e x d).stRx = d.stRx := rfl
@[simp] theorem setInEntry_dmx (e : Nat) (x : InEntry) : (setInEntry e x d).dmx = d.dmx := rfl
@[simp] theorem setInEntry_slow (e : Nat) (x : InEntry) : (setInEntry e x d).slow = d.slow := rfl
@[simp] theorem setInEntry_pair (e : Nat) (x : InEntry) : (setInEntry e x d).pair = d.pair := rfl
@[simp] theorem setInEntry_queues (e : Nat) (x : InEntry) : (setInEntry e x d).queues = d.queues := rfl
@[simp] theorem setInEntry_dma (e : Nat) (x : InEntry) : (setInEntry e x d).dma = d.dma := rfl
@[simp] theorem setInEntry_abort (e : Nat) (x : InEntry) : (setInEntry e x d).abort = d.abort := rfl
@[simp] theorem setInEntry_weevil (e : Nat) (x : InEntry) : (setInEntry e x d).weevil = d.weevil := rfl
@[simp] theorem setInEntry_calib (e : Nat) (x : InEntry) : (setInEntry e x d).calib = d.calib := rfl
@[simp] theorem setInEntry_scarab (e : Nat) (x : InEntry) : (setInEntry e x d).scarab = d.scarab := rfl
@[simp] theorem setInEntry_sys (e : Nat) (x : InEntry) : (setInEntry e x d).sys = d.sys := rfl
@[simp] theorem setInEntry_pack_univ (e : Nat) (x : InEntry) : (setInEntry e x d).pack.univ = d.pack.univ := rfl
@[simp] theorem setInEntry_pack_sync (e : Nat) (x : InEntry) : (setInEntry e x d).pack.sync = d.pack.sync := rfl
@[simp] theorem setInEntry_pack_streams (e : Nat) (x : InEntry) : (setInEntry e x d).pack.streams = d.pack.streams := rfl
@[simp] theorem setInEntry_pack_trazh (e : Nat) (x : InEntry) : (setInEntry e x d).pack.trazh = d.pack.trazh := rfl

/-! setStStream. -/

@[simp] theorem setStStream_regs (s : Nat) (x : StStream) : (setStStream s x d).regs = d.regs := rfl
@[simp] theorem setStStream_mem (s : Nat) (x : StStream) : (setStStream s x d).mem = d.mem := rfl
@[simp] theorem setStStream_ecc (s : Nat) (x : StStream) : (setStStream s x d).ecc = d.ecc := rfl
@[simp] theorem setStStream_dramMiB (s : Nat) (x : StStream) : (setStStream s x d).dramMiB = d.dramMiB := rfl
@[simp] theorem setStStream_freeIdx (s : Nat) (x : StStream) : (setStStream s x d).freeIdx = d.freeIdx := rfl
@[simp] theorem setStStream_bus (s : Nat) (x : StStream) : (setStStream s x d).bus = d.bus := rfl
@[simp] theorem setStStream_msix (s : Nat) (x : StStream) : (setStStream s x d).msix = d.msix := rfl
@[simp] theorem setStStream_pins (s : Nat) (x : StStream) : (setStStream s x d).pins = d.pins := rfl
@[simp] theorem setStStream_frm (s : Nat) (x : StStream) : (setStStream s x d).frm = d.frm := rfl
@[simp] theorem setStStream_arr (s : Nat) (x : StStream) : (setStStream s x d).arr = d.arr := rfl
@[simp] theorem setStStream_cores (s : Nat) (x : StStream) : (setStStream s x d).cores = d.cores := rfl
@[simp] theorem setStStream_ket (s : Nat) (x : StStream) : (setStStream s x d).ket = d.ket := rfl
@[simp] theorem setStStream_ports (s : Nat) (x : StStream) : (setStStream s x d).ports = d.ports := rfl
@[simp] theorem setStStream_fwRx (s : Nat) (x : StStream) : (setStStream s x d).fwRx = d.fwRx := rfl
@[simp] theorem setStStream_sacnRx (s : Nat) (x : StStream) : (setStStream s x d).sacnRx = d.sacnRx := rfl
@[simp] theorem setStStream_stRx (s : Nat) (x : StStream) : (setStStream s x d).stRx = d.stRx := rfl
@[simp] theorem setStStream_dmx (s : Nat) (x : StStream) : (setStStream s x d).dmx = d.dmx := rfl
@[simp] theorem setStStream_slow (s : Nat) (x : StStream) : (setStStream s x d).slow = d.slow := rfl
@[simp] theorem setStStream_pair (s : Nat) (x : StStream) : (setStStream s x d).pair = d.pair := rfl
@[simp] theorem setStStream_queues (s : Nat) (x : StStream) : (setStStream s x d).queues = d.queues := rfl
@[simp] theorem setStStream_dma (s : Nat) (x : StStream) : (setStStream s x d).dma = d.dma := rfl
@[simp] theorem setStStream_abort (s : Nat) (x : StStream) : (setStStream s x d).abort = d.abort := rfl
@[simp] theorem setStStream_weevil (s : Nat) (x : StStream) : (setStStream s x d).weevil = d.weevil := rfl
@[simp] theorem setStStream_calib (s : Nat) (x : StStream) : (setStStream s x d).calib = d.calib := rfl
@[simp] theorem setStStream_scarab (s : Nat) (x : StStream) : (setStStream s x d).scarab = d.scarab := rfl
@[simp] theorem setStStream_sys (s : Nat) (x : StStream) : (setStStream s x d).sys = d.sys := rfl
@[simp] theorem setStStream_pack_univ (s : Nat) (x : StStream) : (setStStream s x d).pack.univ = d.pack.univ := rfl
@[simp] theorem setStStream_pack_sync (s : Nat) (x : StStream) : (setStStream s x d).pack.sync = d.pack.sync := rfl
@[simp] theorem setStStream_pack_inputs (s : Nat) (x : StStream) : (setStStream s x d).pack.inputs = d.pack.inputs := rfl
@[simp] theorem setStStream_pack_trazh (s : Nat) (x : StStream) : (setStStream s x d).pack.trazh = d.pack.trazh := rfl

/-! setTrazh. -/

@[simp] theorem setTrazh_regs (h : Nat) (x : Trazh) : (setTrazh h x d).regs = d.regs := rfl
@[simp] theorem setTrazh_mem (h : Nat) (x : Trazh) : (setTrazh h x d).mem = d.mem := rfl
@[simp] theorem setTrazh_ecc (h : Nat) (x : Trazh) : (setTrazh h x d).ecc = d.ecc := rfl
@[simp] theorem setTrazh_dramMiB (h : Nat) (x : Trazh) : (setTrazh h x d).dramMiB = d.dramMiB := rfl
@[simp] theorem setTrazh_freeIdx (h : Nat) (x : Trazh) : (setTrazh h x d).freeIdx = d.freeIdx := rfl
@[simp] theorem setTrazh_bus (h : Nat) (x : Trazh) : (setTrazh h x d).bus = d.bus := rfl
@[simp] theorem setTrazh_msix (h : Nat) (x : Trazh) : (setTrazh h x d).msix = d.msix := rfl
@[simp] theorem setTrazh_pins (h : Nat) (x : Trazh) : (setTrazh h x d).pins = d.pins := rfl
@[simp] theorem setTrazh_frm (h : Nat) (x : Trazh) : (setTrazh h x d).frm = d.frm := rfl
@[simp] theorem setTrazh_arr (h : Nat) (x : Trazh) : (setTrazh h x d).arr = d.arr := rfl
@[simp] theorem setTrazh_cores (h : Nat) (x : Trazh) : (setTrazh h x d).cores = d.cores := rfl
@[simp] theorem setTrazh_ket (h : Nat) (x : Trazh) : (setTrazh h x d).ket = d.ket := rfl
@[simp] theorem setTrazh_ports (h : Nat) (x : Trazh) : (setTrazh h x d).ports = d.ports := rfl
@[simp] theorem setTrazh_fwRx (h : Nat) (x : Trazh) : (setTrazh h x d).fwRx = d.fwRx := rfl
@[simp] theorem setTrazh_sacnRx (h : Nat) (x : Trazh) : (setTrazh h x d).sacnRx = d.sacnRx := rfl
@[simp] theorem setTrazh_stRx (h : Nat) (x : Trazh) : (setTrazh h x d).stRx = d.stRx := rfl
@[simp] theorem setTrazh_dmx (h : Nat) (x : Trazh) : (setTrazh h x d).dmx = d.dmx := rfl
@[simp] theorem setTrazh_slow (h : Nat) (x : Trazh) : (setTrazh h x d).slow = d.slow := rfl
@[simp] theorem setTrazh_pair (h : Nat) (x : Trazh) : (setTrazh h x d).pair = d.pair := rfl
@[simp] theorem setTrazh_queues (h : Nat) (x : Trazh) : (setTrazh h x d).queues = d.queues := rfl
@[simp] theorem setTrazh_dma (h : Nat) (x : Trazh) : (setTrazh h x d).dma = d.dma := rfl
@[simp] theorem setTrazh_abort (h : Nat) (x : Trazh) : (setTrazh h x d).abort = d.abort := rfl
@[simp] theorem setTrazh_weevil (h : Nat) (x : Trazh) : (setTrazh h x d).weevil = d.weevil := rfl
@[simp] theorem setTrazh_calib (h : Nat) (x : Trazh) : (setTrazh h x d).calib = d.calib := rfl
@[simp] theorem setTrazh_scarab (h : Nat) (x : Trazh) : (setTrazh h x d).scarab = d.scarab := rfl
@[simp] theorem setTrazh_sys (h : Nat) (x : Trazh) : (setTrazh h x d).sys = d.sys := rfl
@[simp] theorem setTrazh_pack_univ (h : Nat) (x : Trazh) : (setTrazh h x d).pack.univ = d.pack.univ := rfl
@[simp] theorem setTrazh_pack_sync (h : Nat) (x : Trazh) : (setTrazh h x d).pack.sync = d.pack.sync := rfl
@[simp] theorem setTrazh_pack_inputs (h : Nat) (x : Trazh) : (setTrazh h x d).pack.inputs = d.pack.inputs := rfl
@[simp] theorem setTrazh_pack_streams (h : Nat) (x : Trazh) : (setTrazh h x d).pack.streams = d.pack.streams := rfl

/-! setCalPath. -/

@[simp] theorem setCalPath_regs (p : Nat) (x : CalPath) : (setCalPath p x d).regs = d.regs := rfl
@[simp] theorem setCalPath_mem (p : Nat) (x : CalPath) : (setCalPath p x d).mem = d.mem := rfl
@[simp] theorem setCalPath_ecc (p : Nat) (x : CalPath) : (setCalPath p x d).ecc = d.ecc := rfl
@[simp] theorem setCalPath_dramMiB (p : Nat) (x : CalPath) : (setCalPath p x d).dramMiB = d.dramMiB := rfl
@[simp] theorem setCalPath_freeIdx (p : Nat) (x : CalPath) : (setCalPath p x d).freeIdx = d.freeIdx := rfl
@[simp] theorem setCalPath_bus (p : Nat) (x : CalPath) : (setCalPath p x d).bus = d.bus := rfl
@[simp] theorem setCalPath_msix (p : Nat) (x : CalPath) : (setCalPath p x d).msix = d.msix := rfl
@[simp] theorem setCalPath_pins (p : Nat) (x : CalPath) : (setCalPath p x d).pins = d.pins := rfl
@[simp] theorem setCalPath_frm (p : Nat) (x : CalPath) : (setCalPath p x d).frm = d.frm := rfl
@[simp] theorem setCalPath_arr (p : Nat) (x : CalPath) : (setCalPath p x d).arr = d.arr := rfl
@[simp] theorem setCalPath_cores (p : Nat) (x : CalPath) : (setCalPath p x d).cores = d.cores := rfl
@[simp] theorem setCalPath_ket (p : Nat) (x : CalPath) : (setCalPath p x d).ket = d.ket := rfl
@[simp] theorem setCalPath_ports (p : Nat) (x : CalPath) : (setCalPath p x d).ports = d.ports := rfl
@[simp] theorem setCalPath_fwRx (p : Nat) (x : CalPath) : (setCalPath p x d).fwRx = d.fwRx := rfl
@[simp] theorem setCalPath_sacnRx (p : Nat) (x : CalPath) : (setCalPath p x d).sacnRx = d.sacnRx := rfl
@[simp] theorem setCalPath_stRx (p : Nat) (x : CalPath) : (setCalPath p x d).stRx = d.stRx := rfl
@[simp] theorem setCalPath_pack (p : Nat) (x : CalPath) : (setCalPath p x d).pack = d.pack := rfl
@[simp] theorem setCalPath_dmx (p : Nat) (x : CalPath) : (setCalPath p x d).dmx = d.dmx := rfl
@[simp] theorem setCalPath_slow (p : Nat) (x : CalPath) : (setCalPath p x d).slow = d.slow := rfl
@[simp] theorem setCalPath_pair (p : Nat) (x : CalPath) : (setCalPath p x d).pair = d.pair := rfl
@[simp] theorem setCalPath_queues (p : Nat) (x : CalPath) : (setCalPath p x d).queues = d.queues := rfl
@[simp] theorem setCalPath_dma (p : Nat) (x : CalPath) : (setCalPath p x d).dma = d.dma := rfl
@[simp] theorem setCalPath_abort (p : Nat) (x : CalPath) : (setCalPath p x d).abort = d.abort := rfl
@[simp] theorem setCalPath_weevil (p : Nat) (x : CalPath) : (setCalPath p x d).weevil = d.weevil := rfl
@[simp] theorem setCalPath_scarab (p : Nat) (x : CalPath) : (setCalPath p x d).scarab = d.scarab := rfl
@[simp] theorem setCalPath_sys (p : Nat) (x : CalPath) : (setCalPath p x d).sys = d.sys := rfl

/-! setTargetMark. -/

@[simp] theorem setTargetMark_regs (target : Nat) (m : TargetMark) : (setTargetMark target m d).regs = d.regs := rfl
@[simp] theorem setTargetMark_mem (target : Nat) (m : TargetMark) : (setTargetMark target m d).mem = d.mem := rfl
@[simp] theorem setTargetMark_ecc (target : Nat) (m : TargetMark) : (setTargetMark target m d).ecc = d.ecc := rfl
@[simp] theorem setTargetMark_dramMiB (target : Nat) (m : TargetMark) : (setTargetMark target m d).dramMiB = d.dramMiB := rfl
@[simp] theorem setTargetMark_freeIdx (target : Nat) (m : TargetMark) : (setTargetMark target m d).freeIdx = d.freeIdx := rfl
@[simp] theorem setTargetMark_bus (target : Nat) (m : TargetMark) : (setTargetMark target m d).bus = d.bus := rfl
@[simp] theorem setTargetMark_msix (target : Nat) (m : TargetMark) : (setTargetMark target m d).msix = d.msix := rfl
@[simp] theorem setTargetMark_pins (target : Nat) (m : TargetMark) : (setTargetMark target m d).pins = d.pins := rfl
@[simp] theorem setTargetMark_frm (target : Nat) (m : TargetMark) : (setTargetMark target m d).frm = d.frm := rfl
@[simp] theorem setTargetMark_arr (target : Nat) (m : TargetMark) : (setTargetMark target m d).arr = d.arr := rfl
@[simp] theorem setTargetMark_cores (target : Nat) (m : TargetMark) : (setTargetMark target m d).cores = d.cores := rfl
@[simp] theorem setTargetMark_ket (target : Nat) (m : TargetMark) : (setTargetMark target m d).ket = d.ket := rfl
@[simp] theorem setTargetMark_ports (target : Nat) (m : TargetMark) : (setTargetMark target m d).ports = d.ports := rfl
@[simp] theorem setTargetMark_fwRx (target : Nat) (m : TargetMark) : (setTargetMark target m d).fwRx = d.fwRx := rfl
@[simp] theorem setTargetMark_sacnRx (target : Nat) (m : TargetMark) : (setTargetMark target m d).sacnRx = d.sacnRx := rfl
@[simp] theorem setTargetMark_stRx (target : Nat) (m : TargetMark) : (setTargetMark target m d).stRx = d.stRx := rfl
@[simp] theorem setTargetMark_pack (target : Nat) (m : TargetMark) : (setTargetMark target m d).pack = d.pack := rfl
@[simp] theorem setTargetMark_dmx (target : Nat) (m : TargetMark) : (setTargetMark target m d).dmx = d.dmx := rfl
@[simp] theorem setTargetMark_slow (target : Nat) (m : TargetMark) : (setTargetMark target m d).slow = d.slow := rfl
@[simp] theorem setTargetMark_pair (target : Nat) (m : TargetMark) : (setTargetMark target m d).pair = d.pair := rfl
@[simp] theorem setTargetMark_queues (target : Nat) (m : TargetMark) : (setTargetMark target m d).queues = d.queues := rfl
@[simp] theorem setTargetMark_dma (target : Nat) (m : TargetMark) : (setTargetMark target m d).dma = d.dma := rfl
@[simp] theorem setTargetMark_abort (target : Nat) (m : TargetMark) : (setTargetMark target m d).abort = d.abort := rfl
@[simp] theorem setTargetMark_calib (target : Nat) (m : TargetMark) : (setTargetMark target m d).calib = d.calib := rfl
@[simp] theorem setTargetMark_scarab (target : Nat) (m : TargetMark) : (setTargetMark target m d).scarab = d.scarab := rfl
@[simp] theorem setTargetMark_sys (target : Nat) (m : TargetMark) : (setTargetMark target m d).sys = d.sys := rfl

end Sys2Proof.Machine
end

