-- ==== Sys2Proof/Laws/Tab.lean ====
section
/-!
SUPPORT. Tables: what a write does to every number, and the canonical form it keeps.
-/

namespace Sys2Proof.Machine

variable {α : Type}

theorem Tab.get_filter_ne (d : α) (t : Tab α) (i j : Nat) (h : j ≠ i) :
    Tab.get d (t.filter fun x => x.1 != i) j = Tab.get d t j := by
  induction t with
  | nil => rfl
  | cons x r ih =>
    obtain ⟨k, v⟩ := x
    by_cases hk : k = i
    · subst hk; simp [Tab.get, h, ih]
    · simp [Tab.get, hk, ih]

theorem Tab.get_filter_same (d : α) (t : Tab α) (i : Nat) : Tab.get d (t.filter fun x => x.1 != i) i = d := by
  induction t with
  | nil => rfl
  | cons x r ih =>
    obtain ⟨k, v⟩ := x
    by_cases hk : k = i
    · subst hk; simp [ih]
    · simp [Tab.get, hk, Ne.symm hk, ih]

theorem Tab.get_add_same (d : α) (i : Nat) (v : α) (t : Tab α) (h : ∀ x ∈ t, x.1 ≠ i) : Tab.get d (Tab.add i v t) i = v := by
  induction t with
  | nil => simp [Tab.add, Tab.get]
  | cons x r ih =>
    obtain ⟨k, w⟩ := x
    have hk : k ≠ i := h (k, w) (by simp)
    have hr : ∀ x ∈ r, x.1 ≠ i := fun x hx => h x (by simp [hx])
    by_cases hl : i < k
    · simp [Tab.add, hl, Tab.get]
    · simp [Tab.add, hl, Tab.get, hk.symm, ih hr]

theorem Tab.get_add_ne (d : α) (i j : Nat) (v : α) (t : Tab α) (h : j ≠ i) : Tab.get d (Tab.add i v t) j = Tab.get d t j := by
  induction t with
  | nil => simp [Tab.add, Tab.get, h]
  | cons x r ih =>
    obtain ⟨k, w⟩ := x
    by_cases hl : i < k
    · simp [Tab.add, hl, Tab.get, h]
    · simp [Tab.add, hl, Tab.get, ih]

/-- A written number reads what was written. -/
@[simp] theorem Tab.get_put_same [DecidableEq α] (d : α) (t : Tab α) (i : Nat) (v : α) : Tab.get d (Tab.put d t i v) i = v := by
  unfold Tab.put
  split
  · next h => rw [Tab.get_filter_same, h]
  · exact Tab.get_add_same d i v _ (by simp)

/-- Every other number reads as before. -/
theorem Tab.get_put_ne [DecidableEq α] (d : α) (t : Tab α) (i j : Nat) (v : α) (h : j ≠ i) :
    Tab.get d (Tab.put d t i v) j = Tab.get d t j := by
  unfold Tab.put
  split
  · exact Tab.get_filter_ne d t i j h
  · rw [Tab.get_add_ne _ _ _ _ _ h, Tab.get_filter_ne d t i j h]

theorem Tab.get_put [DecidableEq α] (d : α) (t : Tab α) (i j : Nat) (v : α) :
    Tab.get d (Tab.put d t i v) j = if j = i then v else Tab.get d t j := by
  by_cases h : j = i
  · subst h; simp
  · simp [h, Tab.get_put_ne]

theorem Tab.rising_mono {lo lo' : Nat} {t : Tab α} (h : lo' ≤ lo) (ht : Tab.rising lo t = true) : Tab.rising lo' t = true := by
  cases t with
  | nil => rfl
  | cons x r => obtain ⟨k, v⟩ := x; simp [Tab.rising] at ht ⊢; exact ⟨by omega, ht.2⟩

theorem Tab.rising_filter {lo : Nat} {t : Tab α} (p : Nat × α → Bool) (ht : Tab.rising lo t = true) :
    Tab.rising lo (t.filter p) = true := by
  induction t generalizing lo with
  | nil => rfl
  | cons x r ih =>
    obtain ⟨k, v⟩ := x
    simp [Tab.rising] at ht
    by_cases hp : p (k, v)
    · simp [hp, Tab.rising, ht.1, ih ht.2]
    · simp only [List.filter, hp]; exact Tab.rising_mono (by omega) (ih ht.2)

theorem Tab.rising_add {lo i : Nat} {t : Tab α} (v : α) (hlo : lo ≤ i) (hi : ∀ x ∈ t, x.1 ≠ i) (ht : Tab.rising lo t = true) :
    Tab.rising lo (Tab.add i v t) = true := by
  induction t generalizing lo with
  | nil => simp [Tab.add, Tab.rising, hlo]
  | cons x r ih =>
    obtain ⟨k, w⟩ := x
    have hk : k ≠ i := hi (k, w) (by simp)
    simp [Tab.rising] at ht
    by_cases hl : i < k
    · simp [Tab.add, hl, Tab.rising, hlo, ht.2]
    · simp only [Tab.add, hl, if_false, Tab.rising, Bool.and_eq_true, decide_eq_true_eq]
      exact ⟨ht.1, ih (by omega) (fun x hx => hi x (by simp [hx])) ht.2⟩

theorem Tab.mem_add {i : Nat} {v : α} {t : Tab α} {x : Nat × α} (h : x ∈ Tab.add i v t) : x = (i, v) ∨ x ∈ t := by
  induction t with
  | nil => simpa [Tab.add] using h
  | cons y r ih =>
    obtain ⟨k, w⟩ := y
    by_cases hl : i < k
    · simpa [Tab.add, hl] using h
    · simp only [Tab.add, hl, if_false, List.mem_cons] at h ⊢
      rcases h with h | h
      · exact .inr (.inl h)
      · rcases ih h with h | h
        · exact .inl h
        · exact .inr (.inr h)

/-- A write keeps the canonical form. -/
theorem Tab.canonical_put [DecidableEq α] {d : α} {t : Tab α} (i : Nat) (v : α) (h : Tab.canonical d t) :
    Tab.canonical d (Tab.put d t i v) := by
  unfold Tab.put
  split
  · exact ⟨Tab.rising_filter _ h.1, fun x hx => h.2 x (List.mem_of_mem_filter hx)⟩
  · next hv =>
    refine ⟨Tab.rising_add v (Nat.zero_le i) (by simp) (Tab.rising_filter _ h.1), fun x hx => ?_⟩
    rcases Tab.mem_add hx with rfl | hx
    · exact hv
    · exact h.2 x (List.mem_of_mem_filter hx)

end Sys2Proof.Machine
end

