-- ==== Sys2Proof/Laws/Regs.lean ====
section
/-!
SUPPORT. Bits and registers: what reads return after each of the named writes, and what raising an event leaves.
-/

namespace Sys2Proof.Machine

variable (d : Dev)

theorem Tab.get_put_other {α : Type} [DecidableEq α] (e e' : α) (t : Tab α) (i j : Nat) (v : α) (h : j ≠ i) :
    Tab.get e (Tab.put e' t i v) j = Tab.get e t j := by
  unfold Tab.put
  split
  · exact Tab.get_filter_ne _ _ _ _ h
  · rw [Tab.get_add_ne _ _ _ _ _ h, Tab.get_filter_ne _ _ _ _ h]

/-! Bits. -/

/-- One bit of a power of two. -/
theorem getLsbD_pow (n i j : Nat) : (BitVec.ofNat n (2 ^ i)).getLsbD j = (decide (j < n) && decide (i = j)) := by
  rw [BitVec.getLsbD_ofNat, Nat.testBit_two_pow]

theorem bit_setBit {n : Nat} (v : BitVec n) (i j : Nat) (b : Bool) :
    bit (setBit v i b) j = if i = j ∧ j < n then b else bit v j := by
  by_cases hj : j < n
  · by_cases h : i = j <;> cases b <;> simp only [bit, setBit, if_true, Bool.false_eq_true, if_false, BitVec.getLsbD_or, BitVec.getLsbD_and,
      BitVec.getLsbD_not, getLsbD_pow] <;> simp [h, hj]
  · simp [bit, BitVec.getLsbD_of_ge _ _ (Nat.le_of_not_lt hj), hj]

@[simp] theorem bit_setBit_same {n : Nat} (v : BitVec n) (i : Nat) (b : Bool) (h : i < n) : bit (setBit v i b) i = b := by
  rw [bit_setBit, if_pos ⟨rfl, h⟩]

theorem bit_setBit_ne {n : Nat} (v : BitVec n) (i j : Nat) (b : Bool) (h : j ≠ i) : bit (setBit v i b) j = bit v j := by
  rw [bit_setBit, if_neg (fun x => h x.1.symm)]

theorem bit_bitIf {n : Nat} (i j : Nat) (b : Bool) : bit (bitIf (n := n) i b) j = (b && decide (i = j ∧ j < n)) := by
  cases b
  · simp [bit, bitIf]
  · simp only [bit, bitIf, if_true, getLsbD_pow]; by_cases h : i = j <;> by_cases hj : j < n <;> simp [h, hj]

@[simp] theorem bit_or {n : Nat} (v w : BitVec n) (i : Nat) : bit (v ||| w) i = (bit v i || bit w i) := by simp [bit]

/-! Registers. -/

/-- A register word that has been set reads so. -/
@[simp] theorem rd_wr_same (a : Nat) (v : W32) : rd (wr a v d) a = v := by simp [rd]

/-- Setting a register word leaves every other register. -/
theorem rd_wr_ne {a b : Nat} (v : W32) (h : b ≠ a) : rd (wr a v d) b = rd d b := by
  simp only [rd, wr_regs]; exact Tab.get_put_other _ _ _ _ _ _ h

theorem rd_wr (a b : Nat) (v : W32) : rd (wr a v d) b = if b = a then v else rd d b := by
  by_cases h : b = a
  · subst h; simp
  · simp [h, rd_wr_ne]

/-- What rests on the registers alone reads the same in devices with the same registers. -/
theorem rd_congr {d e : Dev} (h : d.regs = e.regs) (a : Nat) : rd d a = rd e a := by simp [rd, h]

theorem rb_eq (a i : Nat) : rb d a i = bit (rd d a) i := rfl

@[simp] theorem rd_wrBit_same (a i : Nat) (b : Bool) : rd (wrBit a i b d) a = setBit (rd d a) i b := by simp [wrBit]
theorem rd_wrBit_ne {a c : Nat} (i : Nat) (b : Bool) (h : c ≠ a) : rd (wrBit a i b d) c = rd d c := by simp [wrBit, rd_wr_ne _ _ h]

theorem rd_snap_same (req : Req) (a : Nat) (v : W32) : rd (snap req a v d) (snapOf req a) = v := by simp [snap]
theorem rd_snap_ne (req : Req) {a b : Nat} (v : W32) (h : b ≠ snapOf req a) : rd (snap req a v d) b = rd d b := by
  simp [snap, rd_wr_ne _ _ h]
theorem rd_ret (v : W32) (a : Nat) : rd (ret v d) a = rd d a := rfl

/-! Raising an event (R308, R388, R389). -/

/-- A vector's message changes nothing outside the MSI-X state. -/
theorem msixSend_eq (v : Nat) : msixSend v d = { d with msix := (msixSend v d).msix } := by
  unfold msixSend; split <;> rfl

/-- A line's rise changes nothing outside the MSI-X state. -/
theorem lineRise_eq (n : Nat) : lineRise n d = { d with msix := (lineRise n d).msix } := by
  by_cases h : (bit (rd d (Reg.SYS_EVT_ROUTE n)) 31 && !bit d.msix.inService (fld (rd d (Reg.SYS_EVT_ROUTE n)) 0 6)) = true
  · simp only [lineRise, h, if_true]; exact msixSend_eq d _
  · simp only [lineRise, h]; rfl

/-- Raising an event sets its bits and changes nothing else outside the MSI-X state. -/
theorem raiseAt_eq (n ev : Nat) (mask : W32) :
    raiseAt n ev mask d = { wr ev (rd d ev ||| mask) d with msix := (raiseAt n ev mask d).msix } := by
  unfold raiseAt watchLine
  split
  · exact lineRise_eq _ n
  · rfl

theorem raiseAt_regs (n ev : Nat) (mask : W32) : (raiseAt n ev mask d).regs = (wr ev (rd d ev ||| mask) d).regs := by
  rw [raiseAt_eq]

@[simp] theorem rd_raiseAt_same (n ev : Nat) (mask : W32) : rd (raiseAt n ev mask d) ev = rd d ev ||| mask := by
  rw [rd_congr (raiseAt_regs d n ev mask)]; simp

theorem rd_raiseAt_ne {n ev a : Nat} (mask : W32) (h : a ≠ ev) : rd (raiseAt n ev mask d) a = rd d a := by
  rw [rd_congr (raiseAt_regs d n ev mask)]; exact rd_wr_ne _ _ h

@[simp] theorem raiseAt_mem (n ev : Nat) (mask : W32) : (raiseAt n ev mask d).mem = d.mem := by rw [raiseAt_eq]; rfl
@[simp] theorem raiseAt_ecc (n ev : Nat) (mask : W32) : (raiseAt n ev mask d).ecc = d.ecc := by rw [raiseAt_eq]; rfl
@[simp] theorem raiseAt_dramMiB (n ev : Nat) (mask : W32) : (raiseAt n ev mask d).dramMiB = d.dramMiB := by rw [raiseAt_eq]; rfl
@[simp] theorem raiseAt_freeIdx (n ev : Nat) (mask : W32) : (raiseAt n ev mask d).freeIdx = d.freeIdx := by rw [raiseAt_eq]; rfl
@[simp] theorem raiseAt_bus (n ev : Nat) (mask : W32) : (raiseAt n ev mask d).bus = d.bus := by rw [raiseAt_eq]; rfl
@[simp] theorem raiseAt_pins (n ev : Nat) (mask : W32) : (raiseAt n ev mask d).pins = d.pins := by rw [raiseAt_eq]; rfl
@[simp] theorem raiseAt_frm (n ev : Nat) (mask : W32) : (raiseAt n ev mask d).frm = d.frm := by rw [raiseAt_eq]; rfl
@[simp] theorem raiseAt_arr (n ev : Nat) (mask : W32) : (raiseAt n ev mask d).arr = d.arr := by rw [raiseAt_eq]; rfl
@[simp] theorem raiseAt_cores (n ev : Nat) (mask : W32) : (raiseAt n ev mask d).cores = d.cores := by rw [raiseAt_eq]; rfl
@[simp] theorem raiseAt_ket (n ev : Nat) (mask : W32) : (raiseAt n ev mask d).ket = d.ket := by rw [raiseAt_eq]; rfl
@[simp] theorem raiseAt_ports (n ev : Nat) (mask : W32) : (raiseAt n ev mask d).ports = d.ports := by rw [raiseAt_eq]; rfl
@[simp] theorem raiseAt_fwRx (n ev : Nat) (mask : W32) : (raiseAt n ev mask d).fwRx = d.fwRx := by rw [raiseAt_eq]; rfl
@[simp] theorem raiseAt_sacnRx (n ev : Nat) (mask : W32) : (raiseAt n ev mask d).sacnRx = d.sacnRx := by rw [raiseAt_eq]; rfl
@[simp] theorem raiseAt_stRx (n ev : Nat) (mask : W32) : (raiseAt n ev mask d).stRx = d.stRx := by rw [raiseAt_eq]; rfl
@[simp] theorem raiseAt_pack (n ev : Nat) (mask : W32) : (raiseAt n ev mask d).pack = d.pack := by rw [raiseAt_eq]; rfl
@[simp] theorem raiseAt_dmx (n ev : Nat) (mask : W32) : (raiseAt n ev mask d).dmx = d.dmx := by rw [raiseAt_eq]; rfl
@[simp] theorem raiseAt_slow (n ev : Nat) (mask : W32) : (raiseAt n ev mask d).slow = d.slow := by rw [raiseAt_eq]; rfl
@[simp] theorem raiseAt_pair (n ev : Nat) (mask : W32) : (raiseAt n ev mask d).pair = d.pair := by rw [raiseAt_eq]; rfl
@[simp] theorem raiseAt_queues (n ev : Nat) (mask : W32) : (raiseAt n ev mask d).queues = d.queues := by rw [raiseAt_eq]; rfl
@[simp] theorem raiseAt_dma (n ev : Nat) (mask : W32) : (raiseAt n ev mask d).dma = d.dma := by rw [raiseAt_eq]; rfl
@[simp] theorem raiseAt_abort (n ev : Nat) (mask : W32) : (raiseAt n ev mask d).abort = d.abort := by rw [raiseAt_eq]; rfl
@[simp] theorem raiseAt_weevil (n ev : Nat) (mask : W32) : (raiseAt n ev mask d).weevil = d.weevil := by rw [raiseAt_eq]; rfl
@[simp] theorem raiseAt_calib (n ev : Nat) (mask : W32) : (raiseAt n ev mask d).calib = d.calib := by rw [raiseAt_eq]; rfl
@[simp] theorem raiseAt_scarab (n ev : Nat) (mask : W32) : (raiseAt n ev mask d).scarab = d.scarab := by rw [raiseAt_eq]; rfl
@[simp] theorem raiseAt_sys (n ev : Nat) (mask : W32) : (raiseAt n ev mask d).sys = d.sys := by rw [raiseAt_eq]; rfl

end Sys2Proof.Machine
end

