-- ==== Sys2Proof/Laws/Memory.lean ====
section
/-!
SUPPORT. Memory: which bytes a write changes, that every memory operation keeps the canonical form, and what reads and tears leave alone.
-/

namespace Sys2Proof.Machine

variable (d : Dev)

/-- A fold over a list keeps what each of its steps keeps. -/
theorem forEach_keeps {α β : Type} (p : Dev → β) (f : α → Dev → Dev) (h : ∀ x d, p (f x d) = p d) (l : List α) :
    p (forEach l f d) = p d := by
  unfold forEach
  induction l generalizing d with
  | nil => rfl
  | cons x r ih => simp only [List.foldl_cons]; rw [ih, h]

/-- A fold over a list keeps an invariant that each of its steps keeps. -/
theorem forEach_inv {α : Type} (p : Dev → Prop) (f : α → Dev → Dev) (h : ∀ x d, p d → p (f x d)) (l : List α) (hd : p d) :
    p (forEach l f d) := by
  unfold forEach
  induction l generalizing d with
  | nil => exact hd
  | cons x r ih => exact ih _ (h x d hd)

/-- A conditional update keeps what the update keeps. -/
theorem when_keeps {β : Type} (p : Dev → β) (c : Bool) (f : Dev → Dev) (h : ∀ d, p (f d) = p d) : p (when c f d) = p d := by
  unfold when; split
  · exact h d
  · rfl

@[simp] theorem pmon_mem (src n : Nat) : (pmon src n d).mem = d.mem := by
  unfold pmon
  exact when_keeps d (·.mem) _ _ fun d => forEach_keeps d (·.mem)
    (fun i => when (rf d (Reg.PMON_SEL i) 0 10 == src) (bump64 (Reg.PMON_CNT_LO i) n)) (fun i e => when_keeps e (·.mem) _ _ fun e => by
      simp [bump64, wr64]) _

/-! Writes of bytes. -/

@[simp] theorem putBytes_regs (a : Nat) (bs : List W8) : (putBytes a bs d).regs = d.regs := by
  induction bs generalizing a d with
  | nil => rfl
  | cons b r ih => simp only [putBytes, ih]

/-- A write of bytes sets those bytes and no others. -/
theorem getByte_putBytes (a x : Nat) (bs : List W8) :
    getByte (putBytes a bs d) x = if a ≤ x ∧ x < a + bs.length then byteAt bs (x - a) else getByte d x := by
  induction bs generalizing a d with
  | nil => simp [putBytes]
  | cons b r ih =>
    rw [putBytes, ih]
    by_cases h1 : a + 1 ≤ x ∧ x < a + 1 + r.length
    · have : x - a = (x - (a + 1)) + 1 := by omega
      rw [if_pos h1, if_pos (by simp; omega)]
      simp [byteAt, this]
    · rw [if_neg h1]
      by_cases h2 : x = a
      · subst h2; simp [getByte, byteAt]
      · rw [if_neg (by simp; omega)]; simp [getByte, Tab.get_put_ne _ _ _ _ _ h2]

/-- A write of bytes keeps the memory canonical. -/
theorem putBytes_wf (a : Nat) (bs : List W8) (h : Memory.wf d.mem) : Memory.wf (putBytes a bs d).mem := by
  induction bs generalizing a d with
  | nil => exact h
  | cons b r ih => exact ih _ _ (Tab.canonical_put a b h)

/-! Word errors and tears leave the bytes alone. -/

@[simp] theorem noteSingle_mem (w : Nat) : (noteSingle w d).mem = d.mem := by
  simp only [noteSingle]; split <;> simp [raiseKet, bumpSat]

@[simp] theorem noteMulti_mem (w : Nat) : (noteMulti w d).mem = d.mem := by
  simp only [noteMulti]; split
  · simp only [raiseKet, raiseAt_mem, bumpSat, wr_mem]; exact when_keeps d (·.mem) _ _ fun d => wr_mem d _ _
  · rfl

@[simp] theorem touchRead_mem (w : Nat) : (touchRead w d).mem = d.mem := by
  unfold touchRead; split <;> simp

@[simp] theorem touchWrite_mem (a n w : Nat) : (touchWrite a n w d).mem = d.mem := by
  unfold touchWrite
  split
  · rfl
  · split <;> simp
  · split
    · simp
    · split <;> simp [raiseKet]

@[simp] theorem tear_mem (rs : List (Nat × Nat)) : (tear rs d).mem = d.mem := by
  refine forEach_keeps d (·.mem) _ (fun h d => ?_) _
  simp only [tearHead]
  split
  · rfl
  · split
    · rfl
    · split
      · rfl
      · simp only [raiseHead, raiseAt_mem, pmonHead, pmon_mem, bumpSat, wr_mem]
        exact when_keeps d (·.mem) _ _ fun d => wr_mem d _ _

/-- A read leaves every byte. -/
@[simp] theorem load_mem (a n : Nat) : (load a n d).2.mem = d.mem :=
  forEach_keeps d (·.mem) _ (fun w d => touchRead_mem d w) _

theorem storeRange_mem (a : Nat) (bs : List W8) : (storeRange a bs d).mem = (putBytes a bs d).mem := by
  have h : (forEach (wordsOf a bs.length) (touchWrite a bs.length) d).mem = d.mem :=
    forEach_keeps d (·.mem) _ (fun w d => touchWrite_mem d a _ w) _
  unfold storeRange
  generalize forEach (wordsOf a bs.length) (touchWrite a bs.length) d = e at h
  induction bs generalizing a d e with
  | nil => exact h
  | cons b r ih => exact ih _ _ _ (by simp [h])

/-- One store changes only the bytes it stores to. -/
theorem getByte_store (a x : Nat) (bs : List W8) :
    getByte (store a bs d) x = if a ≤ x ∧ x < a + bs.length then byteAt bs (x - a) else getByte d x := by
  rw [← getByte_putBytes]
  simp only [getByte, store, storeRanges, tear_mem, forEach, List.foldl_cons, List.foldl_nil, storeRange_mem]

/-- Every store keeps the memory canonical. -/
theorem storeRanges_wf (rs : List (Nat × List W8)) (h : Memory.wf d.mem) : Memory.wf (storeRanges rs d).mem := by
  simp only [storeRanges, tear_mem]
  refine forEach_inv d (fun d => Memory.wf d.mem) _ (fun x d hd => ?_) _ h
  rw [storeRange_mem]; exact putBytes_wf d _ _ hd

theorem store_wf (a : Nat) (bs : List W8) (h : Memory.wf d.mem) : Memory.wf (store a bs d).mem := storeRanges_wf d _ h

/-- A read keeps the memory canonical. -/
theorem load_wf (a n : Nat) (h : Memory.wf d.mem) : Memory.wf (load a n d).2.mem := by rw [load_mem]; exact h

/-- The reset memory is canonical. -/
theorem reset_mem_wf : Memory.wf State.reset.dev.mem := ⟨rfl, by simp [State.reset, Dev.reset]⟩

end Sys2Proof.Machine
end

