-- ==== Sys2Proof/Laws/Exec.lean ====
section
/-!
SUPPORT. The form of every meaning: which commands leave the clock alone, and that none of them touches the queue.
-/

namespace Sys2Proof.Machine

/-- The commands whose effect may reach the clock: TICK, POWER_ON, the clock's own, and those that can write any register. -/
def mayMoveClock : Instr → Bool
  | .tick => true
  | .tbIncrCommit .. => true
  | .tbCmdStep .. => true
  | .tbCmdSet .. => true
  | .timeExchange .. => true
  | .timeMessage .. => true
  | .csrWrite .. => true
  | .pairLoWrite .. => true
  | .pairHiWrite .. => true
  | .powerOn => true
  | .alu .. => true
  | .immediateOp .. => true
  | .lui .. => true
  | .shifti .. => true
  | .nop .. => true
  | .movl .. => true
  | .movk .. => true
  | .movfl .. => true
  | .clrfl .. => true
  | .trap .. => true
  | .branch .. => true
  | .jal .. => true
  | .jalr .. => true
  | .load .. => true
  | .store .. => true
  | .vint .. => true
  | .vfix .. => true
  | .vfp .. => true
  | .vpred .. => true
  | .vmove .. => true
  | .vld .. => true
  | .vst .. => true
  | .vgather .. => true
  | .vscatter .. => true
  | .atom .. => true
  | .fence .. => true
  | .getc .. => true
  | .setc .. => true
  | .resume .. => true
  | .doze .. => true
  | .callp .. => true
  | .emit .. => true
  | .emitv .. => true
  | .pour .. => true
  | .delay .. => true
  | .endBrew .. => true
  | .cancel .. => true
  | .kmake .. => true
  | .ksetf .. => true
  | .kaddf .. => true
  | .kaddi .. => true
  | .ksett .. => true
  | .kgett .. => true
  | .kgetf .. => true
  | .kgeti .. => true
  | .sample2 .. => true
  | .sample3 .. => true
  | .matrix .. => true
  | .lut3 .. => true
  | .curve .. => true
  | .dither .. => true
  | _ => false

/-- Every meaning on a runner answers a next state, and leaves the queue. -/
theorem runClass_form (op : Op) (who : Who) (f) (s : State) :
    runClass op who f s = .next { s with clk := (runAs op who f s.clk s.dev).1, dev := (runAs op who f s.clk s.dev).2 } := rfl

set_option maxRecDepth 20000 in
/-- A command that leaves the clock alone answers a next state that differs in the device only. -/
theorem exec_dev (c : Instr) (s : State) (h : mayMoveClock c = false) : ∃ d, exec c s = .next { s with dev := d } := by
  cases c with
  | tick => cases h
  | tbIncrCommit => cases h
  | tbCmdStep => cases h
  | tbCmdSet => cases h
  | tbNowRead => exact ⟨_, rfl⟩
  | tbShortRead => exact ⟨_, rfl⟩
  | refLoss => exact ⟨_, rfl⟩
  | pllUnlock => exact ⟨_, rfl⟩
  | ppsInEdge => exact ⟨_, rfl⟩
  | ppsInLost => exact ⟨_, rfl⟩
  | tbPpsCapRead => exact ⟨_, rfl⟩
  | ppsOutRise => exact ⟨_, rfl⟩
  | ppsOutFall => exact ⟨_, rfl⟩
  | evtCapEdge => exact ⟨_, rfl⟩
  | tbEvtcapPop => exact ⟨_, rfl⟩
  | perOutActiveEdge => exact ⟨_, rfl⟩
  | perOutInactiveEdge => exact ⟨_, rfl⟩
  | frmEnable => exact ⟨_, rfl⟩
  | frmDisable => exact ⟨_, rfl⟩
  | frmApply => exact ⟨_, rfl⟩
  | boundaryEmit => exact ⟨_, rfl⟩
  | holdEnd => exact ⟨_, rfl⟩
  | frmNumberRead => exact ⟨_, rfl⟩
  | houseSyncEdge => exact ⟨_, rfl⟩
  | hsyncLost => exact ⟨_, rfl⟩
  | alu => cases h
  | immediateOp => cases h
  | lui => cases h
  | shifti => cases h
  | nop => cases h
  | movl => cases h
  | movk => cases h
  | movfl => cases h
  | clrfl => cases h
  | trap => cases h
  | branch => cases h
  | jal => cases h
  | jalr => cases h
  | load => cases h
  | store => cases h
  | vint => cases h
  | vfix => cases h
  | vfp => cases h
  | vpred => cases h
  | vmove => cases h
  | vld => cases h
  | vst => cases h
  | vgather => cases h
  | vscatter => cases h
  | atom => cases h
  | fence => cases h
  | getc => cases h
  | setc => cases h
  | resume => cases h
  | doze => cases h
  | dozeWake => exact ⟨_, rfl⟩
  | callp => cases h
  | coreInterrupt => exact ⟨_, rfl⟩
  | swarmIcacheInv => exact ⟨_, rfl⟩
  | emit => cases h
  | emitv => cases h
  | pour => cases h
  | delay => cases h
  | endBrew => cases h
  | cancel => cases h
  | kmake => cases h
  | ksetf => cases h
  | kaddf => cases h
  | kaddi => cases h
  | ksett => cases h
  | kgett => cases h
  | kgetf => cases h
  | kgeti => cases h
  | leafArrive => exact ⟨_, rfl⟩
  | waitingLeafDeliver => exact ⟨_, rfl⟩
  | dispatch => exact ⟨_, rfl⟩
  | brewOvertime => exact ⟨_, rfl⟩
  | cancelArrive => exact ⟨_, rfl⟩
  | markerExpire => exact ⟨_, rfl⟩
  | schedTmplWrite => exact ⟨_, rfl⟩
  | schedTmplRead => exact ⟨_, rfl⟩
  | schedLeafPushLeaf => exact ⟨_, rfl⟩
  | schedLeafPushCancel => exact ⟨_, rfl⟩
  | hostPortRelease => exact ⟨_, rfl⟩
  | schedRouteSetWrite => exact ⟨_, rfl⟩
  | pourResume => exact ⟨_, rfl⟩
  | flowTombstone => exact ⟨_, rfl⟩
  | flowRelease => exact ⟨_, rfl⟩
  | recordHandOn => exact ⟨_, rfl⟩
  | flowExpiry => exact ⟨_, rfl⟩
  | flowEnable => exact ⟨_, rfl⟩
  | flowDisable => exact ⟨_, rfl⟩
  | flowSkip => exact ⟨_, rfl⟩
  | flowReset => exact ⟨_, rfl⟩
  | delayTick => exact ⟨_, rfl⟩
  | delayDeferredRelease => exact ⟨_, rfl⟩
  | delayFlush => exact ⟨_, rfl⟩
  | sample2 => cases h
  | sample3 => cases h
  | matrix => cases h
  | lut3 => cases h
  | curve => cases h
  | dither => cases h
  | infuserQueueAccept => exact ⟨_, rfl⟩
  | infuserResult => exact ⟨_, rfl⟩
  | kettleScrub => exact ⟨_, rfl⟩
  | kettleWindowRead => exact ⟨_, rfl⟩
  | kettleWindowWrite => exact ⟨_, rfl⟩
  | ketSurfWrite => exact ⟨_, rfl⟩
  | ketSurfRead => exact ⟨_, rfl⟩
  | rheadEnable => exact ⟨_, rfl⟩
  | rheadDisable => exact ⟨_, rfl⟩
  | timingApply => exact ⟨_, rfl⟩
  | vsyncStart => exact ⟨_, rfl⟩
  | abandonedWait => exact ⟨_, rfl⟩
  | latchInstant => exact ⟨_, rfl⟩
  | rheadCommit => exact ⟨_, rfl⟩
  | scanLate => exact ⟨_, rfl⟩
  | hpd => exact ⟨_, rfl⟩
  | sportEnable => exact ⟨_, rfl⟩
  | sportDisable => exact ⟨_, rfl⟩
  | linkUp => exact ⟨_, rfl⟩
  | linkDown => exact ⟨_, rfl⟩
  | lportDuplexChange => exact ⟨_, rfl⟩
  | txqEnable => exact ⟨_, rfl⟩
  | txqDisable => exact ⟨_, rfl⟩
  | txqTailWrite => exact ⟨_, rfl⟩
  | txDescRead => exact ⟨_, rfl⟩
  | lqOffer => exact ⟨_, rfl⟩
  | packerOffer => exact ⟨_, rfl⟩
  | timedLaunch => exact ⟨_, rfl⟩
  | windowEnd => exact ⟨_, rfl⟩
  | untimedStart => exact ⟨_, rfl⟩
  | txFrameEnd => exact ⟨_, rfl⟩
  | txUnderrun => exact ⟨_, rfl⟩
  | pauseReceive => exact ⟨_, rfl⟩
  | pauseExpire => exact ⟨_, rfl⟩
  | preemptVerify => exact ⟨_, rfl⟩
  | preemptResume => exact ⟨_, rfl⟩
  | collision => exact ⟨_, rfl⟩
  | backoffExpire => exact ⟨_, rfl⟩
  | rxSfd => exact ⟨_, rfl⟩
  | rxBufferNeed => exact ⟨_, rfl⟩
  | rxFrameEnd => exact ⟨_, rfl⟩
  | rxqEnable => exact ⟨_, rfl⟩
  | rxqDisable => exact ⟨_, rfl⟩
  | rxqTailWrite => exact ⟨_, rfl⟩
  | ringWmWrite => exact ⟨_, rfl⟩
  | saucerPop => exact ⟨_, rfl⟩
  | packUnivWrite => exact ⟨_, rfl⟩
  | packUnivRead => exact ⟨_, rfl⟩
  | sacnRecord => exact ⟨_, rfl⟩
  | recordDeadline => exact ⟨_, rfl⟩
  | syncPacketBuild => exact ⟨_, rfl⟩
  | discovery => exact ⟨_, rfl⟩
  | sacnInPacket => exact ⟨_, rfl⟩
  | inLoss => exact ⟨_, rfl⟩
  | packInWrite => exact ⟨_, rfl⟩
  | packInRead => exact ⟨_, rfl⟩
  | st2110Packet => exact ⟨_, rfl⟩
  | trazhCompose => exact ⟨_, rfl⟩
  | dmxRecord => exact ⟨_, rfl⟩
  | dmxRecordDeadline => exact ⟨_, rfl⟩
  | dmxBreak => exact ⟨_, rfl⟩
  | dmxFrameEnd => exact ⟨_, rfl⟩
  | rdmGo => exact ⟨_, rfl⟩
  | rdmRequestSend => exact ⟨_, rfl⟩
  | rdmReply => exact ⟨_, rfl⟩
  | rdmTimeout => exact ⟨_, rfl⟩
  | dmxRxFrame => exact ⟨_, rfl⟩
  | rdmRequestRx => exact ⟨_, rfl⟩
  | rdmLate => exact ⟨_, rfl⟩
  | ltcRxFrame => exact ⟨_, rfl⟩
  | ltcRxPop => exact ⟨_, rfl⟩
  | ltcTxFrame => exact ⟨_, rfl⟩
  | midiRxByte => exact ⟨_, rfl⟩
  | midiRxPop => exact ⟨_, rfl⟩
  | midiTxWrite => exact ⟨_, rfl⟩
  | mtcQuarterFrame => exact ⟨_, rfl⟩
  | pairEnable => exact ⟨_, rfl⟩
  | cricketBlockRx => exact ⟨_, rfl⟩
  | cricketResendTimeout => exact ⟨_, rfl⟩
  | cricketLinkUp => exact ⟨_, rfl⟩
  | timeExchange => cases h
  | timeMessage => cases h
  | mirrorFrameRx => exact ⟨_, rfl⟩
  | markRx => exact ⟨_, rfl⟩
  | mirrorLate => exact ⟨_, rfl⟩
  | heartbeatSend => exact ⟨_, rfl⟩
  | heartbeatRx => exact ⟨_, rfl⟩
  | linkLost => exact ⟨_, rfl⟩
  | claim => exact ⟨_, rfl⟩
  | claimVerify => exact ⟨_, rfl⟩
  | digestSend => exact ⟨_, rfl⟩
  | digestRx => exact ⟨_, rfl⟩
  | digestMissing => exact ⟨_, rfl⟩
  | mismatchMessageRx => exact ⟨_, rfl⟩
  | adjResult => exact ⟨_, rfl⟩
  | pairWdogKick => exact ⟨_, rfl⟩
  | wdogExpired => exact ⟨_, rfl⟩
  | handover => exact ⟨_, rfl⟩
  | handoverMessageRx => exact ⟨_, rfl⟩
  | handoverRelease => exact ⟨_, rfl⟩
  | handoverCheck => exact ⟨_, rfl⟩
  | rejoin => exact ⟨_, rfl⟩
  | healthRx => exact ⟨_, rfl⟩
  | csrWrite => cases h
  | pairLoWrite => cases h
  | pairHiWrite => cases h
  | pairLoRead => exact ⟨_, rfl⟩
  | indDataRead => exact ⟨_, rfl⟩
  | indDataWrite => exact ⟨_, rfl⟩
  | indErr => exact ⟨_, rfl⟩
  | guardUnlockWrite => exact ⟨_, rfl⟩
  | unlockExpire => exact ⟨_, rfl⟩
  | sealPassEnd => exact ⟨_, rfl⟩
  | sealCapture => exact ⟨_, rfl⟩
  | quePush => exact ⟨_, rfl⟩
  | quePop => exact ⟨_, rfl⟩
  | queSpill => exact ⟨_, rfl⟩
  | queRefill => exact ⟨_, rfl⟩
  | queuePtrMismatch => exact ⟨_, rfl⟩
  | queEnable => exact ⟨_, rfl⟩
  | queDisable => exact ⟨_, rfl⟩
  | dmaEnable => exact ⟨_, rfl⟩
  | dmaTailWrite => exact ⟨_, rfl⟩
  | dmaDescDone => exact ⟨_, rfl⟩
  | sysAbortSportTxq => exact ⟨_, rfl⟩
  | sysAbortLportTxq => exact ⟨_, rfl⟩
  | sysAbortSportRxq => exact ⟨_, rfl⟩
  | sysAbortLportRxq => exact ⟨_, rfl⟩
  | sysAbortDma => exact ⟨_, rfl⟩
  | sysAbortHead => exact ⟨_, rfl⟩
  | sysAbortSwarm => exact ⟨_, rfl⟩
  | sysAbortFlow => exact ⟨_, rfl⟩
  | sysAbortPacker => exact ⟨_, rfl⟩
  | sysAbortWeevil => exact ⟨_, rfl⟩
  | sysAbortCricket => exact ⟨_, rfl⟩
  | abortDone => exact ⟨_, rfl⟩
  | weevilRun => exact ⟨_, rfl⟩
  | serviceSliceStart => exact ⟨_, rfl⟩
  | adjSliceStart => exact ⟨_, rfl⟩
  | sliceEnd => exact ⟨_, rfl⟩
  | sliceTimeout => exact ⟨_, rfl⟩
  | swarmSpareGo => exact ⟨_, rfl⟩
  | calMeasure => exact ⟨_, rfl⟩
  | calAutoTrigger => exact ⟨_, rfl⟩
  | calMeasurementEnd => exact ⟨_, rfl⟩
  | calStore => exact ⟨_, rfl⟩
  | calStoreDone => exact ⟨_, rfl⟩
  | lcMoveProvisioned => exact ⟨_, rfl⟩
  | lcMoveDeployed => exact ⟨_, rfl⟩
  | lcMoveDiagnostic => exact ⟨_, rfl⟩
  | lcMoveRetired => exact ⟨_, rfl⟩
  | lcChange => exact ⟨_, rfl⟩
  | svnRaise => exact ⟨_, rfl⟩
  | pkgOpen => exact ⟨_, rfl⟩
  | pkgOpenDone => exact ⟨_, rfl⟩
  | pkgClose => exact ⟨_, rfl⟩
  | windowZeroDone => exact ⟨_, rfl⟩
  | dramWindowAccess => exact ⟨_, rfl⟩
  | pinWrite => exact ⟨_, rfl⟩
  | pinRead => exact ⟨_, rfl⟩
  | pairForm => exact ⟨_, rfl⟩
  | scarabMessageRx => exact ⟨_, rfl⟩
  | sessCmd => exact ⟨_, rfl⟩
  | chalNew => exact ⟨_, rfl⟩
  | chalExpire => exact ⟨_, rfl⟩
  | tokenGo => exact ⟨_, rfl⟩
  | powerOn => cases h
  | sysResetN => exact ⟨_, rfl⟩
  | sysResetSystem => exact ⟨_, rfl⟩
  | sysResetRecovery => exact ⟨_, rfl⟩
  | linkReset => exact ⟨_, rfl⟩
  | startup => exact ⟨_, rfl⟩
  | sysBootGo => exact ⟨_, rfl⟩
  | swarmClkWrite => exact ⟨_, rfl⟩
  | tempSample => exact ⟨_, rfl⟩
  | pmonStartNext => exact ⟨_, rfl⟩
  | pmonFreezeNext => exact ⟨_, rfl⟩
  | msixAck => exact ⟨_, rfl⟩
  | sysSwSet => exact ⟨_, rfl⟩
  | gpioEdge => exact ⟨_, rfl⟩
  | i2cGo => exact ⟨_, rfl⟩
  | i2cDone => exact ⟨_, rfl⟩
  | i2cStretchTimeout => exact ⟨_, rfl⟩
  | i2cAlert => exact ⟨_, rfl⟩
  | spiGo => exact ⟨_, rfl⟩
  | spiDone => exact ⟨_, rfl⟩
  | uartTxWrite => exact ⟨_, rfl⟩
  | uartRxByte => exact ⟨_, rfl⟩
  | uartRxPop => exact ⟨_, rfl⟩
  | mdioGo => exact ⟨_, rfl⟩
  | mdioDone => exact ⟨_, rfl⟩
  | pllRelock => exact ⟨_, rfl⟩
  | lineStart => exact ⟨_, rfl⟩
  | tapInstruction => exact ⟨_, rfl⟩
  | fabricLinkFatal => exact ⟨_, rfl⟩
  | midiTxByte => exact ⟨_, rfl⟩
  | uartTxByte => exact ⟨_, rfl⟩
  | msixUnmask => exact ⟨_, rfl⟩

set_option maxRecDepth 20000 in
/-- A command that may reach the clock answers a next state, and leaves the queue. -/
theorem exec_clk (c : Instr) (s : State) (h : mayMoveClock c = true) : ∃ k d, exec c s = .next { s with clk := k, dev := d } := by
  cases c with
  | tick => exact ⟨_, _, rfl⟩
  | tbIncrCommit => exact ⟨_, _, rfl⟩
  | tbCmdStep => exact ⟨_, _, rfl⟩
  | tbCmdSet => exact ⟨_, _, rfl⟩
  | tbNowRead => cases h
  | tbShortRead => cases h
  | refLoss => cases h
  | pllUnlock => cases h
  | ppsInEdge => cases h
  | ppsInLost => cases h
  | tbPpsCapRead => cases h
  | ppsOutRise => cases h
  | ppsOutFall => cases h
  | evtCapEdge => cases h
  | tbEvtcapPop => cases h
  | perOutActiveEdge => cases h
  | perOutInactiveEdge => cases h
  | frmEnable => cases h
  | frmDisable => cases h
  | frmApply => cases h
  | boundaryEmit => cases h
  | holdEnd => cases h
  | frmNumberRead => cases h
  | houseSyncEdge => cases h
  | hsyncLost => cases h
  | alu => exact ⟨_, _, rfl⟩
  | immediateOp => exact ⟨_, _, rfl⟩
  | lui => exact ⟨_, _, rfl⟩
  | shifti => exact ⟨_, _, rfl⟩
  | nop => exact ⟨_, _, rfl⟩
  | movl => exact ⟨_, _, rfl⟩
  | movk => exact ⟨_, _, rfl⟩
  | movfl => exact ⟨_, _, rfl⟩
  | clrfl => exact ⟨_, _, rfl⟩
  | trap => exact ⟨_, _, rfl⟩
  | branch => exact ⟨_, _, rfl⟩
  | jal => exact ⟨_, _, rfl⟩
  | jalr => exact ⟨_, _, rfl⟩
  | load => exact ⟨_, _, rfl⟩
  | store => exact ⟨_, _, rfl⟩
  | vint => exact ⟨_, _, rfl⟩
  | vfix => exact ⟨_, _, rfl⟩
  | vfp => exact ⟨_, _, rfl⟩
  | vpred => exact ⟨_, _, rfl⟩
  | vmove => exact ⟨_, _, rfl⟩
  | vld => exact ⟨_, _, rfl⟩
  | vst => exact ⟨_, _, rfl⟩
  | vgather => exact ⟨_, _, rfl⟩
  | vscatter => exact ⟨_, _, rfl⟩
  | atom => exact ⟨_, _, rfl⟩
  | fence => exact ⟨_, _, rfl⟩
  | getc => exact ⟨_, _, rfl⟩
  | setc => exact ⟨_, _, rfl⟩
  | resume => exact ⟨_, _, rfl⟩
  | doze => exact ⟨_, _, rfl⟩
  | dozeWake => cases h
  | callp => exact ⟨_, _, rfl⟩
  | coreInterrupt => cases h
  | swarmIcacheInv => cases h
  | emit => exact ⟨_, _, rfl⟩
  | emitv => exact ⟨_, _, rfl⟩
  | pour => exact ⟨_, _, rfl⟩
  | delay => exact ⟨_, _, rfl⟩
  | endBrew => exact ⟨_, _, rfl⟩
  | cancel => exact ⟨_, _, rfl⟩
  | kmake => exact ⟨_, _, rfl⟩
  | ksetf => exact ⟨_, _, rfl⟩
  | kaddf => exact ⟨_, _, rfl⟩
  | kaddi => exact ⟨_, _, rfl⟩
  | ksett => exact ⟨_, _, rfl⟩
  | kgett => exact ⟨_, _, rfl⟩
  | kgetf => exact ⟨_, _, rfl⟩
  | kgeti => exact ⟨_, _, rfl⟩
  | leafArrive => cases h
  | waitingLeafDeliver => cases h
  | dispatch => cases h
  | brewOvertime => cases h
  | cancelArrive => cases h
  | markerExpire => cases h
  | schedTmplWrite => cases h
  | schedTmplRead => cases h
  | schedLeafPushLeaf => cases h
  | schedLeafPushCancel => cases h
  | hostPortRelease => cases h
  | schedRouteSetWrite => cases h
  | pourResume => cases h
  | flowTombstone => cases h
  | flowRelease => cases h
  | recordHandOn => cases h
  | flowExpiry => cases h
  | flowEnable => cases h
  | flowDisable => cases h
  | flowSkip => cases h
  | flowReset => cases h
  | delayTick => cases h
  | delayDeferredRelease => cases h
  | delayFlush => cases h
  | sample2 => exact ⟨_, _, rfl⟩
  | sample3 => exact ⟨_, _, rfl⟩
  | matrix => exact ⟨_, _, rfl⟩
  | lut3 => exact ⟨_, _, rfl⟩
  | curve => exact ⟨_, _, rfl⟩
  | dither => exact ⟨_, _, rfl⟩
  | infuserQueueAccept => cases h
  | infuserResult => cases h
  | kettleScrub => cases h
  | kettleWindowRead => cases h
  | kettleWindowWrite => cases h
  | ketSurfWrite => cases h
  | ketSurfRead => cases h
  | rheadEnable => cases h
  | rheadDisable => cases h
  | timingApply => cases h
  | vsyncStart => cases h
  | abandonedWait => cases h
  | latchInstant => cases h
  | rheadCommit => cases h
  | scanLate => cases h
  | hpd => cases h
  | sportEnable => cases h
  | sportDisable => cases h
  | linkUp => cases h
  | linkDown => cases h
  | lportDuplexChange => cases h
  | txqEnable => cases h
  | txqDisable => cases h
  | txqTailWrite => cases h
  | txDescRead => cases h
  | lqOffer => cases h
  | packerOffer => cases h
  | timedLaunch => cases h
  | windowEnd => cases h
  | untimedStart => cases h
  | txFrameEnd => cases h
  | txUnderrun => cases h
  | pauseReceive => cases h
  | pauseExpire => cases h
  | preemptVerify => cases h
  | preemptResume => cases h
  | collision => cases h
  | backoffExpire => cases h
  | rxSfd => cases h
  | rxBufferNeed => cases h
  | rxFrameEnd => cases h
  | rxqEnable => cases h
  | rxqDisable => cases h
  | rxqTailWrite => cases h
  | ringWmWrite => cases h
  | saucerPop => cases h
  | packUnivWrite => cases h
  | packUnivRead => cases h
  | sacnRecord => cases h
  | recordDeadline => cases h
  | syncPacketBuild => cases h
  | discovery => cases h
  | sacnInPacket => cases h
  | inLoss => cases h
  | packInWrite => cases h
  | packInRead => cases h
  | st2110Packet => cases h
  | trazhCompose => cases h
  | dmxRecord => cases h
  | dmxRecordDeadline => cases h
  | dmxBreak => cases h
  | dmxFrameEnd => cases h
  | rdmGo => cases h
  | rdmRequestSend => cases h
  | rdmReply => cases h
  | rdmTimeout => cases h
  | dmxRxFrame => cases h
  | rdmRequestRx => cases h
  | rdmLate => cases h
  | ltcRxFrame => cases h
  | ltcRxPop => cases h
  | ltcTxFrame => cases h
  | midiRxByte => cases h
  | midiRxPop => cases h
  | midiTxWrite => cases h
  | mtcQuarterFrame => cases h
  | pairEnable => cases h
  | cricketBlockRx => cases h
  | cricketResendTimeout => cases h
  | cricketLinkUp => cases h
  | timeExchange => exact ⟨_, _, rfl⟩
  | timeMessage => exact ⟨_, _, rfl⟩
  | mirrorFrameRx => cases h
  | markRx => cases h
  | mirrorLate => cases h
  | heartbeatSend => cases h
  | heartbeatRx => cases h
  | linkLost => cases h
  | claim => cases h
  | claimVerify => cases h
  | digestSend => cases h
  | digestRx => cases h
  | digestMissing => cases h
  | mismatchMessageRx => cases h
  | adjResult => cases h
  | pairWdogKick => cases h
  | wdogExpired => cases h
  | handover => cases h
  | handoverMessageRx => cases h
  | handoverRelease => cases h
  | handoverCheck => cases h
  | rejoin => cases h
  | healthRx => cases h
  | csrWrite => exact ⟨_, _, rfl⟩
  | pairLoWrite => exact ⟨_, _, rfl⟩
  | pairHiWrite => exact ⟨_, _, rfl⟩
  | pairLoRead => cases h
  | indDataRead => cases h
  | indDataWrite => cases h
  | indErr => cases h
  | guardUnlockWrite => cases h
  | unlockExpire => cases h
  | sealPassEnd => cases h
  | sealCapture => cases h
  | quePush => cases h
  | quePop => cases h
  | queSpill => cases h
  | queRefill => cases h
  | queuePtrMismatch => cases h
  | queEnable => cases h
  | queDisable => cases h
  | dmaEnable => cases h
  | dmaTailWrite => cases h
  | dmaDescDone => cases h
  | sysAbortSportTxq => cases h
  | sysAbortLportTxq => cases h
  | sysAbortSportRxq => cases h
  | sysAbortLportRxq => cases h
  | sysAbortDma => cases h
  | sysAbortHead => cases h
  | sysAbortSwarm => cases h
  | sysAbortFlow => cases h
  | sysAbortPacker => cases h
  | sysAbortWeevil => cases h
  | sysAbortCricket => cases h
  | abortDone => cases h
  | weevilRun => cases h
  | serviceSliceStart => cases h
  | adjSliceStart => cases h
  | sliceEnd => cases h
  | sliceTimeout => cases h
  | swarmSpareGo => cases h
  | calMeasure => cases h
  | calAutoTrigger => cases h
  | calMeasurementEnd => cases h
  | calStore => cases h
  | calStoreDone => cases h
  | lcMoveProvisioned => cases h
  | lcMoveDeployed => cases h
  | lcMoveDiagnostic => cases h
  | lcMoveRetired => cases h
  | lcChange => cases h
  | svnRaise => cases h
  | pkgOpen => cases h
  | pkgOpenDone => cases h
  | pkgClose => cases h
  | windowZeroDone => cases h
  | dramWindowAccess => cases h
  | pinWrite => cases h
  | pinRead => cases h
  | pairForm => cases h
  | scarabMessageRx => cases h
  | sessCmd => cases h
  | chalNew => cases h
  | chalExpire => cases h
  | tokenGo => cases h
  | powerOn => exact ⟨_, _, rfl⟩
  | sysResetN => cases h
  | sysResetSystem => cases h
  | sysResetRecovery => cases h
  | linkReset => cases h
  | startup => cases h
  | sysBootGo => cases h
  | swarmClkWrite => cases h
  | tempSample => cases h
  | pmonStartNext => cases h
  | pmonFreezeNext => cases h
  | msixAck => cases h
  | sysSwSet => cases h
  | gpioEdge => cases h
  | i2cGo => cases h
  | i2cDone => cases h
  | i2cStretchTimeout => cases h
  | i2cAlert => cases h
  | spiGo => cases h
  | spiDone => cases h
  | uartTxWrite => cases h
  | uartRxByte => cases h
  | uartRxPop => cases h
  | mdioGo => cases h
  | mdioDone => cases h
  | pllRelock => cases h
  | lineStart => cases h
  | tapInstruction => cases h
  | fabricLinkFatal => cases h
  | midiTxByte => cases h
  | uartTxByte => cases h
  | msixUnmask => cases h

end Sys2Proof.Machine
end

