-- ==== Sys2Proof/Laws/Clock.lean ====
section
/-!
SUPPORT. What the commands that reach the clock do to it (R16, R19, R23).
-/

namespace Sys2Proof.Machine

/-- From k to k' the counter stands, TIME_VALID is not lost, and an increment in range stays in range. -/
def ClkKeeps (k k' : Clk) : Prop :=
  k'.ticks = k.ticks ∧ (k.tb.timeValid = true → k'.tb.timeValid = true) ∧ (incrOk k.tb.incr = true → incrOk k'.tb.incr = true)

theorem ClkKeeps.refl {k : Clk} : ClkKeeps k k := ⟨rfl, id, id⟩

theorem reanchor_keeps {v : BitVec 56} (k : Clk) (h : incrOk v = true) : ClkKeeps k (reanchor v k) := ⟨rfl, id, fun _ => h⟩

theorem incrCommit_keeps (req : Req) (v : W32) (k : Clk) (d : Dev) : ClkKeeps k (incrCommit req v k d).1 := by
  simp only [incrCommit]
  split
  · exact .refl
  · split
    · exact .refl
    · split
      · next h => exact reanchor_keeps k h
      · exact .refl

theorem moveTime_keeps (tb : Timebase) (k : Clk) (d : Dev) (h : tb.incr = k.tb.incr) : ClkKeeps k (moveTime tb k d).1 :=
  ⟨rfl, fun _ => rfl, fun hk => by simpa [moveTime, h] using hk⟩

theorem stepTime_keeps (x : Time) (k : Clk) (d : Dev) : ClkKeeps k (stepTime x k d).1 := by
  unfold stepTime
  split
  · exact ⟨rfl, fun _ => rfl, id⟩
  · split
    · exact .refl
    · exact moveTime_keeps _ k d rfl

theorem setTime_keeps (x : Time) (k : Clk) (d : Dev) : ClkKeeps k (setTime x k d).1 := moveTime_keeps _ k d rfl

theorem tbCmd_keeps (req : Req) (v : W32) (k : Clk) (d : Dev) : ClkKeeps k (tbCmd req v k d).1 := by
  unfold tbCmd
  split
  · exact .refl
  · split
    · exact .refl
    · split
      · unfold tbSet; split
        · exact .refl
        · exact setTime_keeps _ k d
      · split
        · simp only [tbStep]; split <;> exact stepTime_keeps _ k d
        · exact .refl

theorem ttAdjust_keeps (k : Clk) (d : Dev) : ClkKeeps k (ttAdjust k d).1 := by
  refine reanchor_keeps k ?_
  have h : (free d).1.toNat % incrCount < incrCount := Nat.mod_lt _ (by decide)
  have hc : incrCount = 8008 * 2 ^ 48 / 10000 + 1 - incrLeast := rfl
  have hl : incrLeast = (7992 * 2 ^ 48 + 9999) / 10000 := rfl
  simp only [incrOk, BitVec.toNat_ofNat, decide_eq_true_eq]
  generalize (free d).1.toNat % incrCount = x at h ⊢
  rw [Nat.mod_eq_of_lt (by omega)]
  omega

theorem timeJudge_keeps (t1 t2 t3 t4 : Time) (k : Clk) (d : Dev) : ClkKeeps k (timeJudge t1 t2 t3 t4 k d).1 := by
  simp only [timeJudge]
  split
  · exact stepTime_keeps _ k _
  · exact ttAdjust_keeps k _

theorem timeAnswer_keeps (t1 t2 t3 : Time) (k : Clk) (d : Dev) : ClkKeeps k (timeAnswer t1 t2 t3 k d).1 := by
  simp only [timeAnswer]
  split
  · exact .refl
  · split
    · exact timeJudge_keeps ..
    · exact .refl

theorem timeMessage_keeps (m : TimeMessage) (k : Clk) (d : Dev) : ClkKeeps k (timeMessage m k d).1 := by
  simp only [timeMessage]
  split
  · exact .refl
  · split
    · exact .refl
    · exact .refl
    · exact stepTime_keeps _ k _
    · exact setTime_keeps _ k _
    · exact .refl

theorem csrWrite_keeps (req : Req) (a : Nat) (v : W32) (k : Clk) (d : Dev) : ClkKeeps k (csrWrite req a v k d).1 := by
  unfold csrWrite
  split
  · exact .refl
  · split
    · exact .refl
    · split
      · exact tbCmd_keeps req v k d
      · exact incrCommit_keeps req v k d
      · exact .refl
      · exact .refl
      · exact .refl

/-! Instructions. -/

/-- An instruction's outcome carries a clock that the one before keeps. -/
def Res.Keeps (k : Clk) : Res → Prop
  | .fault _ _ _ _ => True
  | .done k' _ => ClkKeeps k k'

theorem Res.keeps_close {k : Clk} {x : Res} (r : Runner) (h : x.Keeps k) : ClkKeeps k (x.close r k).1 := by
  cases x with
  | fault => exact .refl
  | done => exact h

theorem runAs_keeps (op : Op) (who : Who) (f : Runner → Option W32 → W32 → Clk → Dev → Res) (k : Clk) (d : Dev)
    (h : ∀ r pre w d, (f r pre w k d).Keeps k) : ClkKeeps k (runAs op who f k d).1 := by
  unfold runAs
  split
  · exact .refl
  · next r _ =>
    simp only
    split
    · exact .refl
    · split
      · exact .refl
      · split
        · exact Res.keeps_close r (h r _ _ _)
        · exact .refl

theorem illegal_keeps (k : Clk) (d : Dev) : (illegal d).Keeps k := trivial
theorem goOn_keeps (r : Runner) (pre : Option W32) (k : Clk) (d : Dev) : (goOn r pre k d).Keeps k := ClkKeeps.refl
theorem done_keeps (k : Clk) (d : Dev) : (Res.done k d).Keeps k := ClkKeeps.refl

theorem onBrew_keeps (f : Nat → Brew → Option W32 → W32 → Clk → Dev → Res) (k : Clk)
    (h : ∀ i b pre w d, (f i b pre w k d).Keeps k) (r : Runner) (pre : Option W32) (w : W32) (d : Dev) : (onBrew f r pre w k d).Keeps k := by
  cases r with
  | slot => exact h _ _ _ _ _
  | core => trivial

theorem onCore_keeps (f : Nat → Core → W32 → Clk → Dev → Res) (k : Clk)
    (h : ∀ c x w d, (f c x w k d).Keeps k) (r : Runner) (pre : Option W32) (w : W32) (d : Dev) : (onCore f r pre w k d).Keeps k := by
  cases r with
  | slot => trivial
  | core => exact h _ _ _ _

theorem writeD_keeps (r : Runner) (pre : Option W32) (w : W32) (v : Option W64) (k : Clk) (d : Dev) : (writeD r pre w v k d).Keeps k := by
  cases v <;> first | exact goOn_keeps _ _ _ _ | trivial

theorem loadStep_keeps (r : Runner) (pre : Option W32) (w : W32) (k : Clk) (d : Dev) : (loadStep r pre w k d).Keeps k := by
  simp only [loadStep]
  split
  · exact goOn_keeps _ _ _ _
  · split
    · trivial
    · split
      · trivial
      · exact goOn_keeps _ _ _ _

theorem storeStep_keeps (r : Runner) (pre : Option W32) (w : W32) (k : Clk) (d : Dev) : (storeStep r pre w k d).Keeps k := by
  simp only [storeStep]
  split
  · exact csrWrite_keeps _ _ _ k _
  · split
    · trivial
    · exact done_keeps _ _

theorem atomStep_keeps (r : Runner) (pre : Option W32) (w : W32) (k : Clk) (d : Dev) : (atomStep r pre w k d).Keeps k := by
  simp only [atomStep]
  split
  · trivial
  · split
    · trivial
    · trivial
    · split
      · trivial
      · split
        · trivial
        · exact done_keeps _ _

theorem vWrite_keeps (i : Nat) (b : Brew) (pre : Option W32) (w : W32) (r : Option VRes) (k : Clk) (d : Dev) :
    (vWrite i b pre w r k d).Keeps k := by
  unfold vWrite
  split
  · trivial
  · exact goOn_keeps _ _ _ _
  · split <;> first | exact goOn_keeps _ _ _ _ | trivial
  · split <;> first | exact goOn_keeps _ _ _ _ | trivial
  · exact goOn_keeps _ _ _ _

theorem loadElems_keeps (i : Nat) (b : Brew) (pre : Option W32) (w : W32) (l : List (Nat × W64)) (k : Clk) (d : Dev) :
    (loadElems i b pre w l k d).Keeps k := by
  simp only [loadElems]
  split
  · trivial
  · split
    · trivial
    · exact goOn_keeps _ _ _ _

theorem storeElems_keeps (i : Nat) (b : Brew) (pre : Option W32) (w : W32) (l : List (Nat × W64)) (k : Clk) (d : Dev) :
    (storeElems i b pre w l k d).Keeps k := by
  simp only [storeElems]
  split
  · trivial
  · exact goOn_keeps _ _ _ _

theorem sampleStep_keeps (i : Nat) (b : Brew) (pre : Option W32) (w : W32) (k : Clk) (d : Dev) : (sampleStep i b pre w k d).Keeps k := by
  unfold sampleStep; split
  · exact done_keeps _ _
  · trivial

theorem sendAll_keeps (i : Nat) (b : Brew) (l : List Sent) (k : Clk) (d : Dev) : (sendAll i b l k d).Keeps k := by
  unfold sendAll; split
  · exact goOn_keeps _ _ _ _
  · exact done_keeps _ _

theorem emitAll_keeps (i : Nat) (b : Brew) (w : W32) (l : List (W64 × W64)) (k : Clk) (d : Dev) : (emitAll i b w l k d).Keeps k := by
  simp only [emitAll]
  split
  · exact goOn_keeps _ _ _ _
  · split
    · trivial
    · exact sendAll_keeps _ _ _ _ _

theorem keyStep_keeps (useB : Bool) (f : Brew → W64 → W64 → W64) (r : Runner) (pre : Option W32) (w : W32) (k : Clk) (d : Dev) :
    (keyStep useB f r pre w k d).Keeps k := by
  refine onBrew_keeps _ k (fun i b pre w d => ?_) r pre w d
  split
  · exact goOn_keeps _ _ _ _
  · trivial

theorem privileged_keeps (x : Core) (legal : Bool) (d : Dev) (r : Res) (k : Clk) (h : r.Keeps k) : (privileged x legal d r).Keeps k := by
  unfold privileged
  split
  · trivial
  · split
    · exact h
    · trivial

end Sys2Proof.Machine
end

