-- ==== Sys2Proof/Laws/Frame.lean ====
section
/-!
SUPPORT. Frames: how updates of registers and events compose, and what the guard's three refusals may change.
-/

namespace Sys2Proof.Machine

/-- The outcome of `access`: nothing while R379 shuts the register. -/
theorem access_shut {d : Dev} {a : Nat} (f : Dev → Dev) (h : csrShut d a = true) : access a f d = d := by simp [access, h]

/-- The outcome of `access` on an open register. -/
theorem access_open {d : Dev} {a : Nat} (f : Dev → Dev) (h : csrShut d a = false) : access a f d = f d := by simp [access, h]

/-- What a guarded write can do (R314, R315, R362). -/
theorem guarded_cases (req : Req) (k : Clk) (a : Nat) (v : W32) (f : Dev → Dev) (d : Dev) :
    (csrShut d a = true ∧ guarded req k a v f d = d) ∨ (lcCloses d a v = true ∧ guarded req k a v f d = guardDeny req 2 a k d)
      ∨ (armed d req = true ∧ guarded req k a v f d = f (setArmed req false d))
      ∨ (armed d req = false ∧ guarded req k a v f d = guardDeny req 1 a k d) := by
  unfold guarded access
  split
  · exact .inl ⟨‹_›, rfl⟩
  · dsimp only
    split
    · exact .inr (.inl ⟨‹_›, rfl⟩)
    · split
      · exact .inr (.inr (.inl ⟨‹_›, rfl⟩))
      · next h => exact .inr (.inr (.inr ⟨by simpa using h, rfl⟩))

/-! What a write that a seal pass may meet adds to the write itself. -/

/-- All that keeping a replaced value can do: it adds to what the running pass has seen. -/
theorem noteSeal_only (a : Nat) (was d : Dev) :
    ∃ seen, noteSeal a was d = { d with bus := { d.bus with sealRun := { d.bus.sealRun with seen } } } := by
  unfold noteSeal
  simp only [forEach, List.foldl_cons, List.foldl_nil]
  split
  · exact ⟨d.bus.sealRun.seen, rfl⟩
  · split <;> split <;> exact ⟨_, rfl⟩

/-- With no pass running nothing is kept. -/
theorem noteSeal_idle {a : Nat} {was d : Dev} (h : rd was Reg.SEAL_MASK = 0) : noteSeal a was d = d := by simp [noteSeal, h]

@[simp] theorem rd_noteSeal (a : Nat) (was d : Dev) (b : Nat) : rd (noteSeal a was d) b = rd d b := by
  obtain ⟨seen, h⟩ := noteSeal_only a was d
  rw [h]; rfl

/-- A write with sealed fields does what the write does, and no register shows that it was noted. -/
theorem accessSealed_only (a : Nat) (f : Dev → Dev) (d : Dev) : let e := access a f d
    ∃ seen, accessSealed a f d = { e with bus := { e.bus with sealRun := { e.bus.sealRun with seen } } } := noteSeal_only a d (access a f d)

/-- So does a guarded one. -/
theorem guardedSealed_only (req : Req) (k : Clk) (a : Nat) (v : W32) (f : Dev → Dev) (d : Dev) : let e := guarded req k a v f d
    ∃ seen, guardedSealed req k a v f d = { e with bus := { e.bus with sealRun := { e.bus.sealRun with seen } } } :=
  noteSeal_only a d (guarded req k a v f d)

/-- The outcome of `accessSealed` while R379 shuts the register. -/
theorem accessSealed_shut {d : Dev} {a : Nat} (f : Dev → Dev) (h : csrShut d a = true) : accessSealed a f d = d := by
  simp [accessSealed, sealing, access_shut f h, noteSeal, forEach]

/-! Frames. -/

theorem sameRegsBut.refl (l : List Nat) (d : Dev) : sameRegsBut l d d := fun _ _ => rfl

theorem onlyRegs.refl (d : Dev) : onlyRegs d d := rfl

theorem onlyRegs.trans {d e f : Dev} (h : onlyRegs d e) (g : onlyRegs e f) : onlyRegs d f := by
  unfold onlyRegs at *
  rw [g, h]

theorem onlyThese.refl (l : List Nat) (d : Dev) : onlyThese l d d := ⟨onlyRegs.refl d, sameRegsBut.refl l d⟩

/-- Two updates change nothing but what the first or the second changes. -/
theorem onlyThese.trans {l m : List Nat} {d e f : Dev} (h : onlyThese l d e) (g : onlyThese m e f) : onlyThese (l ++ m) d f :=
  ⟨h.1.trans g.1, fun a ha => by rw [List.mem_append, not_or] at ha; rw [g.2 a ha.2, h.2 a ha.1]⟩

/-- A frame may be widened. -/
theorem onlyThese.mono {l m : List Nat} {d e : Dev} (h : onlyThese l d e) (hm : ∀ a ∈ l, a ∈ m) : onlyThese m d e :=
  ⟨h.1, fun a ha => h.2 a fun hl => ha (hm a hl)⟩

theorem onlyThese_wr (a : Nat) (v : W32) (d : Dev) : onlyThese [a] d (wr a v d) := ⟨rfl, fun b hb => rd_wr_ne d v (by simpa using hb)⟩

theorem onlyThese_raiseAt (n ev : Nat) (mask : W32) (d : Dev) : onlyThese [ev] d (raiseAt n ev mask d) := by
  refine ⟨?_, fun b hb => rd_raiseAt_ne d mask (by simpa using hb)⟩
  rw [raiseAt_eq]
  rfl

theorem onlyThese_bumpSat (a n : Nat) (d : Dev) : onlyThese [a] d (bumpSat a n d) := onlyThese_wr a _ d

theorem onlyThese_when {l : List Nat} {f : Dev → Dev} {d : Dev} (c : Bool) (h : onlyThese l d (f d)) : onlyThese l d (when c f d) := by
  unfold when
  split
  · exact h
  · exact onlyThese.refl l d

/-- A denied write (R315) changes the event, its count and the record of the first. -/
theorem onlyThese_guardDeny (req : Req) (reason off : Nat) (k : Clk) (d : Dev) :
    onlyThese [Reg.GUARD_DENY_INFO, Reg.GUARD_DENIED_COUNT, Reg.GUARD_EVENT] d (guardDeny req reason off k d) :=
  ((onlyThese_when _ (onlyThese_wr _ _ d)).trans (onlyThese_bumpSat _ _ _)).trans (onlyThese_raiseAt _ _ _ _)

/-- So does a write of a locked register (R317). -/
theorem onlyThese_lockViolation (req : Req) (space off : Nat) (k : Clk) (d : Dev) :
    onlyThese [Reg.LOCK_VIOLATION_ADDR, Reg.GUARD_EVENT] d (lockViolation req space off k d) :=
  (onlyThese_when _ (onlyThese_wr _ _ d)).trans (onlyThese_raiseAt _ _ _ _)

end Sys2Proof.Machine
end

