-- ==== Sys2Proof/Laws/Isa.lean ====
section
/-!
SUPPORT. What a command that runs an instruction comes to once its runner has issued it.
-/

namespace Sys2Proof.Machine

/-- An instruction of the class a command names, once issued, is the command's effect. -/
theorem runClass_issues {op : Op} {who : Who} {r : Runner} {pre : Option W32} {w : W32} {s : State} {e : Dev}
    (h : Issues op who r pre w s e) (f : Runner → Option W32 → W32 → Clk → Dev → Res) :
    runClass op who f s = .next { s with clk := ((f r pre w s.clk e).close r s.clk).1, dev := ((f r pre w s.clk e).close r s.clk).2 } := by
  obtain ⟨hr, hf, hc⟩ := h
  simp [runClass, onClk, runAs, hr, hf, hc]

/-- An instruction that only changes the device. -/
theorem runClass_done {op : Op} {who : Who} {r : Runner} {pre : Option W32} {w : W32} {s : State} {e d : Dev}
    {f : Runner → Option W32 → W32 → Clk → Dev → Res} (h : Issues op who r pre w s e) (hf : f r pre w s.clk e = .done s.clk d) :
    runClass op who f s = nextDev s d := by
  rw [runClass_issues h, hf]; rfl

/-- An instruction that faults. -/
theorem runClass_fault {op : Op} {who : Who} {r : Runner} {pre : Option W32} {w : W32} {s : State} {e d : Dev} {code lane : Nat} {addr : W64}
    {f : Runner → Option W32 → W32 → Clk → Dev → Res} (h : Issues op who r pre w s e) (hf : f r pre w s.clk e = .fault code addr lane d) :
    runClass op who f s = nextDev s (takeFault r code addr lane s.clk d) := by
  rw [runClass_issues h, hf]; rfl

@[simp] theorem Runner.after_setG (r : Runner) (n : Nat) (v : W64) (pre : Option W32) : (r.setG n v).after pre = r.after pre := by
  cases r <;> simp only [Runner.after, Runner.setG, Runner.pc, Brew.setG, Core.setG] <;> split <;> rfl

/-- An instruction of a class takes only the prefixes of that class. -/
theorem Issues.prefixOk {op : Op} {who : Who} {r : Runner} {pre : Option W32} {w : W32} {s : State} {e : Dev} (h : Issues op who r pre w s e) :
    opOfWord w = some op ∧ op.runsOn r.isCore = true ∧ Machine.prefixOk op pre w = true := by
  obtain ⟨_, _, hc⟩ := h
  simp only [classify, Option.filter_eq_some_iff, Bool.and_eq_true] at hc
  exact ⟨hc.1, hc.2.1, hc.2.2⟩

end Sys2Proof.Machine
end

