-- ==== Sys2Proof/Laws/Window.lean ====
section
/-!
SUPPORT. Memory seen past the protected window (R368), its zeroing, and resets: what each changes, and that each keeps the canonical form.
-/

namespace Sys2Proof.Machine

variable (d : Dev)

/-- Dropping entries keeps the canonical form. -/
theorem Tab.canonical_filter {α : Type} [DecidableEq α] {e : α} {t : Tab α} (p : Nat × α → Bool) (h : Tab.canonical e t) :
    Tab.canonical e (t.filter p) :=
  ⟨Tab.rising_filter _ h.1, fun x hx => h.2 x (List.mem_of_mem_filter hx)⟩

/-- What dropping entries by their number leaves of a number that is kept. -/
theorem Tab.get_filter_keep {α : Type} (e : α) (p : Nat → Bool) (t : Tab α) (i : Nat) :
    Tab.get e (t.filter fun x => p x.1) i = if p i then Tab.get e t i else e := by
  induction t with
  | nil => simp [Tab.get]
  | cons x r ih =>
    obtain ⟨k, v⟩ := x
    by_cases hk : k = i
    · subst hk
      by_cases hp : p k <;> simp [List.filter, hp, Tab.get] at ih ⊢
      exact ih
    · have hk' : ¬ i = k := fun h => hk h.symm
      by_cases hp : p k <;> simp [List.filter, hp, Tab.get, hk'] at ih ⊢ <;> exact ih

/-! Zeroing. -/

theorem zeroMem_wf (a n : Nat) (h : Memory.wf d.mem) : Memory.wf (zeroMem a n d).mem := Tab.canonical_filter _ h

/-- Zeroing n bytes at a makes them 0 and leaves every other byte. -/
theorem getByte_zeroMem (a n x : Nat) : getByte (zeroMem a n d) x = if a ≤ x ∧ x < a + n then 0 else getByte d x := by
  have := Tab.get_filter_keep (0 : W8) (fun k => !decide (a ≤ k ∧ k < a + n)) d.mem x
  simp only [getByte, zeroMem, this]
  by_cases h : a ≤ x ∧ x < a + n <;> simp [h]

/-! Past the window. -/

@[simp] theorem protDeny_mem : (protDeny d).mem = d.mem := by simp [protDeny, raiseScarab, bumpSat]

/-- A read leaves every byte. -/
@[simp] theorem loadOutside_mem (a n : Nat) : (loadOutside a n d).2.mem = d.mem := by
  unfold loadOutside
  dsimp only
  split <;> simp

theorem storeOutside_wf (a : Nat) (bs : List W8) (h : Memory.wf d.mem) : Memory.wf (storeOutside a bs d).mem := by
  unfold storeOutside
  split
  · rw [protDeny_mem]; exact storeRanges_wf d _ h
  · exact store_wf d a bs h

/-! Resets. -/

@[simp] theorem putRegBytes_mem (reg : Nat → Nat) (n : Nat) (l : List W8) : (putRegBytes reg n l d).mem = d.mem :=
  forEach_keeps d (·.mem) _ (fun _ d => wr_mem d _ _) _

@[simp] theorem fusedRegs_mem : (fusedRegs d).mem = d.mem := by
  unfold fusedRegs
  rw [when_keeps _ (·.mem) _ _ fun d => wr_mem d _ _]
  exact forEach_keeps d (·.mem) _ (fun _ d => wr_mem d _ _) _

@[simp] theorem pairRegsClear_mem : (pairRegsClear d).mem = d.mem := putRegBytes_mem _ _ _ _

/-- A reset keeps the canonical form, and DRAM unless the power was off (R378). -/
theorem devReset_wf (kind : ResetKind) (req : Req) (h : Memory.wf d.mem) : Memory.wf (devReset kind req d).mem := by
  have e : (devReset kind req d).mem = if kind = .powerOn then [] else d.mem.filter fun x => isDram x.1 := by
    unfold devReset
    dsimp only
    rw [fusedRegs_mem, when_keeps _ (·.mem) _ _ pairRegsClear_mem]
    rfl
  rw [e]
  split
  · exact reset_mem_wf
  · exact Tab.canonical_filter _ h

end Sys2Proof.Machine
end

