-- ==== Sys2Proof/Tests/Slice0.lean ====
section
/-!
SUPPORT. Tests. Small checks of single commands against the manual's worked examples and rules; ill-formed commands that WellFormed refuses; and
for each statement with hypotheses, states and operands that meet them (`witness_` and the statement's name).
-/

open Sys2Proof
open Sys2Proof.Machine

namespace Sys2Proof.Tests

set_option Elab.async false

/-- The state after reset with its device changed. -/
def host (f : Dev → Dev) : State := { State.reset with dev := f State.reset.dev }

/-- The device after one command; the old one where it stops. -/
def after (c : Instr) (s : State) : Dev := match exec c s with | .next t => t.dev | _ => s.dev

/-- The clock after one command. -/
def clkAfter (c : Instr) (s : State) : Clk := match exec c s with | .next t => t.clk | _ => s.clk

/-- The state after reset at a tick. -/
def atTick (n : Nat) (s : State) : State := { s with clk := { s.clk with ticks := w64 n } }

/-- Several register words set. -/
def regs (l : List (Nat × W32)) (d : Dev) : Dev := l.foldl (fun d x => wr x.1 x.2 d) d

/-! Well-formed commands. -/

theorem test_wf_kettle_read : (Instr.kettleWindowRead 0x1FFFFFFF 2).wellFormed = false ∧ (Instr.kettleWindowRead 0x1FFFFFFF 1).wellFormed = true := by decide +kernel
theorem test_wf_kettle_write : (Instr.kettleWindowWrite 0 []).wellFormed = false ∧ (Instr.kettleWindowWrite 0 [1]).wellFormed = true := by decide +kernel
theorem test_wf_cricket : (Instr.cricketBlockRx []).wellFormed = false := by decide +kernel
theorem test_wf_csr : (Instr.csrWrite .host 2 0 true).wellFormed = false ∧ (Instr.csrWrite .host 4 0 true).wellFormed = true := by decide +kernel
theorem test_wf_pair_lo : (Instr.pairLoWrite .fw 1 0).wellFormed = false := by decide +kernel
theorem test_wf_pair_hi : (Instr.pairHiWrite .fw 3 0).wellFormed = false := by decide +kernel
theorem test_wf_pair_read : (Instr.pairLoRead .fw 2).wellFormed = false := by decide +kernel
theorem test_wf_dram : (Instr.dramWindowAccess false 0xFFFFFFFFF 2 []).wellFormed = false
    ∧ (Instr.dramWindowAccess true 0 0 [1]).wellFormed = true := by decide +kernel
theorem test_wf_temps : (Instr.tempSample [0]).wellFormed = false ∧ (Instr.tempSample (List.replicate 30 0)).wellFormed = true := by decide +kernel
theorem test_wf_dmx : (Instr.dmxRxFrame 0 88000 0 [] false).wellFormed = false ∧ (Instr.dmxRxFrame 0 88000 0 [0] false).wellFormed = true := by
  decide +kernel

/-! Time (R16 to R44). -/

theorem witness_StepTakesFront : (host id).pending = [] := by decide +kernel
theorem witness_QueueUntouched : ∃ t, exec .tick (host id) = .next t := ⟨_, rfl⟩
theorem witness_TickCounterKept : (∃ t, exec .tick (host id) = .next t) ∧ (∃ t, exec .powerOn (host id) = .next t) ∧ ∃ t, exec .refLoss (host id) = .next t :=
  ⟨⟨_, rfl⟩, ⟨_, rfl⟩, ⟨_, rfl⟩⟩
theorem witness_RateStaysInRange : rateInRange (host id) ∧ ∃ t, step (host id) = .next t := ⟨by unfold rateInRange; decide, ⟨_, rfl⟩⟩

/-- TIME_VALID is 1. -/
def valid (s : State) : State := { s with clk := { s.clk with tb := { s.clk.tb with timeValid := true } } }

theorem witness_TimeValidStays : Instr.tick ≠ .powerOn ∧ (valid (host id)).clk.tb.timeValid = true ∧ ∃ t, exec .tick (valid (host id)) = .next t :=
  ⟨by decide, rfl, ⟨_, rfl⟩⟩

/-- The control firmware has staged a low half of TB_INCR. -/
def staged (lo : W32) : State := host (stage .fw Reg.TB_INCR_LO lo)

theorem witness_TickAndRateCommit :
    (rateInRange (host id) ∧ ((host id).clk.ticks - (host id).clk.tb.anchor).toNat + 1 < 2 ^ 64) ∧
    (csrShut (staged 0x530489D2).dev Reg.TB_INCR_HI = false ∧ foreign (staged 0x530489D2).dev .fw = false
      ∧ stagedLo (staged 0x530489D2).dev .fw Reg.TB_INCR_LO = some 0x530489D2
      ∧ incrOk ((0xCCCD : W32).truncate 24 ++ (0x530489D2 : W32)) = true ∧ incrOk ((0 : W32).truncate 24 ++ (0x530489D2 : W32)) = false) :=
  ⟨⟨by unfold rateInRange; decide, by decide⟩, by decide⟩

/-- Boundary 0 at 1 s waits for its inputs; port 8 receives a frame, or its link is down. -/
def latchingAt (x : Option RxFrame) : State :=
  host fun d => setPort 8 { enabled := true, link := x.isSome, rx := x } { d with frm := { d.frm with latching := some (0, 10 ^ 9 * ns1) } }

theorem witness_TickAndRateCommit_latching :
    (host id).dev.frm.latching = none ∧
    (let s := latchingAt (some { stamp := 0 })
     s.dev.frm.latching = some (0, 10 ^ 9 * ns1) ∧ straddled (10 ^ 9 * ns1) (atTick 1 s).clk s.dev = true) ∧
    straddled (10 ^ 9 * ns1) (atTick 1 (latchingAt none)).clk (latchingAt none).dev = false := by decide +kernel

/-- R22's worked example: a rate 10 ppm faster. -/
theorem test_incr_commit : (clkAfter (.tbIncrCommit .fw 0xCCCD) (staged 0x530489D2)).tb.incr = 0x00CCCD530489D2 := by decide +kernel
/-- R23: an increment outside 0.8 ns ± 1,000 ppm is rejected. -/
theorem test_incr_reject : rb (after (.tbIncrCommit .fw 0xCE00) (staged 0)) Reg.TB_EVENT 2 = true := by decide +kernel

/-- TB_STEP holds a count of nanoseconds, TB_SET_NS another. -/
def stepping (v : W64) (ns : W32) : State := host fun d => wr Reg.TB_SET_NS ns (wr64 Reg.TB_STEP_LO v d)

theorem witness_StepAndSet :
    (csrShut (stepping 0 0).dev Reg.TB_CMD = false ∧ foreign (stepping 0 0).dev .fw = false ∧ 0 ≤ now (stepping 0 0).clk
      ∧ 0 ≤ now (stepping 0 0).clk + (rd64 (stepping 0 0).dev Reg.TB_STEP_LO).toInt * ns1) ∧
    (now (stepping (-1) 0).clk + (rd64 (stepping (-1) 0).dev Reg.TB_STEP_LO).toInt * ns1 < 0 ∧ rd64 (stepping (-1) 0).dev Reg.TB_STEP_LO ≠ 0
      ∧ csrShut (stepping (-1) 0).dev Reg.TB_CMD = false ∧ foreign (stepping (-1) 0).dev .fw = false) ∧
    ((rd (stepping 0 999999999).dev Reg.TB_SET_NS).toNat ≤ 999999999 ∧ csrShut (stepping 0 999999999).dev Reg.TB_CMD = false
      ∧ foreign (stepping 0 999999999).dev .fw = false) ∧
    (999999999 < (rd (stepping 0 1000000000).dev Reg.TB_SET_NS).toNat ∧ csrShut (stepping 0 1000000000).dev Reg.TB_CMD = false
      ∧ foreign (stepping 0 1000000000).dev .fw = false) := by decide +kernel

/-- One second after power-on, with the frame clock at 60 Hz as given. -/
def stepFrom (f : Machine.Frm → Machine.Frm) (v : Int) (g : Dev → Dev := id) : State :=
  atTick 1250000000 (valid (host fun d => wr64 Reg.TB_STEP_LO (BitVec.ofInt 64 v) (g { d with frm := f { d.frm with run := some (gridRegs d) } })))

/-- The last boundary was number n of the grid. -/
def atBoundary (n : Nat) (f : Machine.Frm) : Machine.Frm :=
  { f with firstDone := true, next := n + 1, lastB := (f.run.elim 0 fun g => g.at n), lastFrame := w64 n, everEmitted := true }

theorem witness_StepAndSet_frames :
    (∀ s ∈ [stepFrom id 5, stepFrom (atBoundary 60) (-1000000), stepFrom (atBoundary 59) (-1000000), stepFrom (atBoundary 60) 1000000,
        stepFrom (atBoundary 60) 1000000000, stepFrom (fun f => { f with run := none }) 5],
      csrShut s.dev Reg.TB_CMD = false ∧ foreign s.dev .fw = false ∧ rd64 s.dev Reg.TB_STEP_LO ≠ 0
        ∧ 0 ≤ now s.clk + (rd64 s.dev Reg.TB_STEP_LO).toInt * ns1) ∧
    (let s := stepFrom (atBoundary 60) (-1000000)
     let x := now s.clk - 1000000 * ns1
     x < now s.clk ∧ x < s.dev.frm.lastB ∧ rb s.dev Reg.FRM_STEP_POLICY 0 = false ∧ s.dev.frm.firstDone = true ∧ s.dev.frm.run.isSome = true
       ∧ s.dev.frm.lastB - x ≤ (rd s.dev Reg.FRM_HOLD_MAX).toNat * 1000 * ns1) ∧
    (let s := stepFrom (atBoundary 60) (-1000000) (wr Reg.FRM_HOLD_MAX 999)
     (rd s.dev Reg.FRM_HOLD_MAX).toNat * 1000 * ns1 < s.dev.frm.lastB - (now s.clk - 1000000 * ns1)) ∧
    (let s := stepFrom (atBoundary 59) (-1000000)
     now s.clk - 1000000 * ns1 < now s.clk ∧ s.dev.frm.lastB ≤ now s.clk - 1000000 * ns1) ∧
    (let s := stepFrom (atBoundary 60) 1000000
     (gridRegs s.dev).firstFrom (now s.clk + 1000000 * ns1) ≤ s.dev.frm.next) ∧
    (let s := stepFrom (atBoundary 60) 1000000000
     s.dev.frm.next < (gridRegs s.dev).firstFrom (now s.clk + 1000000000 * ns1)) ∧
    (stepFrom id 5).dev.frm.firstDone = false ∧ (stepFrom (fun f => { f with run := none }) 5).dev.frm.run = none := by decide +kernel

theorem witness_StepAndSet_foreign :
    (∀ a ∈ [Reg.TB_INCR_LO, Reg.TB_INCR_HI, Reg.TB_STEP_LO, Reg.TB_STEP_HI, Reg.TB_SET_SEC_LO, Reg.TB_SET_SEC_HI, Reg.TB_SET_NS, Reg.TB_CMD],
      csrShut (host id).dev a = false) ∧ Req.host ≠ servoOwner (host id).dev
      ∧ (host fun d => { d with pins := { d.pins with pairSlaved := true } }).dev.pins.pairSlaved = true := by decide +kernel

/-- R39: a step back by less than FRM_HOLD_MAX holds. -/
theorem test_step_holds : (after (.tbCmdStep .fw) (stepFrom (atBoundary 60) (-1000000))).frm.holding = true := by decide +kernel
/-- R41: a step forward over 59 boundaries skips them. -/
theorem test_step_skips : rd (after (.tbCmdStep .fw) (stepFrom (atBoundary 60) 999000000)) Reg.FRM_FRAMES_SKIPPED = 59 := by decide +kernel
theorem test_step_moves : now (clkAfter (.tbCmdStep .fw) (stepping 5 0)) = 5 * ns1 := by decide +kernel
/-- R25: a STEP of zero only declares the time valid. -/
theorem test_step_zero : rd (after (.tbCmdStep .fw) (stepping 0 0)) Reg.TB_EVENT = 0 ∧ (clkAfter (.tbCmdStep .fw) (stepping 0 0)).tb.timeValid = true := by
  decide +kernel
/-- R28: the host does not own the clock after reset. -/
theorem test_step_foreign : now (clkAfter (.tbCmdStep .host) (stepping 5 0)) = 0 := by decide +kernel

/-- EVT_CAP[0] holds n stamps and takes rising edges. -/
def captured (n : Nat) : State :=
  host fun d => wr (Reg.TB_EVTCAP_CTL 0) 1 (setEvtCap 0 { queue := List.replicate n (0, true) } d)

theorem witness_CapturingReads : csrShut (host id).dev Reg.TB_NOW_SEC_LO = false ∧ csrShut (host id).dev Reg.TB_SHORT_LO = false
    ∧ csrShut (host id).dev Reg.TB_PPS_CAP_SEC_LO = false
    ∧ (csrShut (captured 1).dev (Reg.TB_EVTCAP_SEC_LO 0) = false ∧ (evtCap (captured 1).dev 0).queue = [(0, true)])
    ∧ (evtCap (captured 0).dev 0).queue = [] ∧ csrShut (captured 0).dev (Reg.TB_EVTCAP_SEC_LO 0) = false
    ∧ csrShut (host id).dev Reg.FRM_NUMBER_LO = false
    ∧ csrShut (host (wr Reg.SYS_RESET_CAUSE 4)).dev Reg.TB_NOW_SEC_LO = true ∧ csrShut (host (wr Reg.SYS_RESET_CAUSE 4)).dev (Reg.TB_EVTCAP_SEC_LO 0) = true := by
  decide +kernel

theorem witness_ReferencesAndPps :
    (host fun d => { d with pins := { d.pins with refActive := true } }).dev.pins.refActive = true
    ∧ (host fun d => { d with pins := { d.pins with pllLock := true } }).dev.pins.pllLock = true
    ∧ (host id).dev.pins.ppsLast = none
    ∧ 1875000000 ≤ since (atTick 1875000000 (host id)).clk 0
    ∧ (let s := host (regs [(Reg.TB_PPS_CTL, 0x00010001), (Reg.SYS_STARTUP_STATUS, 0x400)])
      rb s.dev Reg.SYS_STARTUP_STATUS 10 = true ∧ rb s.dev Reg.TB_PPS_CTL 0 = true ∧ rf s.dev Reg.TB_PPS_CTL 16 10 ≠ 0 ∧ s.dev.sys.tripped = false ∧ due s.clk (wholeSecond s.clk) = true)
    ∧ (let s := atTick 1250000 (host fun d => wr Reg.TB_PPS_CTL 0x00010001 { d with pins := { d.pins with ppsOut := true } })
      s.dev.pins.ppsOut = true ∧ min 999 (rf s.dev Reg.TB_PPS_CTL 16 10) * 1000000 * 2 ^ 48 ≤ since s.clk s.dev.pins.ppsRose * s.clk.tb.incr.toNat)
    ∧ due (atTick 1 (host id)).clk (wholeSecond (atTick 1 (host id)).clk) = false ∧ rb (host id).dev Reg.TB_PPS_CTL 0 = false
    ∧ rb (host id).dev Reg.SYS_STARTUP_STATUS 10 = false ∧ (host id).dev.pins.ppsOut = false ∧ since (atTick 9 (host id)).clk 0 < 10 ∧ since (atTick 1874999999 (host id)).clk 0 < 1875000000 := by
  decide +kernel

/-- PER_OUT[0] in time mode, with a period of 100 ns and a width of 40 ns. -/
def periodic : State := host (regs [(Reg.SYS_STARTUP_STATUS, 0x400), (Reg.TB_PEROUT_CTL 0, 1), (Reg.TB_PEROUT_WIDTH 0, 40), (Reg.TB_PEROUT_PERIOD_LO 0, 100)])

/-- House sync measures rising edges; the last fell at tick 0. -/
def synced : State := host fun d => wr Reg.FRM_HSYNC_CTL 1 { d with pins := { d.pins with hsyncLast := some (0, 0), hsyncSince := some 0 } }

theorem witness_CaptureAndPeriodic :
    (rb (captured 15).dev (Reg.TB_EVTCAP_CTL 0) 0 = true ∧ (evtCap (captured 15).dev 0).last = none ∧ (evtCap (captured 15).dev 0).queue.length < 16) ∧
    (rb (captured 16).dev (Reg.TB_EVTCAP_CTL 0) 0 = true ∧ 16 ≤ (evtCap (captured 16).dev 0).queue.length) ∧
    (let d := periodic.dev
     let c := periodic.clk
     let at' := timeOf (rd64 d (Reg.TB_PEROUT_START_SEC_LO 0)) (rd d (Reg.TB_PEROUT_START_NS 0)) + 0 * perOutPeriod d 0
     rb d (Reg.TB_PEROUT_CTL 0) 0 = true ∧ rb d (Reg.TB_PEROUT_CTL 0) 1 = false ∧ rd d (Reg.TB_PEROUT_WIDTH 0) ≠ 0
      ∧ (rd d (Reg.TB_PEROUT_WIDTH 0)).toNat * ns1 < perOutPeriod d 0 ∧ at' ≤ now c ∧ now c - c.tb.incr.toNat < at' ∧ c.tb.floor ≤ at'
      ∧ c.tb.incr.toNat < 10 * 2 ^ 48 ∧ d.sys.tripped = false ∧ rb d Reg.SYS_STARTUP_STATUS 10 = true) ∧
    rb (host id).dev Reg.SYS_STARTUP_STATUS 10 = false ∧
    (let s := host (setPerOut 0 { active := true, offAt := some 0 }); (perOut s.dev 0).offAt = some 0 ∧ due s.clk 0 = true) ∧
    (let s := atTick 10 synced
     rb s.dev Reg.FRM_HSYNC_CTL 0 = true ∧ rb s.dev Reg.FRM_HSYNC_CTL 1 = !true ∧ s.dev.pins.hsyncLast = some (0, 0) ∧ 10 ≤ since s.clk 0) ∧
    (let s := atTick 1250000000 synced
     s.dev.pins.hsyncSince = some 0 ∧ rb s.dev Reg.FRM_HSYNC_CTL 0 = true ∧ 1250000000 ≤ since s.clk 0) := by decide +kernel

/-- R32: the seventeenth stamp is dropped and counted. -/
theorem test_capture_overflow : rf (after (.evtCapEdge 0 true false) (captured 16)) (Reg.TB_EVTCAP_STAT 0) 16 16 = 1 := by decide +kernel
/-- R33: an active edge returns after its width. -/
theorem test_periodic : (perOut (after (.perOutActiveEdge 0) periodic) 0).offAt = some (40 * ns1) := by decide +kernel

/-- The grid of R34's worked example: 60000/1001 from 1,900,000,000 s. -/
def ntsc : Grid := { sec := 1900000000, ns := 0, num := 60000, den := 1001 }

theorem test_grid_first : nsOf (ntsc.at 1) = 16683333 ∧ fracOf (ntsc.at 1) = 0x55555555 ∧ secOf (ntsc.at 1) = 1900000000 := by decide +kernel
theorem test_grid_second : nsOf (ntsc.at 2) = 33366666 ∧ fracOf (ntsc.at 2) = 0xAAAAAAAA := by decide +kernel
theorem test_grid_third : nsOf (ntsc.at 3) = 50050000 ∧ fracOf (ntsc.at 3) = 0 := by decide +kernel

/-- The frame clock runs at 60 Hz from the epoch, its time valid. -/
def framed : State := valid (host fun d => wr Reg.FRM_CTL 1 { d with frm := { d.frm with run := some (gridRegs d) } })

/-- The frame clock holds since boundary 0. -/
def holding : State := host fun d => { d with frm := { d.frm with holding := true } }

theorem witness_FrameClockCommands :
    (csrShut (host id).dev Reg.FRM_CTL = false ∧ rb (host id).dev Reg.FRM_CTL 0 = false ∧ (host id).dev.pins.pairSlaved = false
      ∧ (gridRegs (host id).dev).ok = true ∧ (gridRegs (host (wr Reg.FRM_RATE_NUM 241)).dev).ok = false
      ∧ rb (host (wr Reg.FRM_RATE_NUM 241)).dev Reg.FRM_CTL 0 = false) ∧
    (csrShut framed.dev Reg.FRM_CTL = false ∧ rb framed.dev Reg.FRM_CTL 0 = true) ∧
    (csrShut framed.dev Reg.FRM_CMD = false ∧ framed.dev.pins.pairSlaved = false ∧ framed.dev.frm.run.isSome = true) ∧
    (nextBoundary framed.clk framed.dev = some (0, 0) ∧ framed.dev.frm.run = some (gridRegs framed.dev) ∧ (0 : Time) ≤ now framed.clk) ∧
    (holding.dev.frm.holding = true ∧ holding.dev.frm.lastB ≤ now holding.clk) ∧
    (host fun d => { d with pins := { d.pins with pairSlaved := true } }).dev.pins.pairSlaved = true ∧ (host id).dev.frm.run = none ∧
    nextBoundary (host id).clk (host id).dev = none ∧ (host id).dev.frm.holding = false ∧
    (let s := { framed with dev := after .boundaryEmit framed }
     (nextBoundary s.clk s.dev).any (fun x => decide (now s.clk < x.2)) = true) := by decide +kernel

theorem witness_FrameClockCommands_boundary :
    Tab.canonical 0 (host id).dev.arr.tmpl ∧
    (let s := host (wr (Reg.PMON_SEL 0) 2)
     rf s.dev (Reg.PMON_SEL 0) 0 10 = 2) ∧
    (let s := atTick 5 framed
     decide (now s.clk - since s.clk (0 : W64) * s.clk.tb.incr.toNat < (0 : Time)) = false
      ∧ decide (now s.clk - since s.clk (0 : W64) * s.clk.tb.incr.toNat < (1 : Time)) = true) :=
  ⟨⟨rfl, fun _ h => nomatch h⟩, by decide +kernel, by decide +kernel⟩

/-- R36: a rate outside its range is rejected. -/
theorem test_enable_reject : rb (after (.frmEnable .host) (host (wr Reg.FRM_RATE_NUM 241))) Reg.FRM_EVENT 5 = true := by decide +kernel

theorem test_boundary : (after .boundaryEmit framed).frm.next = 1 ∧ (after .boundaryEmit framed).frm.lastFrame = 0 := by decide +kernel

/-! Instructions (R45 to R85). -/

/-- Slot 0 of firefly 0 of swarm 0. -/
def sid : SlotId := ⟨0, 0, 0⟩

/-- The brew in slot 0, its code at the start of DRAM: g1 is a Kettle address, g2 is 3; v1 and p1, p2 hold ones. -/
def brew : Brew where
  key := 0
  pc := w64 dramBase
  g := [(1, w64 (ketBase + 64)), (2, 3)]
  v := [(1, 0x00010001), (2, 0x00020002)]
  p := [(1, 1), (2, 0xFFFFFFFF)]
  flow := none
  cycTick := 0

/-- Words of code at the start of DRAM. -/
def code (ws : List W32) (d : Dev) : Dev := putBytes dramBase (ws.flatMap fun w => leBytes 4 w.toNat) d

/-- The state after reset with the brew b in slot 0 and its code. -/
def brewing (ws : List W32) (b : Brew := brew) : State := host fun d => setBrew 0 (some b) (code ws d)

/-- Core 0 runs from the start of DRAM. -/
def core (ws : List W32) (x : Core := { running := true, pc := w64 dramBase, g := [(1, w64 (ketBase + 64)), (2, 3)] }) : State :=
  host fun d => setCore 0 x (code ws d)

/-- The brew in slot 0 after a command. -/
def brewAfter (c : Instr) (s : State) : Brew := ((brewAt (after c s) 0).getD brew)

theorem issues_of {op : Op} {who : Who} {pre : Option W32} {w : W32} {s : State} {r : Runner} (h : runnerOf who s.clk s.dev = some r)
    (h2 : (r.fetch s.dev).1 = .instr pre w) (h3 : classify r.isCore pre w = some op) : Issues op who r pre w s (r.fetch s.dev).2 :=
  ⟨h, Prod.ext h2 rfl, h3⟩

/-- The runner can issue, and fetches an instruction of the class. -/
def issues (op : Op) (who : Who) (pre : Option W32) (w : W32) (s : State) : Bool :=
  match runnerOf who s.clk s.dev with
  | some r => (r.fetch s.dev).1 == .instr pre w && classify r.isCore pre w == some op
  | none => false

theorem issues_some {op : Op} {who : Who} {pre : Option W32} {w : W32} {s : State} (h : issues op who pre w s = true) :
    ∃ r e, Issues op who r pre w s e := by
  unfold issues at h
  split at h
  · next r hr =>
    rw [Bool.and_eq_true, beq_iff_eq, beq_iff_eq] at h
    exact ⟨r, _, issues_of hr h.1 h.2⟩
  · cases h

/-- One word of each class of R57 that a brew issues, written out from the formats of R55. -/
theorem witness_AluRule : issues .alu (.slot sid) none 0x04611000 (brewing [0x04611000]) = true ∧ pOf 0x04611000 = 0 ∧ funcOf 0x04611000 = 0
    ∧ issues .alu (.slot sid) none 0x04611106 (brewing [0x04611106]) = true ∧ pOf 0x04611106 ≠ 0 ∧ funcOf 0x04611106 = 6
    ∧ issues .alu (.core 0) none 0x04611000 (core [0x04611000]) = true := by decide +kernel

theorem witness_ImmediatesAndJumps :
    issues .immediate (.slot sid) none 0x08610005 (brewing [0x08610005]) = true
    ∧ issues .immediate (.slot sid) (some 0xFC000001) 0x10E72340 (brewing [0xFC000001, 0x10E72340]) = true
    ∧ (issues .lui (.slot sid) (some 0xFC000000) 0x18E04000 (brewing [0xFC000000, 0x18E04000]) = true ∧ aOf 0x18E04000 = 0)
    ∧ (issues .shifti (.slot sid) none 0x1C610044 (brewing [0x1C610044]) = true ∧ fld (0x1C610044 : W32) 8 8 = 0)
    ∧ (issues .nop (.slot sid) none 0x28000000 (brewing [0x28000000]) = true ∧ pOf 0x28000000 = 0 ∧ dOf 0x28000000 = 0 ∧ bOf 0x28000000 = 0)
    ∧ (issues .trap (.core 0) none 0x28010005 (core [0x28010005]) = true ∧ pOf 0x28010005 = 0 ∧ dOf 0x28010005 = 0 ∧ bOf 0x28010005 = 0)
    ∧ (issues .movl (.slot sid) none 0x28620001 (brewing [0x28620001]) = true ∧ aOf 0x28620001 < 8 ∧ pOf 0x28620001 = 0 ∧ bOf 0x28620001 = 0)
    ∧ (issues .movk (.slot sid) none 0x28600002 (brewing [0x28600002]) = true ∧ aOf 0x28600002 = 0 ∧ bOf 0x28600002 = 0)
    ∧ (issues .movfl (.slot sid) none 0x28600003 (brewing [0x28600003]) = true ∧ aOf 0x28600003 = 0)
    ∧ (issues .clrfl (.slot sid) none 0x28010004 (brewing [0x28010004]) = true ∧ dOf 0x28010004 = 0)
    ∧ issues .branch (.slot sid) none 0x60220004 (brewing [0x60220004]) = true ∧ issues .jal (.slot sid) none 0x78000002 (brewing [0x78000002]) = true
    ∧ issues .jalr (.slot sid) none 0x7C610000 (brewing [0x7C610000]) = true
    ∧ (issues .fence (.slot sid) none 0xA8000030 (brewing [0xA8000030]) = true ∧ dOf 0xA8000030 = 0 ∧ fld (0xA8000030 : W32) 6 10 = 0
      ∧ fld (0xA8000030 : W32) 4 2 ≠ 0) := by decide +kernel

theorem test_add : (brewAfter (.alu (.slot sid)) (brewing [0x04611000])).gReg 3 = w64 (ketBase + 67)
    ∧ (brewAfter (.alu (.slot sid)) (brewing [0x04611000])).pc = w64 (dramBase + 4) := by decide +kernel
/-- The manual's worked encodings of LUI and ORI with LIMM. -/
theorem test_lui_limm : (brewAfter (.lui (.slot sid)) (brewing [0xFC000000, 0x18E04000])).gReg 7 = 0x010000000000
    ∧ (brewAfter (.lui (.slot sid)) (brewing [0xFC000000, 0x18E04000])).pc = w64 (dramBase + 8) := by decide +kernel
theorem test_ori_limm : (brewAfter (.immediateOp (.slot sid)) (brewing [0xFC000001, 0x10E72340] { brew with g := [(7, 0x010000000000)] })).gReg 7
    = 0x010000012340 := by decide +kernel
/-- R61, R62: a taken branch counts words from itself. -/
theorem test_branch : (brewAfter (.branch (.slot sid)) (brewing [0x60210004])).pc = w64 (dramBase + 16) := by decide +kernel
theorem test_jal : (brewAfter (.jal (.slot sid)) (brewing [0x78000002])).gReg 31 = w64 (dramBase + 4) := by decide +kernel

/-- Runner 0 with its brew. -/
def runner0 : Runner := .slot 0 brew

theorem witness_LoadsStoresAtomics :
    (issues .load (.slot sid) none 0x38610000 (brewing [0x38610000]) = true ∧ runner0.csrWord .read (opOf 0x38610000 == 0x0E) (ketBase + 64) = false
      ∧ runner0.spot .read (ketBase + 64) 4 4 (brewing []).dev = .ok (ketBase + 64) ∧ uncorrectable (brewing []).dev (ketBase + 64) 4 = false
      ∧ uncorrectable { (brewing []).dev with ecc := [((ketBase + 64) / 8, .multi)] } (ketBase + 64) 4 = true
      ∧ runner0.spot .read (ketBase + 66) 4 4 (brewing []).dev = .error 0x02 ∧ runner0.spot .read 0x2000000 4 4 (brewing []).dev = .error 0x03) ∧
    (issues .store (.slot sid) none 0x58410000 (brewing [0x58410000]) = true ∧ runner0.csrWord .write (opOf 0x58410000 == 0x16) (ketBase + 64) = false
      ∧ runner0.spot .write (ketBase + 64) 4 4 (brewing []).dev = .ok (ketBase + 64)) ∧
    (let x : Core := { running := true, pc := w64 dramBase, g := [(1, w64 csrBase), (2, 3)] }
     inCsr csrBase 4 = true ∧ csrBase % 4 = 0 ∧ issues .load (.core 0) none 0x38610000 (core [0x38610000] x) = true ∧ x.grants .read csrBase 4 = true
      ∧ issues .store (.core 0) none 0x58410000 (core [0x58410000] x) = true ∧ x.grants .write csrBase 4 = true) ∧
    (issues .atom (.slot sid) none 0xA4611081 (brewing [0xA4611081]) = true ∧ pOf 0xA4611081 = 0 ∧ 2 ≤ fld (0xA4611081 : W32) 6 2
      ∧ fld (0xA4611081 : W32) 0 6 ≤ 9) := by decide +kernel

/-- An access to the Kettle's first space, aligned, is neither outside every space nor misaligned. -/
theorem ket_goes {i : Nat} {b : Brew} {kind : Access} {d : Dev} {a n : Nat} (h : 0x1000000000 ≤ a ∧ a + n ≤ 0x1020000000) (al : a % n = 0) :
    ∀ x, ¬ (Runner.slot i b).refuses kind d a n x := by
  rintro x (⟨-, h1 | h1⟩ | ⟨-, -, -, h1⟩)
  · exact h1 a (Or.inr ⟨rfl, Or.inl h⟩)
  · exact h1 trivial
  · exact h1 al

/-- No space of a brew holds address 0x2000000. -/
theorem absent_refused (i : Nat) (b : Brew) (kind : Access) (d : Dev) (n : Nat) : (Runner.slot i b).refuses kind d 0x2000000 n 0x03 := by
  refine Or.inl ⟨rfl, Or.inl fun p h => ?_⟩
  rcases h with (⟨h, -⟩ | ⟨-, h, -⟩) | ⟨-, ⟨h, -⟩ | ⟨h, -⟩⟩ <;> omega

theorem witness_LoadsStoresAtomics_spots :
    (runner0.holds (brewing []).dev (ketBase + 64) 4 (ketBase + 64) ∧ runner0.allows .read (ketBase + 64) 4 ∧ (ketBase + 64) % 4 = 0) ∧
    (runner0.refuses .read (brewing []).dev 0x2000000 4 0x03 ∧ runner0.refuses .write (brewing []).dev 0x2000000 4 0x03) ∧
    runner0.refuses .read (brewing []).dev (ketBase + 66) 4 0x02 ∧
    (runner0.holds (brewing []).dev 0x7FFC 4 (cupPlace 0 + 0x7FFC) ∧ (Runner.core 0 {}).holds (host id).dev 0x1FFFC 4 (privPlace 0 + 0x1FFFC)) ∧
    (Access.read ≠ .run ∧ (Runner.core 0 { st := 0 }).refuses .write (host id).dev 0 4 0x03) ∧
    (issues .atom (.slot sid) none 0xA4611001 (brewing [0xA4611001]) = true ∧ fld (0xA4611001 : W32) 6 2 < 2) :=
  ⟨⟨Or.inr ⟨rfl, Or.inl (by decide)⟩, trivial, by decide⟩, ⟨absent_refused .., absent_refused ..⟩,
    Or.inr ⟨rfl, ⟨_, Or.inr ⟨rfl, Or.inl (by decide)⟩⟩, trivial, by decide⟩,
    ⟨Or.inl (Or.inl ⟨by decide, rfl⟩), Or.inl (Or.inl ⟨by decide, rfl⟩)⟩,
    ⟨by decide, Or.inl ⟨rfl, Or.inr (by
      rintro (h | ⟨i, -, -, -, h, -⟩)
      · exact absurd h (by decide)
      · exact absurd h (by simp [Tab.get, bit]))⟩⟩,
    by decide +kernel⟩

theorem test_load_sign : (brewAfter (.load (.slot sid)) (host fun _ => putBytes (ketBase + 64) [0xFF, 0xFF, 0xFF, 0xFF] (brewing [0x38610000]).dev)).gReg 3 = -1 := by
  decide +kernel
theorem test_store : getBytes (after (.store (.slot sid)) (brewing [0x58410000])) (ketBase + 64) 4 = [3, 0, 0, 0] := by decide +kernel
/-- R49: a place outside every space. -/
theorem test_store_absent : rf (after (.store (.slot sid)) (brewing [0x58410000] { brew with g := [(1, 0x2000000), (2, 3)] })) (Reg.SWARM_FAULT_COUNT 0) 0 16 = 1 := by
  decide +kernel
theorem test_atom_add : getBytes (after (.atom (.slot sid)) (brewing [0xA4611081])) (ketBase + 64) 4 = [3, 0, 0, 0] := by decide +kernel

/-- One instruction of each kind of vector result: a vector, a scalar, a predicate, a predicate with flags, and none. -/
theorem witness_VectorResults :
    (issues .vint (.slot sid) none 0x80611000 (brewing [0x80611000]) = true ∧ ((vint (vArgs brew none 0x80611000 16)).any fun r => match r with | .vec _ _ => true | _ => false) = true) ∧
    (issues .vfix (.slot sid) none 0x84611240 (brewing [0x84611240]) = true ∧ (vfix (vArgs brew none 0x84611240 16)).isSome = true) ∧
    (issues .vfp (.slot sid) none 0x88611000 (brewing [0x88611000]) = true ∧ (vfp (vArgs brew none 0x88611000 16)).isSome = true) ∧
    (issues .vmove (.slot sid) none 0x90610000 (brewing [0x90610000]) = true ∧ (vmove 0 (vArgs brew none 0x90610000 16)).isSome = true) ∧
    (issues .vint (.slot sid) none 0x806110C0 (brewing [0x806110C0]) = true ∧ (vint (vArgs brew none 0x806110C0 16)).isNone = true) := by decide +kernel

theorem test_vint_add : (brewAfter (.vint sid) (brewing [0x80611000])).vReg 3 = 0x00030003 := by decide +kernel
/-- R67's worked example. -/
theorem test_vfix_mul : vfixElem 0 1 0 0xC000 0x8000 0 = some (0x6000, 0) := by decide +kernel
theorem test_vfix_lerp : vfixElem 3 1 0 0x1000 0x9000 0x4000 = some (0x3000, 0) := by decide +kernel
theorem test_vfix_rounding : vfixElem 0 1 0 1 0x8000 0 = some (1, 0) ∧ vfixElem 0 1 1 1 0x8000 0 = some (0, 0) ∧ vfixElem 0 1 2 1 0x8000 0 = some (0, 0) := by
  decide +kernel

theorem witness_PredicateRule : issues .vpred (.slot sid) none 0x8C211000 (brewing [0x8C211000]) = true ∧ pOf 0x8C211000 = 0 ∧ funcOf 0x8C211000 = 0
    ∧ issues .vpred (.slot sid) none 0x8C211105 (brewing [0x8C211105]) = true ∧ pOf 0x8C211105 ≠ 0 ∧ funcOf 0x8C211105 = 5
    ∧ issues .vpred (.slot sid) none 0x8C610008 (brewing [0x8C610008]) = true ∧ issues .vpred (.slot sid) none 0x8C61000C (brewing [0x8C61000C]) = true := by
  decide +kernel

theorem test_pand : (brewAfter (.vpred sid) (brewing [0x8C211000])).pReg 1 = 1 := by decide +kernel

theorem witness_VectorMemory :
    (fld (0x94610000 : W32) 6 2 ≠ 3 ∧ issues .vld (.slot sid) none 0x94610000 (brewing [0x94610000]) = true ∧ bOf 0x94610000 = 0
      ∧ firstFault runner0 .read (memBytes 0x94610000) (lineElems brew none 0x94610000) (brewing []).dev = none
      ∧ firstFault runner0 .read (memBytes 0x94610000) (lineElems { brew with g := [] } none 0x94610000) (host id).dev = none) ∧
    (issues .vst (.slot sid) none 0x98610000 (brewing [0x98610000]) = true
      ∧ firstFault runner0 .write (memBytes 0x98610000) (lineElems { brew with g := [(1, 0x2000000)] } none 0x98610000) (host id).dev = some (3, 0x2000000, 0)) ∧
    (issues .vgather (.slot sid) none 0x9C611000 (brewing [0x9C611000]) = true ∧ fld (0x9C611000 : W32) 0 4 = 0) ∧
    (issues .vscatter (.slot sid) none 0xA0611000 (brewing [0xA0611000]) = true ∧ fld (0xA0611000 : W32) 0 4 = 0) := by decide +kernel

theorem witness_VectorMemory_refused : (Runner.slot 0 { brew with g := [(1, 0x2000000)] }).refuses .write (host id).dev 0x2000000 (memBytes 0x98610000) 0x03
    ∧ (0, (0x2000000 : W64)) ∈ lineElems { brew with g := [(1, 0x2000000)] } none 0x98610000
    ∧ ∀ z ∈ lineElems { brew with g := [(1, 0x2000000)] } none 0x98610000, ¬ z.1 < 0 :=
  ⟨absent_refused .., by decide +kernel, fun _ _ h => absurd h (Nat.not_lt_zero _)⟩

/-- The elements of a load from the Kettle. -/
theorem vld_goes : ∀ z ∈ lineElems brew none 0x94610000, ∀ x, ¬ runner0.refuses .read (brewing []).dev z.2.toNat (memBytes 0x94610000) x := by
  have h : ∀ z ∈ lineElems brew none 0x94610000, (0x1000000000 ≤ z.2.toNat ∧ z.2.toNat + memBytes 0x94610000 ≤ 0x1020000000)
      ∧ z.2.toNat % memBytes 0x94610000 = 0 := by decide +kernel
  exact fun z hz => ket_goes (h z hz).1 (h z hz).2

theorem witness_VectorMemory_words :
    (let e : Dev := { (brewing []).dev with ecc := [((ketBase + 64) / 8, .multi)] }
     uncorrectable e (spotOf runner0 .read (memBytes 0x94610000) (w64 (ketBase + 64)) e) (memBytes 0x94610000) = true
      ∧ (0, w64 (ketBase + 64)) ∈ lineElems brew none 0x94610000) ∧
    (∀ x ∈ lineElems brew none 0x94610000, uncorrectable (brewing []).dev (spotOf runner0 .read (memBytes 0x94610000) x.2 (brewing []).dev)
      (memBytes 0x94610000) = false) ∧
    (issues .vld (.slot sid) none 0x94611000 (brewing [0x94611000]) = true ∧ bOf 0x94611000 ≠ 0) ∧
    (issues .vgather (.slot sid) none 0x9C611001 (brewing [0x9C611001]) = true ∧ fld (0x9C611001 : W32) 0 4 ≠ 0) ∧
    (issues .vst (.slot sid) none 0x986100C0 (brewing [0x986100C0]) = true ∧ fld (0x986100C0 : W32) 6 2 = 3) := by decide +kernel

/-- A core in TASK mode with an area over its code. -/
def task : Core := { running := true, pc := w64 dramBase, st := 0, areaBase := [(0, w64 dramBase ||| 7)], areaLimit := [(0, w64 (dramBase + 0xFFF))] }

/-- Line 48 is set, enabled and routed to the cores. -/
def pendingLine (x : Core) : State :=
  host fun d => setCore 0 x (regs [(Reg.SYS_SW_EVENT, 1), (Reg.SYS_SW_EVENT_EN, 1), (Reg.SYS_EVT_ROUTE 48, 0x40000000)] d)

theorem witness_ControlCores :
    (issues .getc (.core 0) none 0xAC600000 (core [0xAC600000] task) = true ∧ task.privileged = false ∧ (coreRead 0 0 task (host id).clk (host id).dev).isSome = true) ∧
    (issues .setc (.core 0) none 0xAC011007 (core [0xAC011007] task) = true ∧ (coreWrite 7 0 task).isSome = true) ∧
    (issues .resume (.core 0) none 0xAC002000 (core [0xAC002000]) = true ∧ privEmpty 0xAC002000 = true ∧ (coreAt (core []).dev 0).privileged = true) ∧
    (issues .doze (.core 0) none 0xAC003000 (core [0xAC003000]) = true ∧ privEmpty 0xAC003000 = true) ∧
    (issues .callp (.core 0) none 0xAC004000 (core [0xAC004000] task) = true ∧ privEmpty 0xAC004000 = true) ∧
    (let s := pendingLine { running := true, dozing := true, st := 3, irqEn := 0x1000000000000 }
     bit (irqPend s.dev &&& (coreAt s.dev 0).irqEn) 48 = true ∧ (∀ m < 48, bit (irqPend s.dev &&& (coreAt s.dev 0).irqEn) m = false)
      ∧ (coreAt s.dev 0).running = true ∧ (coreAt s.dev 0).ien = true ∧ (coreAt s.dev 0).dozing = true) ∧
    csrShut (host id).dev (Reg.SWARM_ICACHE_CMD 0) = false := by decide +kernel

/-- R84: CALLP traps with KIND 1. -/
theorem test_callp : (coreAt (after (.callp 0) (core [0xAC004000])) 0).pc = 0x100 ∧ (coreAt (after (.callp 0) (core [0xAC004000])) 0).cause = 0x108 := by decide +kernel
/-- R84: in TASK mode RESUME is PRIV_VIOL. -/
theorem test_resume_task : (coreAt (after (.resume 0) (core [0xAC002000] task)) 0).cause = 7 := by decide +kernel

/-- The same instruction in two slots. -/
theorem witness_SameResultAnywhere : issues .alu (.slot sid) none 0x04611000 (brewing [0x04611000]) = true
    ∧ issues .alu (.slot ⟨0, 0, 1⟩) none 0x04611000 (host fun d => setBrew 1 (some brew) (code [0x04611000] d)) = true := by decide +kernel

/-! Brews (R86 to R117). -/

/-- One word of each key operation, from the formats of R55 and R103. -/
theorem witness_KeyOperations : pOf 0xBC611008 = 0 ∧ issues .kmake (.slot sid) none 0xBC611008 (brewing [0xBC611008]) = true
    ∧ issues .ksetf (.slot sid) none 0xBC611009 (brewing [0xBC611009]) = true ∧ issues .kaddf (.slot sid) none 0xBC61100A (brewing [0xBC61100A]) = true
    ∧ issues .kaddi (.slot sid) none 0xBC61100B (brewing [0xBC61100B]) = true ∧ issues .ksett (.slot sid) none 0xBC61100C (brewing [0xBC61100C]) = true
    ∧ issues .kgett (.slot sid) none 0xBC61000D (brewing [0xBC61000D]) = true ∧ bOf 0xBC61000D = 0
    ∧ issues .kgetf (.slot sid) none 0xBC61000E (brewing [0xBC61000E]) = true ∧ issues .kgeti (.slot sid) none 0xBC61000F (brewing [0xBC61000F]) = true := by
  decide +kernel

/-- R86's worked example: template 0x123, frame 213,569, instance 9,499. -/
theorem test_key : (brewAfter (.kmake sid) (brewing [0xBC611008] { brew with key := 0x0003424100000000, g := [(1, 0x123), (2, 9499)] })).gReg 3
    = 0x048F42410000251B := by decide +kernel

/-- Template 0 is valid, with two leaves; no flow. -/
def leaves2 (d : Dev) : Dev := onArr (fun a => { a with tmpl := [(3, 0x80400000)] }) d

/-- An entry of key 0 in swarm 0 with its second leaf filled or not. -/
def entry0 (full : Bool) : Entry := { key := 0, leaves := [some 7, if full then some 8 else none], prio := 0, persist := false, flow := none }

/-- Swarm 0's table holds n times an entry of key 8. -/
def crowded (n : Nat) : Dev := setSteep 0 { entries := List.replicate n { entry0 false with key := 8 } } (leaves2 (host id).dev)

theorem crowded_places (n : Nat) : (steepOf (crowded n) 0).places = n := by
  simp [crowded, steepOf, setSteep, onArr, Steep.places, Tab.get_put_same]

/-- Swarm 0's table with some entries, markers and ready keys. -/
def steeping (x : Steep) : State := host fun d => setSteep 0 x (leaves2 d)

theorem witness_HomeSwarm : (1 : Nat) ≠ homeOf (host id).dev 0 := by decide +kernel

theorem witness_SteepingTable :
    (homeOf (steeping { markers := [{ key := 0 }] }).dev 0 = 0 ∧ (steepOf (steeping { markers := [{ key := 0 }] }).dev 0).marked 0 = true) ∧
    ((steepOf (steeping {}).dev 0).marked 0 = false ∧ (steepOf (steeping {}).dev 0).entry? 0 = none ∧ (steepOf (steeping {}).dev 0).places < 7168
      ∧ 1 < tmplLeaves (steeping {}).dev (keyTmpl 0)) ∧
    ((steepOf (steeping { entries := [entry0 false] }).dev 0).entry? 0 = some (entry0 false) ∧ (entry0 false).leaves.getD 1 none = none
      ∧ (entry0 false).isReady = false) ∧
    ((steepOf (steeping { entries := [entry0 true] }).dev 0).entry? 0 = some (entry0 true) ∧ (entry0 true).isReady = true) ∧
    (let x : Push := { key := 0, slot := 1, value := 5 }
     let s := host fun d => onArr (fun a => { a with inputs := [x] }) (leaves2 d)
     s.dev.arr.inputs = [x] ∧ homeOf s.dev x.key = 0 ∧ x.cancel = false ∧ leafBad s.dev x.key x.slot = false ∧ swarmRuns s.dev 0 = true) ∧
    (let x : Sent := { slotId := some 0, key := 0, slot := 1, value := 5, cancel := false }
     let s := host fun d => onArr (fun a => { a with sends := [x] }) (leaves2 d)
     s.dev.arr.inputs = [] ∧ s.dev.arr.frameLeaves = [] ∧ s.dev.arr.immediate = [] ∧ (∀ j < 4, delayList s.dev j = []) ∧ s.dev.arr.sends = [x]
      ∧ (takeLeaf false x.key x.slot x.value (setSends [] s.dev)).1 = true ∧ brewAt (brewing []).dev 0 = some brew
      ∧ (serveSource ((steepOf s.dev 0).turn % 4) 0 s.dev).1 = true) ∧
    (let x : Push := { key := 0, slot := 1, value := 5 }
     let s := host fun d => onArr (fun a => { a with inputs := [x] }) d
     s.dev.arr.inputs = x :: [] ∧ homeOf s.dev x.key = 0 ∧ leafBad s.dev x.key x.slot = true ∧ swarmRuns s.dev 0 = true) ∧
    (let x : Sent := { slotId := some 0, key := 0, slot := 1, value := 5, cancel := false, waits := true }
     let s := host fun d => onArr (fun a => { a with sends := [x] }) (leaves2 d)
     x.waits = true ∧ x.cancel = false ∧ (takeLeaf false x.key x.slot x.value s.dev).1 = true) ∧
    (let x : Push := { key := 0, slot := 0, value := 0, cancel := true }
     let s := host fun d => onArr (fun a => { a with inputs := [x, { x with cancel := false }] }) (leaves2 d)
     inputWaits s.dev 0 = true ∧ headInput s.dev 0 = some (0, x) ∧ x.cancel = true) := by decide +kernel

theorem witness_SteepingTable_full : (steepOf (crowded 7168) 0).places = 7168 ∧ (steepOf (crowded 8192) 0).places = 8192 :=
  ⟨crowded_places _, crowded_places _⟩

theorem crowded_refuses (n : Nat) (hn : 7168 ≤ n) : (takeLeaf false 0 1 5 (crowded n)).1 = false := by
  have h : homeOf (crowded n) 0 = 0 := (rfl : homeOf (crowded n) 0 = homeOf (leaves2 (host id).dev) 0).trans
    (show homeOf (leaves2 (host id).dev) 0 = 0 by decide +kernel)
  have h1 : (steepOf (crowded n) 0).marked 0 = false := by simp [crowded, steepOf, setSteep, onArr, Tab.get_put_same, Steep.marked]
  have h2 : (steepOf (crowded n) 0).entry? 0 = none := by
    simp [crowded, steepOf, setSteep, onArr, Tab.get_put_same, Steep.entry?]
  simp only [takeLeaf, h, h1, h2, crowded_places, placeLimit]
  simp [Nat.not_lt.mpr hn]

theorem witness_SteepingTable_refused : (takeLeaf false 0 1 5 (crowded 7168)).1 = false ∧ (brewing []).dev.arr.sends = [] ∧ brew.cancelled = false :=
  ⟨crowded_refuses 7168 (Nat.le_refl _), rfl, rfl⟩

/-- R95: the last leaf puts the key at the tail of the ready list. -/
theorem test_last_leaf : (steepOf (takeLeaf true 0 1 8 (steeping { entries := [entry0 false] }).dev).2 0).ready = [0] := by decide +kernel
/-- R95: a leaf to a filled slot is discarded as DUP. -/
theorem test_dup_leaf : rf (takeLeaf true 0 0 8 (steeping { entries := [entry0 false] }).dev).2 (Reg.SWARM_LEAF_DISCARD 0) 16 16 = 1 := by decide +kernel

/-- The brew with code and the template of two leaves. -/
def brewing2 (ws : List W32) (b : Brew := brew) : State := { brewing ws b with dev := leaves2 (brewing ws b).dev }

/-- A POUR of n bytes from the cup, to a destination word. -/
def pours (n : Nat) (at' : Nat) (m : Nat) : Brew := { brew with g := [(1, w64 at'), (2, w64 n), (3, 0x2000000000000000)], pours := m }

theorem witness_BrewInstructions :
    (issues .emit (.slot sid) none 0xB0221000 (brewing2 [0xB0221000]) = true ∧ pOf 0xB0221000 = 0 ∧ dOf 0xB0221000 < 8
      ∧ brew.cancelled = false ∧ tmplValid (brewing2 []).dev 0 = true ∧ 1 < tmplLeaves (brewing2 []).dev 0
      ∧ tmplValid (brewing []).dev 0 = false) ∧
    (issues .emitv (.slot sid) none 0xB0221101 (brewing2 [0xB0221101]) = true) ∧
    (issues .pour (.slot sid) none 0xB4611000 (brewing2 [0xB4611000]) = true ∧ pOf 0xB4611000 = 0) ∧
    (issues .delay (.slot sid) none 0xB8611000 (brewing2 [0xB8611000]) = true ∧ fld (0xB8611000 : W32) 5 3 = 0) ∧
    (issues .endBrew (.slot sid) none 0xBC000000 (brewing2 [0xBC000000]) = true ∧ brew.flow = none) ∧
    (issues .cancel (.slot sid) none 0xBC010001 (brewing2 [0xBC010001]) = true ∧ dOf 0xBC010001 = 0 ∧ bOf 0xBC010001 = 0) := by decide +kernel

/-- The brew belongs to flow 0, a stream, and is instance n. -/
def member (n : W64) (f : Brew → Brew := id) : Brew := f { brew with key := n, flow := some 0 }

/-- The brew in slot 0 with flow 0 set. -/
def inFlow (ws : List W32) (b : Brew) (x : Machine.Flow) : State := { brewing2 ws b with dev := setFlow 0 x (brewing2 ws b).dev }

theorem witness_BrewInstructions_refused :
    (∀ x ∈ [(Op.emit, (0xB1221000 : W32)), (.emitv, 0xB1221101), (.pour, 0xB4611100), (.delay, 0xB86110E0), (.endBrew, 0xBC010000), (.cancel, 0xBC011001)],
      issues x.1 (.slot sid) none x.2 (brewing2 [x.2]) = true) ∧
    8 ≤ dOf 0xB1221000 ∧ 8 ≤ dOf 0xB1221101 ∧ pOf 0xB4611100 ≠ 0 ∧ fld (0xB86110E0 : W32) 5 3 ≠ 0 ∧ aOf 0xBC010000 ≠ 0
      ∧ bOf 0xBC011001 ≠ 0 ∧ dOf 0xB0221101 < 8 ∧ tmplLeaves (brewing2 []).dev 0 ≤ 2 ∧ ({ brew with cancelled := true } : Brew).cancelled = true := by
  decide +kernel

theorem witness_BrewInstructions_flows :
    (let b := member 1023
     let s := inFlow [0xB4611000] b { enabled := true, stream := true }
     keyPlace s.dev 0 b.key = .pos 1023 ∧ keyPlace s.dev 0 (member 1024).key = .pos 1024
      ∧ (flow s.dev 0).isClosed 1023 = false ∧ keyPlace (inFlow [] b {}).dev 0 b.key = .disabled
      ∧ keyPlace (inFlow [] b { enabled := true, stream := true, next := 1024 }).dev 0 b.key = .behind
      ∧ (flow (inFlow [] b { enabled := true, stream := true, closed := [{ frame := 0, inst := 1023, recs := none }] }).dev 0).isClosed 1023 = true
      ∧ issues .endBrew (.slot sid) none 0xBC000000 (inFlow [0xBC000000] b { enabled := true, stream := true }) = true) ∧
    (let e := (brewing2 []).dev
     destOk e (pours 4096 0 0 |>.gReg 3) 4096 = true ∧ uncorrectable e (cupPlace 0) 64 = false
      ∧ uncorrectable { e with ecc := [(cupPlace 0 / 8, .multi)] } (cupPlace 0) 64 = true) := by decide +kernel

theorem test_emit : (after (.emit sid) (brewing2 [0xB0221000])).arr.sends
    = [{ slotId := some 0, key := 3, slot := 1, value := 3, cancel := false }] := by decide +kernel
/-- R106: 4,097 bytes are POUR_LEN. -/
theorem test_pour_len : rf (after (.pour sid) (brewing2 [0xB4611000] (pours 4097 0 0))) (Reg.SWARM_FAULT_COUNT 0) 0 16 = 1 := by decide +kernel
theorem test_end : brewAt (after (.endBrew sid) (brewing2 [0xBC000000])) 0 = none := by decide +kernel

/-- The scheduler runs, with a ready entry of key 0 in swarm 0. -/
def scheduled : State := host fun d => wr Reg.SCHED_CTL 1 (setSteep 0 { entries := [entry0 true], ready := [0] } (leaves2 d))

theorem witness_SchedulerCommands :
    (rb scheduled.dev Reg.SCHED_CTL 0 = true ∧ swarmRuns scheduled.dev 0 = true ∧ (steepOf scheduled.dev 0).ready = [] ++ (entry0 true).key :: []
      ∧ (steepOf scheduled.dev 0).entry? (entry0 true).key = some (entry0 true) ∧ (entry0 true).prio < 4 ∧ idleSlot scheduled.dev 0 = some 0) ∧
    (brewAt (brewing []).dev (slotNum sid) = some brew ∧ brewCycles (brewing []).clk (brewing []).dev 0 brew ≤ cycleLimit (brewing []).dev
      ∧ cycleLimit (brewing []).dev < brewCycles (brewing []).clk (brewing []).dev 0 { brew with issued := true, cycles := 0x100001 }) ∧
    (let x : Push := { key := 0, slot := 0, value := 0, cancel := true }
     let s := host fun d => onArr (fun a => { a with inputs := [x] }) d
     s.dev.arr.inputs = [x] ∧ homeOf s.dev x.key = 0 ∧ x.cancel = true ∧ swarmRuns s.dev 0 = true) ∧
    (runningOf scheduled.dev 0 0 = [] ∧ (steepOf (steeping {}).dev 0).entry? 0 = none ∧ (steepOf (steeping {}).dev 0).places < 7168) ∧
    csrShut (host id).dev Reg.SCHED_TMPL_CMD = false ∧ (csrShut (host id).dev (Reg.SCHED_LEAF_PUSH 1) = false ∧ pushClosed (host id).dev 1 = false
      ∧ (hostPort (host id).dev 1).length < 64 ∧ 64 ≤ (hostPort (setHostPort 1 (List.replicate 64 { key := 0, slot := 0, value := 0 }) (host id).dev) 1).length) ∧
    (let x : Push := { key := 0, slot := 1, value := 5 }
     let s := host fun d => onArr (fun a => { a with immediate := [x] }) (leaves2 d)
     s.dev.arr.immediate = [x] ∧ leafBad s.dev x.key x.slot = false ∧ swarmRuns s.dev (homeOf s.dev x.key) = true) ∧
    (let x : Push := { key := 0, slot := 1, value := 5 }
     let s := host fun d => onArr (fun a => { a with immediate := [x], inputs := [x] }) (leaves2 d)
     inputWaits s.dev 0 = true ∧ inputWaits (host id).dev 0 = false
      ∧ (host fun d => onArr (fun a => { a with immediate := [{ x with cancel := true }] }) d).dev.arr.immediate = [{ x with cancel := true }]) ∧
    (let x : Push := { key := 0, slot := 0, value := 0, cancel := true }
     let d := (host fun d => onArr (fun a => { a with inputs := [x] }) (setSteep 0 { sweepDue := true } d)).dev
     (steepOf d 0).sweepDue = true ∧ cancelPending d 0 = true ∧ cancelPending (setSteep 0 { sweepDue := true } (host id).dev) 0 = false
      ∧ (steepOf (host id).dev 0).sweepDue = false) ∧
    (csrShut (host id).dev Reg.SCHED_ROUTE_SET = false ∧ rb (host id).dev Reg.SCHED_CTL 0 = false ∧ schedIdle (host id).dev = true
      ∧ schedIdle scheduled.dev = false) := by decide +kernel

theorem witness_SchedulerCommands_cancel :
    (let x : Sent := { slotId := some 0, key := 0, slot := 0, value := 0, cancel := true }
     let s := host fun d => onArr (fun a => { a with sends := [x] }) (leaves2 d)
     s.dev.arr.inputs = [] ∧ s.dev.arr.sends = x :: [] ∧ homeOf s.dev x.key = 0 ∧ swarmRuns s.dev 0 = true
      ∧ (takeCancel false x.key (setSends [] s.dev)).1 = true) ∧
    (let x : Push := { key := 0, slot := 1, value := 5 }
     let s := host fun d => onArr (fun a => { a with immediate := [x] }) (leaves2 d)
     s.dev.arr.frameLeaves = [] ∧ s.dev.arr.sends = [] ∧ (∀ j < 4, delayList s.dev j = [])) ∧
    (let d := setSteep 0 { sweepDue := true, entries := [{ entry0 false with key := 0 }] } { (host id).dev with frm := { (host id).dev.frm with cur := 9 } }
     (steepOf d 0).entries.filter (stale d) ≠ []) := by decide +kernel

theorem test_dispatch : (brewAt (after (.dispatch 0) scheduled) 0).map (fun b => (b.lReg 0, b.lReg 1, b.lReg 2)) = some (7, 8, 0) := by decide +kernel
theorem test_route_locked : rb (after (.schedRouteSetWrite .host 1) scheduled) Reg.SCHED_EVENT 5 = true := by decide +kernel
theorem test_push_overflow :
    rd (after (.schedLeafPushLeaf .host 1 0) (host fun d => setHostPort 1 (List.replicate 64 { key := 0, slot := 0, value := 0 }) d)) (Reg.SCHED_LEAF_OVF 1) = 1 := by
  decide +kernel

/-! Flows and delays (R118 to R137). -/

/-- A flow of frames of 9,500 members that stands in frame 7 at member 9,200. -/
def framedFlow : Flow := { enabled := true, len := 9500, frame := some 7, next := 9200 }

/-- The state after reset with flow 0 set. -/
def flowing (x : Flow) (f : Dev → Dev := id) : State := host fun d => f (setFlow 0 x d)

/-- Flow 0 as a stream, with a tombstone on its way. -/
def tombed (x : Flow) (key : W64) : State := flowing x fun d => onArr (fun a => { a with tombs := [(0, key)] }) d

/-- A flow that is a stream. -/
def streamFlow : Flow := { enabled := true, stream := true }

/-- The positions of R119's worked example. -/
theorem test_flow_positions : framedFlow.place 8 700 = .pos 1000 ∧ framedFlow.place 8 730 = .pos 1030 ∧ framedFlow.place 7 9150 = .behind := by
  decide +kernel

theorem witness_FlowCommands :
    (streamFlow.enabled = true ∧ streamFlow.stream = true) ∧ (framedFlow.enabled = true ∧ framedFlow.stream = false ∧ framedFlow.frame = some 7) ∧
    ((tombed streamFlow 4095).dev.arr.tombs = (0, 4095) :: [] ∧ streamFlow.place 0 4095 = .pos 4095
      ∧ (flow (tombed streamFlow 4095).dev 0).isClosed 4095 = false) ∧
    (streamFlow.place 0 4096 = .pos 4096 ∧ streamFlow.place 0 0x80000000 = .behind ∧ ({} : Flow).place 0 0 = .disabled
      ∧ ({ streamFlow with closed := [{ frame := 0, inst := 5, recs := none }] } : Flow).isClosed 5 = true) ∧
    (let c : Closure := { frame := 0, inst := 0, recs := some [{ key := 0, dest := 0, data := [1] }] }
     let s := flowing { streamFlow with closed := [c] }
     (flow s.dev 0).closed = [] ++ c :: [] ∧ (flow s.dev 0).place c.frame c.inst = .pos 0 ∧ (flow s.dev 0).stream = true) ∧
    (let c : Closure := { frame := 7, inst := 9499, recs := none }
     let s := flowing { framedFlow with next := 9499, closed := [c] }
     (flow s.dev 0).closed = [] ++ c :: [] ∧ (flow s.dev 0).place c.frame c.inst = .pos 0 ∧ (flow s.dev 0).stream = false
      ∧ (flow s.dev 0).next + 1 = (flow s.dev 0).len) ∧
    (let c : Closure := { frame := 7, inst := 9200, recs := none }
     let s := flowing { framedFlow with closed := [c] }
     (flow s.dev 0).place c.frame c.inst = .pos 0 ∧ (flow s.dev 0).next + 1 ≠ (flow s.dev 0).len) ∧
    (let r : Rec := { key := 0, dest := 0x4000000000000000, data := [1] }
     let s := flowing { streamFlow with out := [r] }
     (flow s.dev 0).out = r :: [] ∧ (handOn r s.clk s.dev).isSome = true) ∧
    (let r : Rec := { key := 0, dest := 0, data := [1] }
     let b : Brew := { brew with flow := some 0, wait := .pour r, key := 1023 }
     let s := flowing streamFlow fun d => setBrew 0 (some b) d
     brewAt s.dev (slotNum sid) = some b ∧ b.cancelled = false ∧ keyPlace s.dev 0 b.key = .pos 1023 ∧ pourFits s.dev (1023 == 0) r = true
      ∧ keyPlace s.dev 0 1024 = .pos 1024) ∧
    (let s := host (wr (Reg.SCHED_FLOW_LEN 0) 5)
     csrShut s.dev (Reg.SCHED_FLOW_CFG 0) = false ∧ bit (0xC0000000 : W32) 31 = true ∧ rb s.dev (Reg.SCHED_FLOW_CFG 0) 31 = false
      ∧ bit (0xC0000000 : W32) 30 = true ∧ bit (0x80000000 : W32) 30 = false ∧ rd s.dev (Reg.SCHED_FLOW_LEN 0) ≠ 0
      ∧ rd (host id).dev (Reg.SCHED_FLOW_LEN 0) = 0 ∧ bit (0 : W32) 31 = false
      ∧ rb (host (wr (Reg.SCHED_FLOW_CFG 0) 0x80000000)).dev (Reg.SCHED_FLOW_CFG 0) 31 = true) ∧
    (let s := flowing streamFlow (wr (Reg.SCHED_FLOW_LEN 0) 5)
     csrShut s.dev Reg.SCHED_FLOW_CMD = false ∧ (flow s.dev 0).closed = [] ∧ (flow s.dev 0).enabled = true ∧ (flow s.dev 0).stream = true
      ∧ (flow s.dev 0).next = rd s.dev Reg.SCHED_FLOW_ARG ∧ rd s.dev (Reg.SCHED_FLOW_LEN 0) ≠ 0
      ∧ (flow s.dev 0).next ≠ rd (wr Reg.SCHED_FLOW_ARG 1 s.dev) Reg.SCHED_FLOW_ARG
      ∧ (flow (host id).dev 0).enabled = false ∧ rd (host id).dev (Reg.SCHED_FLOW_LEN 0) = 0 ∧ rb (host id).dev (Reg.SCHED_FLOW_CFG 0) 30 = false) := by
  decide +kernel

theorem witness_FlowCommands_skip :
    (let c : Closure := { frame := 0, inst := 1, recs := none }
     let s := flowing { streamFlow with closed := [c] }
     (∀ c ∈ (flow s.dev 0).closed, (flow s.dev 0).place c.frame c.inst ≠ .pos 0) ∧ (flow (releaseAll 0 s.dev) 0).enabled = true
      ∧ (flow (releaseAll 0 s.dev) 0).stream = true ∧ (flow (releaseAll 0 s.dev) 0).next = rd s.dev Reg.SCHED_FLOW_ARG) := by decide +kernel

/-- R124: a SKIP of the open position 0 lets the members that wait behind it go. -/
theorem test_skip_releases : (flow (after (.flowSkip .host 0) (flowing { streamFlow with closed := [{ frame := 0, inst := 1, recs := none }] })) 0).closed.length
    = 2 := by decide +kernel

/-- R120: a closure at position 4,096 or beyond is TOMB_FAR. -/
theorem test_tomb_far : rb (after .flowTombstone (tombed streamFlow 4096)) Reg.SCHED_REL_EVENT 2 = true
    ∧ rb (after .flowTombstone (tombed streamFlow 4095)) Reg.SCHED_REL_EVENT 2 = false := by decide +kernel
/-- R119: the last member of a frame is followed by member 0 of the next. -/
theorem test_release_wraps : (let x := flow (after (.flowRelease 0)
      (flowing { framedFlow with next := 9499, closed := [{ frame := 7, inst := 9499, recs := none }] })) 0
    (x.frame, x.next)) = (some 8, 0) := by decide +kernel
/-- R124: the instance given to SKIP is not NEXT. -/
theorem test_skip_miss : rb (after (.flowSkip .host 0) (flowing streamFlow (wr Reg.SCHED_FLOW_ARG 1))) Reg.SCHED_REL_EVENT 4 = true := by decide +kernel

/-- A delay entry of key 0. -/
def delayEntry (due : W64) (policy : Nat) : DelayEntry := { key := 0, slot := 1, value := 9, due, policy, wasLate := false }

/-- Frame c is current, flow 0 stands in frame 7 with expiry 2. -/
def expiring (c : BitVec 18) : State := flowing { framedFlow with expire := 2 } fun d => { d with frm := { d.frm with cur := c } }

theorem witness_ExpiryAndDelays :
    ((∀ y ∈ (expiring 9).dev.arr.tombs, y.1 ≠ 0) ∧ (flow (expiring 9).dev 0).enabled = true ∧ (flow (expiring 9).dev 0).stream = false
      ∧ (flow (expiring 9).dev 0).frame = some 7 ∧ max 1 (flow (expiring 9).dev 0).expire ≤ ((expiring 9).dev.frm.cur - 7).toNat
      ∧ ((expiring 9).dev.frm.cur - 7).toNat < 2 ^ 17 ∧ ((expiring 8).dev.frm.cur - 7).toNat < max 1 (flow (expiring 8).dev 0).expire
      ∧ 2 ^ 17 ≤ ((expiring 6).dev.frm.cur - 7).toNat) ∧
    (due State.reset.clk (tickInstant State.reset.clk State.reset.dev) = true
      ∧ due (atTick 1 State.reset).clk (tickInstant (atTick 1 State.reset).clk State.reset.dev) = false) ∧
    (let e := { delayEntry 0 0 with ready := true, deferred := true }
     let s := host fun d => setDelayList 0 [e] (leaves2 d)
     swarmRuns s.dev 0 = true ∧ readyDelay s.dev 0 = some (0, 0, e) ∧ leafBad s.dev e.key e.slot = false ∧ s.dev.arr.frameLeaves = []
      ∧ s.dev.arr.immediate = [] ∧ s.dev.arr.sends = []) ∧
    csrShut (host id).dev (Reg.SWARM_DLY_CMD 7) = false ∧
    (∀ sw < 8, (steepOf (expiring 9).dev sw).sweepDue = false) ∧ (steepOf (setSteep 7 { sweepDue := true } (host id).dev) 7).sweepDue = true ∧
    inputWaits (host id).dev 0 = false ∧
    inputWaits (host fun d => onArr (fun a => { a with inputs := [{ key := 0, slot := 0, value := 0 }] }) d).dev 0 = true ∧
    (host id).dev.arr.tickOld = none ∧ (host fun d => onArr (fun a => { a with tickOld := some (100, 0) }) d).dev.arr.tickOld = some (100, 0) := by
  decide +kernel

/-- R123: the flow moves to frame C - EXPIRE + 1. -/
theorem test_expiry : (let x := flow (after (.flowExpiry 0) (expiring 9)) 0
    (x.frame, x.next)) = (some 8, 0) := by decide +kernel
/-- R133: an entry that is late is dropped by DROP, fired by FIRE. -/
theorem test_delay_late : (let e := { delayEntry (-200000) 1 with wasLate := true }
    let d := after .delayTick (host fun d => setDelayList 0 [e, { e with policy := 0 }] d)
    ((delayList d 0).map (·.policy), rd d (Reg.SWARM_DLY_DROP 0), rd d (Reg.SWARM_DLY_LATE 0))) = ([0], 1, 1) := by decide +kernel

/-! The infuser (R138 to R156). -/

/-- An infuser instruction of slot 0 at the head of swarm 0's queue. -/
def infusing (pre : Option W32) (w : W32) (b : Brew := brew) (f : Dev → Dev := id) : State :=
  host fun d => f (setInfuserQueue 0 [{ slotId := 0, pre, word := w }] (setBrew 0 (some { b with wait := .infuser }) d))

/-- Words of the queue's items that fill it. -/
def fullQueue (d : Dev) : Dev := setInfuserQueue 0 (List.replicate 64 { slotId := 1, pre := none, word := 0 }) d

/-- SAMPLE2 of surface 37 with CLAMP (R141's example), and one of each of the family, from the formats of R55 and R141. -/
theorem witness_InfuserCommands :
    (let b := brewing [0xFC825000, 0xC0884900]
     issues .sample2 (.slot sid) (some 0xFC825000) 0xC0884900 b = true ∧ sampleLegal (some 0xFC825000) 0xC0884900 = true ∧ brewAt b.dev 0 = some brew
       ∧ (infuserQueue b.dev (slotSwarm 0)).length < 64 ∧ 64 ≤ (infuserQueue (fullQueue b.dev) (slotSwarm 0)).length) ∧
    (issues .sample3 (.slot sid) (some 0xFC825000) 0xC4884900 (brewing [0xFC825000, 0xC4884900]) = true
      ∧ sampleLegal (some 0xFC825000) 0xC4884900 = true ∧ sampleLegal (some 0xFC825000) 0xC4894900 = false
      ∧ sampleLegal (some 0xFC825000) 0xC4A94900 = false) ∧
    (issues .matrix (.slot sid) none 0xC8822002 (brewing [0xC8822002]) = true ∧ sampleLegal none 0xC8822002 = true) ∧
    (issues .lut3 (.slot sid) none 0xC8822010 (brewing [0xC8822010]) = true ∧ sampleLegal none 0xC8822010 = true) ∧
    (issues .curve (.slot sid) none 0xCC822000 (brewing [0xCC822000]) = true ∧ sampleLegal none 0xCC822000 = true) ∧
    (issues .dither (.slot sid) none 0xCC822001 (brewing [0xCC822001]) = true ∧ sampleLegal none 0xCC822001 = true) ∧
    (let x : Infusion := { slotId := 0, pre := none, word := 0 }
     let s := host fun d => onArr (fun a => { a with infuserStalled := [x] }) (setBrew 0 (some brew) d)
     (infuserQueue s.dev 0).length < 64 ∧ s.dev.arr.infuserStalled = [] ++ x :: [] ∧ slotSwarm x.slotId = 0 ∧ brewAt s.dev x.slotId = some brew) ∧
    (let x : Infusion := { slotId := 0, pre := some 0xFC825000, word := 0xC0884900 }
     let s := infusing (some 0xFC825000) 0xC0884900
     infuserQueue s.dev 0 = x :: [] ∧ (infuse (setInfuserQueue 0 [] s.dev) brew 0 x).fault = some (0x20, 37)
       ∧ descValid (surfDesc s.dev (fld (x.pre.getD 0) 12 10)) = false) ∧
    (let x : Infusion := { slotId := 0, pre := none, word := 0xCC822000 }
     let b := { brew with g := [(4, 0x1000000)], p := [(0, 1)] }
     let d := setInfuserQueue 0 [] (infusing none 0xCC822000 b).dev
     (infuse d b 0 x).fault = none ∧ (readSpans (infuse d b 0 x).spans d).1 = none
       ∧ (readSpans (infuse d b 0 x).spans (setErr (potPlace 0 / 8) .multi d)).1 = some (potPlace 0)) ∧
    (opOf 0xC8822002 = 0x32 ∧ funcOf 0xC8822002 < 8 ∧ opOf 0xC8822010 = 0x32 ∧ funcOf 0xC8822010 = 0x10 ∧ opOf 0xCC822000 = 0x33
      ∧ funcOf 0xCC822000 = 0 ∧ opOf 0xC4884900 = 0x31) := by decide +kernel

/-- No texel is above full scale on a surface of one 16-bit channel of zeros. -/
theorem witness_InfuserArithmetic_texel (x y z : Nat) : texel (host id).dev [] 4 x y z ≤ 0 := by
  simp [texel, texelValue, descFormat, descWord, packedChannel, fmtYcc, fld]

theorem witness_InfuserArithmetic : (0 : Nat) < 1 ∧ fmtYcc (descFormat [0x80030001, 0x00010001]) = false ∧ 0 < descWidth [0x80030001, 0x00010001]
    ∧ 0 < descHeight [0x80030001, 0x00010001] ∧ (-1 : Int) * 1 + 2048 ≥ 0 ∧ (-1) * 2 ^ 16 + (2048 : Int) < 0
    ∧ 0x10000 * 4096 ≤ 4096 * (0x10000 : Int) + 2048 ∧ 0xFFFF < 2 ^ 16 := by decide +kernel

theorem witness_DitherRule :
    (let s := infusing none 0xCC822001
     infuserQueue s.dev 0 = { slotId := 0, pre := none, word := 0xCC822001 } :: []
       ∧ brewAt s.dev 0 = some { brew with wait := .infuser } ∧ opOf 0xCC822001 = 0x33 ∧ funcOf 0xCC822001 ≠ 0) := by decide +kernel

/-- R150's example: limited-range BT.709 to full-range RGB. -/
theorem test_matrix : matrixRow 4788 0 7372 (-3985) 46080 25600 40960 = (63825, false)
    ∧ matrixRow 4788 (-877) (-2191) 1235 46080 25600 40960 = (46234, false)
    ∧ matrixRow 4788 8686 0 (-4642) 46080 25600 40960 = (33881, false) := by decide +kernel
/-- R153's example. -/
theorem test_dither : dither 1000 0 29944 = 116 ∧ dither 1001 0 29944 = 117 := by decide +kernel
/-- R152's example: the identity curve. -/
theorem test_curve : curve (fun e => if e = 1871 then 29943 else 29959) 29944 = 29944 := by decide +kernel
/-- R154: an empty surface is SAMPLE_SURF. -/
theorem test_sample_surf : rf (after (.infuserResult 0) (infusing (some 0xFC825000) 0xC0884900)) (Reg.SWARM_FAULT_COUNT 0) 0 16 = 1 := by decide +kernel

/-- A register that no meter counts in. -/
theorem witness_MetersTouchCountersOnly : Reg.PAIR_CTL ≠ Reg.SCHED_POUR_STALL
    ∧ (∀ s < 8, Reg.PAIR_CTL ≠ Reg.SWARM_EMIT_STALL s ∧ Reg.PAIR_CTL ≠ Reg.SWARM_INF_STALL s ∧ Reg.PAIR_CTL ≠ Reg.SWARM_INF_BUSY_LO s
      ∧ Reg.PAIR_CTL ≠ Reg.SWARM_INF_BUSY_HI s) ∧ ∀ i < 32, Reg.PAIR_CTL ≠ Reg.PMON_CNT_LO i ∧ Reg.PAIR_CTL ≠ Reg.PMON_CNT_HI i := by decide +kernel

/-! The Kettle and the raster heads (R157 to R192). -/

/-- The Kettle is initialised, and a word of it holds an error. -/
def kettle (w : Nat) (e : WordErr) : State := host fun d => setErr w e { d with ket := { d.ket with initDone := true } }

/-- Words staged for a descriptor. -/
def stagedWords (ws : List W32) : State := host (regs (ws.zipIdx.map fun (v, i) => (Reg.KET_SURF_DATA i, v)))

/-- The words of R167's example: Y′CbCr 4:2:0 of 8 bits, 7,680 by 2,160. -/
def surf90 : List W32 := [0x80020001, 0x1E000870, 0x01000000, 0x01000000, 0, 0x0000005A, 0, 0]

theorem witness_KettleCommands :
    rb (host (wr Reg.KET_CTL 0)).dev Reg.KET_CTL 0 = false ∧
    (let s := host fun d => wr Reg.KET_CTL 1 { d with ket := { d.ket with passMs := 100 } }
     rb s.dev Reg.KET_CTL 0 = true ∧ scrubRests s.clk s.dev = true ∧ scrubRests (atTick 125000000 s).clk s.dev = false) ∧
    (let s := host (regs [(Reg.KET_CTL, 1)])
     rb s.dev Reg.KET_CTL 0 = true ∧ scrubRests s.clk s.dev = false ∧ s.dev.ket.scrub < ketSize / 8 ∧ errOf s.dev (ketBase / 8) = .none
       ∧ errOf (setErr (ketBase / 8) .single s.dev) (ketBase / 8) = .single ∧ errOf (setErr (ketBase / 8) .multi s.dev) (ketBase / 8) = .multi
       ∧ rb (wr Reg.KET_CTL 0 s.dev) Reg.KET_CTL 0 = false) ∧
    (host id).dev.ket.initDone = false ∧
    ((kettle (ketBase / 8) .multi).dev.ket.initDone = true ∧ (0x1FFFFFFF : BitVec 29).toNat + [(1 : W8)].length ≤ ketSize
      ∧ errOf (kettle (ketBase / 8) .multi).dev (ketBase / 8) = .multi ∧ ketBase / 8 ∈ wordsOf ketBase 1
      ∧ ¬ (ketBase ≤ ketBase / 8 * 8 ∧ ketBase / 8 * 8 + 8 ≤ ketBase + 1) ∧ ketBase ≤ ketBase / 8 * 8 ∧ ketBase / 8 * 8 + 8 ≤ ketBase + 8) ∧
    (csrShut (stagedWords surf90).dev Reg.KET_SURF_CMD = false
      ∧ descReason ((List.range 8).map fun w => rd (stagedWords surf90).dev (ownOf .host (Reg.KET_SURF_DATA w))) = 0
      ∧ descReason ((List.range 8).map fun w => rd (stagedWords [0x80020400]).dev (ownOf .host (Reg.KET_SURF_DATA w))) = 1) ∧
    (descValid surf90 = true ∧ descReason surf90 = 0 ∧ descValid [] = false) := by decide +kernel

theorem test_descriptor : surfDesc (after (.ketSurfWrite .host) (stagedWords surf90)) 0 = surf90 := by decide +kernel
/-- R159: an uncorrectable word covered in part keeps its error. -/
theorem test_merge : (let d := after (.kettleWindowWrite 0 [1]) (kettle (ketBase / 8) .multi)
    (errOf d (ketBase / 8) == .multi) && rb d Reg.KET_EVENT 2) = true := by decide +kernel

/-- A small timing set: 100 by 40 pixels in 200 by 50. -/
def timing : Timing where
  hActive := 100
  hFp := 40
  hSync := 40
  hBp := 20
  hsPol := false
  vActive := 40
  vFp := 4
  vSync := 3
  vBp := 3
  vsPol := false
  offset := 0
  split := false
  outCtl := 0
  dpCtl := 0
  oddOut := 0
  oddDp := 0

/-- A head that runs, at a line. -/
def atLine (n : Nat) : Head := { running := true, timing := some timing, line := n }

/-- The state after reset with head 0 and its lock control. -/
def heads (x : Head) (ctl : W32 := 1) (f : Dev → Dev := id) : State := host fun d => f (setHead 0 x (wr (Reg.RHEAD_CTL 0) ctl d))

/-- Boundaries at which a frame clock of 60 Hz stands: B(1) was the last, B(2) is the next. -/
def boundaries (b : Time) (d : Dev) : Dev :=
  { d with frm := { d.frm with run := some (gridRegs d), everEmitted := true, firstDone := true, next := 2, lastFrame := 1, lastB := b } }

/-- One layer of surface 0, valid and in force. -/
def shownSet : ActiveSet where
  layers := [{ regs := { ctl := 0x80000000, srcPos := 0, srcSize := 0x00010001, dstPos := 0, dstSize := 0 }
               desc := [0x80030001, 0x00010001, 0, 0, 0, 1, 0, 0], failed := false }]
  csc := []
  bg := 0

/-- Weevil has marked a target UNUSABLE. -/
def marked (target : Nat) : State := host fun d => { d with weevil := { d.weevil with marks := [(target, { mark := 2 })] } }

theorem witness_RasterTiming :
    (let d := wr (Reg.RHEAD_CTL 0) (1 &&& 7) (host id).dev
     csrShut (host id).dev (Reg.RHEAD_CTL 0) = false ∧ bit (1 : W32) 0 = true ∧ rb (host id).dev (Reg.RHEAD_CTL 0) 0 = false
       ∧ splitOdd d 0 = false ∧ kettleOut (host id).dev = false ∧ unusable (host id).dev 0x7020 = false
       ∧ timingOk (rateGrid d) (timingRegs d 0) = true ∧ trazhOk d (rateGrid d) (timingRegs d 0) (timingRegs d 0).trazh (timingRegs d 0).outCtl = true
       ∧ (timingRegs d 0).split = false
       ∧ timingOk (rateGrid d) (timingRegs (wr (Reg.RHEAD_H_ACTIVE 0) 0 d) 0) = false ∧ (head (host id).dev 0).running = false
       ∧ kettleOut (marked 0x3005).dev = true ∧ unusable (marked 0x7020).dev 0x7020 = true
       ∧ csrShut (host (wr Reg.SYS_RESET_CAUSE 4)).dev (Reg.RHEAD_CMD 3) = true
       ∧ splitOdd (heads { atLine 0 with timing := some { timing with split := true } }).dev 1 = true) ∧
    (let s := heads (atLine 0)
     csrShut s.dev (Reg.RHEAD_CTL 0) = false ∧ bit (0 : W32) 0 = false ∧ rb s.dev (Reg.RHEAD_CTL 0) 0 = true ∧ (head s.dev 0).running = true) ∧
    (csrShut (host id).dev (Reg.RHEAD_CMD 3) = false ∧ splitOdd (host id).dev 3 = false) ∧
    (let s := heads (atLine 43)
     (head s.dev 0).timing = some timing ∧ (head s.dev 0).running = true ∧ splitOdd s.dev 0 = false ∧ (head s.dev 0).line = timing.lastPorch
       ∧ rb s.dev (Reg.RHEAD_CTL 0) 1 = false) ∧
    (let s := heads (atLine 43) 3 (boundaries 0)
     let cs := (candidates s.clk s.dev timing.offset).filter fun c => !(head s.dev 0).consumed.contains c.1
     rb s.dev (Reg.RHEAD_CTL 0) 1 = true ∧ (head s.dev 0).forced = false ∧ cs.filter (fun c => decide (c.2 < now s.clk)) = []
       ∧ (cs.find? fun c => decide (now s.clk ≤ c.2)) = some (1, 0)) ∧
    (let s := { heads (atLine 43) 3 (boundaries 1) with clk := State.reset.clk }
     let cs := (candidates s.clk s.dev timing.offset).filter fun c => !(head s.dev 0).consumed.contains c.1
     (cs.find? fun c => decide (now s.clk ≤ c.2)) = some (1, 1) ∧ (1 : Time) < now s.clk + (rateGrid s.dev).period ∧ now s.clk < 1) ∧
    (let s := heads (atLine 43) 3 (boundaries (-1))
     let cs := (candidates s.clk s.dev timing.offset).filter fun c => !(head s.dev 0).consumed.contains c.1
     cs.filter (fun c => decide (c.2 < now s.clk)) = [(1, -1)]) ∧
    (let s := heads (atLine 43) 3
     (candidates s.clk s.dev timing.offset).find? (fun c => decide (now s.clk ≤ c.2)) = none) ∧
    (let x : Head := { atLine 43 with wait := some { frame := 7, v := 1, tick := 0 } }
     let s := heads x 3
     (head s.dev 0).wait = some { frame := 7, v := 1, tick := 0 } ∧ (head s.dev 0).forced = false ∧ now s.clk < 1
       ∧ 1 ≤ now { s.clk with tb := { s.clk.tb with offset := 1 } }) ∧
    (let w : LockWait := { frame := 7, v := 2 ^ 80, tick := 0 }
     let s := atTick 20833334 (heads { atLine 43 with wait := some w } 3)
     (head s.dev 0).wait = some w ∧ now s.clk < w.v ∧ w.v ≤ now { s.clk with tb := { s.clk.tb with offset := 2 ^ 80 } } ∧ (rateGrid s.dev).den.toNat * 1250000000 ≤ since s.clk 0 * (rateGrid s.dev).num.toNat
       ∧ since State.reset.clk 0 * (rateGrid s.dev).num.toNat < (rateGrid s.dev).den.toNat * 1250000000) ∧
    (let s := heads (atLine 49)
     (head s.dev 0).timing = some timing ∧ (head s.dev 0).running = true ∧ splitOdd s.dev 0 = false ∧ (head s.dev 0).line ≠ timing.lastPorch) ∧
    (let s := heads { atLine 49 with active := some shownSet }
     (head s.dev (governor s.dev 0)).active = some shownSet
       ∧ (scanning (head s.dev 0) && shownSet.layers.any fun l => layerHit l (0 * 64) 64) = true
       ∧ (scanning (head s.dev 0) && shownSet.layers.any fun l => layerHit l (0x7FFFFF * 64) 64) = false) ∧
    (texelSpan [0x80030001, 0x00010001, 0, 0, 0, 1] 0 0 0 0).1 / 64 ∈ [0] := by decide +kernel

/-- R192's reset timing: 594,000,000 pixels a second at 60 Hz, 593,406,593 at 60,000 / 1,001. -/
theorem test_pixel_rate : (let t := timingRegs (host id).dev 0
    let p := pixelRate { gridRegs (host id).dev with num := 60, den := 1 } t
    let q := pixelRate { gridRegs (host id).dev with num := 60000, den := 1001 } t
    (p.1 / p.2, q.1 / q.2)) = (594000000, 593406593) := by decide +kernel
/-- R169: the line after the last back-porch line is active line 0. -/
theorem test_line_wraps : (head (after (.lineStart 0) (heads (atLine 49))) 0).line = 0 := by decide +kernel
/-- R172: with LOCK 0 every frame is free-running and begins with the vertical sync's first line. -/
theorem test_vsync : (let x := head (after (.vsyncStart 0) (heads (atLine 43))) 0; (x.line, x.free)) = (44, true) := by decide +kernel

/-- A pending set of one enabled layer, or of one that is not. -/
def layerSet (ctl : W32) : LayerSet :=
  { layers := [{ ctl, srcPos := 0, srcSize := 0x00010001, dstPos := 0, dstSize := 0 }], csc := [], bg := 0 }

theorem witness_RasterCommit :
    csrShut (host id).dev (Reg.RHEAD_COMMIT 3) = false ∧
    (let s := heads { atLine 40 with pending := some (layerSet 0x80000000), active := some shownSet }
     (head s.dev 0).timing = some timing ∧ splitOdd s.dev 0 = false ∧ (head s.dev 0).running = true ∧ (head s.dev 0).latched = false
       ∧ (head s.dev 0).line = timing.vActive ∧ (head s.dev 0).pending = some (layerSet 0x80000000) ∧ rb s.dev (Reg.RHEAD_RETIRE_CTL 0) 10 = false
       ∧ rb (wr (Reg.RHEAD_RETIRE_CTL 0) 0x400 s.dev) (Reg.RHEAD_RETIRE_CTL 0) 10 = true ∧ rf s.dev (Reg.RHEAD_RETIRE_COUNT 0) 0 16 + 4 < 2 ^ 16
       ∧ rf s.dev (Reg.RHEAD_RETIRE_COUNT 0) 16 16 + 4 < 2 ^ 16 ∧ (inForce (some shownSet) 0).isSome = true) ∧
    ((head (heads (atLine 40)).dev 0).pending = none ∧ (head (heads { atLine 40 with latched := true }).dev 0).latched = true) ∧
    0xFFFF < 2 ^ 16 ∧ 63 < 64 := by decide +kernel

/-- R174, R181, R184: the set is taken, its layer over an empty descriptor fails, and the surface replaced cannot be posted. -/
theorem test_latch : (let d := after (.latchInstant 0) (heads { atLine 40 with pending := some (layerSet 0x80000000), active := some shownSet })
    ((head d 0).latched, rd d (Reg.RHEAD_LAYER_FAULT 0), rd d (Reg.RHEAD_RETIRE_COUNT 0))) = (true, 1, 0x10000) := by decide +kernel

/-! Transmit (R193 to R217). -/

/-- The state after reset with port p set. -/
def onWire (p : Nat) (x : Port) (f : Dev → Dev := id) : State := host fun d => f (setPort p x d)

/-- A frame of TXQ 0 of 60 bytes, and one of the LQ ring, their descriptors at the start of DRAM. -/
def txq0 : TxFrame := { origin := .ring 0 dramBase, bytes := List.replicate 60 0 }
/-- The LQ frame of length n with a launch time in nanoseconds. -/
def lq (n : Nat) (l : Nat) : TxFrame := { origin := .ring 8 dramBase, bytes := List.replicate (n - 4) 0, launch := (l : Nat) * ns1 }

/-- A port that is up, at 25 Gbit/s. -/
def upPort : Port := { enabled := true, ctl := 0x21, link := true }

/-- A frame's window on a 25 Gbit/s port. -/
def admitted (f : TxFrame) : Admitted := { frame := f, ws := (windowOf 8 f).1, we := (windowOf 8 f).2 }

/-- One descriptor in ring q of port 0: address, launch, information. -/
def described (q : Nat) (addr launch info : Nat) (x : Port := upPort) : State :=
  onWire 0 (x.setRing q { enabled := true, base := dramBase }) fun d =>
    wr (Reg.SPORT_TXQ_TAIL 0 q) 1 (putBytes dramBase (leBytes 8 addr ++ leBytes 8 launch ++ leBytes 8 info) d)

/-- A slice loops a SerDes lane. -/
def looping (lane : Nat) : State :=
  host fun d => { d with weevil := { d.weevil with runners := [(3, some { kind := 4, target := 0x5000 + lane, budget := 100, origin := .host, tick := 0 })] } }

theorem witness_PortEnableAndLink :
    (csrShut (host id).dev (Reg.SPORT_CTL 7) = false ∧ unusable (host id).dev 0x5007 = false ∧ bit (0x21 : W32) 0 = true
      ∧ (port (host id).dev 7).enabled = false ∧ bit (0 : W32) 0 = false ∧ (port (onWire 7 upPort).dev 7).enabled = true
      ∧ csrShut (onWire 7 upPort).dev (Reg.SPORT_CTL 7) = false) ∧
    ((host id).dev.sys.tripped = false ∧ looped (host id).dev 7 = false ∧ (8 : Nat) ≤ 9
      ∧ looped (looping 7).dev 7 = true ∧ (host fun d => { d with sys := { d.sys with tripped := true } }).dev.sys.tripped = true) ∧
    (let full := onWire 8 { upPort with phy := true } (wr (Reg.SPORT_CTL 8) 8)
     let half := onWire 8 { upPort with phy := true } (wr (Reg.SPORT_CTL 8) 0)
     (port full.dev 8).phy = true ∧ legacyHalf full.dev 8 = false ∧ (port half.dev 8).phy = true ∧ legacyHalf half.dev 8 = true
       ∧ legacyRate half.dev 8 = 2 ∧ legacyRate (onWire 8 { upPort with ctl := 1 } (wr (Reg.SPORT_CTL 8) 0)).dev 8 = 0 ∧ (port (host id).dev 8).phy = false) ∧
    ((port (host id).dev 0).link = false ∧ (port (onWire 0 upPort).dev 0).link = true ∧ (port (onWire 8 upPort).dev 8).link = true
      ∧ (port (onWire 8 upPort).dev 8).rate ≠ 2) ∧
    (csrShut (host id).dev (Reg.SPORT_TXQ_CTL 9 8) = false ∧ hasRing 9 8 = true ∧ bit (0x80000004 : W32) 31 = true
      ∧ ((port (host id).dev 9).ring 8).enabled = false
      ∧ inShared (wr (Reg.SPORT_TXQ_BASE_LO 9 8) (w32 dramBase) (wr (Reg.SPORT_TXQ_BASE_LO 9 8 + 4) (w32 (dramBase / 2 ^ 32)) (host id).dev))
          (ringBase (wr (Reg.SPORT_TXQ_BASE_LO 9 8) (w32 dramBase) (wr (Reg.SPORT_TXQ_BASE_LO 9 8 + 4) (w32 (dramBase / 2 ^ 32)) (host id).dev)) 9 8)
          (2 ^ 4 * 32) = true
      ∧ inShared (host id).dev (ringBase (host id).dev 9 8) (2 ^ 4 * 32) = false
      ∧ bit (4 : W32) 31 = false ∧ ((port (described 0 0 0 0).dev 0).ring 0).enabled = true) ∧
    csrShut (host id).dev (Reg.SPORT_TXQ_TAIL 0 8) = false ∧ hasRing 0 8 = true := by decide +kernel

theorem witness_TransmitDescriptors :
    (let s := described 0 (dramBase + 64) 0 14
     ((port s.dev 0).ring 0).filling = none ∧ ringReady s.dev 0 0 = true ∧ ((port s.dev 0).ring 0).log2 ≤ 16
       ∧ (∀ x ∈ wordsOf (((port s.dev 0).ring 0).base + rf s.dev (Reg.SPORT_TXQ_HEAD 0 0) 0 16 * 32) 24, errOf s.dev x = .none)
       ∧ ((port s.dev 0).ring 0).done = [] ∧ ofLe (slice (getBytes s.dev dramBase 24) 16 8) % 2 ^ 14 = 14 ∧ max 60 (14 + (tagBytes s.dev 0 0).length) + 4 ≤ 9216
       ∧ inShared s.dev (dramBase + 64) 14 = true ∧ (∀ x ∈ wordsOf (dramBase + 64) 14, errOf s.dev x = .none)
       ∧ (port s.dev 0).bufferUse + 64 ≤ 16384 ∧ inShared s.dev 0 14 = false ∧ ringReady (host id).dev 0 0 = false) ∧
    (let s := described 8 (dramBase + 64) 0 14
     ringReady s.dev 0 8 = true ∧ (port s.dev 0).stageUse + (64 + 255) / 256 ≤ stageLimit 0) ∧
    12 ≤ (List.replicate 12 (0 : W8)).length ∧ (60 ≤ txq0.bytes.length ∧ (0x25 : Nat) < 256) := by decide +kernel

/-- A port whose transmit buffer holds a frame of n bytes and its FCS, and one that has staged n frames. -/
def buffering (n : Nat) : Port := { upPort with backoff := some ({ txq0 with bytes := List.replicate n 0 }, 0, 0) }
def stagingOf (n : Nat) : Port := { upPort with staged := List.replicate n txq0 }

theorem buffering_use (n : Nat) : (buffering n).bufferUse = n + 4 := by
  simp [buffering, Port.bufferUse, Port.buffered, TxFrame.len, upPort]

theorem stagingOf_use (n : Nat) : (stagingOf n).stageUse = n := by
  have h : txq0.blocks = 1 := by decide
  simp [stagingOf, Port.stageUse, upPort, h]

/-- No room for 64 bytes. -/
theorem witness_TransmitDescriptors_full : 16384 < (buffering 16317).bufferUse + 64 ∧ stageLimit 0 < (stagingOf 32768).stageUse + 1 := by
  rw [buffering_use, stagingOf_use]
  decide

/-- R196: LEN 13 is BAD_LEN. -/
theorem test_bad_len : ofLe (getBytes (after (.txDescRead 0 0 0) (described 0 (dramBase + 64) 0 13)) (dramBase + 24) 8) = 2 ^ 63 + 0x21 * 2 ^ 48 := by
  decide +kernel
/-- R207: the frame enters the buffer whole, and HEAD advances. -/
theorem test_desc_read : (let d := after (.txDescRead 0 0 60) (described 0 (dramBase + 64) 0 14)
    (((port d 0).ring 0).frames.length, rf d (Reg.SPORT_TXQ_HEAD 0 0) 0 16)) = (1, 1) := by decide +kernel

/-- The calendar of R204's example before E1: the synchronisation packet. -/
def sync : Admitted := admitted (lq 95 2140160)

/-- An LQ frame is staged, at a show time in ns. -/
def staging (t : Int) (cal : List Admitted) (f : TxFrame) : State :=
  let s := onWire 0 { upPort with cal, staged := [f] }
  { s with clk := { s.clk with tb := { s.clk.tb with offset := t * ns1 } } }

theorem witness_LaunchCalendar :
    (let s := staging (-50000) [sync] (lq 128 2140400)
     let f := { lq 128 2140400 with launch := nearTime (shortOf (lq 128 2140400).launch) (now s.clk) }
     let d := windowEnd 0 s.clk (onPort 0 (fun x => { x with staged := [] }) s.dev)
     (port s.dev 0).staged = lq 128 2140400 :: [] ∧ judge 0 f s.clk d = none) ∧
    (let s := staging (-10000) [sync, admitted (lq 128 2140400)] (lq 1000 2140180)
     let f := { lq 1000 2140180 with launch := nearTime (shortOf (lq 1000 2140180).launch) (now s.clk) }
     judge 0 f s.clk (windowEnd 0 s.clk (onPort 0 (fun x => { x with staged := [] }) s.dev)) = some 2) ∧
    (let f : TxFrame := { lq 128 2140400 with origin := .packer 2 0 0 }
     let s := onWire 0 { upPort with offers := [f] }
     let d := windowEnd 0 s.clk (windowEnd 0 s.clk (onPort 0 (fun x => { x with offers := [] }) s.dev))
     (port s.dev 0).offers = f :: [] ∧ (port d 0).stageUse + f.blocks ≤ stageLimit 0 ∧ judge 0 f s.clk d = none
       ∧ judge 0 { f with launch := 0 } s.clk d = some 1) ∧
    (let a := admitted (lq 128 0)
     let s := onWire 0 { upPort with cal := [a] }
     (port s.dev 0).cal = [] ++ a :: [] ∧ a.fate = .waiting ∧ a.ws ≤ nowW s.clk ∧ (port s.dev 0).link = true ∧ (port s.dev 0).timed = none
       ∧ 0 < (port s.dev 0).quantum 0 ∧ nowW s.clk < sync.ws ∧ rb s.dev (Reg.SPORT_PTP_CTL 0) 8 = false
       ∧ muted (host fun d => { d with pair := { d.pair with mode := .taking } }).dev 0 0 = true) ∧
    (let a := admitted (lq 128 0)
     a.ws ≤ nowW (onWire 0 { upPort with cal := [a], link := false }).clk) ∧
    (Port.calDisjoint { upPort with cal := [sync, admitted (lq 128 2140400)] } ∧ ∃ t, exec (.timedLaunch 0) (onWire 0 { upPort with cal := [sync] }) = .next t) :=
  ⟨by decide +kernel, by decide +kernel, by decide +kernel, by decide +kernel, by decide +kernel,
    by unfold Port.calDisjoint; decide +kernel, _, rfl⟩

/-- A packer's frame of n bytes, which no staging area holds when n is large. -/
def bigOffer (n : Nat) : TxFrame := { lq 128 2140400 with origin := .packer 2 0 0, bytes := List.replicate n 0 }

theorem bigOffer_full {n : Nat} (h : 8388608 ≤ n) (x : Nat) : stageLimit 0 < x + (bigOffer n).blocks := by
  have h1 : (bigOffer n).blocks = (n + 4 + 255) / 256 := by simp [bigOffer, TxFrame.blocks, TxFrame.len]
  have h2 : stageLimit 0 = 32768 := rfl
  omega

theorem bigOffer_waits (n : Nat) : (port (onWire 0 { upPort with offers := [bigOffer n] }).dev 0).offers = bigOffer n :: []
    ∧ (bigOffer n).origin = .packer 2 0 0 := ⟨rfl, rfl⟩

theorem witness_LaunchCalendar_full : (port (onWire 0 { upPort with offers := [bigOffer 8388608] }).dev 0).offers = bigOffer 8388608 :: []
    ∧ (bigOffer 8388608).origin = .packer 2 0 0
    ∧ stageLimit 0 < (port (windowEnd 0 (onWire 0 upPort).clk (onWire 0 upPort).dev) 0).stageUse + (bigOffer 8388608).blocks :=
  ⟨(bigOffer_waits _).1, (bigOffer_waits _).2, bigOffer_full (Nat.le_refl _) _⟩

theorem witness_LaunchCalendar_rest : (∀ p < 10, (port (host id).dev p).calDisjoint) ∧ (∃ t, step (host id) = .next t)
    ∧ (port (host id).dev 0).staged = [] ∧ (port (host id).dev 0).offers = [] :=
  ⟨fun _ _ => List.Pairwise.nil, ⟨_, rfl⟩, rfl, rfl⟩

/-- R204's example: E1 is admitted beside the synchronisation packet; E2 overlaps, E3 is late. -/
theorem test_admitted : ((port (after (.lqOffer 0) (staging (-50000) [sync] (lq 128 2140400))) 0).cal.map fun a => (a.ws, a.we))
    = [(2 ^ 48 * 267519720, 2 ^ 48 * 267524320), (2 ^ 48 * 267549720, 2 ^ 48 * 267555640)] := by decide +kernel
theorem test_frame_late : ofLe (getBytes (after (.lqOffer 0) (staging (-5000) [sync] (lq 64 10000))) (dramBase + 24) 8) = 2 ^ 63 + 1 * 2 ^ 48 := by decide +kernel

/-- A whole PAUSE frame of n quanta, with its FCS. -/
def pauseFrame (n : Nat) : List W8 :=
  let l : List W8 := [1, 0x80, 0xC2, 0, 0, 1, 0, 0, 0, 0, 0, 0, 0x88, 0x08, 0, 1] ++ beBytes 2 n ++ List.replicate 42 0
  l ++ leBytes 4 (crc32 l).toNat

/-- The flight of a frame that began at tick 0. -/
def flight (f : TxFrame) : Flight := { frame := f, sfd := 0, tick := 0 }

/-- Ring 0 with a descriptor that awaits its outcome. -/
def awaiting (x : Port) : Port := x.setRing 0 { enabled := true, base := dramBase, done := [{ desc := dramBase }] }

/-- The ring has frames to send. -/
def ready (x : Port) (l : List TxFrame) : Port := x.setRing 0 { enabled := true, base := dramBase, frames := l }

theorem witness_UntimedFrames :
    (let s := onWire 0 (ready upPort [txq0])
     wireFree 0 s.clk s.dev = true ∧ pick 0 s.clk s.dev = some (0, 0) ∧ ((port s.dev 0).ring 0).frames[0]? = some txq0
       ∧ rb s.dev (Reg.SPORT_PTP_CTL 0) 0 = false ∧ preemptActive s.dev 0 = false ∧ mayStart 0 txq0 0 s.clk s.dev = true
       ∧ suppresses s.dev.pair.mode = false ∧ dropDiscovery 0 s.dev = s.dev
       ∧ wireFree 0 s.clk (host id).dev = false ∧ pick 0 s.clk (onWire 0 upPort).dev = none
       ∧ suppresses (host fun d => { d with pair := { d.pair with mode := .degraded } }).dev.pair.mode = true) ∧
    (let f : TxFrame := { txq0 with bytes := List.replicate 1000 0 }
     let s := atTick 100 (onWire 0 (awaiting { upPort with untimed := some (flight { f with bad := some 20 }) }))
     meetsBad 0 (flight { f with bad := some 20 }) s.clk (port s.dev 0) = true ∧ cutDue 0 (flight { f with bad := some 20 }) s.dev = none) ∧
    (let f : TxFrame := { txq0 with bytes := List.replicate 1000 0 }
     let a : Admitted := { frame := lq 64 0, ws := 2 ^ 48 * 20000, we := 2 ^ 48 * 22000 }
     let s := atTick 100000 (onWire 0 (awaiting { upPort with untimed := some (flight f), cal := [a] })
       |> fun s => { s with dev := wr (Reg.SPORT_PREEMPT_CTL 0) 3 (wr (Reg.SPORT_TXQ_CTL 0 0) 0x80001004 s.dev) })
     (port s.dev 0).untimed = some (flight f) ∧ f.bad = none ∧ f.len ≤ (flight f).sentBy s.clk ((port s.dev 0).byteTime 0)
       ∧ f.len ≤ (port s.dev 0).held f ∧ cutDue 0 (flight f) s.dev = some a.ws) ∧
    (let s := onWire 0 (ready { upPort with cal := [sync] } [txq0])
     mayStart 0 txq0 0 s.clk s.dev = true ∧ (port s.dev 0).nextWindow (nowW s.clk) = some sync.ws) ∧
    (let s := atTick 1000 (onWire 0 { upPort with timed := some (flight (lq 64 0)) })
     (port s.dev 0).timed = some (flight (lq 64 0)) ∧ (lq 64 0).len ≤ (flight (lq 64 0)).sentBy s.clk ((port s.dev 0).byteTime 0)
       ∧ (flight (lq 64 0)).sentBy State.reset.clk ((port s.dev 0).byteTime 0) < (lq 64 0).len ∧ stampOf (port s.dev 0) (flight (lq 64 0)) = none
       ∧ (stampOf (port s.dev 0) (flight { lq 64 0 with tsReq := true })).isSome = true ∧ (port s.dev 0).cut = none ∧ (port s.dev 0).saucer.length < 256) ∧
    (let s := atTick 1000 (onWire 0 (awaiting { upPort with untimed := some (flight txq0) }))
     (port s.dev 0).untimed = some (flight txq0) ∧ txq0.origin = .ring 0 dramBase ∧ ((port s.dev 0).ring 0).done = [{ desc := dramBase }]
       ∧ txq0.bad = none ∧ txq0.len ≤ (flight txq0).sentBy s.clk ((port s.dev 0).byteTime 0) ∧ txq0.len ≤ (port s.dev 0).held txq0) ∧
    (let x := awaiting { upPort with untimed := some (flight txq0) }
     let s := atTick 1000 (onWire 0 (x.setRing 0 { x.ring 0 with filling := some 20 }))
     (port s.dev 0).held txq0 = 20 ∧ 20 < txq0.len ∧ 20 ≤ (flight txq0).sentBy s.clk ((port s.dev 0).byteTime 0)
       ∧ (flight txq0).sentBy State.reset.clk ((port s.dev 0).byteTime 0) < 20) := by decide +kernel

theorem witness_UntimedFrames_rest :
    (let s := onWire 7 { upPort with verifyFails := 3 } (regs [(Reg.SPORT_PREEMPT_CTL 7, 1)])
     rb s.dev (Reg.SPORT_PREEMPT_CTL 7) 0 = true ∧ rb s.dev (Reg.SPORT_PREEMPT_CTL 7) 1 = false ∧ (port s.dev 7).link = true
       ∧ since s.clk (port s.dev 7).verifyTick < 12500000 ∧ 12500000 ≤ since (atTick 12500000 s).clk (port s.dev 7).verifyTick
       ∧ (port s.dev 7).preempt = false ∧ (port s.dev 7).verifyFails < 4) ∧
    (let s := onWire 0 { upPort with cut := some (flight txq0) }
     (port s.dev 0).cut = some (flight txq0) ∧ wireFree 0 s.clk s.dev = true ∧ mayStart 0 txq0 0 s.clk s.dev = true ∧ pick 0 s.clk s.dev = none) ∧
    ((port (onWire 9 upPort).dev 9).enabled = true ∧ (port (onWire 9 upPort).dev 9).link = true ∧ be16 (pauseFrame 1) 12 = 0x8808
      ∧ be16 (pauseFrame 1) 14 = 1 ∧ 64 ≤ (pauseFrame 1).length ∧ (pauseFrame 1).length ≤ 9216 ∧ fcsOk (pauseFrame 1) = true
      ∧ rb (host id).dev (Reg.SPORT_OBEY_PAUSE 9) 0 = false
      ∧ rb (wr (Reg.SPORT_OBEY_PAUSE 9) 1 (host id).dev) (Reg.SPORT_OBEY_PAUSE 9) 0 = true ∧ (port (onWire 9 upPort).dev 9).half = false) ∧
    (let s := onWire 8 (awaiting { upPort with half := true, untimed := some (flight { txq0 with coll := 15 }) })
     (port s.dev 8).half = true ∧ (port s.dev 8).untimed = some (flight { txq0 with coll := 15 }) ∧ 16 ≤ 15 + 1 ∧ ((port s.dev 8).ring 0).done = [{ desc := dramBase }]
       ∧ since s.clk 0 * 20 ≤ 64 * (port s.dev 8).byteTime 8 ∧ 64 * (port s.dev 8).byteTime 8 < since (atTick 64001 s).clk 0 * 20) ∧
    (let s := atTick 5 (onWire 8 { upPort with half := true, backoff := some (txq0, 0, 5) })
     (port s.dev 8).backoff = some (txq0, 0, 5) ∧ (port s.dev 8).half = true ∧ 5 ≤ since s.clk 0 ∧ since State.reset.clk 0 < 5
       ∧ wireFree 8 s.clk (onPort 8 (fun x => { x with backoff := none }) s.dev) = true) := by decide +kernel

/-- R207: an underrun raises THRESH by 64. -/
theorem test_underrun : (let x := awaiting { upPort with untimed := some (flight txq0) }
    let d := after (.txUnderrun 0) (atTick 1000 (onWire 0 (x.setRing 0 { x.ring 0 with filling := some 20 }) (wr (Reg.SPORT_TX_THRESH 0) 256)))
    (rf d (Reg.SPORT_TX_THRESH 0) 0 14, ofLe (getBytes d (dramBase + 24) 8))) = (320, 2 ^ 63 + 0x20 * 2 ^ 48) := by decide +kernel

/-! Receive (R218 to R242). -/

/-- A frame of 60 bytes with addresses, EtherType and FCS. -/
def received (dmac : List W8) (rest : List W8) : List W8 :=
  let l := dmac ++ [2, 0, 0, 0, 0, 9] ++ rest ++ List.replicate (48 - rest.length) 0
  l ++ leBytes 4 (crc32 l).toNat

/-- R224's strainer on SPORT[0]. -/
def straining (d : Dev) : Dev :=
  regs [(Reg.SPORT_STRAIN 0 0 0, 0xA0000000), (Reg.SPORT_STRAIN 0 0 1, 0x02000000), (Reg.SPORT_STRAIN 0 0 3, 0x88F7), (Reg.SPORT_STRAIN 0 1 0, 0x90000000),
    (Reg.SPORT_STRAIN 0 1 1, 0x03000000), (Reg.SPORT_STRAIN 0 1 3, 0x0800), (Reg.SPORT_RX_MCHASH 0 1, 6)] d

/-- A Sync with one C-tag, an ARP broadcast, and a packet for universe 256. -/
def syncFrame : List W8 := received [1, 0x1B, 0x19, 0, 0, 0] [0x81, 0, 0, 5, 0x88, 0xF7]
def arpFrame : List W8 := received (List.replicate 6 0xFF) [8, 6]
def universe256 : List W8 := received [1, 0, 0x5E, 0x7F, 1, 0] [8, 0]

/-- R224's example. -/
theorem test_strainer : (strain (straining (host id).dev) 0 syncFrame).action = .firmware ∧ (strain (straining (host id).dev) 0 arpFrame).action = .drop
    ∧ (strain (straining (host id).dev) 0 universe256).action = .sacn := by decide +kernel

/-- A frame is on its way into port 0, whose ring 0 has buffers at DRAM, one descriptor owned for each of `own`. -/
def arriving (ring : RxRing) (own : Nat) (f : Dev → Dev := id) : State :=
  onWire 0 { upPort with rx := some { stamp := 0 }, rxRings := [(0, ring)] } fun d =>
    f (wr (Reg.SPORT_RXQ_TAIL 0 0) (w32 own) (wr (Reg.SPORT_RX_DEFAULT 0) 0 (putBytes dramBase (leBytes 8 (dramBase + 4096)) d)))

/-- A ring of 16 buffers of 2,048 bytes. -/
def rxRing : RxRing := { enabled := true, base := dramBase }

theorem witness_Reception :
    (let d := (host fun d => { d with frm := { d.frm with latching := some (4, 100) } }).dev
     d.frm.latching = some (4, 100) ∧ straddled 100 (host id).clk d = false ∧ (host id).dev.frm.latching = none
       ∧ straddled 100 (host id).clk (setPort 0 { upPort with rx := some { stamp := 99 } } d) = true) ∧
    ((port (onWire 9 upPort).dev 9).enabled = true ∧ (port (onWire 9 upPort).dev 9).link = true ∧ (port (onWire 9 upPort).dev 9).rx = none
      ∧ (port (host id).dev 0).enabled = false) ∧
    ((strain (straining (host id).dev) 0 universe256).entry = some 1 ∧ (strain (straining (host id).dev) 0 arpFrame).entry = none) ∧
    (let s := arriving rxRing 0
     let r : RxFrame := { stamp := 0 }
     (port s.dev 0).rx = some r ∧ r.dropped = false ∧ (rxTake 0 syncFrame r s.dev).judged.map Judged.action = some (.ring 0)
       ∧ ((port s.dev 0).rxRing 0).enabled = true
       ∧ r.buffers.length * ((port s.dev 0).rxRing 0).bufsz < (rxStream ((port s.dev 0).rxRing 0) (rxTake 0 syncFrame r s.dev)).length
       ∧ rxOwned s.dev 0 0 ≤ r.buffers.length ∧ (rxTake 0 [] r s.dev).judged = none) ∧
    (([] : List W8).length < 64 ∧ fcsOk (List.replicate 64 0) = false ∧ 64 ≤ syncFrame.length ∧ fcsOk syncFrame = true) ∧
    (let s := arriving rxRing 1
     let j := strain s.dev 0 syncFrame
     syncFrame.length ≤ 9216 ∧ be16 syncFrame 12 ≠ 0x8808 ∧ bit j.word 27 = false ∧ (port s.dev 0).half = false ∧ j.action = .ring 0
       ∧ ((port s.dev 0).rxRing 0).log2 ≤ 16 ∧ 1 ≤ rxOwned s.dev 0 0
       ∧ (∀ w ∈ wordsOf (rxRing.base + rxHead s.dev 0 0 * 32) 8, errOf s.dev w = .none)
       ∧ ofLe ((getBytes s.dev dramBase 8).take 6) / 64 * 64 = dramBase + 4096 ∧ inShared s.dev (dramBase + 4096) rxRing.bufsz = true
       ∧ (rxStream rxRing { stamp := 0, bytes := syncFrame, judged := some j }).length = 60 ∧ 0 < 60 ∧ 60 ≤ rxRing.bufsz ∧ dramBase + 32 ≤ dramBase + 4096
       ∧ ((port (arriving { rxRing with enabled := false } 1).dev 0).rxRing 0).enabled = false) ∧
    (Judged.action { entry := none, word := 0x20000000 } = .firmware ∧ Judged.action { entry := none, word := 0x30000000 } = .drop
      ∧ Judged.action { entry := none, word := 0x10000000 } = .sacn ∧ Judged.action { entry := none, word := 0x10170000 } = .st 7) := by decide +kernel

theorem witness_Reception_buffer :
    (let s := arriving rxRing 1
     let r' := rxTake 0 (syncFrame.take 60) { stamp := 0 } s.dev
     r'.judged.map Judged.action = some (.ring 0) ∧ 0 < rxOwned s.dev 0 0 ∧ (∀ w ∈ wordsOf (rxRing.base + rxHead s.dev 0 0 * 32) 8, errOf s.dev w = .none)
       ∧ inShared s.dev (dramBase + 4096) rxRing.bufsz = true ∧ 0 < (rxStream rxRing r').length ∧ (rxStream rxRing r').length ≤ rxRing.bufsz) ∧
    (let s := arriving rxRing 1 (putBytes dramBase (leBytes 8 64))
     inShared s.dev (ofLe ((getBytes s.dev dramBase 8).take 6) / 64 * 64) rxRing.bufsz = false ∧ 0 < rxOwned s.dev 0 0) := by decide +kernel

/-- The path to the control firmware is full. -/
theorem witness_Reception_full (r : Received) :
    Config.fwPathFrames ≤ (host fun d => { d with fwRx := List.replicate Config.fwPathFrames r }).dev.fwRx.length := by
  simp [host]

/-- R227: one descriptor, first and last, stamped, of the default action; 60 bytes without the FCS. -/
theorem test_receive : ofLe (getBytes (after (.rxFrameEnd 0 syncFrame false) (arriving rxRing 1)) (dramBase + 24) 8)
    = 15 * 2 ^ 60 + 2 ^ 59 + 60 * 2 ^ 32 + 60 := by decide +kernel
/-- R218: a byte too few. -/
theorem test_short : rd (after (.rxFrameEnd 0 (List.replicate 63 0) false) (arriving rxRing 1)) (Reg.SPORT_RX_ERR 0) = 1 := by decide +kernel

/-- R231's ring: 16 buffers, watermark 12. -/
def watermarked (above : Bool) (head tail : Nat) : State :=
  onWire 1 { upPort with rxRings := [(2, { rxRing with above })] }
    (regs [(Reg.SPORT_RXQ_WM 1 2, 12), (Reg.SPORT_RXQ_HEAD 1 2, w32 head), (Reg.SPORT_RXQ_TAIL 1 2, w32 tail)])

/-- A Sync in a frame without IP, from ring 0 of port 0. -/
def oneSync : TxFrame := { txq0 with bytes := List.replicate 12 0 ++ [0x88, 0xF7, 0x00, 2, 0, 44] ++ List.replicate 42 0 }
/-- The same in UDP over IPv4, and over IPv6 with the two bytes to spare. -/
def oneSync4 : TxFrame :=
  { txq0 with bytes := List.replicate 12 0 ++ [8, 0] ++ [0x45, 0, 0, 0, 0, 0, 0, 0, 0, 17, 0, 0] ++ List.replicate 10 0 ++ [1, 63, 0, 52, 0, 0] ++
    [0, 2, 0, 44] ++ List.replicate 40 0 }
def oneSync6 : TxFrame :=
  { txq0 with bytes := List.replicate 12 0 ++ [0x86, 0xDD] ++ [0x60, 0, 0, 0, 0, 54, 17, 1] ++ List.replicate 32 0 ++ [0, 0, 1, 63, 0, 54, 0x12, 0x34] ++
    [0, 2, 0, 44] ++ List.replicate 42 0 }

theorem witness_ReceiveRings :
    (let d := wr (Reg.SPORT_RXQ_BASE_LO 9 7) (w32 dramBase) (wr (Reg.SPORT_RXQ_BASE_LO 9 7 + 4) (w32 (dramBase / 2 ^ 32)) (host id).dev)
     csrShut d (Reg.SPORT_RXQ_CTL 9 7) = false ∧ bit (0x80000004 : W32) 31 = true ∧ ((port d 9).rxRing 7).enabled = false
       ∧ inShared d ((rd64 d (Reg.SPORT_RXQ_BASE_LO 9 7)).toNat % 2 ^ 48 / 64 * 64) (2 ^ log2Of 4 * 32) = true
       ∧ inShared (host id).dev ((rd64 (host id).dev (Reg.SPORT_RXQ_BASE_LO 9 7)).toNat % 2 ^ 48 / 64 * 64) (2 ^ log2Of 4 * 32) = false
       ∧ bit (4 : W32) 31 = false ∧ ((port (arriving rxRing 0).dev 0).rxRing 0).enabled = true ∧ (port (arriving rxRing 0).dev 0).rx = some { stamp := 0 }) ∧
    csrShut (watermarked false 12 15).dev (Reg.SPORT_RXQ_TAIL 1 2) = false ∧ csrShut (watermarked false 12 15).dev (Reg.SPORT_RXQ_WM 1 2) = false ∧
    (csrShut (host id).dev (Reg.SPORT_SAUCER_SEC_LO 9) = false ∧ (port (host id).dev 9).saucer = []
      ∧ (port (onWire 9 { upPort with saucer := [{ time := 5, tag := 6, ring := 7 }] }).dev 9).saucer = { time := 5, tag := 6, ring := 7 } :: []) ∧
    (let d := (onWire 0 upPort (regs [(Reg.SPORT_PTP_CTL 0, 1)])).dev
     rb d (Reg.SPORT_PTP_CTL 0) 0 = true ∧ (port d 0).half = false ∧
     (ptpAt oneSync.bytes 12 = some (14, none) ∧ 14 + 44 ≤ oneSync.bytes.length ∧ fld (byteAt oneSync.bytes 14) 0 4 = 0 ∧ bit (byteAt oneSync.bytes 20) 1 = false) ∧
     (ptpAt oneSync4.bytes 12 = some (42, some (34, 4)) ∧ 42 + 44 ≤ oneSync4.bytes.length ∧ fld (byteAt oneSync4.bytes 42) 0 4 = 0
       ∧ bit (byteAt oneSync4.bytes 48) 1 = false) ∧
     (ptpAt oneSync6.bytes 12 = some (62, some (54, 6)) ∧ 62 + 44 ≤ oneSync6.bytes.length ∧ fld (byteAt oneSync6.bytes 62) 0 4 = 0
       ∧ bit (byteAt oneSync6.bytes 68) 1 = false ∧ 8 + be16 oneSync6.bytes 64 + 2 ≤ be16 oneSync6.bytes 58
       ∧ 54 + be16 oneSync6.bytes 58 ≤ oneSync6.bytes.length ∧ 44 ≤ be16 oneSync6.bytes 64)) := by decide +kernel

/-- R231's example at 20 µs: C's two descriptors cross the watermark; at 30 µs TAIL = 9 leaves level 2. -/
theorem test_watermark : (let d := (rxAdvance 1 2 2 (watermarked false 10 15).dev)
    (((port d 1).rxRing 2).above, rd d (Reg.SPORT_RXQ_WM_CROSSINGS 1 2), rd d (Reg.SPORT_RX_WM_EVENT 1))) = (true, 1, 4)
    ∧ ((port (after (.rxqTailWrite .host 1 2 9) (watermarked true 12 15)) 1).rxRing 2).above = false := by decide +kernel
/-- R238: over IPv6 the sum stays. -/
theorem test_sync6 : (let y := oneStep 0 oneSync6 (12345678 * ns1) (onWire 0 upPort (regs [(Reg.SPORT_PTP_CTL 0, 1)])).dev
    (sum16 (slice y.1.bytes 54 54), slice y.1.bytes 106 2 != [0, 0])) = (sum16 (slice oneSync6.bytes 54 54), true) := by decide +kernel

/-! Packers, DMX, timecode and MIDI (R243 to R271). -/

/-- The frame clock runs at 60 Hz: boundary 1 was emitted at show time 0, the next is B(2). -/
def clocked (d : Dev) : Dev :=
  { d with frm := { d.frm with run := some (gridRegs d), firstDone := true, everEmitted := true, next := 2, lastFrame := 1, lastB := 0 } }

/-- Frame 2 is assembled. -/
def asm2 : Assembly := { frame := some 2 }

/-- Universe 1 with word 3 of its entry, its images at the start of DRAM; the packer sends. -/
def packing (x : Universe := { asm := asm2 }) (w3 : W32 := 0x80110000) (f : Dev → Dev := id) : State :=
  host fun d => f (clocked (regs [(Reg.PACK_CTL, 7), (Reg.PACK_BUF_BASE_LO, w32 dramBase), (Reg.PACK_BUF_BASE_LO + 4, w32 (dramBase / 2 ^ 32))]
    (setUniverse 1 x (onPack (fun p => { p with table := [(6, 1), (7, w3)] }) d))))

/-- A record of one byte for slot 0 of a universe or a DMX line, of frame 2. -/
def record (kind : Nat) (u : Nat) : Rec := { key := 0x0000000200000000, dest := w64 (kind * 2 ^ 60 + u * 2 ^ 16), data := [99] }

/-- The record is handed on. -/
def handed (r : Rec) (d : Dev) : Dev := onPack (fun p => { p with inbox := [r] }) d

/-- The state at a show time in nanoseconds. -/
def showAt (ns : Int) (s : State) : State := { s with clk := { s.clk with tb := { s.clk.tb with offset := ns * ns1 } } }

/-- R247's packet of universe 1: level 0xFF in its first slot. -/
def data1 : List W8 := dataPacket (packing).dev 1 7 false (0xFF :: List.replicate 511 0)

theorem witness_SacnPacker :
    (let s := host (regs [(Reg.PACK_UNIV_IDX, 63999), (Reg.PACK_UNIV_DATA 3, 0x80000000)])
     csrShut s.dev Reg.PACK_UNIV_CMD = false ∧ rf s.dev (ownOf .host Reg.PACK_UNIV_IDX) 0 16 = 63999 ∧ univOn s.dev 63999 = false
       ∧ rf (host id).dev (ownOf .host Reg.PACK_UNIV_IDX) 0 16 = 0 ∧ bit (rd s.dev (ownOf .host (Reg.PACK_UNIV_DATA 3)) &&& 0xFFFF3FFF) 31 = true
       ∧ univOn (packing).dev 1 = true ∧ imageBad (packing).dev 1 = false) ∧
    (let s := packing (f := handed (record 1 1))
     s.dev.pack.inbox = record 1 1 :: [] ∧ fld (record 1 1).dest 16 16 = 1 ∧ sacnOut s.clk s.dev = true ∧ univOn s.dev 1 = true
       ∧ imageBad s.dev 1 = false ∧ (univAt s.dev 1).asm.number s.clk s.dev = some 2 ∧ recordAge 2 (keyFrame (record 1 1).key) = 0
       ∧ recordAge 3 (keyFrame (record 1 1).key) ≠ 0 ∧ fld (record 1 1).dest 0 9 + (record 1 1).data.length ≤ 512
       ∧ univRecords s.dev 1 ≤ (univAt s.dev 1).asm.count + 1 ∧ frameInstant s.clk s.dev 2 = some ((gridRegs s.dev).at 2)) ∧
    (1 < univRecords (packing (w3 := 0x80120000)).dev 1 ∧ sacnOut State.reset.clk (host id).dev = false ∧ univOn (packing).dev 2 = false
      ∧ imageBad (packing (f := wr (Reg.PACK_BUF_BASE_LO + 4) 0xFFFF)).dev 1 = true) ∧
    (let s := packing
     (univAt s.dev 1).asm.first = false ∧ imageBad s.dev 1 = false ∧ now s.clk < univDeadline s.dev 1 ((gridRegs s.dev).at 2)
       ∧ univDeadline s.dev 1 ((gridRegs s.dev).at 2) ≤ now (showAt 34000000 s).clk ∧ uncounted s.clk s.dev 2 = false) ∧
    (let s := packing { asm := asm2, term := 3 } 0x00110000
     univOn s.dev 1 = false ∧ (univAt s.dev 1).term ≠ 0) ∧
    (let s := valid (packing { asm := { first := true }, term := 3 } (f := fun d => { d with frm := { d.frm with firstDone := false } }))
     let t := packing { asm := { first := true }, term := 3 } 0x00110000 (f := fun d => { d with frm := { d.frm with firstDone := false } })
     let b := (gridRegs s.dev).at (nextIndex s.dev)
     sacnOut s.clk s.dev = true ∧ (univAt s.dev 1).asm.first = true ∧ s.dev.frm.firstDone = false ∧ s.dev.frm.run = some (gridRegs s.dev)
       ∧ imageBad s.dev 1 = false ∧ now s.clk < univDeadline s.dev 1 b ∧ univDeadline s.dev 1 b ≤ now (showAt 34000000000 s).clk ∧ univOn s.dev 1 = true
       ∧ univOn t.dev 1 = false ∧ (univAt t.dev 1).term ≠ 0) ∧
    (63999 < 2 ^ 16 ∧ 255 < 256 ∧ (List.replicate 512 (0 : W8)).length = 512 ∧ fld (univWord (packing).dev 1 2) 16 8 = 0) := by decide +kernel

/-- The record is of frame n. -/
def ofFrame (n : Nat) (r : Rec) : Rec := { r with key := w64 (n * 2 ^ 32) }

/-- A record of frame 3 waits before one of frame 2. -/
theorem witness_SacnPacker_waits :
    (let s := packing (f := fun d => onPack (fun p => { p with inbox := [ofFrame 3 (record 1 1), record 1 1] }) d)
     s.dev.pack.inbox = [ofFrame 3 (record 1 1)] ++ record 1 1 :: [] ∧ (∀ x ∈ [ofFrame 3 (record 1 1)], sacnAccepts s.clk s.dev x = false)
       ∧ recordAge 2 (keyFrame (ofFrame 3 (record 1 1)).key) = 2 ∧ recordAge 2 (keyFrame (ofFrame 1 (record 1 1)).key) = 1
       ∧ (∀ r ∈ ([] : List Rec), sacnAccepts s.clk s.dev r = false)) := by decide +kernel

/-- R245: a record of a later frame stays queued, and one behind it is taken. -/
theorem test_sacn_waits : (after .sacnRecord (packing (f := fun d => onPack (fun p => { p with inbox := [ofFrame 3 (record 1 1), record 1 1] }) d))).pack.inbox
    = [ofFrame 3 (record 1 1)] := by decide +kernel
/-- R245: the last record of a frame makes its image the sent one and offers the packet. -/
theorem test_sacn_record : (let d := after .sacnRecord (packing (f := handed (record 1 1)))
    (getByte d dramBase == 0 && getByte d (dramBase + 1024) == 99, (univAt d 1).seq, ((port d 0).offers.map (·.bytes.length)))) = (true, 1, [169]) := by
  decide +kernel
/-- R247: lengths of a packet of one slot. -/
theorem test_data_packet : data1.length = 127 ∧ dataPacketOk data1 = true ∧ be16 data1 16 = 0x706F := by decide +kernel

/-- The sACN receiver has an entry for universe 1, and a frame with a data packet of it. -/
def entered (x : InEntry) (w3 : W32 := 0x80000001) (f : Dev → Dev := id) : State :=
  host fun d => f (setInEntry 0 x (onPack (fun p => { p with inTable := [(3, w3)] }) (wr Reg.PACK_CTL 7 d)))

/-- A datagram of n bytes to a port. -/
def datagram (to' : Nat) (l : List W8) : Received :=
  { port := 0, stamp := 0, bytes := List.replicate 12 0 ++ [8, 0, 0x45, 0, 0, 0, 0, 0, 0, 0, 1, 17, 0, 0] ++ List.replicate 10 0 ++ beBytes 2 to' ++
    beBytes 2 (l.length + 8) ++ [0, 0] ++ l ++ [0, 0, 0, 0] }

/-- A stream's datagram: one segment of four octets at row 0, pixel 0. -/
def rtp (row : Nat) : List W8 := [0x80, 0xE0, 0, 1, 0, 0, 0, 9, 0, 0, 0, 0, 0, 0] ++ [0, 4] ++ beBytes 2 row ++ [0, 0, 1, 2, 3, 4]

/-- Stream 0 writes 4:2:2 of 8 bits into surface 0, whose format is f. -/
def receiving (f : Nat) : State := host fun d =>
  { setSurfDesc 0 [w32 (0x80000001 + f * 2 ^ 16), 0x00020001, 0, 0, 0, 0x00010001, 0, 0] (regs [(Reg.PACK_CTL, 7), (Reg.ST_CTL 0, 0x80000000)] d) with
    stRx := [datagram 20000 (rtp 0)] }

/-- Head 0 packs the whole of the small raster in packets of 100 columns. -/
def trazhing : State :=
  heads { atLine 44 with timing := some { timing with outCtl := 0x12, trazh := [100, 0x88B5, 0, 0, 0, 0] } } 1 fun d => setTrazh 0 { tick := some 0 } d

/-- Synchronisation packets of an earlier frame are still to come. -/
theorem witness_PackersAndEngines_older :
    let s := packing (f := fun d => setSync 0 { older := [(1, 0, 0)] } (wr (Reg.PACK_PORT_SYNC 0) 0x80000000
        (onPack (fun p => { p with table := [(5, 0x00070000), (6, 1), (7, 0x80110000)] }) d)))
    (syncPort s.dev 0).older = (1, 0, 0) :: [] ∧ (syncAddrs s.dev 0)[0]? = some (7, 1) ∧ (syncAddrs s.dev 0)[9]? = none
      ∧ slotLaunch s.dev 0 0 0 - (stageLead s.dev 0 + 2000 : Nat) * ns1 ≤ now (showAt 34000000 s).clk := by decide +kernel

theorem witness_PackersAndEngines :
    (let s := packing (f := fun d => wr (Reg.PACK_PORT_SYNC 0) 0x80000000
        (onPack (fun p => { p with table := [(5, 0x00070000), (6, 1), (7, 0x80110000)] }) d))
     sacnOut s.clk s.dev = true ∧ bit (rd s.dev (Reg.PACK_PORT_SYNC 0)) 31 = true ∧ (syncPort s.dev 0).frame = none ∧ (syncPort s.dev 0).older = []
       ∧ runFrame s.clk s.dev = some 2 ∧ (syncAddrs s.dev 0)[0]? = some (7, 1)
       ∧ now s.clk < slotLaunch s.dev 0 0 ((gridRegs s.dev).at 2) - (stageLead s.dev 0 + 2000 : Nat) * ns1
       ∧ slotLaunch s.dev 0 0 ((gridRegs s.dev).at 2) - (stageLead s.dev 0 + 2000 : Nat) * ns1 ≤ now (showAt 34000000 s).clk
       ∧ (packDest s.dev 0 7 0).isSome = true) ∧
    (let s := host fun d => regs [(Reg.PACK_CTL, 1), (Reg.PACK_DISC_CTL, 0x80000000)] (setPort 0 upPort d)
     rb s.dev Reg.PACK_CTL 0 = true ∧ rb s.dev Reg.PACK_DISC_CTL 31 = true ∧ s.dev.pack.discTick = none ∧ (port s.dev 0).enabled = true
       ∧ suppresses s.dev.pair.mode = false) ∧
    (let r := datagram 5568 data1
     let s := entered {} (f := fun d => { d with sacnRx := [r] })
     s.dev.sacnRx = r :: [] ∧ rb s.dev Reg.PACK_CTL 1 = true ∧ inTime r s.clk s.dev = true ∧ udpOf s.dev r = some (5568, data1)
       ∧ dataPacketOk data1 = true ∧ ((inputsOn s.dev).find? fun e => fld (inWord s.dev e 3) 0 16 == be16 data1 113) = some 0
       ∧ fld (inWord s.dev 0 3) 16 4 = 0 ∧ (bit (byteAt data1 112) 7 && !bit (inWord s.dev 0 3) 30) = false
       ∧ inTime { r with stamp := 10 ^ 9 * ns1 } s.clk (clocked s.dev) = false ∧ rb (host id).dev Reg.PACK_CTL 1 = false
       ∧ udpOf s.dev { r with bytes := [] } = none ∧ fld (inWord (entered {} 0x80010001).dev 0 3) 16 4 = 1
       ∧ inCid (wr (Reg.PACK_IN_CID 1 0) 1 s.dev) 1 ≠ slice data1 22 16) ∧
    (let s := atTick 3125000000 (entered {})
     (rb s.dev Reg.PACK_CTL 1 && bit (inWord s.dev 0 3) 31 && !(inEntry s.dev 0).loss && decide (3125000000 ≤ since s.clk (inEntry s.dev 0).keptTick)) = true) ∧
    csrShut (host id).dev Reg.PACK_IN_CMD = false ∧
    (let s := receiving 0x10
     let r := datagram 20000 (rtp 0)
     s.dev.stRx = r :: [] ∧ r.stream < 8 ∧ rb s.dev Reg.PACK_CTL 2 = true ∧ rb s.dev (Reg.ST_CTL 0) 31 = true ∧ udpOf s.dev r = some (20000, rtp 0)
       ∧ 20 ≤ (rtp 0).length ∧ fld (byteAt (rtp 0) 0) 6 2 = 2 ∧ fld (byteAt (rtp 0) 0) 0 4 = 0 ∧ (segments (rtp 0) 3 14).isSome = true
       ∧ stFormatOk s.dev 0 (descFormat (surfDesc s.dev (stSurface s.dev 0 0))) = true ∧ bit (byteAt (rtp 0) 1) 7 = true
       ∧ stFormatOk (receiving 8).dev 0 (descFormat (surfDesc (receiving 8).dev (stSurface (receiving 8).dev 0 0))) = false
       ∧ (stStream s.dev 0).seq = none ∧ udpOf s.dev { r with bytes := [] } = none) ∧
    ((0 : Nat) + 1 < descWidth [0x80080001, 0x00020001] ∧ 0 / 2 < descWidth [0x80080001, 0x00020001] / 2) := by decide +kernel

theorem witness_PackersAndEngines_trazh :
    ((trazhSet trazhing.dev 0).isSome = true ∧ (trazh trazhing.dev 0).tick = some (head trazhing.dev 0).vsyncTick ∧ (head trazhing.dev 0).running = true
      ∧ bit (0x12 : W32) 1 = true ∧ 0 < trazhGroups timing [100] ∧ (trazh trazhing.dev 0).packet = 0 ∧ trazhPackets 100 [100] = 1
      ∧ (head trazhing.dev 0).vsync + groupAt (rateGrid trazhing.dev) timing [100, 0x88B5, 0, 0, 0, 0] 0
          - (stageLead trazhing.dev 0 + 2000 : Nat) * ns1 ≤ now (showAt 34000000 trazhing).clk) ∧
    (65535 < 2 ^ 16 ∧ timing.vActive < 2 ^ 16 ∧ timing.outWidth < 2 ^ 16) := by decide +kernel

/-- R253: a packet is kept with its stamp and priority. -/
theorem test_in_packet : ((inEntry (after .sacnInPacket (entered {} (f := fun d => { d with sacnRx := [datagram 5568 data1] }))) 0).kept.map
    fun p => (p.seq, p.count, p.slots.take 2)) = some (7, 2, [0, 0xFF]) := by decide +kernel
/-- R257: the header's type and sizes. -/
theorem test_trazh_header : trazhHeader (atLine 0) timing [0x00030064] 0x12 true (5 * ns1) 3 1 0 100 9
    = [0x11, 3, 0xC4, 0, 0, 0, 0, 0, 0, 0, 0, 0, 0, 0, 0, 5, 0, 3, 0, 1, 0, 0, 0, 100, 0, 9, 0, 100, 0, 40, 0, 0] := by decide +kernel

/-- DMX port 0 as a controller with one record a frame, its state, and the frame clock; or as a responder. -/
def dmxing (x : Dmx) (ctl : W32 := 0x80000200) (f : Dev → Dev := id) : State :=
  host fun d => f (clocked (regs [(Reg.DMX_CTL 0, ctl), (Reg.DMX_SRC 0, 0x10000000), (Reg.DMX_SCHED 0, 0x10000000)] (setDmx 0 x d)))

/-- A line that assembles frame 2, its images full. -/
def line2 : Dmx := { asm := asm2, sent := List.replicate 512 0, building := List.replicate 512 0 }

/-- An RDM discovery request of n, from 0 to the highest address, with its checksum. -/
def rdmRequestOf (pid : Nat) (dest : Nat) (cc : W8 := 0x10) : List W8 :=
  let l : List W8 := [0xCC, 1, 36] ++ beBytes 6 dest ++ [0, 0, 0, 0, 0, 5] ++ [1, 1, 0, 0, 0, cc] ++ beBytes 2 pid ++ [12] ++ List.replicate 6 0 ++ List.replicate 6 0xFF
  l ++ beBytes 2 (sumBytes l)

theorem witness_DmxCommands :
    (let s := dmxing { line2 with inbox := [record 5 0] }
     (dmx s.dev 0).inbox = record 5 0 :: [] ∧ dmxOut s.clk s.dev 0 = true ∧ dmxNumber s.clk s.dev 0 = some 2 ∧ recordAge 2 (keyFrame (record 5 0).key) = 0
       ∧ (dmx s.dev 0).sent.length = 512 ∧ (dmx s.dev 0).building.length = 512 ∧ fld (record 5 0).dest 0 9 + (record 5 0).data.length ≤ 512
       ∧ dmxRecords s.dev 0 ≤ (dmx s.dev 0).asm.count + 1 ∧ 0 + 1 < dmxRecords (wr (Reg.DMX_SRC 0) 0x20000000 s.dev) 0
       ∧ dmxOut s.clk (host id).dev 0 = false ∧ (dmx (host id).dev 0).inbox = []
       ∧ running s.clk (host id).dev = false ∧ (let t := dmxing { line2 with inbox := [record 5 0] } 0
         running t.clk t.dev = true ∧ dmxNumber t.clk t.dev 0 ≠ none ∧ dmxController t.dev 0 = false)) ∧
    (let s := dmxing { line2 with waitTick := some 5 }
     s.dev.sys.tripped = false ∧ dmxQuiet s.dev = false ∧ dmxController s.dev 0 = true ∧ responding (dmxing line2 0xA0000200).dev 0 = true
       ∧ dmxDe s.dev 0 s.clk = true ∧ dmxDe s.dev 0 (atTick 5 s).clk = false ∧ dmxDe (dmxing line2 0xA0000200).dev 0 s.clk = false
       ∧ dmxDe (dmxing { line2 with line := some (none, [0]), endTick := 9 } 0xA0000200).dev 0 s.clk = true
       ∧ unusable (marked 0x7010).dev 0x7010 = true ∧ dmxQuiet (host fun d => { d with pair := { d.pair with mode := .degraded } }).dev = true
       ∧ s.clk.ticks.toNat < 5) ∧
    (let s := dmxing line2
     let dl := (gridRegs s.dev).at 2 + dmxOfs s.dev 0 - (rf s.dev (Reg.DMX_LEAD 0) 0 10 * 1000 : Nat) * ns1
     frameInstant s.clk s.dev 2 = some ((gridRegs s.dev).at 2) ∧ now s.clk < dl ∧ dl ≤ now (showAt 34000000 s).clk ∧ uncounted s.clk s.dev 2 = false) ∧
    (let s := dmxing line2
     s.dev.sys.tripped = false ∧ dmxController s.dev 0 = true ∧ s.dev.frm.run.isSome = true ∧ s.dev.frm.firstDone = true
       ∧ dmxLaunches s.dev 0 s.dev.frm.lastFrame = true ∧ (dmx s.dev 0).launched ≠ some s.dev.frm.lastFrame
       ∧ s.dev.frm.lastB + dmxOfs s.dev 0 ≤ now (showAt 34000000 s).clk ∧ lineFree s.clk (dmx s.dev 0) = true ∧ lineFree s.clk { line2 with freeTick := 1 } = false
       ∧ dmxLaunches (wr (Reg.DMX_SCHED 0) 0x20000000 s.dev) 0 1 = false) ∧
    (let s := dmxing { line2 with line := some (none, [0]), endTick := 5 }
     (dmx s.dev 0).line = some (none, [0]) ∧ s.clk.ticks.toNat < (dmx s.dev 0).endTick.toNat ∧ (dmx s.dev 0).endTick.toNat ≤ (atTick 5 s).clk.ticks.toNat) ∧
    (csrShut (dmxing line2).dev (Reg.DMX_RDM_CMD 0) = false ∧ dmxResponder (dmxing line2).dev 0 = false ∧ dmxResponder (dmxing line2 0xA0000200).dev 0 = true
      ∧ since (atTick 2250001 State.reset).clk 0 = 2250001 ∧ line2.askTick = none) ∧
    (let s := dmxing { line2 with pending := true, launched := some 1 }
     (!s.dev.sys.tripped && dmxController s.dev 0 && (dmx s.dev 0).pending && !dmxQuiet s.dev && (dmx s.dev 0).line.isNone && (dmx s.dev 0).waitTick.isNone
       && decide ((dmx s.dev 0).freeTick.toNat ≤ s.clk.ticks.toNat)
       && (dmxNextBreak 0 s.clk s.dev).elim true fun b => decide (now s.clk + (rdmAllowance s.dev 0 (dmx s.dev 0).noResp + 8000 : Nat) * ns1 ≤ b)) = true) ∧
    (let s := dmxing { line2 with waitTick := some 0 }
     (dmx s.dev 0).waitTick = some 0 ∧ ticksOf ((rd s.dev (Reg.DMX_RDM_WAIT 0)).toNat * 1000) ≤ (atTick 1250000000 s).clk.ticks.toNat
       ∧ ¬ ticksOf ((rd s.dev (Reg.DMX_RDM_WAIT 0)).toNat * 1000) ≤ s.clk.ticks.toNat) := by decide +kernel

theorem witness_DmxCommands_responder :
    (let s := dmxing line2 0xA0000200
     responding s.dev 0 = true ∧ s.dev.sys.tripped = false ∧ (dmx s.dev 0).mute = false
       ∧ rdmOk (rdmRequestOf 1 (2 ^ 48 - 1)) = true ∧ ofBe (slice (rdmRequestOf 1 (2 ^ 48 - 1)) 3 6) = 2 ^ 48 - 1
       ∧ (byteAt (rdmRequestOf 1 (2 ^ 48 - 1)) 20).toNat = 0x10 ∧ be16 (rdmRequestOf 1 (2 ^ 48 - 1)) 21 = 1
       ∧ ofBe (slice (rdmRequestOf 1 (2 ^ 48 - 1)) 24 6) ≤ dmxUid s.dev 0 ∧ dmxUid s.dev 0 ≤ ofBe (slice (rdmRequestOf 1 (2 ^ 48 - 1)) 30 6)
       ∧ rdmOk (rdmRequestOf 2 0) = true ∧ be16 (rdmRequestOf 2 0) 21 = 2 ∧ rdmOk (rdmRequestOf 3 0) = true ∧ be16 (rdmRequestOf 3 0) 21 = 3
       ∧ rdmOk (rdmRequestOf 0x60 0 0x20) = true ∧ ¬ (byteAt (rdmRequestOf 0x60 0 0x20) 20).toNat = 0x10
       ∧ rdmOk (rdmRequestOf 1 7) = true ∧ 7 ≠ dmxUid s.dev 0 ∧ s.clk.ticks.toNat + 220000 < 2 ^ 63) ∧
    (let s := dmxing { line2 with askTick := some 0 } 0xA0000200
     (dmx s.dev 0).askTick = some 0 ∧ responding s.dev 0 = true ∧ since s.clk 0 ≤ 2250000 ∧ 2250000 < since (atTick 2250001 s).clk 0) ∧
    0xFFFFFFFFFFFF < 2 ^ 48 := by decide +kernel

theorem witness_DmxCommands_waits :
    (let s := dmxing { line2 with inbox := [ofFrame 3 (record 5 0), record 5 0] }
     (dmx s.dev 0).inbox = [ofFrame 3 (record 5 0)] ++ record 5 0 :: [] ∧ (∀ y ∈ [ofFrame 3 (record 5 0)], dmxAccepts s.clk s.dev y = false)
       ∧ fld (record 5 0).dest 16 4 = 0) ∧
    (let s := dmxing line2
     dmxOut s.clk s.dev 0 = true ∧ dmxNumber s.clk s.dev 0 = some 2 ∧ recordAge 2 (keyFrame (ofFrame 1 (record 5 0)).key) = 1
       ∧ dmxLaunches s.dev 0 1 = true ∧ dmxLaunches (wr (Reg.DMX_SCHED 0) 0x20000000 s.dev) 0 3 = false
       ∧ recordAge 2 (keyFrame (ofFrame 3 (record 5 0)).key) = 2 ∧ dmxLaunches (wr (Reg.DMX_SCHED 0) 0x20000000 s.dev) 0 1 = false) := by decide +kernel

/-- R262: a break of a line that is busy is skipped. -/
theorem test_break_busy : rf (after (.dmxBreak 0) (dmxing { line2 with freeTick := 1 })) (Reg.DMX_COUNT 0) 16 16 = 1 := by decide +kernel
/-- R264: a short break is counted, 88 µs are kept. -/
theorem test_break_short : (let e := after (.dmxRxFrame 0 87999 0 [0] false) (dmxing line2 0xA0000200)
    let k := after (.dmxRxFrame 0 88000 0 [7] false) (dmxing line2 0xA0000200)
    (rf e (Reg.DMX_COUNT2 0) 0 16, rd k (Reg.DMX_RX 0 0))) = (1, 7) := by decide +kernel

/-- Timecode and MIDI with their controls set. -/
def timecode (x : Slow) (f : Dev → Dev := id) : State :=
  host fun d => f { regs [(Reg.LTC_RX_CTL, 1), (Reg.MIDI_CTL, 3), (Reg.LTC_TX_CTL, 0x92000000)] d with slow := x }

theorem witness_TimecodeAndMidi :
    (rb (host id).dev Reg.LTC_RX_CTL 0 = false ∧ rb (timecode {}).dev Reg.LTC_RX_CTL 0 = true ∧ (timecode {}).dev.slow.ltcRx.length < 16
      ∧ 16 ≤ (timecode { ltcRx := List.replicate 16 { value := 0, stamp := 0 } }).dev.slow.ltcRx.length) ∧
    (rb (host id).dev Reg.MIDI_CTL 0 = false ∧ rb (timecode {}).dev Reg.MIDI_CTL 0 = true ∧ (timecode {}).dev.slow.midiRx.length < 256
      ∧ 256 ≤ (timecode { midiRx := List.replicate 256 { value := 0, stamp := 0 } }).dev.slow.midiRx.length) ∧
    (csrShut (host id).dev Reg.LTC_RX_TC = false ∧ csrShut (host id).dev Reg.MIDI_RX = false ∧ csrShut (host id).dev Reg.MIDI_TX = false
      ∧ 256 ≤ (timecode { midiTx := List.replicate 256 0 }).dev.slow.midiTx.length) ∧
    (let s := timecode { mtc := [0xF1, 0], midiTx := [5] }
     (rb s.dev Reg.MIDI_CTL 0 && s.dev.slow.midiLast.elim true (fun y => decide (400000 ≤ since s.clk y.2)) && !s.dev.sys.tripped) = true
       ∧ s.dev.slow.mtc = 0xF1 :: [0] ∧ s.dev.slow.midiTx = 5 :: []
       ∧ (some ((5 : W8), (0 : W64))).elim true (fun y => decide (400000 ≤ since s.clk y.2)) = false) ∧
    (let s := timecode { ltcTick := some 0 }
     s.dev.slow.ltcTick = some 0 ∧ (rb s.dev Reg.MIDI_CTL 1 && rb s.dev Reg.LTC_TX_CTL 31 && decide (s.dev.slow.quarter < 4)
       && decide (s.dev.slow.quarter * ltcTicks s.dev ≤ 4 * since s.clk 0)) = true ∧ (4 : Nat) < 5) ∧
    (let s := timecode {} clocked
     rb s.dev Reg.LTC_TX_CTL 31 = true ∧ s.dev.slow.ltcStopped = false ∧ s.dev.sys.tripped = false ∧ rb s.dev Reg.LTC_TX_CTL 30 = false
       ∧ s.dev.frm.run = some (gridRegs s.dev) ∧ ltcRateOk s.dev (gridRegs s.dev) = true ∧ s.dev.frm.holding = false
       ∧ ltcRateOk (wr Reg.LTC_TX_CTL 0x91000000 s.dev) (gridRegs s.dev) = false) ∧
    (let s := timecode { ltcBounds := [(0, 0)] } clocked
     ltcDue s.clk s.dev = some (0, 0)) ∧
    (let s := timecode {} (wr Reg.LTC_TX_CTL 0xD1000000)
     rb s.dev Reg.LTC_TX_CTL 30 = true ∧ due s.clk ((now s.clk + 0) * ltcRate s.dev / sec1 * sec1 / ltcRate s.dev - 0) = true) := by decide +kernel

/-- Drop-frame counting: 17,982 frames make ten minutes, and frames 0 and 1 of minute 1 are dropped. -/
theorem test_drop : tcWord 30 true 17982 = 0x400A0000 ∧ tcWord 30 true 1800 = 0x40010002 ∧ tcWord 30 true 1799 = 0x40003B1D := by decide +kernel
/-- R267: a byte beyond 256 is dropped. -/
theorem test_midi_drop : rf (after (.midiRxByte 5 0) (timecode { midiRx := List.replicate 256 { value := 0, stamp := 0 } })) Reg.MIDI_RX_STAT 16 16 = 1 := by
  decide +kernel

/-! The pair (R271 to R303). -/

/-- The state after reset with the pair's state changed. -/
def paired (p : Pair) (f : Dev → Dev := id) : State := host fun d => f { d with pair := p }

/-- A heartbeat of unit 1. -/
def beat (m : PairMode) : Heartbeat := ⟨m, true, 5, 0, 0, 0⟩

/-- An operational handover of boundary 3, due at B(3). -/
def handing (x : Pair) : Pair := { x with mode := .active, handover := some (3, 50000000 * ns1) }

theorem witness_PairStates :
    (csrShut (paired {}).dev Reg.PAIR_CTL = false ∧ csrShut (paired {}).dev Reg.PAIR_WDOG_KICK = false ∧ csrShut (paired {}).dev Reg.PAIR_CMD = false
      ∧ (paired {}).dev.pair.written = false ∧ (paired { written := true }).dev.pair.written = true ∧ bit (1 : W32) 0 = true) ∧
    (let s := atTick 12500000 (paired { mode := .join })
     let p := s.dev.pair
     (p.mode != .solo && !p.silent && decide (hbPeriod s.dev * 1250 ≤ since s.clk p.hbTick)) = true ∧ (paired {}).dev.pair.mode = .solo) ∧
    (let s := showAt 100000000 (paired { mode := .cozy })
     s.dev.pair.mode ≠ .solo ∧ s.dev.pair.lost = false ∧ later (shortOf (now s.clk)) (lossFrom s.dev + w64 (hbTimeout s.dev * 1000)) = true) ∧
    (let s := paired { mode := .join, lost := true } clocked
     s.dev.pair.mode = .join ∧ s.dev.pair.lost = true ∧ running s.clk s.dev = true ∧ 0 < 20000 ∧ (roleOne s.dev = true → 20000 ≤ 20000)) ∧
    (let s := paired { mode := .cozy, offered := some 3 }
     s.dev.pair.mode = .cozy ∧ s.dev.pair.offered.isSome = true) ∧
    (let s := paired { mode := .taking, claimTick := some 0 }
     s.dev.pair.mode = .taking ∧ s.dev.pair.claimTick = some 0 ∧ s.dev.pair.verified = false ∧ since (atTick 249 s).clk 0 < 250
       ∧ 250 ≤ since (atTick 250 s).clk 0 ∧ s.dev.sys.tripped = false) ∧
    (let s := paired { mode := .active }
     let t := min 1000 (max 100 (rf s.dev Reg.PAIR_WDOG_CFG 0 11)) * 1250
     s.dev.pair.mode = .active ∧ t ≤ since (atTick t s).clk s.dev.pair.kickTick ∧ since (atTick (t - 1) s).clk s.dev.pair.kickTick < t) := by decide +kernel

theorem witness_PairStates_handover :
    (let s := paired { mode := .active } fun d => clocked (setArmed .host true d)
     armed s.dev .host = true ∧ s.dev.pair.handover = none ∧ s.dev.frm.run = some (gridRegs s.dev) ∧ (gridRegs s.dev).ok = true
       ∧ armed (paired {}).dev .host = false) ∧
    (let s := paired { mode := .degraded } (setArmed .fw true)
     armed s.dev .fw = true ∧ s.dev.pair.mode = .degraded) ∧
    (let b : Time := 50000000 * ns1
     let s := paired (handing {})
     s.dev.pair.handover = some (3, b) ∧ s.dev.pair.released = false ∧ now (showAt 49949999 s).clk < b - 50000 * ns1
       ∧ b - 50000 * ns1 ≤ now (showAt 49950000 s).clk) ∧
    (let b : Time := 50000000 * ns1
     let s := paired (handing { released := true })
     s.dev.pair.handover = some (3, b) ∧ s.dev.pair.released = true ∧ now (showAt 49989999 s).clk < b - 10000 * ns1
       ∧ b - 10000 * ns1 ≤ now (showAt 49990000 s).clk) ∧
    (let s := showAt 34000000 (paired { mode := .taking, verified := true } clocked)
     let b := (gridRegs s.dev).at 2
     nextBoundary s.clk s.dev = some (2, b) ∧ s.dev.frm.run = some (gridRegs s.dev) ∧ b ≤ now s.clk ∧ s.dev.pair.mode = .taking
       ∧ s.dev.pair.verified = true ∧ s.dev.pair.byHandover = false) ∧
    (let s := showAt 51000000 (paired (handing { released := true }) fun d => { clocked d with frm := { (clocked d).frm with next := 3 } })
     let b := (gridRegs s.dev).at 3
     nextBoundary s.clk s.dev = some (3, b) ∧ s.dev.frm.run = some (gridRegs s.dev) ∧ b ≤ now s.clk ∧ s.dev.pair.mode = .active
       ∧ s.dev.pair.released = true ∧ s.dev.pair.handover = some (3, 50000000 * ns1) ∧ (3 : W64) ≤ 3) := by decide +kernel

theorem witness_PairStates_messages :
    (let p : Pair := { inbox := [(1, messageBytes 1 (hbContent (beat .active)))], mode := .join, keyed := true }
     p.inbox.find? (fun x => x.1 == 1) = some (1, messageBytes 1 (hbContent (beat .active))) ∧ p.mode = .join ∧ p.keyed = true ∧ p.idClash = false
       ∧ (beat .active).mode = .active) ∧
    (let p : Pair := { inbox := [(1, messageBytes 1 (hbContent (beat .taking)))], mode := .active, role := some true }
     p.inbox.find? (fun x => x.1 == 1) = some (1, messageBytes 1 (hbContent (beat .taking))) ∧ p.mode = .active ∧ p.released = false
       ∧ (beat .taking).mode = .taking ∧ roleOne { State.reset.dev with pair := p } = true) ∧
    (let p : Pair := { inbox := [(1, messageBytes 1 (hbContent (beat .cozy)))] }
     p.inbox.find? (fun x => x.1 == 1) = some (1, messageBytes 1 (hbContent (beat .cozy))) ∧ p.mode = .solo) ∧
    (let p : Pair := { inbox := [(2, messageBytes 4 [3])], mode := .cozy }
     p.inbox.find? (fun x => x.1 == 2) = some (2, messageBytes 4 [3]) ∧ p.mode = .cozy) ∧
    (([] : List (Nat × List W8)).find? (fun x => x.1 == 2) ≠ some (2, messageBytes 4 [3])) := by
  and_intros <;> first | rfl | (intro h; cases h)

/-- R294: the claim delay of unit 1 is 20 µs. -/
theorem test_claim : (let s := paired { mode := .cozy, lost := true, role := some true }
    ((after (.claim 19999) s).pair.mode, (after (.claim 20000) s).pair.mode)) = (.cozy, .taking) := by decide +kernel
/-- R299: two units in ACTIVE, unit 1 gives way. -/
theorem test_dual : (let s := paired { mode := .active, ownDrive := true, role := some true }
    let d := heartbeatTake (beat .active) s.clk s.dev
    (d.pair.mode, d.pair.ownDrive, rb d Reg.PAIR_EVENT 15)) = (.degraded, false, true) := by decide +kernel

/-- A trained and keyed link. -/
def linked (x : Pair) : Pair := { x with mode := .cozy, trained := true, keyed := true }

/-- One block outstanding, sent n times. -/
def outstanding (n : Nat) : Pair := linked { replay := [⟨0, 1, true, true, [7], n⟩], seq := 1 }

/-- The block that acknowledges block 0 and brings one byte on channel 7. -/
def answer : List W8 := blockBytes { expect := 1 } ⟨0, 7, true, true, [42], 0⟩

/-- A body of 252 bytes with its CRC. -/
def withCrc (b : List W8) : List W8 := b ++ leBytes 4 (crc32c b).toNat

/-- The CRC of such a block is good (R274). -/
theorem withCrc_good (b : List W8) (h : b.length = 252) :
    (withCrc b).length = 256 ∧ crc32c ((withCrc b).take 252) = w32 (ofLe ((withCrc b).drop 252)) ∧ (withCrc b).take 8 = b.take 8 := by
  have e : ∀ x, x < 2 ^ 32 → ofLe (leBytes 4 x) = x := by
    intro x hx
    simp only [leBytes, ofLe, BitVec.toNat_ofNat]
    omega
  refine ⟨by simp [withCrc, leBytes, h], ?_, ?_⟩
  · rw [withCrc, ← h, List.take_left, List.drop_left, e _ (crc32c b).isLt]; simp [w32]
  · rw [withCrc, List.take_append_of_le_length (by omega)]

/-- The body of that block, of a block that asks for a re-send, and of a bare acknowledgement. -/
def answerBody : List W8 := answer.take 252
def nakBody : List W8 := leBytes 8 (2 ^ 39) ++ List.replicate 244 0
def idleBody : List W8 := leBytes 8 (2 ^ 38) ++ List.replicate 244 0

theorem block_withCrc (n : Nat) (l : List W8) (h : l.length ≤ 244) : wireBlock n l = withCrc ((wireBlock n l).take 252) := by
  have e : ∀ x y : List W8, x.length = 252 → (x ++ y).take 252 = x := fun x y hx => hx ▸ List.take_left
  unfold wireBlock
  rw [e]
  · rfl
  · rw [List.length_append, List.length_append, List.length_replicate]
    show 8 + l.length + (244 - l.length) = 252
    omega

theorem answer_withCrc : answer = withCrc answerBody ∧ answerBody.length = 252 ∧ idleBody.length = 252 ∧ nakBody.length = 252 :=
  ⟨block_withCrc _ _ (by decide), by decide +kernel, by decide +kernel, by decide +kernel⟩

theorem witness_CricketLink_good :
    (answer.length = 256 ∧ crc32c (answer.take 252) = w32 (ofLe (answer.drop 252))) ∧
    ((withCrc idleBody).length = 256 ∧ crc32c ((withCrc idleBody).take 252) = w32 (ofLe ((withCrc idleBody).drop 252))
      ∧ bit (w64 (ofLe ((withCrc idleBody).take 8))) 38 = true ∧ bit (w64 (ofLe ((withCrc idleBody).take 8))) 39 = false
      ∧ fld (w64 (ofLe ((withCrc idleBody).take 8))) 40 24 = 0 ∧ (linked {}).replay = [] ∧ (linked {}).outbox = []) ∧
    ((withCrc nakBody).length = 256 ∧ crc32c ((withCrc nakBody).take 252) = w32 (ofLe ((withCrc nakBody).drop 252))
      ∧ bit (w64 (ofLe ((withCrc nakBody).take 8))) 39 = true ∧ fld (w64 (ofLe ((withCrc nakBody).take 8))) 40 24 = 0
      ∧ (outstanding 1).expect = 0 ∧ ∀ c ∈ (outstanding 1).replay, c.sends < 4 ∧ c.seq = 0) := by
  obtain ⟨h, ha, hi, hn⟩ := answer_withCrc
  refine ⟨?_, ⟨(withCrc_good _ hi).1, (withCrc_good _ hi).2.1, ?_⟩, (withCrc_good _ hn).1, (withCrc_good _ hn).2.1, ?_⟩
  · rw [h]; exact ⟨(withCrc_good _ ha).1, (withCrc_good _ ha).2.1⟩
  · rw [(withCrc_good _ hi).2.2]; decide +kernel
  · rw [(withCrc_good _ hn).2.2]; decide +kernel

theorem witness_CricketLink :
    (([42] : List W8).length ≤ 244 ∧ (4095 : Nat) < 4096 ∧ (7 : Nat) < 16) ∧
    (let s := paired (outstanding 1)
     let h := w64 (ofLe (answer.take 8))
     s.dev.pair.trained = true ∧ fld h 52 12 = s.dev.pair.expect
       ∧ bit h 38 = false ∧ bit h 39 = false ∧ fld h 32 4 = 7 ∧ openChannel s.dev 7 = true ∧ (fld h 40 12 + 4096 - 0) % 4096 = 1
       ∧ fld h 52 12 ≠ (paired { outstanding 1 with expect := 5 }).dev.pair.expect ∧ (paired {}).dev.pair.trained = false) ∧
    (linked {}).replay = [] ∧
    (let s := atTick 5000 (paired (outstanding 3))
     s.dev.pair.trained = true ∧ s.dev.pair.replay ≠ [] ∧ 5000 ≤ since s.clk s.dev.pair.ackTick ∧ ∀ c ∈ s.dev.pair.replay, c.sends < 4) ∧
    (let s := atTick 5000 (paired (outstanding 4) fun d => { d with scarab := { d.scarab with forming := 1 } })
     (∃ c ∈ s.dev.pair.replay, 4 ≤ c.sends) ∧ s.dev.scarab.forming ≠ 0 ∧ since (atTick 4999 s).clk 0 < 5000) ∧
    (let s := paired { mode := .cozy } fun d => { d with scarab := { d.scarab with keyHeld := true } }
     s.dev.pair.mode ≠ .solo ∧ cricketOut s.dev = false ∧ (∀ l < 4, looped s.dev (8 + l) = false) ∧ linkUp s.dev = false ∧ s.dev.sys.tripped = false
       ∧ s.dev.scarab.keyHeld = true) ∧
    (let s := atTick 12500 (paired (linked { ttLock := true, ttOver := 15 }) fun d => { d with pins := { d.pins with pairSlaved := true } })
     s.dev.pins.pairSlaved = true ∧ s.dev.pair.trained = true ∧ 12500 ≤ since s.clk s.dev.pair.ttTick ∧ incrOk s.clk.tb.incr = true
       ∧ ((0 + 2 ^ 49 : Time) - (0 - 0)).natAbs ≤ 2 ^ 49 ∧ 2 ^ 49 < ((0 + 2 ^ 49 + 1 : Time) - (0 - 0)).natAbs
       ∧ 2000 * 2 ^ 48 < ((0 + 2000 * 2 ^ 48 + 1 : Time) - (0 - 0)).natAbs ∧ s.dev.pair.ttLock = true ∧ 16 ≤ s.dev.pair.ttOver + 1
       ∧ (0 : Time) ≤ now s.clk + ((0 : W64).toInt * sec1 + (0 : W32).toNat * ns1 + (0 : W32).toNat * 2 ^ 16)
       ∧ (paired {}).dev.pins.pairSlaved = false ∧ (60 : W32).toNat < 2 ^ 20 ∧ rb s.dev Reg.FRM_CTL 0 = false
       ∧ rb (wr Reg.FRM_CTL 1 s.dev) Reg.FRM_CTL 0 = true) ∧
    (let d := regs [(Reg.SPORT_STRAIN 0 0 0, 0x94000000), (Reg.SPORT_STRAIN 0 0 1, 0x03000000), (Reg.SPORT_STRAIN 0 0 3, 0x0800)] (host id).dev
     (strain (straining (host id).dev) 0 universe256).action = .sacn ∧ (strain d 0 universe256).action ≠ .sacn) ∧
    (let s := paired { linked {} with markDue := some (4, 0) }
     let t := min 1000 (max 10 (rf s.dev Reg.PAIR_MARK_WAIT 0 10)) * 1250
     s.dev.pair.markDue = some (4, 0) ∧ since (atTick (t - 1) s).clk 0 < t ∧ t ≤ since (atTick t s).clk 0) := by decide +kernel

theorem witness_CricketLink_messages :
    (let p : Pair := { inbox := [(0, messageBytes 6 [1, (2 : W32).setWidth 64, (3 : W32).setWidth 64])] }
     p.inbox.find? (fun x => x.1 == 0) = some (0, messageBytes 6 [1, (2 : W32).setWidth 64, (3 : W32).setWidth 64])) ∧
    (let p : Pair := { inbox := [(0, messageBytes 9 [1, (2 : W32).setWidth 64, (3 : W32).setWidth 64])] }
     p.inbox.find? (fun x => x.1 == 0) = some (0, messageBytes 9 [1, (2 : W32).setWidth 64, (3 : W32).setWidth 64])) ∧
    (let p : Pair := { inbox := [(0, messageBytes 14 (stampWords 5))], mode := .active }
     p.inbox.find? (fun x => x.1 == 0) = some (0, messageBytes 14 (stampWords 5)) ∧ p.mode = .active) ∧
    (let m := (0, messageBytes 15 (stampWords 5 ++ stampWords 6 ++ stampWords 7))
     let p : Pair := { inbox := [m], ttAsk := some 5 }
     p.inbox.find? (fun x => x.1 == 0) = some m ∧ p.ttAsk = some 5) ∧
    (let m := messageBytes 13 [5, w64 (bnat true), 0, (0 : W32).setWidth 64, (60 : W32).setWidth 64, (1 : W32).setWidth 64, (0 : W32).setWidth 64,
       (8 : W32).setWidth 64]
     let p : Pair := { inbox := [(0, m)] }
     p.inbox.find? (fun x => x.1 == 0) = some (0, m)) ∧
    (let p : Pair := { inbox := [(7, messageBytes 5 [4])], markDue := some (4, 0) }
     p.inbox.find? (fun x => x.1 == 7) = some (7, messageBytes 5 [4]) ∧ p.markDue = some (4, 0)) ∧
    (let m := (7, messageBytes 8 [4, 0, w64 (7 : Fin 8).val, 9, w64 (bnat false)])
     ([m] : List (Nat × List W8)).find? (fun x => x.1 == 7) = some m ∧ ([] : List (Nat × List W8)).find? (fun x => x.1 == 7) ≠ some m) ∧
    (let m := (7, messageBytes 7 ([w64 (0 : Fin 10).val, 0, (0 : W32).setWidth 64] ++ universe256.map (·.setWidth 64)))
     ([m] : List (Nat × List W8)).find? (fun x => x.1 == 7) = some m) := by
  and_intros <;> first | rfl | (intro h; cases h)

/-- A boundary that waited owes its MARK, or none. -/
theorem witness_CricketLink_mark :
    (let s := paired (linked { markOwed := true })
     s.dev.pair.markOwed = true ∧ openChannel s.dev 7 = true ∧ openChannel s.dev 0 = true ∧ s.dev.pair.outbox = [] ∧ s.dev.pair.replay.length + 1 ≤ 512
       ∧ s.dev.pair.seq < 4096 ∧ (paired (linked {})).dev.pair.markOwed = false ∧ openChannel (paired { trained := true }).dev 7 = false) := by decide +kernel

/-- R275: ACK 1 frees block 0. -/
theorem test_ack : (cricketAck 1 State.reset.clk (paired (outstanding 1)).dev).pair.replay = [] := by decide +kernel
/-- R277: a fourth failed sending takes the link down. -/
theorem test_link_fatal : (after .cricketResendTimeout (atTick 5000 (paired (outstanding 4)))).pair.trained = false := by decide +kernel

/-- Frame 1's own set, the frame complete by 34 ms. -/
def digesting (x : Pair) (own : List (Nat × Nat × W32)) : State := showAt 34000000 (paired { linked x with digests := [⟨0, own⟩] } clocked)

/-- A set of two streams. -/
def pairSet : DigestSet := ⟨0, [(2, 1, 7), (0, 1, 9)]⟩

theorem witness_DigestsAndAdjudication :
    (∀ r ∈ pairSet.recs, r.1 < 4 ∧ r.2.1 < 65536) ∧
    (let s := digesting {} pairSet.recs
     let a : State := { s with dev := { s.dev with pair := { s.dev.pair with mode := .active } } }
     a.dev.pair.mode = .active ∧ digestOpen 0 a.clk a.dev = false ∧ a.dev.pair.digests.any (fun x => x.frame == 0) = true) ∧
    (let m := (3, digestBytes pairSet)
     let s := digesting { inbox := [m] } pairSet.recs
     let e := digesting { inbox := [m] } [(0, 1, 8)]
     s.dev.pair.inbox.find? (fun x => x.1 == 3) = some m ∧ (digestOf m.2).frame = 0 ∧ digestOpen 0 s.clk s.dev = false ∧ s.dev.pair.mode = .cozy
       ∧ (ownSet 0 s.dev).sorted = (digestOf m.2).sorted ∧ firstMismatch (ownSet 0 e.dev).sorted (digestOf m.2).sorted = some (0, 1)
       ∧ hasSet 0 s.dev = true ∧ hasSet 0 (paired {}).dev = false
       ∧ s.dev.pair.adj = none ∧ digestOpen 1 s.clk s.dev = true ∧ max 1 (rf s.dev Reg.PAIR_JOIN_FRAMES 0 16) ≤ 1799 + 1) ∧
    (let s : State := (digesting {} pairSet.recs)
     let s := { s with dev := { s.dev with scarab := { s.dev.scarab with attested := true } } }
     linkUp s.dev = true ∧ digestOpen 0 s.clk s.dev = false
       ∧ (completeAt 0 s.clk s.dev).all (fun c => decide (c + (rateGrid s.dev).period ≤ now s.clk)) = true
       ∧ s.dev.pair.digests.any (fun x => x.frame == 0) = true ∧ s.dev.pair.inbox.any (fun m => m.1 == 3 && (digestOf m.2).frame == 0) = false) ∧
    (let s := paired (linked { adj := some ⟨0, 1, 0, 0, true⟩ })
     s.dev.pair.adj = some ⟨0, 1, 0, 0, true⟩ ∧ since (atTick 12499999 s).clk 0 < 12500000 ∧ 12500000 ≤ since (atTick 12500000 s).clk 0
       ∧ max 1 (rf s.dev Reg.PAIR_MISMATCH_LIMIT 0 8) ≤ min 255 (rf (wr Reg.PAIR_MISMATCH_RUN 255 s.dev) Reg.PAIR_MISMATCH_RUN 0 8 + 1)
       ∧ (gridRegs (clocked s.dev)).ok = true) ∧
    (let s := paired { linked {} with inbox := [(4, leBytes 8 (2 ^ 17))] }
     s.dev.pair.inbox.find? (fun x => x.1 == 4) = some (4, leBytes 8 (2 ^ 17))
       ∧ fld (w64 (ofLe (leBytes 8 (2 ^ 17)))) 8 40 ≠ fld (rd64 s.dev Reg.PAIR_HEALTH_PARTNER_LO) 8 40
       ∧ fld (w64 (2 ^ 48 + 255)) 8 40 = fld (rd64 s.dev Reg.PAIR_HEALTH_PARTNER_LO) 8 40) := by decide +kernel

theorem witness_DigestsAndAdjudication_messages :
    (let m := (2, messageBytes 3 [w64 0, w64 65535, w64 (bnat true)])
     ([m] : List (Nat × List W8)).find? (fun x => x.1 == 2) = some m) ∧
    (let m := (2, messageBytes 2 [w64 (3 : Fin 4).val, (65535 : W16).setWidth 64, 0])
     ([m] : List (Nat × List W8)).find? (fun x => x.1 == 2) = some m ∧ ([] : List (Nat × List W8)).find? (fun x => x.1 == 2) ≠ some m) := by
  and_intros <;> first | rfl | (intro h; cases h)

/-- R288: a set's message and its records' order. -/
theorem test_digest_bytes : digestBytes pairSet = leBytes 8 0 ++ leBytes 8 (2 ^ 32 + 9) ++ leBytes 8 (2 ^ 63 + 2 ^ 32 + 7) := by decide +kernel
/-- R289: the standby unit whose slices fail goes to DEGRADED. -/
theorem test_adj_fail : (let d := after (.adjResult none) (atTick 12500000 (paired (linked { adj := some ⟨0, 1, 0, 0, true⟩ })))
    (d.pair.mode, rb d Reg.PAIR_EVENT 10)) = (.degraded, true) := by decide +kernel

theorem witness_OwnershipLine : ownershipKept State.reset ∧ step State.reset = .next State.reset := by
  constructor
  · exact ⟨by decide, fun _ => rfl⟩
  · rfl

/-! The host interface (R304 to R333). -/

/-- The row of the register at a place is an ordinary one. -/
def plainRow (a : Nat) (gk : Bool) (half : Half) : Bool :=
  (Reg.rowAt a).any fun r => decide (r.1.hook = .plain) && r.1.gk == gk && decide (r.1.half = half) && r.1.w != 0

/-- The indirect registers of the host select an address of a space. -/
def selecting (sel addr : Nat) (f : Dev → Dev := id) : State := host fun d => f (regs [(Reg.IND_SEL, w32 sel), (Reg.IND_ADDR, w32 addr)] d)

theorem witness_RegisterBus :
    ((0xFF : W32) &&& 0xFF00 = 0) ∧
    (let s := host id
     csrShut s.dev Reg.SEAL_MASK = false ∧ (Reg.rowAt 0xFFFFFC).isNone = true ∧ plainRow Reg.PAIR_HB_CFG false .none = true
       ∧ plainRow Reg.SEAL_MASK true .none = true ∧ lcCloses s.dev Reg.SEAL_MASK 0 = false ∧ armed s.dev .host = false
       ∧ armed (setArmed .host true s.dev) .host = true ∧ plainRow Reg.WEEVIL_CTL true .none = true
       ∧ lcCloses { s.dev with scarab := { s.dev.scarab with lc := .deployed } } Reg.WEEVIL_CTL 0 = true
       ∧ plainRow (Reg.DMA_BASE_LO 0) false .lo = true ∧ plainRow (Reg.DMA_BASE_LO 0 + 4) false .hi = true ∧ stagedLo s.dev .host (Reg.DMA_BASE_LO 0) = none
       ∧ stagedLo { s.dev with bus := { s.dev.bus with staged := [⟨.host, Reg.DMA_BASE_LO 0, 7⟩] } } .host (Reg.DMA_BASE_LO 0) = some 7
       ∧ halfAt .lo Reg.SEAL_MASK = false ∧ halfAt .hi Reg.SEAL_MASK = false) ∧
    (csrShut (wr Reg.SYS_RESET_CAUSE 4 (host id).dev) Reg.SEAL_MASK = true) ∧
    (indKnown (selecting 4 0x3FFC).dev .host = true ∧ indKnown (selecting 4 0x10000).dev .host = false ∧ indKnown (selecting 0 0).dev .host = false
      ∧ indKnown (selecting 5 0xFFFC).dev .host = true ∧ (selecting 4 0).dev.scarab.lc = .blank ∧ indKnown (selecting 1 0).dev .host = true
      ∧ plainRow (1 * 2 ^ 24 + 0x14) false .none = true ∧ indKnown (selecting 1 0x14).dev .host = true ∧ csrShut (selecting 4 0).dev Reg.IND_DATA = false) := by decide +kernel

/-- The worked example of the guard: a write of TB_CTL with no unlock. -/
theorem test_deny : rd (after (.csrWrite .fw 0x10000 1 true) (host id)) Reg.GUARD_DENY_INFO = 0x90010000 := by decide +kernel
/-- R310: a pair takes effect with its upper half. -/
theorem test_pair : (let a := BitVec.ofNat 24 (Reg.DMA_BASE_LO 0)
    let s : State := host fun d => { d with bus := { d.bus with staged := [⟨.host, Reg.DMA_BASE_LO 0, 0x40⟩] } }
    (rd64 (after (.pairHiWrite .host (a + 4) 1) s) (Reg.DMA_BASE_LO 0), rd64 (after (.pairLoWrite .host a 1) s) (Reg.DMA_BASE_LO 0)))
    = (0x100000040, 0) := by decide +kernel

theorem witness_GuardAndSeal :
    (let s : State := host (setArmed .fw true)
     csrShut s.dev Reg.GUARD_UNLOCK = false ∧ (0x7EA5C0DF : W32) ≠ 0x7EA5C0DE ∧ armed s.dev .fw = true ∧ since (atTick 5119 s).clk 0 < 5120
       ∧ 5120 ≤ since (atTick 5120 s).clk 0 ∧ armed s.dev .host = false ∧ csrShut s.dev Reg.SEAL_CAPTURE = false
       ∧ rb s.dev Reg.GUARD_EVENT 1 = false ∧ sameCycle s.clk s.dev.bus.denyClear = false ∧ sameCycle s.clk (some 4) = true) ∧
    (rd (host id).dev Reg.SEAL_MASK ≠ 0 ∧ rd (host (wr Reg.SEAL_MASK 0)).dev Reg.SEAL_MASK = 0
      ∧ rb (host (wr Reg.SEAL_CTL 1)).dev Reg.SEAL_CTL 0 = true ∧ (host id).dev.bus.sealRun.capture = false
      ∧ ({ capture := true, fresh := true } : Seal).capture = true) ∧
    (rb (host (wr Reg.SEAL_MASK 0x1FFFE)).dev Reg.SEAL_MASK 0 = false ∧ rb (host id).dev Reg.SEAL_MASK 1 = true ∧ rb (host id).dev Reg.SEAL_MASK 10 = true) := by
  decide +kernel

/-- One bit of the mask alone. -/
theorem witness_GuardAndSeal_mask : ∀ n < 17, rb (host (wr Reg.SEAL_MASK (w32 (2 ^ n)))).dev Reg.SEAL_MASK n = true
    ∧ rb (host (wr Reg.SEAL_MASK (w32 (0x1FFFF - 2 ^ n)))).dev Reg.SEAL_MASK n = false := by decide +kernel

/-- A pass with unchanged registers reads the bits that stand there. -/
theorem witness_GuardAndSeal_unchanged (a : Nat) : (let d := State.reset.dev
    let e : Dev := { d with bus := { d.bus with sealRun := { d.bus.sealRun with start := d.regs } } }
    Tab.get (Reg.resetOf a) e.bus.sealRun.start a &&& sealedBits e a = rd e a &&& sealedBits e a) := rfl

/-- A queue of one spilled block, its caddy at the start of DRAM. -/
def caddy : Queue := { enabled := true, spill := 16, base := dramBase, held := 8 }

/-- An entry of one byte repeated. -/
def entryOf (b : W8) : List W8 := List.replicate 32 b

/-- The state after reset with queue 5. -/
def queueing (x : Queue) (f : Dev → Dev := id) : State := host fun d => f (setQueue 5 x d)

theorem witness_CaddyQueues :
    (csrShut (host id).dev Reg.QUE_PUSH_CMD = false ∧ csrShut (host id).dev Reg.QUE_POP_CMD = false ∧ csrShut (host id).dev (Reg.QUE_CFG 5) = false
      ∧ (queue (host id).dev 5).enabled = false) ∧
    (caddy.enabled = true ∧ caddy.depth < caddy.capacity ∧ caddy.capacity = 48 ∧ ({ caddy with held := 16, head := List.replicate 16 [], tail := List.replicate 16 [] } : Queue).depth = 48) ∧
    (caddy.head = [] ∧ 0 < caddy.held ∧ ({ enabled := true } : Queue).head = [] ∧ ({ enabled := true } : Queue).held = 0
      ∧ ({ enabled := true, head := [entryOf 1] } : Queue).head = entryOf 1 :: []) ∧
    (let x := { caddy with tail := List.replicate 8 (entryOf 2) }
     8 ≤ x.tail.length ∧ x.held + 8 ≤ x.spill ∧ ¬ (x.held = 0 ∧ x.head.length < 16)) ∧
    (caddy.head.length ≤ 8 ∧ uncorrectable (queueing caddy).dev (caddy.base + caddy.first % caddy.spill * 32) 256 = false
      ∧ uncorrectable (queueing caddy fun d => { d with ecc := [(dramBase / 8, .multi)] }).dev (caddy.base + caddy.first % caddy.spill * 32) 256 = true
      ∧ caddy.popWait = [] ∧ ({ caddy with popWait := [.fw] } : Queue).popWait = [.fw]) ∧
    (let d := (queueing {} (fun d => regs [(Reg.QUE_BASE_LO 5, w32 dramBase), (Reg.QUE_BASE_LO 5 + 4, w32 (dramBase / 2 ^ 32))] d)).dev
     let base := (rd64 d (Reg.QUE_BASE_LO 5)).toNat % 2 ^ 48
     bit (0x80000004 : W32) 31 = true ∧ base % 4096 = 0 ∧ inDram d base (2 ^ min 24 (max 4 (fld (0x80000004 : W32) 0 5)) * 32) = true
       ∧ inDram (host id).dev 0 512 = false ∧ bit (0 : W32) 31 = false ∧ (1023 : Nat) < 1024) := by decide +kernel

theorem witness_CaddyQueues_ok : caddy.ok (queueing caddy).dev ∧ ({ caddy with tail := List.replicate 8 (entryOf 2) } : Queue).ok (queueing caddy).dev := by
  refine ⟨⟨by simp [caddy], by decide, by decide, by decide, by decide, fun _ => by decide +kernel⟩,
    ⟨fun e he => ?_, by decide, by decide, by decide, by decide, fun _ => by decide +kernel⟩⟩
  simp [caddy] at he
  subst he
  decide

/-- R323: a push is taken, a pop of an empty queue reports EMPTY. -/
theorem test_queue : (rd (after (.quePush .host 5) (queueing { enabled := true })) Reg.QUE_PUSH_STATUS,
    rd (after (.quePop .fw 5) (queueing { enabled := true })) (ownOf .fw Reg.QUE_POP_STATUS)) = (1, 3) := by decide +kernel

/-- A descriptor of DMA channel 0, at the start of DRAM: SRC, DST and its control word. -/
def moving (src dst ctl : Nat) (f : Dev → Dev := id) : State :=
  host fun d => f (wr (Reg.DMA_TAIL 0) 1 (putBytes dramBase (leBytes 8 src ++ leBytes 8 dst ++ leBytes 8 ctl)
    (setDmaChan 0 { enabled := true, base := dramBase } d)))

theorem witness_DmaAndAbort :
    (csrShut (host id).dev (Reg.DMA_CTL 0) = false ∧ csrShut (host id).dev (Reg.DMA_TAIL 0) = false ∧ (dmaChan (host id).dev 0).enabled = false
      ∧ inShared (host id).dev 0 (2 ^ 4 * 32) = false ∧ inShared (host id).dev dramBase (2 ^ 16 * 32) = true ∧ bit (0x80000000 : W32) 31 = true
      ∧ dmaDesc (host id).dev 0 = none) ∧
    (let s := moving 0 (dramBase + 4096) (2 ^ 29 + 4)
     dmaDesc s.dev 0 = some dramBase ∧ protects s.dev = false ∧ uncorrectable s.dev dramBase 24 = false ∧ (dmaChan s.dev 0).log2 ≤ 16
       ∧ (getBytes s.dev dramBase 24).length = 24 ∧ ofLe (slice (getBytes s.dev dramBase 24) 16 8) = 2 ^ 29 + 4
       ∧ inShared s.dev (dramBase + 4096) 4 = true ∧ (∀ w ∈ wordsOf dramBase 32, errOf s.dev w = .none)
       ∧ (∀ w ∈ wordsOf (dramBase + 4096) 4, errOf s.dev w = .none) ∧ (dramBase + 32 ≤ dramBase + 4096)) ∧
    (let d := (moving 0 0 0).dev
     ofLe (slice (getBytes d dramBase 24) 16 8) % 2 ^ 24 = 0
       ∧ uncorrectable { d with ecc := [(dramBase / 8, .multi)] } dramBase 24 = true) ∧
    (let bad := (moving 0 0 (3 * 2 ^ 30 + 1)).dev
     let far := (moving 0 0 1).dev
     let copy := (moving dramBase (dramBase + 4096) (2 ^ 31 + 4)).dev
     ofLe (slice (getBytes bad dramBase 24) 16 8) / 2 ^ 30 % 4 = 3 ∧ inShared far 0 1 = false ∧ ofLe (slice (getBytes copy dramBase 24) 16 8) / 2 ^ 30 % 4 = 2
       ∧ ofLe (slice (getBytes (moving dramBase 0 (2 ^ 30 + 4)).dev dramBase 24) 16 8) / 2 ^ 30 % 4 = 1 ∧ dramBase + 4 ≤ dramBase + 4096) ∧
    (let s := moving 0 0 1 (setArmed .host true)
     csrShut s.dev Reg.SYS_ABORT = false ∧ armed s.dev .host = true ∧ s.dev.abort = none ∧ abortKnown .host s.dev 5 0 = true ∧ abortIdle s.dev 5 0 = false
       ∧ abortIdle s.dev 5 15 = true ∧ abortKnown .host s.dev 5 16 = false ∧ ({ s.dev with abort := some ⟨5, 0, 0⟩ } : Dev).abort = some ⟨5, 0, 0⟩
       ∧ armed s.dev .fw = false) ∧
    (let s := host fun d => setDmaChan 0 { enabled := true, base := dramBase } (setArmed .host true d)
     abortIdle s.dev 5 0 = false ∧ abortRests s.dev 5 0 = true ∧ abortRests (moving 0 0 1).dev 5 0 = false
       ∧ abortRests (host id).dev 8 4095 = true ∧ abortRests (host (wr Reg.PACK_CTL 0)).dev 9 0 = true ∧ abortRests (host id).dev 10 3 = true) ∧
    ([(1, 0x78), (2, 0x18), (3, 63), (4, 15), (5, 15), (6, 3), (7, 7), (8, 4095), (9, 1), (10, 3), (11, 0)].all fun x => abortKnown .fw (host id).dev x.1 x.2) = true := by
  decide +kernel

/-- Something to abort for each function, whose abort then runs. -/
theorem witness_DmaAndAbort_busy :
    (abortIdle (described 0 dramBase 0 (2 ^ 31 + 60)).dev 1 0 = false ∧ abortIdle (onWire 8 (upPort.setRing 0 { enabled := true })).dev 2 0 = false
      ∧ abortIdle (arriving rxRing 0).dev 3 0 = false ∧ abortIdle (onWire 8 { upPort with rxRings := [(0, rxRing)] }).dev 4 0 = false
      ∧ abortIdle (heads (atLine 0)).dev 6 0 = false ∧ abortIdle (host (wr Reg.PACK_CTL 1)).dev 9 0 = false
      ∧ abortIdle (host (wr (Reg.RHEAD_OUT_CTL 3) 2)).dev 9 1 = false ∧ abortIdle (paired (linked {})).dev 11 0 = false
      ∧ abortIdle (host (setFlow 4095 { enabled := true })).dev 8 4095 = false) := by decide +kernel

/-- Swarm 7 holds a running brew and an entry. -/
def swarm7 (f : Dev → Dev := id) : State := host fun d => f (setArmed .host true (setBrew 952 (some { brew with flow := some 3 })
  (setSteep 7 { entries := [{ entry0 false with flow := some 3 }] } d)))

theorem witness_DmaAndAbort_swarm :
    (let s := swarm7
     csrShut s.dev Reg.SYS_ABORT = false ∧ armed s.dev .host = true ∧ s.dev.abort = none ∧ (7 : W16).toNat < 8 ∧ abortIdle s.dev 7 7 = false
       ∧ abortIdle s.dev 7 6 = true ∧ slotSwarm 952 = 7 ∧ slotSwarm 951 ≠ 7 ∧ (brewAt s.dev 952).map (·.flow) = some (some 3)
       ∧ (steepOf s.dev 7).entries.map (·.flow) = [some 3]) := by decide +kernel

/-- R110: the abort ends the swarm's brews and entries, and leaves tombstones of both. -/
theorem test_abort_swarm : (let d := swarmAbort 7 (swarm7).dev
    (brewAt d 952, (steepOf d 7).entries, d.arr.tombs)) = (none, [], [(3, 0), (3, 0)]) := by decide +kernel

/-- R328: four bytes of the host arrive, and the descriptor is written back OK. -/
theorem test_dma : (let d := after (.dmaDescDone 0 [1, 2, 3, 4] none) (moving 0 (dramBase + 4096) (2 ^ 29 + 4))
    (getBytes d (dramBase + 4096) 4, ofLe (getBytes d (dramBase + 24) 8), rb d Reg.DMA_EVENT 0)) = ([1, 2, 3, 4], 2 ^ 63 + 4, true) := by decide +kernel

/-! Weevil and path calibration (R334 to R358). -/

/-- A slice of a type and target on runner 0. -/
def slicing (kind target : Nat) (f : Dev → Dev := id) (waits : Bool := false) : State :=
  host fun d => f { d with weevil := { d.weevil with runners := [(0, some ⟨kind, target, 100, .service, 0, waits⟩)] } }

/-- The device's lifecycle state set. -/
def inState (lc : Lifecycle) (d : Dev) : Dev := { d with scarab := { d.scarab with lc } }

theorem witness_WeevilSlices :
    (let s := host fun d => setArmed .host true (inState .provisioned d)
     csrShut s.dev (Reg.WEEVIL_RUN 0) = false ∧ s.dev.scarab.lc ≠ .deployed ∧ armed s.dev .host = true ∧ (inState .deployed s.dev).scarab.lc = .deployed
       ∧ runner s.dev 0 = none ∧ bit (0x80012000 : W32) 31 = true ∧ (runner (slicing 1 0x2000).dev 0).isSome = true
       ∧ sliceApplies s.dev 1 0x2000 = true ∧ sliceApplies s.dev 1 0x2088 = false ∧ sliceApplies s.dev 7 0x6000 = true
       ∧ ({ s.dev with sys := { s.dev.sys with tapHeld := true } } : Dev).sys.tapHeld = true ∧ (targetMark s.dev 0x2000).mark ≤ 2) ∧
    (let s := host (inState .deployed)
     serviceMay s.dev 2 = true ∧ serviceFits s.dev s.clk 1 0x1000 = true ∧ s.dev.weevil.marks = [] ∧ serviceFits s.dev s.clk 2 0x3000 = true) ∧
    (let s := heads { atLine 45 with vsync := 0 }
     let t := timing
     (head s.dev 0).running = true ∧ (head s.dev 0).timing = some t ∧ serviceFits s.dev s.clk 2 0x3000 = true
       ∧ scanOpens s.dev (head s.dev 0) t = lineAt (rateGrid s.dev) t 3) ∧
    (let s := host fun d => { inState .deployed d with weevil := { d.weevil with adj := [(8, 0x7010, 0), (1, 0x0FFF, 0)] } }
     s.dev.weevil.adj = (8, 0x7010, 0) :: [(1, 0x0FFF, 0)] ∧ adjRunner s.dev = some 3 ∧ placeFits s.dev s.clk 8 0x7010 = true
       ∧ sliceApplies s.dev 8 0x7010 = true ∧ sliceApplies s.dev 1 0x0FFF = false ∧ placeFits (heads (atLine 10)).dev s.clk 8 0x7020 = false) ∧
    (let s := slicing 1 0x2000
     runner s.dev 0 = some ⟨1, 0x2000, 100, .service, 0, false⟩ ∧ since (atTick 124999 s).clk 0 < 100 * 1250 ∧ 100 * 1250 ≤ since (atTick 125000 s).clk 0
       ∧ (targetMark s.dev 0x2000).mark ≤ 2 ∧ (runner (slicing 3 0x4000).dev 0).any (fun x => x.kind == 3) = true
       ∧ (runner (slicing 3 0x4000 id true).dev 0).any Slice.waits = true ∧ runner s.dev 1 = none
       ∧ 100 * 1250 < since (atTick 125001 s).clk 0 ∧ 16 - Tab.get 0 s.dev.weevil.bondUsed 0 < (17 : W16).toNat) ∧
    (let s := host (setArmed .fw true)
     csrShut s.dev (Reg.SWARM_SPARE_CMD 7) = false ∧ s.dev.scarab.lc ≠ .deployed ∧ armed s.dev .fw = true ∧ bit (0x8000000F : W32) 31 = true
       ∧ spareFree s.dev 7 = true ∧ fld (0x8000000F : W32) 0 5 < 16 ∧ ¬ fld (0x80000010 : W32) 0 5 < 16) ∧
    (let s := slicing 1 0x105F
     (List.range 4).find? (fun r => (runner s.dev r).any fun x => !x.waits && x.target == 0x1000 + 95) = some 0
       ∧ (∀ r < 4, ((runner s.dev r).any fun x => !x.waits && x.target == 0x1000 + 94) = false) ∧ unusable s.dev 0x105E = false
       ∧ unusable { s.dev with weevil := { s.dev.weevil with marks := [(0x105E, { mark := 2 })] } } 0x105E = true) := by decide +kernel

/-- A slice on runner 2 waits for the target of runner 0. -/
theorem witness_WeevilSlices_waits :
    let y : Slice := ⟨3, 0x4000, 100, .host, 0, true⟩
    let s := slicing 3 0x4000 fun d => { d with weevil := { d.weevil with runners := d.weevil.runners ++ [(2, some y)] } }
    runner s.dev 0 = some ⟨3, 0x4000, 100, .service, 0, false⟩ ∧ runner s.dev 2 = some y ∧ y.waits = true ∧ y.target = 0x4000
      ∧ runner s.dev 1 = none ∧ runner s.dev 3 = none ∧ 100 * 1250 ≤ since (atTick 125000 s).clk 0 ∧ (targetMark s.dev 0x4000).mark = 0 := by
  decide +kernel

/-- The first request of the queue waits for its head, the second fits. -/
theorem witness_WeevilSlices_behind :
    let x : Nat × Nat × W64 := (8, 0x7020, 0)
    let s := heads (atLine 10) (f := fun d => { inState .deployed d with weevil := { d.weevil with adj := [x, (8, 0x7030, 1)] } })
    s.dev.weevil.adj = [x] ++ (8, 0x7030, 1) :: [] ∧ (∀ y ∈ [x], placeFits s.dev s.clk y.1 y.2.1 = false) ∧ adjRunner s.dev = some 3
      ∧ placeFits s.dev s.clk 8 0x7030 = true ∧ sliceApplies s.dev 8 0x7030 = true := by decide +kernel

/-- A host's LANE slice of a lane whose path is being measured, and slices that end with errors. -/
theorem witness_WeevilSlices_lanes :
    (let s : State := host fun d => setArmed .host true (setCalPath 0 { measuring := true } (setPort 0 upPort (inState .provisioned d)))
     csrShut s.dev (Reg.WEEVIL_RUN 0) = false ∧ armed s.dev .host = true ∧ s.dev.scarab.lc ≠ .deployed ∧ bit (0x80045000 : W32) 31 = true
       ∧ runner s.dev 0 = none ∧ sliceApplies s.dev 4 0x5000 = true ∧ sliceApplies s.dev 5 0x5000 = true ∧ 0x5000 % 4096 < 8
       ∧ (calPath s.dev 0).measuring = true ∧ 0x5000 % 4096 ∈ pathLanes 0 ∧ (port s.dev 0).link = true) ∧
    (let s := slicing 4 0x5000
     runner s.dev 0 = some ⟨4, 0x5000, 100, .service, 0, false⟩ ∧ 4 ∈ [4, 5, 7] ∧ (1 : W16) ≠ 0 ∧ 4 < (5 : W16).toNat
       ∧ (targetMark s.dev 0x5000).mark ≤ 2 ∧ since s.clk 0 ≤ 100 * 1250) := by decide +kernel

/-- Start-up waits for a runner, waits for a target, and goes on. -/
theorem witness_WeevilSlices_startup :
    let wait (l : List (Nat × Option Slice)) : Dev := (host fun d => { d with sys := { d.sys with startReports := some [] }, weevil := { d.weevil with runners := l } }).dev
    let y (target : Nat) : Option Slice := some ⟨3, target, 100, .host, 0, false⟩
    (host id).dev.sys.startReports = none ∧ (wait []).sys.startReports = some []
      ∧ (∀ r < 4, (runner (wait [(0, y 0x4000), (1, y 0x4001), (2, y 0x4002), (3, y 0x4003)]) r).isSome = true)
      ∧ runner (wait [(0, y 0x5000)]) 0 = y 0x5000 ∧ 0x5000 / 4096 = 5 ∧ runner (wait [(2, y 0x6000)]) 2 = y 0x6000 ∧ 0x6000 / 4096 = 6
      ∧ (runner (wait [(0, y 0x4000)]) 0).isSome = true ∧ runner (wait [(0, y 0x4000)]) 1 = none
      ∧ (∀ r < 4, ∀ x ∈ runner (wait [(0, y 0x4000)]) r, x.target / 4096 ≠ 5 ∧ x.target / 4096 ≠ 6) := by decide +kernel

/-- R338: FAIL makes a firefly UNUSABLE, and the spare takes its place. -/
theorem test_slice_fail : (let d := after (.sliceEnd 0 false 0 1 0) (slicing 1 0x2000)
    ((targetMark d 0x2000).mark, rd d (Reg.SWARM_SPARE_STATUS 0))) = (2, 0x80000001) := by decide +kernel
/-- R342's worked example: a slice of 12 µs starts at −41.667 + 12i µs for i up to 8, when the back porch begins at +69.444 µs. -/
theorem test_blanking : (let s := heads { atLine 45 with vsync := 69444 * ns1 - lineAt (rateGrid (host id).dev) timing 3 }
    (blankingFits s.dev (showAt (-41667 + 96000) s).clk 12, blankingFits s.dev (showAt (-41667 + 108000) s).clk 12)) = (true, false) := by decide +kernel

/-- Path 0 is measured, on a port that is enabled. -/
def calibrating (x : CalPath := {}) (f : Dev → Dev := id) : State :=
  host fun d => f (setCalPath 0 { x with measuring := true } (setPort 0 upPort d))

theorem witness_PathCalibration :
    (csrShut (host id).dev Reg.CAL_CMD = false ∧ (calPath (host id).dev 25).measuring = false ∧ (host id).dev.calib.storing = false
      ∧ (host id).dev.calib.asked = false ∧ (host fun d => { d with calib := { d.calib with asked := true } }).dev.calib.asked = true
      ∧ (storeStart (host id).dev).calib.storing = true) ∧
    (let s := atTick 1250000000 (host (regs [(Reg.CAL_CTL, 0x80000000), (Reg.CAL_PERIOD, 1)]))
     rb s.dev Reg.CAL_CTL 31 = true ∧ rf s.dev Reg.CAL_PERIOD 0 16 ≠ 0 ∧ rf s.dev Reg.CAL_PERIOD 0 16 * 1250000000 ≤ since s.clk s.dev.calib.roundTick) ∧
    (let s := host fun d => regs [(Reg.CAL_CTL, 0x80000001), (Reg.CAL_PERIOD, 0), (Reg.SYS_TEMP 10, 17)] (setCalPath 0 { inForce := [⟨3, 5, 0, 0⟩] } d)
     rb s.dev Reg.CAL_CTL 31 = true ∧ rf s.dev Reg.CAL_PERIOD 0 16 = 0 ∧ lastValue (calPath s.dev 0) = some ⟨3, 5, 0, 0⟩
       ∧ 16 * max 1 (rf s.dev Reg.CAL_CTL 0 8) < (pathTemp s.dev 0 - 0).natAbs) ∧
    (let s := calibrating
     (calPath s.dev 0).measuring = true ∧ pathLooped s.dev 0 = false ∧ pathSignal s.dev 0 = true ∧ pathSignal (setPort 0 {} s.dev) 0 = false
       ∧ (calPath s.dev 0).spoiled = false ∧ (calPath (calibrating { spoiled := true }).dev 0).spoiled = true
       ∧ (calPath s.dev 1).measuring = false ∧ rb (wr Reg.CAL_CTL 0x40000000 s.dev) Reg.CAL_CTL 30 = true ∧ (∀ q < 26, q ≠ 0 → (calPath s.dev q).measuring = false)) ∧
    (let s := showAt 34000000 (calibrating {} clocked)
     nextBoundary s.clk s.dev = some (2, (gridRegs s.dev).at 2) ∧ s.dev.frm.run = some (gridRegs s.dev) ∧ (gridRegs s.dev).at 2 ≤ now s.clk) ∧
    ((acceptedValues (setCalPath 0 { inForce := [⟨3, 981428, 888, 0⟩] } (host id).dev)) = [(0, ⟨3, 981428, 888, 0⟩)]
      ∧ (acceptedValues (host id).dev).length ≤ 128) ∧
    (let d := setCalPath 0 { mode := 3, inForce := [⟨3, 981428, 888, 0⟩], factory := false } (host id).dev
     measuredFor d 0 = some ⟨3, 981428, 888, 0⟩ ∧ measuredFor d 1 = none ∧ (calPath (setCalPath 0 { factory := true } d) 0).factory = true) := by decide +kernel

/-- Path 0's lane is looped, a measurement spoiled, and start-up's own measurement, of which one path is left or two. -/
theorem witness_PathCalibration_startup :
    (let s := calibrating {} fun d => { d with weevil := { d.weevil with runners := [(0, some ⟨4, 0x5000, 100, .host, 0, false⟩)] } }
     pathLooped s.dev 0 = true ∧ (calPath s.dev 0).measuring = true ∧ pathLooped (calibrating { spoiled := true }).dev 0 = false) ∧
    (let s := calibrating {} fun d => { d with calib := { d.calib with starting := true } }
     s.dev.calib.starting = true ∧ (calPath s.dev 0).measuring = true ∧ pathLooped s.dev 0 = false ∧ (calPath s.dev 0).spoiled = false
       ∧ (∀ q < 26, q ≠ 0 → (calPath s.dev q).measuring = false) ∧ (calPath (setCalPath 3 { measuring := true } s.dev) 3).measuring = true) := by decide +kernel

/-- R380: CAL_DONE and READY stand once the last path that start-up measures has ended. -/
theorem test_startup_measured : (let d := after (.calMeasurementEnd 0 980248 888 982608 888) (calibrating {} fun d => { d with calib := { d.calib with starting := true } })
    (rb d Reg.SYS_STARTUP_STATUS 8, rb d Reg.SYS_STARTUP_STATUS 31, d.calib.starting)) = (true, true, false) := by decide +kernel

/-- A bad factory region gives no correction, and two measurements are judged as they are. -/
theorem witness_PathCalibration_factory : factoryOk (host id).dev = false ∧
    (let x := 480 * ((980248 : BitVec 32).toInt) + 0 - 0; (x - 480 * ((982608 : BitVec 32).toInt)).natAbs ≤ 150 * 16 * 480) ∧
    ¬ (480 * ((980248 : BitVec 32).toInt) - 480 * ((982649 : BitVec 32).toInt)).natAbs ≤ 150 * 16 * 480 := by
  refine ⟨?_, by decide, by decide⟩
  have h : mramNum (host id).dev 0 4 = 0 := by decide +kernel
  simp [factoryOk, h]

/-- R348's worked example, its first measurement referred to 55.5 °C. -/
theorem test_measurement : (calPath (after (.calMeasurementEnd 0 980248 888 982608 888) (calibrating)) 0).next.map (fun v => (v.value, v.temp))
    = [(981428, 888)] := by decide +kernel

/-! Scarab (R359 to R375). What a signature, a certificate or an attestation verifies to is open in the model (Config): where a statement's
premise is such a check, the witness meets every other one beside it. -/

/-- The state after reset with Scarab's state changed, and an unlock of the host. -/
def scarabed (x : Scarab) (f : Dev → Dev := id) : State := host fun d => f (setArmed .host true { d with scarab := x })

/-- A window of 64 KiB at the start of DRAM. -/
def window (phase : PkgPhase) : Scarab := { lc := .deployed, phase, base := dramBase, size := 65536 }

theorem witness_LifecycleAndPackages :
    (csrShut (host id).dev Reg.SCARAB_LC_CMD = false ∧ csrShut (host id).dev Reg.SCARAB_SVN_CMD = false ∧ csrShut (host id).dev Reg.SCARAB_PKG_CMD = false
      ∧ armed (scarabed {}).dev .host = true ∧ armed (scarabed {}).dev .fw = false) ∧
    (let d (lc : Lifecycle) (held : Option W32) := (scarabed { lc, held }).dev
     (d .provisioned none).scarab.move = none ∧ lcPermits none (d .provisioned none) .deployed = true ∧ lcPermits none (d .diagnostic none) .deployed = true
       ∧ lcPermits (some 0x10) (d .deployed (some 0x10)) .diagnostic = true ∧ lcPermits (some 0x20) (d .deployed (some 0x20)) .retired = true
       ∧ lcPermits none (d .deployed none) .retired = false ∧ lcPermits none (d .retired none) .deployed = false) ∧
    (let x : Scarab := { window .opened with move := some .retired }
     x.move = some .retired ∧ x.phase ≠ .closed ∧ (scarabed x).dev.scarab.move ≠ none ∧ ({ x with phase := .closed } : Scarab).phase = .closed ∧ (scarabed { lc := .provisioned, move := some .deployed }).dev.scarab.move = some .deployed) ∧
    (let x : Scarab := { lc := .provisioned, svn := 3, runningSvn := 7 }
     x.lc ≠ .blank ∧ x.lc ≠ .retired ∧ x.svn ≤ 7 ∧ (7 : W16) ≤ x.runningSvn ∧ (2 : W16) < x.svn ∧ x.runningSvn < 8) ∧
    (let s := scarabed (window .opened)
     s.dev.scarab.lc = .deployed ∧ s.dev.scarab.phase = .opened ∧ ({ lc := .deployed } : Scarab).phase = .closed
       ∧ (scarabed (window (.failing 2))).dev.scarab.phase = .failing 2 ∧ (scarabed (window (.zeroing (some 10)))).dev.scarab.phase = .zeroing (some 10)
       ∧ (scarabed (window .opening)).dev.scarab.phase = .opening ∧ (scarabed (window (.stopping true none))).dev.scarab.phase = .stopping true none
       ∧ (scarabed (window (.stopping false (some 10)))).dev.scarab.phase = .stopping false (some 10)
       ∧ (let x : Scarab := { window (.zeroing none) with lc := .provisioned, granting := 2 }; x.granting ≠ 0 ∧ x.lc ≠ .deployed)) ∧
    (let s := scarabed {} fun d => wr Reg.SYS_STARTUP_STATUS 0x10 (setErr (dramBase / 8) .multi d)
     dramReady s.dev = true ∧ protects s.dev = false ∧ uncorrectable s.dev dramBase 1 = true) ∧
    (let s := scarabed (window .opened) (wr Reg.SYS_STARTUP_STATUS 0x10)
     protects s.dev = true ∧ dramBase + 65535 < s.dev.scarab.base + s.dev.scarab.size ∧ s.dev.scarab.base < dramBase + 65535 + 8
       ∧ 65535 + 8 ≤ dramSize s.dev ∧ dramSize s.dev < 2 ^ 36 - 1 + 2 ∧ dramReady s.dev = true ∧ dramReady (host id).dev = false
       ∧ (∀ w ∈ wordsOf (dramBase + 65535) 8, errOf s.dev w = .none) ∧ ¬ dramBase + 65536 < s.dev.scarab.base + s.dev.scarab.size) := by decide +kernel

/-- The move to PROVISIONED needs its certificate alone. -/
theorem witness_LifecycleAndPackages_certificate (h : Config.certSubject (certBytes (scarabed {}).dev) = dikPub (scarabed {}).dev)
    (c : Config.chainOk (certBytes (scarabed {}).dev) Config.rootHash = true) : lcPermits none (scarabed {}).dev .provisioned = true := by
  show (Config.certSubject (certBytes (scarabed {}).dev) == dikPub (scarabed {}).dev && Config.chainOk (certBytes (scarabed {}).dev) Config.rootHash) = true
  rw [h, c, Bool.and_true]
  exact beq_self_eq_true _

/-- R367's worked example: a payload of 125,829,120 bytes needs 1,920 blocks of 64 KiB, and a package of 125,829,528 bytes. -/
theorem test_package : 296 + 125829120 + 112 = 125829528 ∧ 0x07800000 = 1920 * 65536 ∧ 125829120 ≤ 0x07800000 := by decide
/-- R368: reads of the window give zero and are counted. -/
theorem test_protected : (let d := after (.dramWindowAccess false 0 1 []) (scarabed (window .opened) fun d =>
    wr Reg.SYS_STARTUP_STATUS 0x10 (putBytes dramBase [7] d)); (d.bus.win, rd d Reg.SCARAB_PROT_DENY_COUNT)) = ([0], 1) := by decide +kernel

theorem witness_KeysSessionsTokens :
    (csrShut (host id).dev Reg.SCARAB_PIN_CMD = false ∧ csrShut (host id).dev Reg.SCARAB_PAIR_CMD = false ∧ csrShut (host id).dev Reg.SCARAB_SESS_CMD = false
      ∧ csrShut (host id).dev Reg.SCARAB_CHAL_CMD = false ∧ csrShut (host id).dev Reg.SCARAB_TOKEN_CMD = false ∧ armed (scarabed {}).dev .host = true) ∧
    (let s := scarabed { lc := .provisioned } (wr Reg.SCARAB_PIN_IDX 8)
     rf s.dev Reg.SCARAB_PIN_IDX 0 4 = 8 ∧ s.dev.scarab.lc = .provisioned ∧ rf (wr Reg.SCARAB_PIN_IDX 9 s.dev) Reg.SCARAB_PIN_IDX 0 4 = 9
       ∧ rf (scarabed {}).dev Reg.SCARAB_PIN_IDX 0 4 < 8) ∧
    (let s := scarabed { lc := .deployed } fun d => { d with pair := linked {} }
     s.dev.scarab.lc = .deployed ∧ roleOne s.dev = false ∧ s.dev.pair.trained = true ∧ (scarabed { lc := .deployed }).dev.pair.trained = false
       ∧ roleOne { s.dev with pair := { s.dev.pair with role := some true } } = true ∧ mayForm s.dev = true ∧ mayForm (scarabed {}).dev = false
       ∧ (scarabed { forming := 1 }).dev.scarab.forming = 1 ∧ (scarabed { forming := 2 }).dev.scarab.forming = 2) ∧
    (let s := scarabed { lc := .provisioned, sessions := [(15, some { sent := 9 })] }
     s.dev.scarab.lc ≠ .blank ∧ s.dev.scarab.lc ≠ .retired ∧ Tab.get none s.dev.scarab.sessions 15 = some { sent := 9 } ∧ Tab.get none s.dev.scarab.sessions 0 = none) ∧
    (let s := scarabed { chal := some 0 } (wr Reg.SCARAB_TOKEN_SCOPE 0x2)
     s.dev.scarab.chal = some 0 ∧ since (atTick 74999999999 s).clk 0 < 75000000000 ∧ 75000000000 ≤ since (atTick 75000000000 s).clk 0
       ∧ fld (rd s.dev Reg.SCARAB_TOKEN_SCOPE) 0 3 ≠ 0 ∧ ([0, 1, 2, 4, 5].filter (bit (rd s.dev Reg.SCARAB_TOKEN_SCOPE))).length = 1
       ∧ ([0, 1, 2, 4, 5].filter (bit (0x10 : W32))).length = 1 ∧ fld (0x10 : W32) 0 3 = 0 ∧ s.dev.scarab.lc ≠ .deployed ∧ s.dev.scarab.phase = .closed) := by decide +kernel

theorem witness_KeysSessionsTokens_messages (c : List W64) :
    (([(5, messageBytes 10 c)] : List (Nat × List W8)).find? (fun x => x.1 == 5) = some (5, messageBytes 10 c)) ∧
    (([(5, messageBytes 11 c)] : List (Nat × List W8)).find? (fun x => x.1 == 5) = some (5, messageBytes 11 c)) ∧
    (([(5, messageBytes 12 c)] : List (Nat × List W8)).find? (fun x => x.1 == 5) = some (5, messageBytes 12 c)) ∧
    (([] : List (Nat × List W8)).find? (fun x => x.1 == 5) ≠ some (5, messageBytes 12 c)) := by
  and_intros <;> first | rfl | (intro h; cases h)

/-- An attestation while the link is down, in COZY and in another state. -/
theorem witness_KeysSessionsTokens_cozy :
    (let s := scarabed { lc := .deployed, forming := 1 } fun d => { d with pair := linked {} }
     linkUp s.dev = false ∧ s.dev.pair.mode = .cozy ∧ s.dev.scarab.forming = 1 ∧ mayForm s.dev = true
       ∧ linkUp { s.dev with scarab := { s.dev.scarab with attested := true } } = true ∧ (paired { mode := .join }).dev.pair.mode ≠ .cozy) := by decide +kernel

/-- R362 and R370: pin 8 is not written outside PROVISIONED. -/
theorem test_pin : pinBytes (after (.pinWrite .host) (scarabed { lc := .blank } (regs [(Reg.SCARAB_PIN_IDX, 8), (Reg.SCARAB_PIN_DATA 0, 7)]))) 8
    = List.replicate 48 0 := by decide +kernel
/-- R369: without Cricket a formation fails. -/
theorem test_form : rb (after (.pairForm .host) (scarabed { lc := .provisioned })) Reg.SCARAB_EVENT 7 = true := by decide +kernel

/-! Resets, clocks, health, interrupts and the board (R376 to R393). -/

/-- The device with what is around it changed. -/
def around (x : Sys) (f : Dev → Dev := id) : State := host fun d => f { d with sys := x }

theorem witness_ResetsAndStartup :
    (csrShut (host id).dev Reg.SYS_RESET_CMD = false ∧ armed (host (setArmed .fw true)).dev .fw = true ∧ armed (host id).dev .host = false
      ∧ csrShut (host id).dev Reg.SYS_BOOT_CMD = false ∧ (∀ c < 16, dmaDesc (host id).dev c = none)) ∧
    (let s := scarabed (window .opened)
     s.dev.scarab.phase ≠ .closed ∧ s.dev.scarab.move = none ∧ lcWaits { s.dev.scarab with move := some .retired } = true ∧ s.dev.scarab.orderE = false ∧ rb (wr Reg.SYS_STARTUP_STATUS 2 s.dev) Reg.SYS_STARTUP_STATUS 1 = true) ∧
    ((∀ i ∈ [6, 10, 31], rb (host id).dev Reg.SYS_STARTUP_STATUS i = false) ∧ rb (host (wr Reg.SYS_STARTUP_STATUS 0x400)).dev Reg.SYS_STARTUP_STATUS 10 = true
      ∧ rf (host id).dev Reg.SYS_RESET_CAUSE 0 4 ≠ 4 ∧ rf (host (wr Reg.SYS_RESET_CAUSE 4)).dev Reg.SYS_RESET_CAUSE 0 4 = 4
      ∧ imageCheck 0 (flashImage []) = 1) ∧
    (let s := host (wr Reg.SYS_STARTUP_STATUS 0x43F)
     rb s.dev Reg.SYS_STARTUP_STATUS 5 = true ∧ rb s.dev Reg.SYS_STARTUP_STATUS 6 = false ∧ rb s.dev Reg.SYS_STARTUP_STATUS 31 = false
       ∧ imageCheck s.dev.scarab.svn (hostImage s.dev) ≠ 0 ∧ rb (host id).dev Reg.SYS_STARTUP_STATUS 5 = false) := by decide +kernel

/-- Host mode waits for SYS_BOOT_GO: with idle runners, with one on a lane, with all busy, and with signal on a path. -/
theorem witness_ResetsAndStartup_boot :
    let waiting (f : Dev → Dev) : State := host fun d => f (wr Reg.SYS_STARTUP_STATUS 0x43D d)
    let y (target : Nat) : Option Slice := some ⟨3, target, 100, .host, 0, false⟩
    let on (l : List (Nat × Option Slice)) (d : Dev) : Dev := { d with weevil := { d.weevil with runners := l } }
    let s := waiting id
    csrShut s.dev Reg.SYS_BOOT_CMD = false ∧ rb s.dev Reg.SYS_STARTUP_STATUS 10 = true ∧ rb s.dev Reg.SYS_STRAPS 0 = false
      ∧ rb s.dev Reg.SYS_STARTUP_STATUS 6 = false ∧ rb s.dev Reg.SYS_STARTUP_STATUS 31 = false ∧ (∀ r < 4, runner s.dev r = none)
      ∧ imageCheck s.dev.scarab.svn (hostImage s.dev) ≠ 0
      ∧ runner (waiting (on [(3, y 0x5007)])).dev 3 = y 0x5007 ∧ 0x5007 / 4096 = 5
      ∧ (∀ r < 4, (runner (waiting (on [(0, y 1), (1, y 2), (2, y 3), (3, y 4)])).dev r).isSome = true)
      ∧ rb s.dev Reg.CAL_CTL 31 = true ∧ s.dev.calib.starting = false ∧ rb (waiting (wr Reg.CAL_CTL 0)).dev Reg.CAL_CTL 31 = false
      ∧ (∀ p < 26, pathSignal s.dev p = false) ∧ pathSignal (waiting (setPort 0 upPort)).dev 0 = true
      ∧ rb (waiting (wr Reg.SYS_STRAPS 1)).dev Reg.SYS_STRAPS 0 = true
      ∧ (around { pcieDown := true }).dev.sys.pcieDown = true ∧ (host id).dev.sys.pcieDown = false := by decide +kernel

/-- R380: SYS_BOOT_GO with an image that fails leaves the boot wait. -/
theorem test_boot_fails : (let d := after (.sysBootGo .host []) (host (wr Reg.SYS_STARTUP_STATUS 0x43D))
    (rb d Reg.SYS_STARTUP_STATUS 5, rb d Reg.SYS_STARTUP_STATUS 30)) = (false, true) := by decide +kernel

theorem witness_ResetsAndStartup_phase : ∀ r, (scarabed (window .opened)).dev.scarab.phase ≠ .failing r := by intro r h; cases h

/-- R378: a SYSTEM reset keeps DRAM, and names its requester. -/
theorem test_reset : (let d := after (.sysResetSystem .fw) (host fun d => setArmed .fw true (putBytes dramBase [7] d))
    (getByte d dramBase, rd d Reg.SYS_RESET_CAUSE)) = (7, 0x103) := by decide +kernel

/-- Line 20 routed to vector 20, whose table entry lets it send; SPORT[0] enables the events. -/
def routed (f : Dev → Dev := id) : State :=
  host fun d => f (regs [(Reg.SYS_EVT_ROUTE 20, 0x80000014), (Reg.MSIX_TABLE 83, 0), (Reg.SPORT_TX_EVENT_EN 0, 8), (Reg.SPORT_RX_WM_EVENT_EN 0, 4)] d)

theorem witness_ClocksHealthEvents :
    (csrShut (host id).dev (Reg.SWARM_CLK_CTL 0) = false ∧ csrShut (host id).dev Reg.PMON_CTL = false ∧ csrShut (host id).dev Reg.SYS_MSIX_ACK_HI = false
      ∧ csrShut (host id).dev Reg.SYS_SW_SET = false ∧ armed (host (setArmed .host true)).dev .host = true ∧ armed (host id).dev .host = false) ∧
    (let s := host id
     fld (4 : W32) 0 3 = 4 ∧ (routeSet s.dev).testBit 0 = true ∧ fld (3 : W32) 0 3 ≠ 4 ∧ s.dev.arr.slots = []) ∧
    (let hot : List W16 := List.replicate 26 400 ++ [2016, 400, 400, 400]
     let ctl := rd (host id).dev Reg.SYS_THERM_CTL
     hot.length = 30 ∧ 26 < 30 ∧ 16 * (125 : Int) < (hot.getD 26 0).toInt ∧ 16 * (fld ctl 0 8 : Int) < (hot.getD 26 0).toInt
       ∧ 16 * (fld ctl 8 8 : Int) < (hot.getD 26 0).toInt ∧ bit ctl 31 = true ∧ (host id).dev.sys.warnAbove = false ∧ (host id).dev.sys.critAbove = false
       ∧ (host id).dev.sys.tripped = false ∧ (host id).dev.ket.derated = false ∧ 240 < ((hot.getD 26 0).toInt - (hot.getD 1 0).toInt).natAbs
       ∧ (∀ i < 30, ¬ 16 * (125 : Int) < ((List.replicate 30 (2000 : W16)).getD i 0).toInt)) ∧
    (bit (2 : W32) 1 = true ∧ bit (4 : W32) 2 = true ∧ bit (1 : W32) 1 = false) ∧
    (let s := routed (wr (Reg.SPORT_TX_EVENT 0) 8)
     bit (rd s.dev (Reg.SYS_EVT_ROUTE 20)) 31 = true ∧ rf s.dev (Reg.SYS_EVT_ROUTE 20) 0 6 = 20 ∧ lineLevel s.dev 20 = true
       ∧ lineLevel (routed).dev 20 = false ∧ (s.dev.msix.masked || rb s.dev (Reg.MSIX_TABLE (20 * 4 + 3)) 0) = false
       ∧ rb (host id).dev (Reg.MSIX_TABLE (20 * 4 + 3)) 0 = true ∧ bit (pair64 0x100000 0) 20 = true ∧ bit (pair64 0x100000 0) 21 = false) ∧
    (let s := routed (regs [(Reg.SYS_EVT_ROUTE 63, 0x80000014), (Reg.SYS_SW_EVENT_EN, 0x8000)])
     bit (0x8000 : W32) 15 = true ∧ rb s.dev Reg.SYS_SW_EVENT 15 = false ∧ rb s.dev Reg.SYS_SW_EVENT_EN 15 = true
       ∧ bit (rd s.dev (Reg.SYS_EVT_ROUTE (48 + 15))) 31 = true ∧ s.dev.msix.masked = false
       ∧ rb s.dev (Reg.MSIX_TABLE (fld (rd s.dev (Reg.SYS_EVT_ROUTE 63)) 0 6 * 4 + 3)) 0 = false) := by decide +kernel

/-- A boundary that is due, with SNAP_EN and without. -/
theorem witness_ClocksHealthEvents_boundary :
    (let s := showAt 34000000 (host fun d => wr Reg.PMON_CTL 0xB (clocked d))
     nextBoundary s.clk s.dev = some (2, (gridRegs s.dev).at 2) ∧ s.dev.frm.run = some (gridRegs s.dev) ∧ (gridRegs s.dev).at 2 ≤ now s.clk
       ∧ bit (rd s.dev Reg.PMON_CTL) 3 = true ∧ bit (rd (host id).dev Reg.PMON_CTL) 3 = false) := by decide +kernel

/-- R387: START_NEXT starts the counters at the boundary. -/
theorem test_pmon_next : rd (after .boundaryEmit (showAt 34000000 (host fun d => wr Reg.PMON_CTL 2 (clocked d)))) Reg.PMON_CTL = 1 := by decide +kernel

theorem witness_ClocksHealthEvents_canonical : Tab.canonical none (host id).dev.arr.slots := ⟨rfl, fun _ h => nomatch h⟩

/-- R390's worked example: at the acknowledgement the line still reads 1, and the message is sent again. -/
theorem test_ack_again : (let s := routed fun d => { wr (Reg.SPORT_TX_EVENT 0) 8 d with
      msix := { d.msix with inService := 0x100000 }, bus := { d.bus with staged := [⟨.host, Reg.SYS_MSIX_ACK_LO, 0x100000⟩] } }
    let d := after (.msixAck .host 0) s
    (bit d.msix.inService 20, Tab.get 0 d.msix.sent 20)) = (true, 1) := by decide +kernel
/-- R384: a first crossing throttles every running swarm. -/
theorem test_throttle : rd (after (.tempSample (List.replicate 30 1999)) (host id)) (Reg.SWARM_CLK_CTL 7) = 3 := by decide +kernel

theorem witness_BoardInterfaces :
    (csrShut (host id).dev (Reg.I2C_XFER 1) = false ∧ csrShut (host id).dev Reg.SPI_CMD = false ∧ csrShut (host id).dev Reg.UART_TX = false
      ∧ csrShut (host id).dev Reg.UART_RX = false ∧ csrShut (host id).dev (Reg.MDIO_CMD 1) = false) ∧
    (let s := host (regs [(Reg.GPIO_EDGE, 0x80000000), (Reg.GPIO_EVENT_EN, 0x8000)])
     rb s.dev Reg.GPIO_DIR 15 = false ∧ bit s.dev.sys.gpioIn 15 ≠ true ∧ rb s.dev Reg.GPIO_EDGE 31 = true ∧ rb s.dev Reg.GPIO_EVENT 15 = false
       ∧ rb s.dev Reg.GPIO_EVENT_EN 15 = true ∧ gpioEvent s.dev = false ∧ rb (wr Reg.GPIO_DIR 0x8000 s.dev) Reg.GPIO_DIR 15 = true) ∧
    (let s := host (wr (Reg.I2C_CTL 1) 0x80000000)
     let b := around { i2c := [(1, some ⟨5, [], 32⟩)] }
     bit (0x2001 : W32) 0 = true ∧ rb s.dev (Reg.I2C_CTL 1) 31 = true ∧ Tab.get none s.dev.sys.i2c 1 = none ∧ rb (host id).dev (Reg.I2C_CTL 1) 31 = false
       ∧ Tab.get none b.dev.sys.i2c 1 = some ⟨5, [], 32⟩ ∧ (32 : Nat) ≤ (List.replicate 32 (0 : W8)).length) ∧
    (let s := host (regs [(Reg.SPI_OP, 0x1000), (Reg.SPI_MEM_LO, w32 dramBase), (Reg.SPI_MEM_LO + 4, w32 (dramBase / 2 ^ 32))])
     let b := around { spi := some ⟨0x8004, 0, dramBase, [1, 2, 3, 4]⟩ }
     rb s.dev Reg.SPI_STATUS 2 = false ∧ s.dev.sys.spi = none ∧ spiLen (rd s.dev Reg.SPI_OP) = 4096
       ∧ inShared s.dev (rd64 s.dev Reg.SPI_MEM_LO).toNat 4096 = true ∧ inShared (host id).dev 0 4 = false ∧ bit (0x8004 : W32) 15 = true
       ∧ b.dev.sys.spi = some ⟨0x8004, 0, dramBase, [1, 2, 3, 4]⟩ ∧ uncorrectable s.dev dramBase 4 = false) ∧
    ((around { uartTx := List.replicate 64 0 }).dev.sys.uartTx.length = 64 ∧ (host id).dev.sys.uartTx.length < 64
      ∧ (around { uartRx := List.replicate 64 0 }).dev.sys.uartRx.length = 64 ∧ (around { uartRx := [7] }).dev.sys.uartRx = 7 :: []) ∧
    (let s := host (wr (Reg.MDIO_CTL 1) 0x80000000)
     let b := around { mdio := [(1, some 0xA0000000)] }
     bit (0xA0000000 : W32) 31 = true ∧ Tab.get none s.dev.sys.mdio 1 = none ∧ rb s.dev (Reg.MDIO_CTL 1) 31 = true ∧ rb (host id).dev (Reg.MDIO_CTL 1) 31 = false
       ∧ Tab.get none b.dev.sys.mdio 1 = some 0xA0000000 ∧ fld (0xA0000000 : W32) 28 2 = 2 ∧ fld (0x90000000 : W32) 28 2 ≠ 2) ∧
    ((inState .deployed (host id).dev).scarab.lc = .deployed ∧ (host id).dev.scarab.lc ≠ .deployed ∧ TapInstr.extest ≠ .idcode ∧ TapInstr.extest ≠ .sample) := by
  decide +kernel

/-- A device that has tripped, one that is awake and one in start-up; a slice that wraps the balls; each instruction of the test port. -/
theorem witness_BoardInterfaces_levels :
    (let s := around { tripped := true } (regs [(Reg.I2C_CTL 1, 0x80000000), (Reg.MDIO_CTL 1, 0x80000000), (Reg.SYS_STARTUP_STATUS, 0x400), (Reg.GPIO_DIR, 1)])
     s.dev.sys.tripped = true ∧ awake s.dev = false ∧ rb s.dev (Reg.I2C_CTL 1) 31 = true ∧ Tab.get none s.dev.sys.i2c 1 = none
       ∧ Tab.get none s.dev.sys.mdio 1 = none ∧ (rb s.dev Reg.GPIO_DIR 0 && !s.dev.sys.tripped) = false) ∧
    (awake (host (wr Reg.SYS_STARTUP_STATUS 0x400)).dev = true ∧ awake (host id).dev = false) ∧
    (let s := slicing 7 0x6000
     wrapping s.dev = true ∧ s.dev.sys.tapHeld = false ∧ wrapBall (.gpio 15) = true ∧ wrapBall .ownN = false ∧ wrapping (slicing 7 0x6000 id true).dev = false) ∧
    (∀ i : TapInstr, tapNow (around { tap := i, tapHeld := true }).dev = i) ∧ acLane (.lane 27) = true ∧ acLane .ownN = false
      ∧ (around { spi := some ⟨0x8004, 0, dramBase, []⟩ }).dev.sys.spi.isNone = false := by
  refine ⟨by decide +kernel, by decide +kernel, by decide +kernel, fun i => ?_, rfl, rfl, rfl⟩
  cases i <;> decide +kernel

/-- R392: an enabled edge raises the board event though another bit of GPIO_EVENT stands. -/
theorem test_gpio_again : (let d := after (.gpioEdge 15 true) (host (regs [(Reg.GPIO_EDGE, 0x80000000), (Reg.GPIO_EVENT_EN, 0x8001), (Reg.GPIO_EVENT, 1)]))
    (rb d Reg.GPIO_EVENT 15, rb d Reg.BOARD_EVENT 0)) = (true, true) := by decide +kernel
/-- R411: a device that has tripped drives no pin. -/
theorem test_silent : ballFunction (.gpio 0) State.reset.clk (around { tripped := true } (regs [(Reg.SYS_STARTUP_STATUS, 0x400), (Reg.GPIO_DIR, 1)])).dev = none := by
  decide +kernel

/-- R392: the 65th byte is dropped and counted. -/
theorem test_uart_drop : rf (after (.uartRxByte 1) (around { uartRx := List.replicate 64 0 })) Reg.UART_STAT 24 8 = 1 := by decide +kernel
/-- R359: EXTEST is BYPASS in DEPLOYED. -/
theorem test_tap : tapNow (after (.tapInstruction (.extest, none) true) (host (inState .deployed))) = .bypass := by decide +kernel

end Sys2Proof.Tests
end

/-!
O13 fails on its clause about the counters of boundaries. The state names the ST 2110-20 stream of a received frame by an unbounded number,
and a boundary hands the frames that it latches to that stream's receiver. The strainer gives only the numbers 0 to 7 (R221), but O13 speaks
of every state, and under another number the stream's registers lie outside their block: the loss count of stream 4980 is the upper word of
performance counter 2, which a boundary may raise by one only. The hypothesis that frames in hand carry stream numbers below 8 would exclude
this counterexample.
-/

namespace Sys2Proof.Machine

/-- A boundary whose instant has been reached is emitted (R35). -/
theorem dev_of_boundaryEmit {s t : State} {n : W64} {b : Time} {g : Grid} (hn : nextBoundary s.clk s.dev = some (n, b))
    (hg : s.dev.frm.run = some g) (hb : b ≤ now s.clk) (ht : exec .boundaryEmit s = .next t) : t.dev = emitBoundary g s.clk s.dev := by
  change execBoundaryEmit s = _ at ht
  simp only [execBoundaryEmit, onDev, hn, hg, hb, if_true, Host.Outcome.next.injEq] at ht
  rw [← ht]

/-- The upper half of a pair is the word of its _HI register (R310). -/
theorem hi32_rd64 (d : Dev) (a : Nat) : hi32 (rd64 d a) = rd d (a + 4) := by
  ext i hi
  simp only [hi32, rd64, pair64, BitVec.truncate_eq_setWidth, BitVec.getElem_setWidth, BitVec.getLsbD_ushiftRight]
  exact (BitVec.getLsbD_append ..).trans (by simp [hi])

/-- An empty frame in the ST 2110-20 receiver's hands, under a stream number that the device does not have. -/
def strayFrame : Received := { port := 0, stamp := 0, bytes := [], stream := 4980 }

/-- The frame clock at 27.2 ms of show time, before boundary 1 of a run at 60 Hz. The receiver is on and holds the stray frame, whose stream
is enabled; performance counter 2 selects the boundaries, and no counter runs. -/
def strayState : State where
  pending := []
  clk := { Clk.reset with ticks := 34000000, tb := { Clk.reset.tb with timeValid := true } }
  dev := wr Reg.PACK_CTL 4 (wr (Reg.ST_CTL 4980) 0x80000000 (wr (Reg.PMON_SEL 2) 2
    { Dev.reset with frm := { Dev.reset.frm with run := some (gridRegs Dev.reset), next := 1 }, stRx := [strayFrame] }))

/-- Boundary 1 of the run is the next, and its instant has been reached. -/
theorem reached_strayState :
    nextBoundary strayState.clk strayState.dev = some (1, (gridRegs Dev.reset).at 1) ∧ strayState.dev.frm.run = some (gridRegs Dev.reset)
      ∧ (gridRegs Dev.reset).at 1 ≤ now strayState.clk := by decide +kernel

/-- Counter 2 selects the boundaries and stands at 0. -/
theorem counter_strayState :
    rf strayState.dev (Reg.PMON_SEL 2) 0 10 = 2 ∧ rd64 strayState.dev (Reg.PMON_CNT_LO 2) = 0 := by decide +kernel

/-- The boundary latches the stray frame, which is no UDP datagram, and counts it as lost (R255). -/
theorem stLost_emitBoundary_strayState :
    rd (emitBoundary (gridRegs Dev.reset) strayState.clk strayState.dev) (Reg.ST_LOST 4980) = 1 := by decide +kernel

/-- That count is the upper half of counter 2. -/
theorem hi32_counter_eq_stLost (d : Dev) : hi32 (rd64 d (Reg.PMON_CNT_LO 2)) = rd d (Reg.ST_LOST 4980) := by
  have hplace : Reg.ST_LOST 4980 = Reg.PMON_CNT_LO 2 + 4 := rfl
  rw [hplace, hi32_rd64]

/-- Refutes O13: its clause on the counters of boundaries is false of `strayState`. Counter 2 stands at 0 before the boundary, and after it its
upper half is 1, where the clause allows the counter 0 or 1. -/
theorem not_frameClockCommands : ¬ Obligations.FrameClockCommands := by
  unfold Obligations.FrameClockCommands
  rintro ⟨-, -, -, -, -, hboundary, -⟩
  obtain ⟨hn, hg, hb⟩ := reached_strayState
  obtain ⟨hsel, hzero⟩ := counter_strayState
  obtain ⟨t, ht, -, -, -, -, -, -, -, -, -, -, -, -, -, -, -, hcount, -⟩ := hboundary _ _ _ strayState hn hg hb
  have hdev := dev_of_boundaryEmit hn hg hb ht
  have hhalf := congrArg hi32 (hcount 2 (by decide) hsel)
  rw [hi32_counter_eq_stLost, hdev, stLost_emitBoundary_strayState, hzero] at hhalf
  split at hhalf <;> simp [hi32] at hhalf

end Sys2Proof.Machine

/-!
# The clock (O3 to O6)

Apart from TICK and POWER_ON, which set the counter, a command reaches the clock through the commands of the timebase, the time transfer of a
pair, a register write, and the store of a control core, which may be a register write. Every other instruction answers with the clock that it
was given.
-/

namespace Sys2Proof.Machine

/-- The commands that move the clock: those of the timebase, of the time transfer, register writes and stores. -/
def movesClock : Instr → Bool
  | .tick => true
  | .powerOn => true
  | .tbIncrCommit .. => true
  | .tbCmdStep .. => true
  | .tbCmdSet .. => true
  | .timeExchange .. => true
  | .timeMessage .. => true
  | .csrWrite .. => true
  | .pairLoWrite .. => true
  | .pairHiWrite .. => true
  | .store .. => true
  | _ => false

/-- An instruction's outcome carries the clock that it was given. -/
def Res.Stays (k : Clk) : Res → Prop
  | .fault _ _ _ _ => True
  | .done k' _ => k' = k

theorem Res.close_stays {k : Clk} {x : Res} (r : Runner) (h : x.Stays k) : (x.close r k).1 = k := by
  cases x with
  | fault => rfl
  | done => exact h

/-- A command on a runner leaves the clock when its instruction does. -/
theorem runClass_stays (op : Op) (who : Who) {f : Runner → Option W32 → W32 → Clk → Dev → Res} (s : State)
    (h : ∀ r pre w d, (f r pre w s.clk d).Stays s.clk) : ∃ d, runClass op who f s = .next { s with dev := d } := by
  refine ⟨(runAs op who f s.clk s.dev).2, ?_⟩
  have hclk : (runAs op who f s.clk s.dev).1 = s.clk := by
    unfold runAs
    split
    · rfl
    · next r _ =>
      dsimp only
      split
      · rfl
      · split
        · rfl
        · split
          · exact Res.close_stays r (h r _ _ _)
          · rfl
  rw [runClass_form, hclk]

/-! Instructions that leave the clock. -/

theorem illegal_stays (k : Clk) (d : Dev) : (illegal d).Stays k := trivial

theorem goOn_stays (r : Runner) (pre : Option W32) (k : Clk) (d : Dev) : (goOn r pre k d).Stays k := rfl

/-- An instruction that a check may make illegal leaves the clock when it does without the check. -/
theorem ite_illegal_stays {c : Prop} [Decidable c] {x : Res} {k : Clk} {d : Dev} (h : x.Stays k) : (if c then x else illegal d).Stays k := by
  split
  · exact h
  · exact illegal_stays k d

theorem onBrew_stays {f : Nat → Brew → Option W32 → W32 → Clk → Dev → Res} {k : Clk} (h : ∀ i b pre w d, (f i b pre w k d).Stays k)
    (r : Runner) (pre : Option W32) (w : W32) (d : Dev) : (onBrew f r pre w k d).Stays k := by
  cases r with
  | slot => exact h _ _ _ _ _
  | core => trivial

theorem onCore_stays {f : Nat → Core → W32 → Clk → Dev → Res} {k : Clk} (h : ∀ c x w d, (f c x w k d).Stays k)
    (r : Runner) (pre : Option W32) (w : W32) (d : Dev) : (onCore f r pre w k d).Stays k := by
  cases r with
  | slot => trivial
  | core => exact h _ _ _ _

theorem writeD_stays (r : Runner) (pre : Option W32) (w : W32) (v : Option W64) (k : Clk) (d : Dev) : (writeD r pre w v k d).Stays k := by
  cases v with
  | none => exact illegal_stays k d
  | some => exact goOn_stays _ _ k d

theorem trapStep_stays (r : Runner) (pre : Option W32) (w : W32) (k : Clk) (d : Dev) : (trapStep r pre w k d).Stays k :=
  ite_illegal_stays trivial

theorem branchStep_stays (r : Runner) (pre : Option W32) (w : W32) (k : Clk) (d : Dev) : (branchStep r pre w k d).Stays k := by
  unfold branchStep
  split
  · rfl
  · exact goOn_stays r pre k d

theorem jalrStep_stays (r : Runner) (pre : Option W32) (w : W32) (k : Clk) (d : Dev) : (jalrStep r pre w k d).Stays k := by
  simp only [jalrStep]
  split
  · rfl
  · trivial

theorem loadStep_stays (r : Runner) (pre : Option W32) (w : W32) (k : Clk) (d : Dev) : (loadStep r pre w k d).Stays k := by
  simp only [loadStep]
  split
  · exact goOn_stays ..
  · split
    · trivial
    · split
      · trivial
      · exact goOn_stays ..

theorem atomStep_stays (r : Runner) (pre : Option W32) (w : W32) (k : Clk) (d : Dev) : (atomStep r pre w k d).Stays k := by
  simp only [atomStep]
  split
  · trivial
  · split
    · trivial
    · trivial
    · split
      · trivial
      · split
        · trivial
        · rfl

theorem vWrite_stays (i : Nat) (b : Brew) (pre : Option W32) (w : W32) (r : Option VRes) (k : Clk) (d : Dev) :
    (vWrite i b pre w r k d).Stays k := by
  unfold vWrite
  split
  · trivial
  · rfl
  · exact ite_illegal_stays rfl
  · exact ite_illegal_stays rfl
  · rfl

theorem loadElems_stays (i : Nat) (b : Brew) (pre : Option W32) (w : W32) (l : List (Nat × W64)) (k : Clk) (d : Dev) :
    (loadElems i b pre w l k d).Stays k := by
  simp only [loadElems]
  split
  · trivial
  · split
    · trivial
    · rfl

theorem storeElems_stays (i : Nat) (b : Brew) (pre : Option W32) (w : W32) (l : List (Nat × W64)) (k : Clk) (d : Dev) :
    (storeElems i b pre w l k d).Stays k := by
  simp only [storeElems]
  split
  · trivial
  · rfl

theorem sampleStep_stays (i : Nat) (b : Brew) (pre : Option W32) (w : W32) (k : Clk) (d : Dev) : (sampleStep i b pre w k d).Stays k :=
  ite_illegal_stays rfl

theorem sendAll_stays (i : Nat) (b : Brew) (l : List Sent) (k : Clk) (d : Dev) : (sendAll i b l k d).Stays k := by
  unfold sendAll
  split <;> rfl

theorem emitAll_stays (i : Nat) (b : Brew) (w : W32) (l : List (W64 × W64)) (k : Clk) (d : Dev) : (emitAll i b w l k d).Stays k := by
  simp only [emitAll]
  split
  · rfl
  · split
    · trivial
    · exact sendAll_stays ..

theorem keyStep_stays (useB : Bool) (f : Brew → W64 → W64 → W64) (r : Runner) (pre : Option W32) (w : W32) (k : Clk) (d : Dev) :
    (keyStep useB f r pre w k d).Stays k :=
  onBrew_stays (fun _ _ _ _ _ => ite_illegal_stays (goOn_stays ..)) r pre w d

theorem privileged_stays {x : Core} {legal : Bool} {d : Dev} {r : Res} {k : Clk} (h : r.Stays k) : (privileged x legal d r).Stays k := by
  unfold privileged
  split
  · trivial
  · split
    · exact h
    · trivial

/-- A command outside the list answers a next state with the clock as it was. -/
theorem exec_dev_of_not_movesClock (c : Instr) (s : State) (hc : movesClock c = false) : ∃ d, exec c s = .next { s with dev := d } := by
  cases c with
  | tick => cases hc
  | powerOn => cases hc
  | tbIncrCommit => cases hc
  | tbCmdStep => cases hc
  | tbCmdSet => cases hc
  | timeExchange => cases hc
  | timeMessage => cases hc
  | csrWrite => cases hc
  | pairLoWrite => cases hc
  | pairHiWrite => cases hc
  | store => cases hc
  | alu => exact runClass_stays _ _ s fun _ _ _ _ => writeD_stays ..
  | immediateOp => exact runClass_stays _ _ s fun _ _ _ _ => writeD_stays ..
  | lui => exact runClass_stays _ _ s fun _ _ _ _ => writeD_stays ..
  | shifti => exact runClass_stays _ _ s fun _ _ _ _ => writeD_stays ..
  | nop => exact runClass_stays _ _ s fun _ _ _ _ => ite_illegal_stays (goOn_stays ..)
  | movl => exact runClass_stays _ _ s (onBrew_stays fun _ _ _ _ _ => ite_illegal_stays (goOn_stays ..))
  | movk => exact runClass_stays _ _ s (onBrew_stays fun _ _ _ _ _ => ite_illegal_stays (goOn_stays ..))
  | movfl => exact runClass_stays _ _ s (onBrew_stays fun _ _ _ _ _ => ite_illegal_stays (goOn_stays ..))
  | clrfl => exact runClass_stays _ _ s (onBrew_stays fun _ _ _ _ _ => ite_illegal_stays (goOn_stays ..))
  | trap => exact runClass_stays _ _ s fun _ _ _ _ => trapStep_stays ..
  | branch => exact runClass_stays _ _ s fun _ _ _ _ => branchStep_stays ..
  | jal => exact runClass_stays _ _ s fun _ _ _ _ => rfl
  | jalr => exact runClass_stays _ _ s fun _ _ _ _ => jalrStep_stays ..
  | load => exact runClass_stays _ _ s fun _ _ _ _ => loadStep_stays ..
  | vint => exact runClass_stays _ _ s (onBrew_stays fun _ _ _ _ _ => vWrite_stays ..)
  | vfix => exact runClass_stays _ _ s (onBrew_stays fun _ _ _ _ _ => vWrite_stays ..)
  | vfp => exact runClass_stays _ _ s (onBrew_stays fun _ _ _ _ _ => vWrite_stays ..)
  | vpred => exact runClass_stays _ _ s (onBrew_stays fun _ _ _ _ _ => ite_illegal_stays (vWrite_stays ..))
  | vmove => exact runClass_stays _ _ s (onBrew_stays fun _ _ _ _ _ => vWrite_stays ..)
  | vld => exact runClass_stays _ _ s (onBrew_stays fun _ _ _ _ _ => ite_illegal_stays (loadElems_stays ..))
  | vst => exact runClass_stays _ _ s (onBrew_stays fun _ _ _ _ _ => ite_illegal_stays (storeElems_stays ..))
  | vgather => exact runClass_stays _ _ s (onBrew_stays fun _ _ _ _ _ => ite_illegal_stays (loadElems_stays ..))
  | vscatter => exact runClass_stays _ _ s (onBrew_stays fun _ _ _ _ _ => ite_illegal_stays (storeElems_stays ..))
  | atom => exact runClass_stays _ _ s fun _ _ _ _ => atomStep_stays ..
  | fence => exact runClass_stays _ _ s fun _ _ _ _ => ite_illegal_stays (goOn_stays ..)
  | getc => exact runClass_stays _ _ s (onCore_stays fun _ _ _ _ => by
      split
      · exact privileged_stays (goOn_stays ..)
      · trivial)
  | setc => exact runClass_stays _ _ s (onCore_stays fun _ _ _ _ => by
      split
      · exact privileged_stays (goOn_stays ..)
      · trivial)
  | resume => exact runClass_stays _ _ s (onCore_stays fun _ _ _ _ => privileged_stays rfl)
  | doze => exact runClass_stays _ _ s (onCore_stays fun _ _ _ _ => privileged_stays (by
      split
      · split <;> rfl
      · rfl))
  | callp => exact runClass_stays _ _ s (onCore_stays fun _ _ _ _ => ite_illegal_stays rfl)
  | emit => exact runClass_stays _ _ s (onBrew_stays fun _ _ _ _ _ => ite_illegal_stays (emitAll_stays ..))
  | emitv => exact runClass_stays _ _ s (onBrew_stays fun _ _ _ _ _ => ite_illegal_stays (emitAll_stays ..))
  | pour => exact runClass_stays _ _ s (onBrew_stays fun _ _ _ _ _ => by
      dsimp only
      split
      · trivial
      · split
        · trivial
        · split
          · trivial
          · rfl)
  | delay => exact runClass_stays _ _ s (onBrew_stays fun _ _ _ _ _ => by
      dsimp only
      split
      · trivial
      · split
        · rfl
        · split
          · trivial
          · rfl)
  | endBrew => exact runClass_stays _ _ s (onBrew_stays fun _ _ _ _ _ => ite_illegal_stays rfl)
  | cancel => exact runClass_stays _ _ s (onBrew_stays fun _ _ _ _ _ => ite_illegal_stays (by
      split
      · rfl
      · exact sendAll_stays ..))
  | kmake => exact runClass_stays _ _ s (keyStep_stays _ _ · · · _ ·)
  | ksetf => exact runClass_stays _ _ s (keyStep_stays _ _ · · · _ ·)
  | kaddf => exact runClass_stays _ _ s (keyStep_stays _ _ · · · _ ·)
  | kaddi => exact runClass_stays _ _ s (keyStep_stays _ _ · · · _ ·)
  | ksett => exact runClass_stays _ _ s (keyStep_stays _ _ · · · _ ·)
  | kgett => exact runClass_stays _ _ s (keyStep_stays _ _ · · · _ ·)
  | kgetf => exact runClass_stays _ _ s (keyStep_stays _ _ · · · _ ·)
  | kgeti => exact runClass_stays _ _ s (keyStep_stays _ _ · · · _ ·)
  | sample2 => exact runClass_stays _ _ s (onBrew_stays fun _ _ _ _ _ => sampleStep_stays ..)
  | sample3 => exact runClass_stays _ _ s (onBrew_stays fun _ _ _ _ _ => sampleStep_stays ..)
  | matrix => exact runClass_stays _ _ s (onBrew_stays fun _ _ _ _ _ => sampleStep_stays ..)
  | lut3 => exact runClass_stays _ _ s (onBrew_stays fun _ _ _ _ _ => sampleStep_stays ..)
  | curve => exact runClass_stays _ _ s (onBrew_stays fun _ _ _ _ _ => sampleStep_stays ..)
  | dither => exact runClass_stays _ _ s (onBrew_stays fun _ _ _ _ _ => sampleStep_stays ..)
  | _ => exact exec_dev _ s rfl

/-! What the other commands do to the clock. -/

/-- What is done on a condition keeps of the clock what it keeps where it is done. -/
theorem ClkKeeps.ite {c : Prop} [Decidable c] {k : Clk} {x : Clk × Dev} {d : Dev} (h : ClkKeeps k x.1) : ClkKeeps k (if c then x else (k, d)).1 := by
  split
  · exact h
  · exact .refl

/-- Every command but TICK and POWER_ON keeps the counter, TIME_VALID at 1 and an increment in range (R16, R19, R23). -/
theorem exec_keeps_clk {c : Instr} {s t : State} (htick : c ≠ .tick) (hpower : c ≠ .powerOn) (h : exec c s = .next t) : ClkKeeps s.clk t.clk := by
  by_cases hc : movesClock c = true
  · cases c with
    | tick => exact absurd rfl htick
    | powerOn => exact absurd rfl hpower
    | tbIncrCommit => cases h; exact incrCommit_keeps ..
    | tbCmdStep => cases h; exact tbCmd_keeps ..
    | tbCmdSet => cases h; exact tbCmd_keeps ..
    | timeExchange => cases h; exact .ite (timeAnswer_keeps ..)
    | timeMessage => cases h; exact timeMessage_keeps ..
    | csrWrite => cases h; exact .ite (csrWrite_keeps ..)
    | pairLoWrite => cases h; exact .ite (csrWrite_keeps ..)
    | pairHiWrite => cases h; exact .ite (csrWrite_keeps ..)
    | store => cases h; exact runAs_keeps _ _ _ _ _ fun _ _ _ _ => storeStep_keeps ..
    | _ => cases hc
  · obtain ⟨d, hd⟩ := exec_dev_of_not_movesClock c s (Bool.eq_false_iff.mpr hc)
    cases hd.symm.trans h
    exact .refl

/-- A tick advances the counter alone (R16). -/
theorem clk_of_tick {s t : State} (h : exec .tick s = .next t) : t.clk = { s.clk with ticks := s.clk.ticks + 1 } := by
  cases h
  rfl

/-- A power-on reset clears the clock (R16, R19). -/
theorem clk_of_powerOn {s t : State} (h : exec .powerOn s = .next t) : t.clk = Clk.reset := by
  cases h
  rfl

/-- Every command answers a next state and leaves the queue. -/
theorem exec_next (c : Instr) (s : State) : ∃ t, exec c s = .next t ∧ t.pending = s.pending := by
  cases h : mayMoveClock c with
  | false =>
    obtain ⟨d, hd⟩ := exec_dev c s h
    exact ⟨_, hd, rfl⟩
  | true =>
    obtain ⟨k, d, hd⟩ := exec_clk c s h
    exact ⟨_, hd, rfl⟩

/-- Settles O4: all commands but TICK and POWER_ON keep the counter. -/
theorem tickCounterKept : Obligations.TickCounterKept := by
  intro c s t h
  split
  · rw [clk_of_tick h]
  · rw [clk_of_powerOn h]; rfl
  · next htick hpower => exact (exec_keeps_clk htick hpower h).1

/-- The reset increment, 0.8 ns, lies in range (R19, R23). -/
theorem incrOk_reset : incrOk Clk.reset.tb.incr = true := by decide

/-- Settles O5: a step runs one command, or idles; a power-on reset brings the reset increment, which is in range. -/
theorem rateStaysInRange : Obligations.RateStaysInRange := by
  intro s t hs h
  unfold step at h
  split at h
  · cases h; exact hs
  · next c rest _ =>
    by_cases htick : c = .tick
    · subst htick
      rw [rateInRange, clk_of_tick h]
      exact hs
    · by_cases hpower : c = .powerOn
      · subst hpower
        rw [rateInRange, clk_of_powerOn h]
        exact incrOk_reset
      · obtain ⟨-, -, hincr⟩ := exec_keeps_clk htick hpower h
        exact hincr hs

/-- Settles O6: TICK leaves the timebase, and the other commands keep TIME_VALID. -/
theorem timeValidStays : Obligations.TimeValidStays := by
  intro c s t hpower hs h
  by_cases htick : c = .tick
  · subst htick
    rw [clk_of_tick h]
    exact hs
  · obtain ⟨-, hvalid, -⟩ := exec_keeps_clk htick hpower h
    exact hvalid hs

/-- Settles O3: a command that may move the clock is one of those named, and every other one answers with the clock as it was. -/
theorem everyCommandCompletes : Obligations.EveryCommandCompletes := by
  intro c s
  obtain ⟨t, ht, hpending⟩ := exec_next c s
  refine ⟨t, ht, hpending, ?_⟩
  by_cases hc : movesClock c = true
  · refine .inr ?_
    unfold movesClock at hc
    split at hc <;> simp_all
  · obtain ⟨d, hd⟩ := exec_dev_of_not_movesClock c s (Bool.eq_false_iff.mpr hc)
    cases hd.symm.trans ht
    exact .inl rfl

end Sys2Proof.Machine

/-!
# Reset, ticks and the rate (O7, O8)
-/

namespace Sys2Proof.Machine

/-- No register is listed at reset: each reads its reset value. -/
theorem rd_reset (a : Nat) : rd State.reset.dev a = Reg.resetOf a := rfl

/-- Settles O7. -/
theorem resetState : Obligations.ResetState := by
  have hnum : Reg.resetOf Reg.FRM_RATE_NUM = 60 := by decide
  have hden : Reg.resetOf Reg.FRM_RATE_DEN = 1 := by decide
  have hhold : Reg.resetOf Reg.FRM_HOLD_MAX = 2000000 := by decide
  have hpps : Reg.resetOf Reg.TB_PPS_CTL = 0x00640000 := by decide
  have hlimit : Reg.resetOf Reg.SCHED_CYCLE_LIMIT = 0x00100000 := by decide
  exact ⟨rfl, rfl, rfl, rfl, incrOk_reset, rfl, rfl, reset_mem_wf, rfl, hnum, hden, hhold, hpps, hlimit⟩

/-- The increment of R23's range is positive. -/
theorem incr_pos {v : BitVec 56} (h : incrOk v = true) : 0 < v.toNat := by
  simp only [incrOk, decide_eq_true_eq] at h
  omega

/-- While the ticks since the anchor do not wrap, show time rises by the increment at each tick (R17). -/
theorem now_tick {k : Clk} (h : (k.ticks - k.tb.anchor).toNat + 1 < 2 ^ 64) :
    now { k with ticks := k.ticks + 1 } = now k + k.tb.incr.toNat := by
  have hsince : (k.ticks + 1 - k.tb.anchor).toNat = (k.ticks - k.tb.anchor).toNat + 1 := by
    have hassoc : k.ticks + 1 - k.tb.anchor = k.ticks - k.tb.anchor + 1 := by bv_omega
    rw [hassoc, BitVec.toNat_add_of_lt (by simpa using h)]
    rfl
  simp only [now, hsince, Nat.cast_add, Nat.cast_one]
  ring

/-- Adopting an increment at a tick leaves the show time of that tick (R22). -/
theorem now_reanchor (v : BitVec 56) (k : Clk) : now (reanchor v k) = now k := by simp [reanchor, now]

/-- A commit by the clock's owner with a staged low half adopts the pair when it is in range, else discards it (R22, R23). -/
theorem incrCommit_owned {req : Req} {v lo : W32} {k : Clk} {d : Dev} (hopen : csrShut d Reg.TB_INCR_HI = false) (hown : foreign d req = false)
    (hlo : stagedLo d req Reg.TB_INCR_LO = some lo) : incrCommit req v k d =
      if incrOk (v.truncate 24 ++ lo) then (reanchor (v.truncate 24 ++ lo) k, unstage req Reg.TB_INCR_LO d)
      else (k, raiseTb 2 (unstage req Reg.TB_INCR_LO d)) := by
  simp [incrCommit, hopen, hown, hlo]

/-- Raising a bit of TB_EVENT sets it. -/
theorem rb_raiseTb (i : Nat) (hi : i < 32) (d : Dev) : rb (raiseTb i d) Reg.TB_EVENT i = true := by
  simp [raiseTb, rb_eq, bit_bitIf, hi]

/-- Raising a bit of TB_EVENT changes no other register, and nothing else of the device outside the MSI-X state. -/
theorem onlyThese_raiseTb (i : Nat) (d : Dev) : onlyThese [Reg.TB_EVENT] d (raiseTb i d) := onlyThese_raiseAt ..

/-- TICK (R16, R18): the counter advances, and a boundary that waits is latched when it need wait no more (R9). -/
theorem exec_tick (s : State) : exec .tick s = .next { s with
    clk := { s.clk with ticks := s.clk.ticks + 1 }, dev := latchSettle { s.clk with ticks := s.clk.ticks + 1 } s.dev } := rfl

/-- With no boundary waiting to be latched there is nothing to settle. -/
theorem latchSettle_of_none {d : Dev} (k : Clk) (h : d.frm.latching = none) : latchSettle k d = d := by simp [latchSettle, h]

/-- A boundary that waits is latched unless it need wait longer. -/
theorem latchSettle_of_some {d : Dev} (k : Clk) {n : W64} {b : Time} (h : d.frm.latching = some (n, b)) :
    latchSettle k d = if straddled b k d then d else latchNow k d := by simp [latchSettle, h]

/-- Settles O8. -/
theorem tickAndRateCommit : Obligations.TickAndRateCommit := by
  refine ⟨fun s hrate hwrap => ?_, fun req v lo s hopen hown hlo => ?_⟩
  · refine ⟨_, exec_tick s, latchSettle_of_none _, fun n b => latchSettle_of_some _, rfl, rfl, now_tick hwrap, ?_⟩
    rw [now_tick hwrap]
    exact lt_add_of_pos_right _ (Nat.cast_pos.mpr (incr_pos hrate))
  · have hx : exec (.tbIncrCommit req v) s = onClk s (incrCommit req v) := rfl
    rw [hx, onClk, incrCommit_owned hopen hown hlo]
    cases hok : incrOk (v.truncate 24 ++ lo) with
    | true => exact ⟨_, rfl, rfl, rfl, now_reanchor _ _, fun _ => ⟨rfl, rfl, rfl, rfl⟩, nofun⟩
    | false => exact ⟨_, rfl, rfl, rfl, rfl, nofun, fun _ => ⟨rfl, rb_raiseTb 2 (by decide) _, onlyThese_raiseTb 2 _⟩⟩

end Sys2Proof.Machine

/-!
# Reads that capture (O10)

Each of these reads returns a word and puts others into the requester's snapshots, all in one instant (R310). `capture` says so once.
-/

namespace Sys2Proof.Machine

/-- The outcome of `accessRead` on an open register. -/
theorem accessRead_open {d : Dev} {a : Nat} (f : Dev → Dev) (h : csrShut d a = false) : accessRead a f d = f d := by simp [accessRead, h]

/-- The outcome of `accessRead` while R379 shuts the register. -/
theorem accessRead_shut {d : Dev} {a : Nat} (f : Dev → Dev) (h : csrShut d a = true) : accessRead a f d = ret 0 d := by simp [accessRead, h]

/-- A requester's snapshots of two registers lie at two places. -/
theorem snapOf_inj {req : Req} {a b : Nat} : snapOf req a = snapOf req b ↔ a = b := by simp [snapOf]

/-- A read that returns w and puts the words of l into the requester's snapshots. -/
def capture (req : Req) (w : W32) (l : List (Nat × W32)) (d : Dev) : Dev := ret w (l.foldr (fun x => snap req x.1 x.2) d)

/-- Each snapshot holds its word. -/
theorem rd_capture {req : Req} {w : W32} {l : List (Nat × W32)} {d : Dev} (hl : (l.map Prod.fst).Nodup) {a : Nat} {v : W32} (h : (a, v) ∈ l) :
    rd (capture req w l d) (snapOf req a) = v := by
  rw [capture, rd_ret]
  induction l with
  | nil => cases h
  | cons x r ih =>
    obtain ⟨hx, hr⟩ := List.nodup_cons.mp hl
    rcases List.mem_cons.mp h with rfl | h
    · exact rd_snap_same _ req _ _
    · have hne : a ≠ x.1 := fun e => hx (e ▸ List.mem_map_of_mem (f := Prod.fst) h)
      rw [List.foldr_cons, rd_snap_ne _ req _ (fun e => hne (snapOf_inj.mp e)), ih hr h]

/-- A capturing read changes the snapshots and the word returned alone. -/
theorem onlyThese_capture (req : Req) (w : W32) (l : List (Nat × W32)) (d : Dev) :
    onlyThese (l.map fun x => snapOf req x.1) (ret w d) (capture req w l d) := by
  induction l with
  | nil => exact onlyThese.refl _ _
  | cons x r ih =>
    refine (ih.trans (onlyThese_wr (snapOf req x.1) x.2 (capture req w r d))).mono fun a ha => ?_
    rw [List.map_cons, List.mem_cons]
    exact (List.mem_append.mp ha).symm.imp List.mem_singleton.mp id

/-- R21: show time and the tick count. -/
theorem exec_tbNowRead {req : Req} {s : State} (h : csrShut s.dev Reg.TB_NOW_SEC_LO = false) :
    exec (.tbNowRead req) s = nextDev s (capture req (lo32 (secOf (now s.clk))) [(Reg.TB_NOW_SEC_HI, hi32 (secOf (now s.clk))),
      (Reg.TB_NOW_NS, nsOf (now s.clk)), (Reg.TB_NOW_FRAC, fracOf (now s.clk)), (Reg.TB_NOW_TICKS_LO, lo32 s.clk.ticks),
      (Reg.TB_NOW_TICKS_HI, hi32 s.clk.ticks)] s.dev) :=
  congrArg (nextDev s) (accessRead_open _ h)

/-- R21: short time. -/
theorem exec_tbShortRead {req : Req} {s : State} (h : csrShut s.dev Reg.TB_SHORT_LO = false) :
    exec (.tbShortRead req) s = nextDev s (capture req (lo32 (shortOf (now s.clk))) [(Reg.TB_SHORT_HI, hi32 (shortOf (now s.clk)))] s.dev) :=
  congrArg (nextDev s) (accessRead_open _ h)

/-- R31: the stamp of PPS_IN. -/
theorem exec_tbPpsCapRead {req : Req} {s : State} (h : csrShut s.dev Reg.TB_PPS_CAP_SEC_LO = false) :
    exec (.tbPpsCapRead req) s = nextDev s (capture req (rd s.dev Reg.TB_PPS_CAP_SEC_LO)
      [(Reg.TB_PPS_CAP_SEC_HI, rd s.dev Reg.TB_PPS_CAP_SEC_HI), (Reg.TB_PPS_CAP_NS, rd s.dev Reg.TB_PPS_CAP_NS)] s.dev) :=
  congrArg (nextDev s) (accessRead_open _ h)

/-- R32: the oldest stamp leaves its queue. -/
theorem exec_tbEvtcapPop_cons {req : Req} {n : Fin 4} {x : Time} {rising : Bool} {r : List (Time × Bool)} {s : State}
    (h : csrShut s.dev (Reg.TB_EVTCAP_SEC_LO n) = false) (hq : (evtCap s.dev n).queue = (x, rising) :: r) :
    exec (.tbEvtcapPop req n) s = nextDev s (capture req (lo32 (secOf x)) [(Reg.TB_EVTCAP_SEC_HI n, hi32 (secOf x)),
      (Reg.TB_EVTCAP_NS n, nsOf x ||| bitIf 31 rising)] (setEvtCap n { evtCap s.dev n with queue := r } s.dev)) := by
  refine congrArg (nextDev s) ((accessRead_open _ h).trans ?_)
  simp only [hq]
  rfl

/-- R32: an empty queue reads EMPTY. -/
theorem exec_tbEvtcapPop_nil {req : Req} {n : Fin 4} {s : State} (h : csrShut s.dev (Reg.TB_EVTCAP_SEC_LO n) = false)
    (hq : (evtCap s.dev n).queue = []) : exec (.tbEvtcapPop req n) s = nextDev s (capture req 0 [(Reg.TB_EVTCAP_SEC_HI n, 0),
      (Reg.TB_EVTCAP_NS n, 0x40000000)] s.dev) := by
  refine congrArg (nextDev s) ((accessRead_open _ h).trans ?_)
  simp only [hq]
  rfl

/-- R44: the number and the instant of the last boundary. -/
theorem exec_frmNumberRead {req : Req} {s : State} (h : csrShut s.dev Reg.FRM_NUMBER_LO = false) :
    exec (.frmNumberRead req) s = nextDev s (capture req (lo32 s.dev.frm.lastFrame) [(Reg.FRM_NUMBER_HI, hi32 s.dev.frm.lastFrame),
      (Reg.FRM_LAST_SEC_LO, lo32 (secOf s.dev.frm.lastB)), (Reg.FRM_LAST_SEC_HI, hi32 (secOf s.dev.frm.lastB)),
      (Reg.FRM_LAST_NS, nsOf s.dev.frm.lastB), (Reg.FRM_LAST_FRAC, fracOf s.dev.frm.lastB)] s.dev) :=
  congrArg (nextDev s) (accessRead_open _ h)

/-- The two snapshots of an event stamp lie apart. -/
theorem evtcap_snaps_nodup (n : Fin 4) : [Reg.TB_EVTCAP_SEC_HI n, Reg.TB_EVTCAP_NS n].Nodup := by
  simp [Reg.TB_EVTCAP_SEC_HI, Reg.TB_EVTCAP_NS]

/-- The queue of stamps that was set reads so. -/
@[simp] theorem evtCap_setEvtCap_same (n : Nat) (e : EvtCap) (d : Dev) : evtCap (setEvtCap n e d) n = e := by simp [evtCap, setEvtCap]

/-- Every other queue of stamps reads as before. -/
theorem evtCap_setEvtCap_ne {n m : Nat} (e : EvtCap) (d : Dev) (h : m ≠ n) : evtCap (setEvtCap n e d) m = evtCap d m := by
  simp [evtCap, setEvtCap, Tab.get_put_ne _ _ _ _ _ h]

/-- A capturing read leaves the queues of stamps. -/
theorem evtCap_capture (req : Req) (w : W32) (l : List (Nat × W32)) (d : Dev) (n : Nat) : evtCap (capture req w l d) n = evtCap d n := by
  rw [evtCap, (onlyThese_capture req w l d).1]
  rfl

/-- While R379 shuts its register, each of the reads answers zero and changes nothing else. -/
theorem exec_capturingRead_shut (req : Req) (n : Fin 4) (s : State) (c : Instr) (a : Nat)
    (hc : (c, a) ∈ [(Instr.tbNowRead req, Reg.TB_NOW_SEC_LO), (.tbShortRead req, Reg.TB_SHORT_LO), (.tbPpsCapRead req, Reg.TB_PPS_CAP_SEC_LO),
      (.tbEvtcapPop req n, Reg.TB_EVTCAP_SEC_LO n), (.frmNumberRead req, Reg.FRM_NUMBER_LO)])
    (h : csrShut s.dev a = true) : exec c s = nextDev s (ret 0 s.dev) := by
  simp only [List.mem_cons, Prod.mk.injEq, List.not_mem_nil, or_false] at hc
  rcases hc with ⟨rfl, rfl⟩ | ⟨rfl, rfl⟩ | ⟨rfl, rfl⟩ | ⟨rfl, rfl⟩ | ⟨rfl, rfl⟩ <;> exact congrArg (nextDev s) (accessRead_shut _ h)

/-- Settles O10: each read is a capture of its words. -/
theorem capturingReads : Obligations.CapturingReads := by
  refine ⟨fun req s h => ?_, fun req s h => ?_, fun req s h => ?_, fun req n x rising r s h hq => ?_, fun req n s h hq => ?_, fun req s h => ?_,
    exec_capturingRead_shut⟩
  · have hl : [Reg.TB_NOW_SEC_HI, Reg.TB_NOW_NS, Reg.TB_NOW_FRAC, Reg.TB_NOW_TICKS_LO, Reg.TB_NOW_TICKS_HI].Nodup := by decide
    refine ⟨_, exec_tbNowRead h, rfl, rfl, ?_, ?_, ?_, ?_, ?_, onlyThese_capture ..⟩ <;> exact rd_capture (by exact hl) (by simp)
  · refine ⟨_, exec_tbShortRead h, rfl, rfl, ?_, onlyThese_capture ..⟩
    exact rd_capture (by simp) (by simp)
  · have hl : [Reg.TB_PPS_CAP_SEC_HI, Reg.TB_PPS_CAP_NS].Nodup := by decide
    refine ⟨_, exec_tbPpsCapRead h, rfl, rfl, ?_, ?_, onlyThese_capture ..⟩ <;> exact rd_capture (by exact hl) (by simp)
  · have hl := evtcap_snaps_nodup n
    refine ⟨_, exec_tbEvtcapPop_cons h hq, rfl, rfl, ?_, ?_, ?_, fun m hm => ?_, ?_⟩
    · exact rd_capture (by exact hl) (by simp)
    · exact rd_capture (by exact hl) (by simp)
    · rw [evtCap_capture, evtCap_setEvtCap_same]
    · rw [evtCap_capture, evtCap_setEvtCap_ne _ _ (Fin.val_ne_of_ne hm)]
    · have hpins := congrArg Dev.pins (onlyThese_capture req (lo32 (secOf x)) [(Reg.TB_EVTCAP_SEC_HI n, hi32 (secOf x)),
        (Reg.TB_EVTCAP_NS n, nsOf x ||| bitIf 31 rising)] (setEvtCap n { evtCap s.dev n with queue := r } s.dev)).1
      dsimp only
      rw [hpins]
      exact onlyThese_capture ..
  · have hl := evtcap_snaps_nodup n
    refine ⟨_, exec_tbEvtcapPop_nil h hq, rfl, rfl, ?_, ?_, onlyThese_capture ..⟩ <;> exact rd_capture (by exact hl) (by simp)
  · have hl : [Reg.FRM_NUMBER_HI, Reg.FRM_LAST_SEC_LO, Reg.FRM_LAST_SEC_HI, Reg.FRM_LAST_NS, Reg.FRM_LAST_FRAC].Nodup := by decide
    refine ⟨_, exec_frmNumberRead h, rfl, rfl, ?_, ?_, ?_, ?_, ?_, onlyThese_capture ..⟩ <;> exact rd_capture (by exact hl) (by simp)

end Sys2Proof.Machine

/-!
# References and PPS (O11)
-/

namespace Sys2Proof.Machine

/-- Raising a bit of TB_EVENT leaves every other register. -/
theorem rd_raiseTb_ne (i : Nat) (d : Dev) {a : Nat} (h : a ≠ Reg.TB_EVENT) : rd (raiseTb i d) a = rd d a := rd_raiseAt_ne d _ h

/-- Raising a bit of TB_EVENT leaves every other pair. -/
theorem rd64_raiseTb (i : Nat) (d : Dev) {a : Nat} (hlo : a ≠ Reg.TB_EVENT) (hhi : a + 4 ≠ Reg.TB_EVENT) : rd64 (raiseTb i d) a = rd64 d a := by
  rw [rd64, rd64, rd_raiseTb_ne i d hlo, rd_raiseTb_ne i d hhi]

@[simp] theorem raiseTb_pins (i : Nat) (d : Dev) : (raiseTb i d).pins = d.pins := raiseAt_pins ..

/-- An update that changes registers alone, after a change of the pins, leaves those pins. -/
theorem onlyThese.of_pins {l : List Nat} {p : Pins} {d e : Dev} (h : onlyThese l { d with pins := p } e) :
    onlyThese l { d with pins := e.pins } e := by
  have hpins : e.pins = p := congrArg Dev.pins h.1
  rwa [hpins]

/-- A loss of lock changes the PLL's state and TB_EVENT alone. -/
theorem onlyThese_pllUnlock (d : Dev) : onlyThese [Reg.TB_EVENT] { d with pins := (pllUnlock d).pins } (pllUnlock d) := by
  unfold pllUnlock
  split
  · rw [raiseTb_pins]
    exact onlyThese_raiseTb ..
  · exact onlyThese.refl ..

theorem pllUnlock_refActive (d : Dev) : (pllUnlock d).pins.refActive = d.pins.refActive := by
  unfold pllUnlock
  split
  · rw [raiseTb_pins]
  · rfl

/-- A switch away from REF10M_IN lets the PLL lose lock (R30). -/
theorem switchRef_away {d : Dev} (h : d.pins.refActive = true) :
    switchRef false d = pllUnlock { d with pins := { d.pins with refActive := false } } := by simp [switchRef, h]

/-- R30: the reference in use is lost. -/
theorem exec_refLoss {s : State} (h : s.dev.pins.refActive = true) : exec .refLoss s =
    nextDev s (raiseTb 5 (wrBit Reg.TB_CTL 2 false (pllUnlock { s.dev with pins := { s.dev.pins with refActive := false } }))) := by
  refine congrArg (nextDev s) ?_
  simp [refLoss, h, switchRef_away h]

/-- R30: the PLL loses lock. -/
theorem exec_pllUnlock {s : State} (h : s.dev.pins.pllLock = true) :
    exec .pllUnlock s = nextDev s (raiseTb 6 { s.dev with pins := { s.dev.pins with pllLock := false } }) := by
  refine congrArg (nextDev s) ?_
  simp [pllUnlock, h]

/-- A tick at least 8 ns after the last stamped edge is not too close to it (R407). -/
theorem tooClose_false {k : Clk} {last : Option W64} (h : ∀ x, last = some x → 10 ≤ since k x) : tooClose k last = false := by
  cases last with
  | none => rfl
  | some x => exact decide_eq_false (Nat.not_lt.mpr (h x rfl))

/-- A 64-bit value is the pair of its halves (R310). -/
theorem pair64_lo32_hi32 (v : W64) : pair64 (lo32 v) (hi32 v) = v := by
  refine BitVec.eq_of_getLsbD_eq fun i hi => (BitVec.getLsbD_append ..).trans ?_
  by_cases h : i < 32
  · simp [lo32, h]
  · have h32 : i - 32 < 32 := by omega
    have hi' : 32 + (i - 32) = i := by omega
    simp [hi32, h, h32, hi']

/-- A pair that was set reads so. -/
@[simp] theorem rd64_wr64_same (a : Nat) (v : W64) (d : Dev) : rd64 (wr64 a v d) a = v := by
  have hne : a ≠ a + 4 := by omega
  rw [rd64, wr64, rd_wr_same, rd_wr_ne _ _ hne, rd_wr_same, pair64_lo32_hi32]

/-- Setting a pair leaves every other register. -/
theorem rd_wr64_ne {a b : Nat} (v : W64) (d : Dev) (hlo : b ≠ a) (hhi : b ≠ a + 4) : rd (wr64 a v d) b = rd d b := by
  rw [wr64, rd_wr_ne _ _ hhi, rd_wr_ne _ _ hlo]

theorem onlyThese_wr64 (a : Nat) (v : W64) (d : Dev) : onlyThese [a, a + 4] d (wr64 a v d) := (onlyThese_wr ..).trans (onlyThese_wr ..)

/-- R31: an edge of PPS_IN that is neither narrow nor too close is stamped. -/
theorem exec_ppsInEdge {s : State} (h : ∀ x, s.dev.pins.ppsLast = some x → 10 ≤ since s.clk x) : exec (.ppsInEdge false) s =
    nextDev s (raiseTb 7 (wr64 Reg.TB_PPS_CAP_SEC_LO (secOf (now s.clk)) (wr Reg.TB_PPS_CAP_NS (nsOf (now s.clk))
      { s.dev with pins := { s.dev.pins with ppsLast := some s.clk.ticks } }))) := by
  refine congrArg (nextDev s) ?_
  simp [ppsEdge, tooClose_false h]

/-- R31, R407: an edge of PPS_IN that is too close to the last is not stamped. -/
theorem exec_ppsInEdge_close {s : State} {x : W64} (h : s.dev.pins.ppsLast = some x) (hx : since s.clk x < 10) :
    exec (.ppsInEdge false) s = .next s := by
  refine congrArg (nextDev s) ?_
  simp [ppsEdge, tooClose, edgeGap, h, hx]

/-- R31: the loss of PPS_IN. -/
theorem exec_ppsInLost {s : State} {x : W64} (h : s.dev.pins.ppsLast = some x) : exec .ppsInLost s =
    if 1875000000 ≤ since s.clk x then nextDev s (raiseTb 8 { s.dev with pins := { s.dev.pins with ppsLast := none } }) else .next s := by
  have hx : exec .ppsInLost s = nextDev s (ppsLost s.clk s.dev) := rfl
  simp only [hx, ppsLost, h]
  split <;> rfl

/-- R31, R43, R404: PPS_OUT rises when all that its rise needs holds. -/
theorem exec_ppsOutRise (s : State) : exec .ppsOutRise s =
    if rb s.dev Reg.TB_PPS_CTL 0 = true ∧ rf s.dev Reg.TB_PPS_CTL 16 10 ≠ 0 ∧ awake s.dev = true ∧ due s.clk (wholeSecond s.clk) = true then
      nextDev s { s.dev with pins := { s.dev.pins with ppsOut := true, ppsRose := s.clk.ticks } }
    else .next s := by
  have hx : exec .ppsOutRise s = nextDev s (ppsRise s.clk s.dev) := rfl
  simp only [hx, ppsRise, Bool.and_eq_true, bne_iff_ne, ne_eq, and_assoc]
  split <;> rfl

/-- The outputs are driven from start-up on until a trip (R378, R404, R411). -/
theorem awake_iff (d : Dev) : awake d = true ↔ rb d Reg.SYS_STARTUP_STATUS 10 = true ∧ d.sys.tripped = false := by simp [awake]

/-- R31: PPS_OUT falls when its width has passed. -/
theorem exec_ppsOutFall (s : State) : exec .ppsOutFall s =
    if s.dev.pins.ppsOut = true ∧ min 999 (rf s.dev Reg.TB_PPS_CTL 16 10) * 1000000 * 2 ^ 48 ≤ since s.clk s.dev.pins.ppsRose * s.clk.tb.incr.toNat then
      nextDev s { s.dev with pins := { s.dev.pins with ppsOut := false } }
    else .next s := by
  have hx : exec .ppsOutFall s = nextDev s (ppsFall s.clk s.dev) := rfl
  simp only [hx, ppsFall, Bool.and_eq_true, decide_eq_true_eq]
  split <;> rfl

/-- Settles O11. -/
theorem referencesAndPps : Obligations.ReferencesAndPps := by
  have hev : Reg.TB_CTL ≠ Reg.TB_EVENT := by decide
  refine ⟨fun s h => ?_, fun s h => ?_, fun s => rfl, fun s h => ?_, fun x s hx h => ?_, fun s hen hw htrip hup hdue => ?_, fun s hout hspan => ?_,
    fun s => rfl, fun x s hx => ⟨exec_ppsInEdge_close hx, fun h => ?_⟩, fun s h => ?_, fun s h => ?_⟩
  · refine ⟨_, exec_refLoss h, rfl, ?_, ?_, rb_raiseTb 5 (by decide) _, ?_⟩
    · simp [wrBit, pllUnlock_refActive]
    · simp [rb_eq, rd_raiseTb_ne 5 _ hev]
    · have hlock := onlyThese_pllUnlock { s.dev with pins := { s.dev.pins with refActive := false } }
      exact (((hlock.trans (onlyThese_wr ..)).trans (onlyThese_raiseTb 5 _)).mono (by simp)).of_pins
  · exact ⟨_, exec_pllUnlock h, rfl, raiseTb_pins .., rb_raiseTb 6 (by decide) _, (onlyThese_raiseTb 6 _).of_pins⟩
  · refine ⟨_, exec_ppsInEdge h, rfl, ?_, ?_, rb_raiseTb 7 (by decide) _, raiseTb_pins .., ?_⟩
    · rw [rd64_raiseTb 7 _ (by decide) (by decide), rd64_wr64_same]
    · rw [rd_raiseTb_ne 7 _ (by decide), rd_wr64_ne _ _ (by decide) (by decide), rd_wr_same]
    · exact ((((onlyThese_wr ..).trans (onlyThese_wr64 ..)).trans (onlyThese_raiseTb 7 _)).mono (by decide)).of_pins
  · rw [exec_ppsInLost hx, if_pos h]
    exact ⟨_, rfl, rfl, rb_raiseTb 8 (by decide) _, raiseTb_pins .., (onlyThese_raiseTb 8 _).of_pins⟩
  · rw [exec_ppsOutRise, if_pos ⟨hen, hw, (awake_iff _).mpr ⟨hup, htrip⟩, hdue⟩]
  · rw [exec_ppsOutFall, if_pos ⟨hout, hspan⟩]
  · rw [exec_ppsInLost hx, if_neg (Nat.not_le.mpr h)]
  · rw [exec_ppsOutRise, if_neg]
    rintro ⟨hen, hw, hawake, hdue⟩
    obtain ⟨hup, htrip⟩ := (awake_iff _).mp hawake
    simp_all
  · rw [exec_ppsOutFall, if_neg]
    simp [h]

end Sys2Proof.Machine

/-!
# Event capture, periodic outputs and house sync (O12)
-/

namespace Sys2Proof.Machine

/-- R32: a selected edge is stamped, or dropped when it is too close to the last or the queue is full. -/
theorem exec_evtCapEdge {n : Fin 4} {rising : Bool} {s : State} (h : rb s.dev (Reg.TB_EVTCAP_CTL n) (if rising then 0 else 1) = true) :
    exec (.evtCapEdge n rising false) s = nextDev s (
      if tooClose s.clk (evtCap s.dev n).last = true ∨ 16 ≤ (evtCap s.dev n).queue.length then evtDrop n s.dev
      else setEvtCap n { queue := (evtCap s.dev n).queue ++ [(now s.clk, rising)], last := some s.clk.ticks } s.dev) := by
  refine congrArg (nextDev s) ?_
  simp [evtEdge, h]

/-- Field [31:16] of a word reads what was set, as far as it fits. -/
theorem fld_setFld_high (v : W32) (x : Nat) : fld (setFld v 16 16 x) 16 16 = x % 2 ^ 16 := by
  have hv := v.isLt
  simp only [fld, setFld, BitVec.toNat_ofNat]
  omega

/-- A saturating counter in field [31:16] of a register counts one more. -/
theorem rf_bumpFld_high (a : Nat) (d : Dev) : rf (bumpFld a 16 16 1 d) a 16 16 = min 0xFFFF (rf d a 16 16 + 1) := by
  simp only [rf, bumpFld, wrFld, rd_wr_same, fld_setFld_high]
  omega

theorem onlyThese_bumpFld (a lo len n : Nat) (d : Dev) : onlyThese [a] d (bumpFld a lo len n d) := onlyThese_wr ..

/-- A periodic output that was set reads so. -/
@[simp] theorem perOut_setPerOut_same (n : Nat) (p : PerOut) (d : Dev) : perOut (setPerOut n p d) n = p := by simp [perOut, setPerOut]

/-- Every other periodic output reads as before. -/
theorem perOut_setPerOut_ne {n m : Nat} (p : PerOut) (d : Dev) (h : m ≠ n) : perOut (setPerOut n p d) m = perOut d m := by
  simp [perOut, setPerOut, Tab.get_put_ne _ _ _ _ _ h]

/-- START of PER_OUT[n] (R33). -/
def perOutStart (d : Dev) (n : Nat) : Time := timeOf (rd64 d (Reg.TB_PEROUT_START_SEC_LO n)) (rd d (Reg.TB_PEROUT_START_NS n))

/-- A period is at least 10 ns (R33). -/
theorem le_perOutPeriod (d : Dev) (n : Nat) : 10 * ns1 ≤ perOutPeriod d n := by
  have h : (10 : Int) ≤ (max 10 ((rd64 d (Reg.TB_PEROUT_PERIOD_LO n)).toNat % 2 ^ 48) : Nat) := by exact_mod_cast le_max_left ..
  exact mul_le_mul_of_nonneg_right h (by decide)

/-- The last instant START + m × PERIOD at or before y is the one less than a period before it. -/
theorem lastInstant_eq {start period y : Int} {m : Nat} (hle : start + m * period ≤ y) (hlt : y < start + m * period + period) :
    (y - start) / period = m := by
  have hpos : 0 < period := by omega
  refine ((Int.ediv_emod_unique (r := y - start - m * period) hpos).mpr ⟨by ring, by omega, by omega⟩).1

/-- R33, time mode: the instant START + m × PERIOD that falls due at this tick is the edge of this tick. -/
theorem perOutEdge_of_due {n m : Nat} {k : Clk} {d : Dev} (hen : rb d (Reg.TB_PEROUT_CTL n) 0 = true)
    (hmode : rb d (Reg.TB_PEROUT_CTL n) 1 = false) (hincr : k.tb.incr.toNat < 10 * 2 ^ 48)
    (hdue : due k (perOutStart d n + m * perOutPeriod d n) = true) :
    perOutEdge n k d = some (perOutStart d n + m * perOutPeriod d n, perOutPeriod d n, none) := by
  obtain ⟨hle, hlt, -⟩ := of_decide_eq_true hdue
  have hperiod := le_perOutPeriod d n
  have hincr' : (k.tb.incr.toNat : Time) < 10 * ns1 := Int.ofNat_lt.mpr hincr
  have hpos : 0 ≤ m * perOutPeriod d n := mul_nonneg (Int.natCast_nonneg m) (le_trans (by decide) hperiod)
  have hlast := lastInstant_eq (period := perOutPeriod d n) hle (by linarith)
  have hstart : perOutStart d n ≤ now k := by linarith
  simp only [perOutEdge, hen, hmode]
  simp only [perOutStart] at hlast hdue hstart ⊢
  simp [hlast, hdue, hstart]

/-- R33: an edge of a pulse shorter than its period makes the output active, for its width. -/
theorem perOutActive_of_edge {n : Nat} {k : Clk} {d : Dev} {x period : Time} {b : Option Time} (hawake : awake d = true)
    (hedge : perOutEdge n k d = some (x, period, b)) (hw : rd d (Reg.TB_PEROUT_WIDTH n) ≠ 0)
    (hshort : (rd d (Reg.TB_PEROUT_WIDTH n)).toNat * ns1 < period) :
    perOutActive n k d = setPerOut n { active := true, offAt := some (x + (rd d (Reg.TB_PEROUT_WIDTH n)).toNat * ns1)
                                       served := (perOut d n).served.filter (fun t => decide (d.frm.lastB < t)) ++ b.toList } d := by
  have hw0 : ((rd d (Reg.TB_PEROUT_WIDTH n)).toNat : Int) * ns1 ≠ 0 := by
    have : (rd d (Reg.TB_PEROUT_WIDTH n)).toNat ≠ 0 := fun h => hw (BitVec.eq_of_toNat_eq h)
    simp [this, ns1]
  simp [perOutActive, hawake, hedge, hw0, not_le.mpr hshort]

/-- R404, R411: while its outputs rest the device makes no periodic output active. -/
theorem perOutActive_asleep {d : Dev} (n : Nat) (k : Clk) (h : awake d = false) : perOutActive n k d = d := by simp [perOutActive, h]

/-- R33: a pulse ends at the instant that its width gives. -/
theorem perOutInactive_of_due {n : Nat} {k : Clk} {d : Dev} {x : Time} (hx : (perOut d n).offAt = some x) (hdue : due k x = true) :
    perOutInactive n k d = setPerOut n { perOut d n with active := false, offAt := none } d := by
  simp [perOutInactive, hx, hdue]

/-- Raising a bit of FRM_EVENT sets it. -/
theorem rb_raiseFrm (i : Nat) (hi : i < 32) (d : Dev) : rb (raiseFrm i d) Reg.FRM_EVENT i = true := by
  simp [raiseFrm, rb_eq, bit_bitIf, hi]

/-- Raising a bit of FRM_EVENT leaves every other register. -/
theorem rd_raiseFrm_ne (i : Nat) (d : Dev) {a : Nat} (h : a ≠ Reg.FRM_EVENT) : rd (raiseFrm i d) a = rd d a := rd_raiseAt_ne d _ h

theorem onlyThese_raiseFrm (i : Nat) (d : Dev) : onlyThese [Reg.FRM_EVENT] d (raiseFrm i d) := onlyThese_raiseAt ..

@[simp] theorem raiseFrm_frm (i : Nat) (d : Dev) : (raiseFrm i d).frm = d.frm := raiseAt_frm ..

@[simp] theorem raiseFrm_mem (i : Nat) (d : Dev) : (raiseFrm i d).mem = d.mem := raiseAt_mem ..

@[simp] theorem raiseFrm_pins (i : Nat) (d : Dev) : (raiseFrm i d).pins = d.pins := raiseAt_pins ..

/-- A phase is measured, or drawn as a free value, and the rest of the device stays. -/
theorem hsyncPhase_frame (x : Time) (d : Dev) : ∃ i, (hsyncPhase x d).2 = { d with freeIdx := i } := by
  unfold hsyncPhase
  split
  · split
    · exact ⟨d.freeIdx, rfl⟩
    · exact ⟨d.freeIdx + 1, rfl⟩
  · exact ⟨d.freeIdx + 1, rfl⟩

/-- R42: the interval between two stamps, once a first edge has been measured. -/
theorem hsyncPeriod_of_last {x p : Time} {y : W64} {d : Dev} (h : d.pins.hsyncLast = some (p, y)) :
    hsyncPeriod x d = (w32 (min 0xFFFFFFFF ((x - p) / ns1).toNat), d) := by simp [hsyncPeriod, h]

/-- R42: a selected edge of house sync is stamped and measured. -/
theorem exec_houseSyncEdge {rising : Bool} {p : Time} {x : W64} {s : State} (hen : rb s.dev Reg.FRM_HSYNC_CTL 0 = true)
    (hpol : rb s.dev Reg.FRM_HSYNC_CTL 1 = !rising) (hlast : s.dev.pins.hsyncLast = some (p, x)) (hx : 10 ≤ since s.clk x) :
    ∃ i phase, exec (.houseSyncEdge rising false) s = nextDev s (raiseFrm 6 (
      let d := wr Reg.FRM_HSYNC_PERIOD (w32 (min 0xFFFFFFFF ((now s.clk - p) / ns1).toNat)) (wr Reg.FRM_HSYNC_PHASE phase { s.dev with freeIdx := i })
      { d with pins := { s.dev.pins with hsyncLast := some (now s.clk, s.clk.ticks), hsyncSince := some s.clk.ticks } })) := by
  obtain ⟨i, hi⟩ := hsyncPhase_frame (now s.clk) s.dev
  have hfar : tooClose s.clk (s.dev.pins.hsyncLast.map (·.2)) = false := tooClose_false fun y hy => by
    rw [hlast] at hy
    cases hy
    exact hx
  have hperiod := hsyncPeriod_of_last (x := now s.clk) (d := { s.dev with freeIdx := i }) hlast
  refine ⟨i, (hsyncPhase (now s.clk) s.dev).1, congrArg (nextDev s) ?_⟩
  have hsel : (rb s.dev Reg.FRM_HSYNC_CTL 1 == rising) = false := by rw [hpol]; cases rising <;> rfl
  simp only [hsyncEdge, hen, hsel, hfar, hperiod, hi]
  rfl

/-- R42: the loss of house sync. -/
theorem exec_hsyncLost {x : W64} {s : State} (h : s.dev.pins.hsyncSince = some x) (hen : rb s.dev Reg.FRM_HSYNC_CTL 0 = true)
    (hx : 1250000000 ≤ since s.clk x) :
    exec .hsyncLost s = nextDev s (raiseFrm 7 { s.dev with pins := { s.dev.pins with hsyncSince := none } }) := by
  refine congrArg (nextDev s) ?_
  simp [hsyncLost, h, hen, hx]

/-- Settles O12. -/
theorem captureAndPeriodic : Obligations.CaptureAndPeriodic := by
  refine ⟨fun n rising s hsel hfar hroom => ?_, fun n rising s hsel hfull => ?_,
    fun n m s hen hmode hw hshort hle hlt hfloor hincr htrip hup => ?_, fun n s h => ?_, fun n x s hx hdue => ?_,
    fun rising p x s hen hpol hlast hx => ?_, fun x s h hen hx => ?_⟩
  · have hnot : ¬(tooClose s.clk (evtCap s.dev n).last = true ∨ 16 ≤ (evtCap s.dev n).queue.length) := by
      simp [tooClose_false hfar, hroom]
    rw [exec_evtCapEdge hsel, if_neg hnot]
    refine ⟨_, rfl, rfl, ?_, rfl, fun m hm => evtCap_setEvtCap_ne _ _ (Fin.val_ne_of_ne hm)⟩
    rw [evtCap_setEvtCap_same]
  · rw [exec_evtCapEdge hsel, if_pos (.inr hfull)]
    have hplace : Reg.TB_EVTCAP_STAT n ≠ Reg.TB_EVENT := by simp only [Reg.TB_EVTCAP_STAT, Reg.TB_EVENT]; omega
    refine ⟨_, rfl, rfl, rb_raiseTb 9 (by decide) _, ?_, ?_⟩
    · rw [rf, evtDrop, rd_raiseTb_ne 9 _ hplace]
      exact rf_bumpFld_high ..
    · exact ((onlyThese_bumpFld ..).trans (onlyThese_raiseTb 9 _)).mono (by simp)
  · have hdue := decide_eq_true (And.intro hle (And.intro hlt hfloor))
    have hedge := perOutEdge_of_due hen hmode hincr hdue
    have hx : exec (.perOutActiveEdge n) s = nextDev s (perOutActive n s.clk s.dev) := rfl
    rw [hx, perOutActive_of_edge ((awake_iff _).mpr ⟨hup, htrip⟩) hedge hw hshort]
    refine ⟨_, rfl, rfl, ?_, ?_, rfl, fun i hi => perOut_setPerOut_ne _ _ (Fin.val_ne_of_ne hi)⟩ <;> rw [perOut_setPerOut_same]
    rfl
  · have hasleep : awake s.dev = false := Bool.eq_false_iff.mpr fun hawake => by
      obtain ⟨hup, htrip⟩ := (awake_iff _).mp hawake
      simp_all
    exact congrArg (nextDev s) (perOutActive_asleep n s.clk hasleep)
  · have hexec : exec (.perOutInactiveEdge n) s = nextDev s (perOutInactive n s.clk s.dev) := rfl
    rw [hexec, perOutInactive_of_due hx hdue]
    refine ⟨_, rfl, rfl, ?_, rfl, fun i hi => perOut_setPerOut_ne _ _ (Fin.val_ne_of_ne hi)⟩
    rw [perOut_setPerOut_same]
  · obtain ⟨i, phase, hexec⟩ := exec_houseSyncEdge hen hpol hlast hx
    refine ⟨_, hexec, rfl, ?_, rb_raiseFrm 6 (by decide) _, raiseFrm_frm .., raiseFrm_mem .., ?_⟩
    · rw [rd_raiseFrm_ne 6 _ (by decide)]
      exact rd_wr_same ..
    · intro a ha
      simp only [List.mem_cons, List.not_mem_nil, or_false, not_or] at ha
      obtain ⟨hperiod, hphase, hevent⟩ := ha
      rw [rd_raiseFrm_ne 6 _ hevent]
      exact (rd_wr_ne _ _ hperiod).trans (rd_wr_ne _ _ hphase)
  · exact ⟨_, exec_hsyncLost h hen hx, rfl, rb_raiseFrm 7 (by decide) _, raiseFrm_frm .., (onlyThese_raiseFrm 7 _).of_pins⟩

end Sys2Proof.Machine

/-!
# What write-backs and messages leave (O9)

A step of show time writes descriptors back to memory and sends messages to the partner. Neither reaches the registers of the timebase and of
the frame clock, the ports' counts of discarded frames, the frame clock's state or a launch calendar: `Aside` says so of an update.
-/

namespace Sys2Proof.Machine

/-- A place of the timebase's registers. -/
abbrev tbPlace (a : Nat) : Prop := 0x10000 ≤ a ∧ a < 0x18000

/-- A place of the frame clock's registers. -/
abbrev frmPlace (a : Nat) : Prop := 0x18000 ≤ a ∧ a < 0x19000

/-- The places that write-backs and messages leave: the timebase's, the frame clock's, and the ports' counts of discarded frames. -/
def keptPlace (a : Nat) : Prop := tbPlace a ∨ frmPlace a ∨ ∃ p < 10, a = Reg.SPORT_LQ_DISCARD p

/-- From d to e the registers at the places above, the frame clock and the calendars are left. -/
structure Aside (d e : Dev) : Prop where
  regs : ∀ a, keptPlace a → rd e a = rd d a
  frm : e.frm = d.frm
  cal : ∀ p, (port e p).cal = (port d p).cal

theorem Aside.refl (d : Dev) : Aside d d := ⟨fun _ _ => rfl, rfl, fun _ => rfl⟩

/-- An update of other parts of the device leaves all of these. -/
theorem Aside.of_eq {d e : Dev} (hregs : e.regs = d.regs) (hfrm : e.frm = d.frm) (hports : e.ports = d.ports) : Aside d e :=
  ⟨fun a _ => rd_congr hregs a, hfrm, fun p => by rw [port, hports]; rfl⟩

theorem Aside.trans {d e f : Dev} (h : Aside d e) (g : Aside e f) : Aside d f :=
  ⟨fun a ha => (g.regs a ha).trans (h.regs a ha), g.frm.trans h.frm, fun p => (g.cal p).trans (h.cal p)⟩

theorem Aside.forEach {α : Type} {f : α → Dev → Dev} (h : ∀ x d, Aside d (f x d)) (l : List α) (d : Dev) : Aside d (forEach l f d) :=
  forEach_inv d (Aside d) f (fun x _ hd => hd.trans (h x _)) l (.refl d)

theorem Aside.when {c : Bool} {f : Dev → Dev} {d : Dev} (h : Aside d (f d)) : Aside d (when c f d) := by
  unfold Machine.when
  split
  · exact h
  · exact .refl d

theorem Aside.ite {c : Prop} [Decidable c] {d e f : Dev} (h : Aside d e) (g : Aside d f) : Aside d (if c then e else f) := by
  split
  · exact h
  · exact g

theorem Aside.wr {a : Nat} (v : W32) (d : Dev) (h : ¬keptPlace a) : Aside d (wr a v d) :=
  ⟨fun _ hb => rd_wr_ne d v fun e => h (e ▸ hb), rfl, fun _ => rfl⟩

theorem Aside.raiseAt {ev : Nat} (n : Nat) (mask : W32) (d : Dev) (h : ¬keptPlace ev) : Aside d (raiseAt n ev mask d) :=
  ⟨fun _ hb => rd_raiseAt_ne d mask fun e => h (e ▸ hb), raiseAt_frm .., fun p => by rw [port, raiseAt_ports]; rfl⟩

/-- Beyond the frame clock's registers a place below the ports' is not kept. -/
theorem not_keptPlace_below {a : Nat} (hlo : 0x19000 ≤ a) (hhi : a < 0xA0000) : ¬keptPlace a := by
  rintro (⟨-, h⟩ | ⟨-, h⟩ | ⟨p, hp, rfl⟩)
  · omega
  · omega
  · simp only [Reg.SPORT_LQ_DISCARD, Reg.portBase] at hhi
    split at hhi <;> omega

/-- Nor is one beyond the ports'. -/
theorem not_keptPlace_above {a : Nat} (h : 0xB4000 ≤ a) : ¬keptPlace a := by
  rintro (⟨-, h'⟩ | ⟨-, h'⟩ | ⟨p, hp, rfl⟩)
  · omega
  · omega
  · simp only [Reg.SPORT_LQ_DISCARD, Reg.portBase] at h
    split at h <;> omega

/-- Nor is one whose offset in its block of 4 KiB is not that of the counts of discarded frames. -/
theorem not_keptPlace_offset {a : Nat} (hlo : 0x19000 ≤ a) (h : a % 0x1000 ≠ 0x20) : ¬keptPlace a := by
  rintro (⟨-, h'⟩ | ⟨-, h'⟩ | ⟨p, hp, rfl⟩)
  · omega
  · omega
  · simp only [Reg.SPORT_LQ_DISCARD, Reg.portBase] at h
    split at h <;> omega

/-! Performance monitors and memory. -/

theorem pmon_aside (src n : Nat) (d : Dev) : Aside d (pmon src n d) :=
  .when (.forEach (fun i d => .when ((Aside.wr _ d (not_keptPlace_above (by simp only [Reg.PMON_CNT_LO]; omega))).trans
    (.wr _ _ (not_keptPlace_above (by simp only [Reg.PMON_CNT_LO]; omega))))) _ d)

theorem raiseKet_aside (i : Nat) (d : Dev) : Aside d (raiseKet i d) := .raiseAt _ _ d (not_keptPlace_below (by decide) (by decide))

theorem noteSingle_aside (w : Nat) (d : Dev) : Aside d (noteSingle w d) := by
  have hecc : Aside d (setErr w .none d) := .of_eq rfl rfl rfl
  have hcount : Aside _ (bumpSat Reg.KET_CE_COUNT 1 (setErr w .none d)) := .wr _ _ (not_keptPlace_below (by decide) (by decide))
  exact .ite (((hecc.trans hcount).trans (pmon_aside ..)).trans (raiseKet_aside ..)) hecc

theorem noteMulti_aside (w : Nat) (d : Dev) : Aside d (noteMulti w d) := by
  unfold noteMulti
  split
  · have haddr : Aside d (when (!rb d Reg.KET_EVENT 1) (wr Reg.KET_UE_ADDR (w32 (w * 8 - ketBase))) d) :=
      .when (.wr _ _ (not_keptPlace_below (by decide) (by decide)))
    exact (haddr.trans (.wr _ _ (not_keptPlace_below (by decide) (by decide)))).trans (raiseKet_aside ..)
  · exact .refl d

theorem touchWrite_aside (a n w : Nat) (d : Dev) : Aside d (touchWrite a n w d) := by
  have hecc : Aside d (setErr w .none d) := .of_eq rfl rfl rfl
  unfold touchWrite
  split
  · exact .refl d
  · exact .ite hecc (noteSingle_aside ..)
  · exact .ite hecc (.ite ((noteMulti_aside ..).trans (raiseKet_aside ..)) (.refl d))

theorem putBytes_aside (a : Nat) (bs : List W8) (d : Dev) : Aside d (putBytes a bs d) := by
  induction bs generalizing a d with
  | nil => exact .refl d
  | cons b r ih =>
    have hmem : Aside d { d with mem := Tab.put 0 d.mem a b } := .of_eq rfl rfl rfl
    exact hmem.trans (ih ..)

theorem tearHead_aside (rs : List (Nat × Nat)) (h : Nat) (d : Dev) : Aside d (tearHead rs h d) := by
  simp only [tearHead]
  split
  · exact .refl d
  · split
    · exact .refl d
    · split
      · exact .refl d
      · refine ((((Aside.when ?_).trans (.wr _ _ ?_)).trans (pmon_aside ..)).trans (.raiseAt _ _ _ ?_))
        · exact .wr _ _ (not_keptPlace_offset (by simp only [Reg.RHEAD_TEAR_INFO]; omega) (by simp only [Reg.RHEAD_TEAR_INFO]; omega))
        · exact not_keptPlace_offset (by simp only [Reg.RHEAD_TEAR_COUNT]; omega) (by simp only [Reg.RHEAD_TEAR_COUNT]; omega)
        · exact not_keptPlace_offset (by simp only [Reg.RHEAD_EVENT]; omega) (by simp only [Reg.RHEAD_EVENT]; omega)

theorem storeRange_aside (a : Nat) (bs : List W8) (d : Dev) : Aside d (storeRange a bs d) :=
  (Aside.forEach (fun w d => touchWrite_aside a _ w d) _ d).trans (putBytes_aside ..)

/-- A write to memory. -/
theorem store_aside (a : Nat) (bs : List W8) (d : Dev) : Aside d (store a bs d) :=
  (Aside.forEach (f := fun x d => storeRange x.1 x.2 d) (fun x d => storeRange_aside x.1 x.2 d) [(a, bs)] d).trans
    (.forEach (fun h d => tearHead_aside _ h d) _ _)

/-! Write-backs (R196, R198). -/

theorem writeBack_aside (desc status coll : Nat) (d : Dev) : Aside d (writeBack desc status coll d) := store_aside ..

/-- Every other port reads as before. -/
theorem port_onPort_ne {p q : Nat} (f : Port → Port) (d : Dev) (h : q ≠ p) : port (onPort p f d) q = port d q := by
  simp [port, onPort, setPort, Tab.get_put_ne _ _ _ _ _ h]

/-- A port that was updated reads so. -/
@[simp] theorem port_onPort_same (p : Nat) (f : Port → Port) (d : Dev) : port (onPort p f d) p = f (port d p) := by simp [port, onPort, setPort]

theorem Aside.onPort {p : Nat} {f : Port → Port} {d : Dev} (h : (f (port d p)).cal = (port d p).cal) : Aside d (onPort p f d) := by
  refine ⟨fun _ _ => rfl, rfl, fun q => ?_⟩
  by_cases hq : q = p
  · rw [hq, port_onPort_same, h]
  · rw [port_onPort_ne _ _ hq]

theorem flushRing_aside (p q : Nat) (d : Dev) : Aside d (flushRing p q d) := by
  refine .forEach (fun x d => ?_) _ d
  split
  · exact (Aside.onPort rfl).trans (writeBack_aside ..)
  · exact .refl _

theorem txqDone_aside (p q desc status coll : Nat) (d : Dev) : Aside d (txqDone p q desc status coll d) :=
  (Aside.onPort rfl).trans (flushRing_aside ..)

theorem raiseTx_aside (p i : Nat) (d : Dev) : Aside d (raiseTx p i d) := by
  refine .raiseAt _ _ d (not_keptPlace_offset ?_ ?_) <;> simp only [Reg.SPORT_TX_EVENT, Reg.portBase] <;> split <;> omega

/-! Messages to the partner (R273 to R276, R279). -/

theorem onPair_aside (f : Pair → Pair) (d : Dev) : Aside d (onPair f d) := .of_eq rfl rfl rfl

theorem cricketSend_aside (chan : Nat) (data : List W8) (k : Clk) (d : Dev) : Aside d (cricketSend chan data k d) := by
  refine .ite ((onPair_aside _ d).trans (.forEach (fun _ d => ?_) _ _)) (.refl d)
  split
  · exact .ite ((onPair_aside _ d).trans (pmon_aside ..)) (.refl d)
  · exact .refl d

theorem tellFrame_aside (k : Clk) (d : Dev) : Aside d (tellFrame k d) := by
  unfold tellFrame
  split
  · exact cricketSend_aside ..
  · exact .refl d

theorem tellStep_aside (kind : Nat) (x : Time) (k : Clk) (d : Dev) : Aside d (tellStep kind x k d) :=
  .ite ((cricketSend_aside ..).trans (tellFrame_aside ..)) (.refl d)

/-! What a step does to the periodic outputs, the DMX lines and the packer's assembly (R27, R41). -/

theorem dmxStepBack_aside (k : Clk) (d : Dev) : Aside d (dmxStepBack k d) := by
  refine Aside.forEach (fun n d => ?_) (List.range 16) d
  dsimp only
  split
  · exact .of_eq rfl rfl rfl
  · exact .refl d

theorem perOutRecur_aside (d : Dev) : Aside d (perOutRecur d) :=
  Aside.forEach (f := fun n d => setPerOut n { perOut d n with served := [] } d) (fun _ _ => .of_eq rfl rfl rfl) (List.range 4) d

theorem sacnSkip_aside (last next : W64) (d : Dev) : Aside d (sacnSkip last next d) := .of_eq rfl rfl rfl

theorem dmxSkip_aside (last next : W64) (d : Dev) : Aside d (dmxSkip last next d) := .of_eq rfl rfl rfl

end Sys2Proof.Machine

/-!
# Frames that a step passes over (R27, R40)

Frames that wait in the calendars leave them, counted port by port and written back STEPPED_OVER.
-/

namespace Sys2Proof.Machine

/-- The counts of discarded frames of two ports lie at two places. -/
theorem lqDiscard_inj {p q : Nat} (hp : p < 10) (hq : q < 10) (h : Reg.SPORT_LQ_DISCARD p = Reg.SPORT_LQ_DISCARD q) : p = q := by
  simp only [Reg.SPORT_LQ_DISCARD, Reg.portBase] at h
  split at h <;> split at h <;> omega

/-- A count of discarded frames is no register of the timebase or of the frame clock. -/
theorem lqDiscard_ge (p : Nat) : 0xA0020 ≤ Reg.SPORT_LQ_DISCARD p := by
  simp only [Reg.SPORT_LQ_DISCARD, Reg.portBase]
  split <;> omega

/-- From d to e port p counts n more discarded frames; the other places that `Aside` speaks of, the frame clock and the calendars are left. -/
structure Counts (p n : Nat) (d e : Dev) : Prop where
  regs : ∀ a, keptPlace a → a ≠ Reg.SPORT_LQ_DISCARD p → rd e a = rd d a
  frm : e.frm = d.frm
  cal : ∀ q, (port e q).cal = (port d q).cal
  count : (rd e (Reg.SPORT_LQ_DISCARD p)).toNat = min (2 ^ 32 - 1) ((rd d (Reg.SPORT_LQ_DISCARD p)).toNat + n)

theorem Aside.counts {d e : Dev} {p : Nat} (hp : p < 10) (h : Aside d e) : Counts p 0 d e := by
  refine ⟨fun a ha _ => h.regs a ha, h.frm, h.cal, ?_⟩
  rw [h.regs _ (.inr (.inr ⟨p, hp, rfl⟩))]
  have := (rd d (Reg.SPORT_LQ_DISCARD p)).isLt
  omega

theorem Counts.trans {p m n : Nat} {d e f : Dev} (h : Counts p m d e) (g : Counts p n e f) : Counts p (m + n) d f := by
  refine ⟨fun a ha hne => (g.regs a ha hne).trans (h.regs a ha hne), g.frm.trans h.frm, fun q => (g.cal q).trans (h.cal q), ?_⟩
  rw [g.count, h.count]
  omega

/-- The saturating counter itself (R308). -/
theorem counts_bumpSat (p : Nat) (d : Dev) : Counts p 1 d (bumpSat (Reg.SPORT_LQ_DISCARD p) 1 d) := by
  refine ⟨fun a _ hne => rd_wr_ne _ _ hne, rfl, fun _ => rfl, ?_⟩
  rw [bumpSat, rd_wr_same, w32, BitVec.toNat_ofNat]
  omega

/-- A ring's frame that is stepped over: counted, reported and written back (R27, R198). -/
theorem outcome_steppedOver_ring {p q desc : Nat} {f : TxFrame} {d : Dev} (h : f.origin = .ring q desc) : outcome p f true 0x10 d =
    if q = 8 then writeBack desc 0x10 f.coll (raiseTx p 4 (bumpSat (Reg.SPORT_LQ_DISCARD p) 1 d))
    else txqDone p q desc 0x10 f.coll (raiseTx p 4 (bumpSat (Reg.SPORT_LQ_DISCARD p) 1 d)) := by
  simp [outcome, when, statusEvent, h]

/-- A packer's frame that is stepped over has no descriptor. -/
theorem outcome_steppedOver_packer {p kind id : Nat} {n : W64} {f : TxFrame} {d : Dev} (h : f.origin = .packer kind id n) :
    outcome p f true 0x10 d = raiseTx p 4 (bumpSat (Reg.SPORT_LQ_DISCARD p) 1 d) := by
  simp [outcome, when, statusEvent, h]

/-- A frame that is stepped over counts one. -/
theorem outcome_steppedOver_counts {p : Nat} (hp : p < 10) (f : TxFrame) (d : Dev) : Counts p 1 d (outcome p f true 0x10 d) := by
  have hraise : Counts p 1 d (raiseTx p 4 (bumpSat (Reg.SPORT_LQ_DISCARD p) 1 d)) :=
    (counts_bumpSat p d).trans ((raiseTx_aside ..).counts hp)
  cases h : f.origin with
  | ring q desc =>
    rw [outcome_steppedOver_ring h]
    split
    · exact hraise.trans ((writeBack_aside ..).counts hp)
    · exact hraise.trans ((txqDone_aside ..).counts hp)
  | packer kind id n =>
    rw [outcome_steppedOver_packer h]
    exact hraise

/-- Frames that are stepped over count one each. -/
theorem outcomes_steppedOver_counts {p : Nat} (hp : p < 10) (l : List Admitted) (d : Dev) :
    Counts p l.length d (forEach l (fun a => outcome p a.frame true 0x10) d) := by
  induction l generalizing d with
  | nil => exact (Aside.refl d).counts hp
  | cons a r ih =>
    have h := (outcome_steppedOver_counts hp a.frame d).trans (ih (outcome p a.frame true 0x10 d))
    rwa [Nat.add_comm] at h

/-- The frames that a discard takes: those that wait and that `sel` selects. -/
def taken (sel : Admitted → Bool) (a : Admitted) : Bool := a.fate == .waiting && sel a

theorem taken_false : taken (fun _ => false) = fun _ => false := by
  funext a
  simp [taken]

/-- From d to e port p loses the frames that `sel` takes, and counts them. -/
def PortDiscards (sel : Admitted → Bool) (p : Nat) (d e : Dev) : Prop :=
  (port e p).cal = (port d p).cal.filter (fun a => !taken sel a)
    ∧ (rd e (Reg.SPORT_LQ_DISCARD p)).toNat
        = min (2 ^ 32 - 1) ((rd d (Reg.SPORT_LQ_DISCARD p)).toNat + ((port d p).cal.filter (taken sel)).length)

/-- From d to e port p keeps its calendar and its count. -/
def PortKeeps (p : Nat) (d e : Dev) : Prop :=
  (port e p).cal = (port d p).cal ∧ rd e (Reg.SPORT_LQ_DISCARD p) = rd d (Reg.SPORT_LQ_DISCARD p)

theorem Aside.portKeeps {d e : Dev} {p : Nat} (hp : p < 10) (h : Aside d e) : PortKeeps p d e :=
  ⟨h.cal p, h.regs _ (.inr (.inr ⟨p, hp, rfl⟩))⟩

theorem PortKeeps.discards {sel : Admitted → Bool} {p : Nat} {d e f : Dev} (h : PortKeeps p d e) (g : PortDiscards sel p e f) :
    PortDiscards sel p d f := by
  rwa [PortDiscards, h.1, h.2] at g

theorem PortDiscards.keeps {sel : Admitted → Bool} {p : Nat} {d e f : Dev} (h : PortDiscards sel p d e) (g : PortKeeps p e f) :
    PortDiscards sel p d f := by
  rwa [PortDiscards, g.1, g.2]

/-- A discard that takes no frame keeps the port. -/
theorem PortKeeps.discards_none {p : Nat} {d e : Dev} (h : PortKeeps p d e) : PortDiscards (fun _ => false) p d e := by
  have := (rd d (Reg.SPORT_LQ_DISCARD p)).isLt
  refine ⟨?_, ?_⟩
  · simp [h.1, taken_false]
  · simp only [h.2, taken_false, List.filter_false, List.length_nil]
    omega

/-- What a discard of stepped-over frames changes: their port's calendar and count. -/
structure Discards (ports : List Nat) (sel : Admitted → Bool) (d e : Dev) : Prop where
  regs : ∀ a, tbPlace a ∨ frmPlace a → rd e a = rd d a
  frm : e.frm = d.frm
  taken : ∀ p < 10, p ∈ ports → PortDiscards sel p d e
  kept : ∀ p < 10, p ∉ ports → PortKeeps p d e

theorem calDiscard_discards {p : Nat} (hp : p < 10) (sel : Admitted → Bool) (d : Dev) : Discards [p] sel d (calDiscard p 0x10 sel d) := by
  have h := outcomes_steppedOver_counts hp ((port d p).cal.filter (taken sel))
    (onPort p (fun x => { x with cal := x.cal.filter fun a => !taken sel a }) d)
  refine ⟨fun a ha => ?_, h.frm, fun q _ hq => ?_, fun q hq10 hq => ?_⟩
  · refine h.regs a (ha.imp_right .inl) fun e => ?_
    have := lqDiscard_ge p
    rcases ha with ⟨-, ha⟩ | ⟨-, ha⟩ <;> omega
  · rw [List.mem_singleton.mp hq]
    refine ⟨(h.cal p).trans ?_, h.count⟩
    rw [port_onPort_same]
  · have hne : q ≠ p := fun e => hq (List.mem_singleton.mpr e)
    refine ⟨(h.cal q).trans ?_, h.regs _ (.inr (.inr ⟨q, hq10, rfl⟩)) fun e => hne (lqDiscard_inj hq10 hp e)⟩
    rw [port_onPort_ne _ _ hne]

theorem forEach_cons {α : Type} (x : α) (l : List α) (f : α → Dev → Dev) (d : Dev) : forEach (x :: l) f d = forEach l f (f x d) := rfl

/-- Discards on different ports do not meet. -/
theorem forEach_calDiscard_discards (sel : Admitted → Bool) {l : List Nat} (hl : ∀ p ∈ l, p < 10) (hnd : l.Nodup) (d : Dev) :
    Discards l sel d (forEach l (fun p => calDiscard p 0x10 sel) d) := by
  induction l generalizing d with
  | nil => exact ⟨fun _ _ => rfl, rfl, fun _ _ h => (nomatch h), fun _ _ _ => ⟨rfl, rfl⟩⟩
  | cons p r ih =>
    obtain ⟨hpr, hr⟩ := List.nodup_cons.mp hnd
    have h := calDiscard_discards (hl p List.mem_cons_self) sel d
    have g := ih (fun q hq => hl q (List.mem_cons_of_mem p hq)) hr (calDiscard p 0x10 sel d)
    rw [forEach_cons]
    refine ⟨fun a ha => (g.regs a ha).trans (h.regs a ha), g.frm.trans h.frm, fun q hq10 hq => ?_, fun q hq10 hq => ?_⟩
    · rcases List.mem_cons.mp hq with rfl | hqr
      · exact (h.taken q hq10 List.mem_cons_self).keeps (g.kept q hq10 hpr)
      · have hne : q ∉ [p] := fun e => hpr (List.mem_singleton.mp e ▸ hqr)
        exact (h.kept q hq10 hne).discards (g.taken q hq10 hqr)
    · obtain ⟨hqp, hqr⟩ := not_or.mp (mt List.mem_cons.mpr hq)
      obtain ⟨hcal, hcount⟩ := h.kept q hq10 (mt List.mem_singleton.mp hqp)
      obtain ⟨gcal, gcount⟩ := g.kept q hq10 hqr
      exact ⟨gcal.trans hcal, gcount.trans hcount⟩

/-- Discards on every port. -/
theorem calDiscard_all (sel : Admitted → Bool) (d : Dev) :
    Discards (List.range 10) sel d (forEach (List.range 10) (fun p => calDiscard p 0x10 sel) d) :=
  forEach_calDiscard_discards sel (fun _ => List.mem_range.mp) List.nodup_range d

/-- A discard of one frame from the LQ ring (R27, R198). -/
theorem calDiscard_single {p desc : Nat} {a : Admitted} {sel : Admitted → Bool} {d : Dev} (hcal : (port d p).cal.filter (taken sel) = [a])
    (horigin : a.frame.origin = .ring 8 desc) : calDiscard p 0x10 sel d = writeBack desc 0x10 a.frame.coll (raiseTx p 4
      (bumpSat (Reg.SPORT_LQ_DISCARD p) 1 (onPort p (fun x => { x with cal := x.cal.filter fun y => !taken sel y }) d))) := by
  have h : calDiscard p 0x10 sel d = forEach ((port d p).cal.filter (taken sel)) (fun a => outcome p a.frame true 0x10)
      (onPort p (fun x => { x with cal := x.cal.filter fun y => !taken sel y }) d) := rfl
  rw [h, hcal]
  exact (outcome_steppedOver_ring horigin).trans (if_pos rfl)

end Sys2Proof.Machine

/-!
# The frame clock after a step (R27, R39 to R41, R414)

`afterStep` does the work that a step passes over or brings again (`stepWork`), and then moves the frame clock: one equation for each case of
R39 to R41.
-/

namespace Sys2Proof.Machine

/-- What a step to the present show time does to scheduled work: frames passed over are discarded, and recurring instants come again (R27). -/
def stepWork (old : Time) (k : Clk) (d : Dev) : Dev :=
  when (decide (now k < old)) (fun d => perOutRecur (dmxStepBack k d))
    (when (decide (old < now k)) (forEach (List.range 10) (fun p => calDiscard p 0x10 (fun a => decide (a.ws < nowW k)))) d)

/-- An update that leaves all of these discards no frame. -/
theorem Aside.discards {d e : Dev} (h : Aside d e) : Discards (List.range 10) (fun _ => false) d e :=
  ⟨fun a ha => h.regs a (ha.imp_right .inl), h.frm, fun _ hp _ => (h.portKeeps hp).discards_none, fun _ hp _ => h.portKeeps hp⟩

/-- A forward step discards the frames whose window starts before the new show time. -/
theorem stepWork_discards (old : Time) (k : Clk) (d : Dev) :
    Discards (List.range 10) (fun a => decide (old < now k) && decide (a.ws < nowW k)) d (stepWork old k d) := by
  by_cases hfwd : old < now k
  · have hback : ¬now k < old := not_lt.mpr hfwd.le
    simp only [stepWork, when, hfwd, hback, decide_true, decide_false, Bool.true_and, if_true, Bool.false_eq_true, if_false]
    exact calDiscard_all _ d
  · simp only [stepWork, hfwd, decide_false, Bool.false_and]
    exact Aside.discards (.when ((dmxStepBack_aside k _).trans (perOutRecur_aside _)))

section
variable {old : Time} {valid : Bool} {k : Clk} {d : Dev} {g : Grid}

theorem stepWork_frm (old : Time) (k : Clk) (d : Dev) : (stepWork old k d).frm = d.frm := (stepWork_discards old k d).frm

/-- The work of a step leaves the registers of the frame clock. -/
theorem rd_stepWork (old : Time) (k : Clk) (d : Dev) {a : Nat} (h : frmPlace a) : rd (stepWork old k d) a = rd d a :=
  (stepWork_discards old k d).regs a (.inr h)

/-- The frame clock moves once the work is done. -/
theorem afterStep_eq (old : Time) (valid : Bool) (k : Clk) (d : Dev) : afterStep old valid k d =
    match (stepWork old k d).frm.run with
    | none => stepWork old k d
    | some g =>
      if !(stepWork old k d).frm.firstDone then (if now k = old ∧ valid then stepWork old k d else chooseFirst k (stepWork old k d))
      else if now k < old then stepBack g k (stepWork old k d)
      else if old < now k then stepOver g k (stepWork old k d)
      else stepWork old k d := rfl

/-- With no grid in use the frame clock stands. -/
theorem afterStep_noRun (hrun : d.frm.run = none) : afterStep old valid k d = stepWork old k d := by
  rw [afterStep_eq, stepWork_frm, hrun]

/-- Before a run's first boundary a move chooses that boundary afresh (R37, R414). -/
theorem afterStep_waiting (hrun : d.frm.run = some g) (hfirst : d.frm.firstDone = false) : afterStep old valid k d =
    if now k = old ∧ valid then stepWork old k d else onFrm (fun x => { x with next := g.firstFrom (now k) }) (stepWork old k d) := by
  rw [afterStep_eq, stepWork_frm, hrun]
  simp [hfirst, chooseFirst, stepWork_frm, hrun]

/-- After a backward step (R39, R40). -/
theorem afterStep_back (hrun : d.frm.run = some g) (hfirst : d.frm.firstDone = true) (h : now k < old) :
    afterStep old valid k d = stepBack g k (stepWork old k d) := by
  rw [afterStep_eq, stepWork_frm, hrun]
  simp [hfirst, h]

/-- After a forward step (R41). -/
theorem afterStep_forward (hrun : d.frm.run = some g) (hfirst : d.frm.firstDone = true) (h : old < now k) :
    afterStep old valid k d = stepOver g k (stepWork old k d) := by
  rw [afterStep_eq, stepWork_frm, hrun]
  simp [hfirst, h, not_lt.mpr h.le]

/-- A set to the present show time moves nothing. -/
theorem afterStep_same (hrun : d.frm.run = some g) (hfirst : d.frm.firstDone = true) (h : now k = old) :
    afterStep old valid k d = stepWork old k d := by
  rw [afterStep_eq, stepWork_frm, hrun]
  simp [hfirst, h]

/-! A backward step (R39, R40). -/

/-- A step back from `old` to x makes the frame clock hold: it goes back behind the last boundary, by no more than FRM_HOLD_MAX, and the policy
allows it. -/
def holdsBack (old x : Time) (d : Dev) : Bool :=
  (d.frm.run.isSome && d.frm.firstDone) && decide (x < old) && decide (x < d.frm.lastB) && !rb d Reg.FRM_STEP_POLICY 0
    && decide (d.frm.lastB - x ≤ (rd d Reg.FRM_HOLD_MAX).toNat * 1000 * ns1)

/-- A step back behind the last boundary that does not hold renumbers. -/
def renumbersBack (old x : Time) (d : Dev) : Bool :=
  (d.frm.run.isSome && d.frm.firstDone) && decide (x < old) && decide (x < d.frm.lastB) && !holdsBack old x d

/-- The frame clock holds. -/
def holdNow (d : Dev) : Dev := raiseFrm 0 (bump Reg.FRM_HOLD_COUNT 1 (onFrm (fun x => { x with holding := true }) d))

/-- The frame clock renumbered, before its frames leave the calendars. -/
def renumbered (g : Grid) (k : Clk) (d : Dev) : Dev :=
  let d := when d.frm.holding (fun d => raiseFrm 1 (onFrm (fun x => { x with holding := false }) d)) d
  raiseFrm 2 (bump Reg.FRM_RENUMBER_COUNT 1
    (onFrm (fun x => { forgetSkip x with next := g.firstFrom (now k), bias := x.lastFrame + 1 - w64 (g.firstFrom (now k)) }) d))

/-- A step back that ends at or after the last boundary moves nothing. -/
theorem stepBack_after (h : d.frm.lastB ≤ now k) : stepBack g k d = d := by
  have hspan : d.frm.lastB - now k ≤ 0 := Int.sub_nonpos_of_le h
  simp [stepBack, hspan]

/-- A step back holds once. -/
theorem stepBack_holds (h : holdsBack old (now k) d = true) : stepBack g k d = if d.frm.holding then d else holdNow d := by
  simp only [holdsBack, Bool.and_eq_true, decide_eq_true_eq] at h
  obtain ⟨⟨⟨-, hlast⟩, hpolicy⟩, hmax⟩ := h
  have hspan : ¬d.frm.lastB - now k ≤ 0 := not_le.mpr (Int.sub_pos_of_lt hlast)
  simp [stepBack, hspan, hpolicy, hmax, holdNow]

/-- A step back that does not hold renumbers. -/
theorem stepBack_renumbers (h : renumbersBack old (now k) d = true) :
    stepBack g k d = forEach (List.range 10) (fun p => calDiscard p 0x10 (fun _ => true)) (renumbered g k d) := by
  simp only [renumbersBack, holdsBack, Bool.and_eq_true, decide_eq_true_eq, Bool.not_eq_true'] at h
  obtain ⟨⟨⟨hran, hback⟩, hlast⟩, hhold⟩ := h
  have hspan : ¬d.frm.lastB - now k ≤ 0 := not_le.mpr (Int.sub_pos_of_lt hlast)
  simp only [hran, hback, hlast, decide_true, Bool.and_self, Bool.true_and] at hhold
  simp only [stepBack, hspan, hhold, if_false, Bool.false_eq_true]
  rfl

/-- With the frame clock and its registers alike, steps back do alike. -/
theorem holdsBack_congr {d e : Dev} (old x : Time) (hfrm : e.frm = d.frm) (hregs : ∀ a, frmPlace a → rd e a = rd d a) :
    holdsBack old x e = holdsBack old x d := by
  simp only [holdsBack, rb, hfrm, hregs Reg.FRM_STEP_POLICY (by decide), hregs Reg.FRM_HOLD_MAX (by decide)]

theorem renumbersBack_congr {d e : Dev} (old x : Time) (hfrm : e.frm = d.frm) (hregs : ∀ a, frmPlace a → rd e a = rd d a) :
    renumbersBack old x e = renumbersBack old x d := by
  simp only [renumbersBack, hfrm, holdsBack_congr old x hfrm hregs]

/-- Forgetting a skip leaves the rest of the frame clock. -/
theorem forgetSkip_eq (x : Frm) : ∃ skipped gaps, forgetSkip x = { x with skipped, gaps } := by
  unfold forgetSkip
  split
  · exact ⟨_, _, rfl⟩
  · exact ⟨_, _, rfl⟩

/-- The hold that a renumbering ends, if there is one, and nothing else of the frame clock. -/
theorem endHold_frm (d : Dev) : (when d.frm.holding (fun d => raiseFrm 1 (onFrm (fun x => { x with holding := false }) d)) d).frm
    = { d.frm with holding := false } := by
  unfold when
  split
  · rw [raiseFrm_frm]
    rfl
  · next h => rw [← Bool.eq_false_iff.mpr h]

/-- R40: the boundaries go on from the last frame. -/
theorem renumbered_frm (g : Grid) (k : Clk) (d : Dev) : ∃ skipped gaps, (renumbered g k d).frm = { d.frm with
    holding := false, skipped, gaps, next := g.firstFrom (now k), bias := d.frm.lastFrame + 1 - w64 (g.firstFrom (now k)) } := by
  obtain ⟨skipped, gaps, h⟩ := forgetSkip_eq { d.frm with holding := false }
  refine ⟨skipped, gaps, ?_⟩
  simp only [renumbered, raiseFrm_frm]
  simp only [bump, wr_frm, onFrm_frm, endHold_frm, h]

/-! A forward step (R41). -/

/-- The instants before the new show time are skipped. -/
def skipped (g : Grid) (k : Clk) (gaps : List (BitVec 18 × Nat)) (d : Dev) : Dev :=
  raiseFrm 3 (bump Reg.FRM_FRAMES_SKIPPED (g.firstFrom (now k) - d.frm.next)
    (onFrm (fun x => { x with next := g.firstFrom (now k), skipped := true, gaps }) d))

/-- A step forward to an instant before the next boundary moves nothing. -/
theorem stepOver_none (h : g.firstFrom (now k) ≤ d.frm.next) : stepOver g k d = d := by simp [stepOver, h]

/-- Another skips the boundaries that it passes. -/
theorem stepOver_skips (h : d.frm.next < g.firstFrom (now k)) : ∃ gaps, Aside (skipped g k gaps d) (stepOver g k d) := by
  simp only [stepOver, not_le.mpr h, if_false]
  exact ⟨_, (sacnSkip_aside ..).trans (dmxSkip_aside ..)⟩

end

end Sys2Proof.Machine

/-!
# What a step leaves of the timebase's registers and of the calendars
-/

namespace Sys2Proof.Machine

/-- From d to e the timebase's registers, the calendars and their counts of discarded frames are left: the frame clock alone moves. -/
structure FrmStep (d e : Dev) : Prop where
  tb : ∀ a, tbPlace a → rd e a = rd d a
  port : ∀ p < 10, PortKeeps p d e

theorem FrmStep.refl (d : Dev) : FrmStep d d := ⟨fun _ _ => rfl, fun _ _ => ⟨rfl, rfl⟩⟩

theorem FrmStep.trans {d e f : Dev} (h : FrmStep d e) (g : FrmStep e f) : FrmStep d f :=
  ⟨fun a ha => (g.tb a ha).trans (h.tb a ha), fun p hp => ⟨(g.port p hp).1.trans (h.port p hp).1, (g.port p hp).2.trans (h.port p hp).2⟩⟩

theorem Aside.frmStep {d e : Dev} (h : Aside d e) : FrmStep d e := ⟨fun a ha => h.regs a (.inl ha), fun _ hp => h.portKeeps hp⟩

theorem FrmStep.ite {c : Prop} [Decidable c] {d e f : Dev} (h : FrmStep d e) (g : FrmStep d f) : FrmStep d (if c then e else f) := by
  split
  · exact h
  · exact g

theorem FrmStep.onFrm (f : Frm → Frm) (d : Dev) : FrmStep d (onFrm f d) := ⟨fun _ _ => rfl, fun _ _ => ⟨rfl, rfl⟩⟩

/-- A register of the frame clock is neither one of the timebase nor a count of discarded frames. -/
theorem frmPlace_ne {a : Nat} (h : frmPlace a) : (∀ b, tbPlace b → b ≠ a) ∧ ∀ p, Reg.SPORT_LQ_DISCARD p ≠ a := by
  obtain ⟨hlo, hhi⟩ := h
  refine ⟨fun b hb e => ?_, fun p e => ?_⟩
  · obtain ⟨-, hb⟩ := hb
    omega
  · have := lqDiscard_ge p
    omega

theorem FrmStep.wr {a : Nat} (v : W32) (d : Dev) (h : frmPlace a) : FrmStep d (wr a v d) :=
  ⟨fun b hb => rd_wr_ne d v ((frmPlace_ne h).1 b hb), fun p _ => ⟨rfl, rd_wr_ne d v ((frmPlace_ne h).2 p)⟩⟩

theorem frmPlace_event : frmPlace Reg.FRM_EVENT := ⟨by decide, by decide⟩

theorem FrmStep.raiseFrm (i : Nat) (d : Dev) : FrmStep d (raiseFrm i d) := by
  have h := frmPlace_ne frmPlace_event
  refine ⟨fun b hb => rd_raiseFrm_ne i d (h.1 b hb), fun p _ => ⟨?_, rd_raiseFrm_ne i d (h.2 p)⟩⟩
  rw [Machine.port, Machine.raiseFrm, raiseAt_ports]
  rfl

section
variable {old : Time} {valid : Bool} {k : Clk} {d : Dev} {g : Grid}

theorem holdNow_frmStep (d : Dev) : FrmStep d (holdNow d) :=
  ((FrmStep.onFrm _ d).trans (.wr _ _ ⟨by decide, by decide⟩)).trans (.raiseFrm 0 _)

theorem renumbered_frmStep (g : Grid) (k : Clk) (d : Dev) : FrmStep d (renumbered g k d) := by
  refine FrmStep.trans (FrmStep.ite ?_ (.refl d)) (((FrmStep.onFrm _ _).trans (.wr _ _ ⟨by decide, by decide⟩)).trans (.raiseFrm 2 _))
  exact (FrmStep.onFrm _ d).trans (.raiseFrm 1 _)

theorem skipped_frmStep (g : Grid) (k : Clk) (gaps : List (BitVec 18 × Nat)) (d : Dev) : FrmStep d (skipped g k gaps d) :=
  ((FrmStep.onFrm _ d).trans (.wr _ _ ⟨by decide, by decide⟩)).trans (.raiseFrm 3 _)

/-- A step over boundaries leaves what is not the frame clock's. -/
theorem stepOver_frmStep (g : Grid) (k : Clk) (d : Dev) : FrmStep d (stepOver g k d) := by
  by_cases h : g.firstFrom (now k) ≤ d.frm.next
  · rw [stepOver_none h]
    exact .refl d
  · obtain ⟨gaps, hskip⟩ := stepOver_skips (not_le.mp h)
    exact (skipped_frmStep g k gaps d).trans hskip.frmStep

/-- A step back that does not renumber leaves what is not the frame clock's. -/
theorem stepBack_frmStep (hran : (d.frm.run.isSome && d.frm.firstDone) = true) (hback : now k < old)
    (h : renumbersBack old (now k) d = false) : FrmStep d (stepBack g k d) := by
  by_cases hafter : d.frm.lastB ≤ now k
  · rw [stepBack_after hafter]
    exact .refl d
  · have hhold : holdsBack old (now k) d = true := by
      simpa only [renumbersBack, hran, hback, not_le.mp hafter, decide_true, Bool.and_self, Bool.true_and, Bool.not_eq_false'] using h
    rw [stepBack_holds hhold]
    exact .ite (.refl d) (holdNow_frmStep d)

/-- A step that does not renumber discards in its work alone. -/
theorem afterStep_frmStep (h : renumbersBack old (now k) d = false) : FrmStep (stepWork old k d) (afterStep old valid k d) := by
  cases hrun : d.frm.run with
  | none =>
    rw [afterStep_noRun hrun]
    exact .refl _
  | some g =>
    cases hfirst : d.frm.firstDone with
    | false =>
      rw [afterStep_waiting hrun hfirst]
      exact .ite (.refl _) (.onFrm _ _)
    | true =>
      rcases lt_trichotomy (now k) old with hback | hsame | hfwd
      · rw [afterStep_back hrun hfirst hback]
        refine stepBack_frmStep ?_ hback ?_
        · rw [stepWork_frm, hrun, hfirst]
          rfl
        · rw [renumbersBack_congr _ _ (stepWork_frm ..) fun _ => rd_stepWork _ _ _]
          exact h
      · rw [afterStep_same hrun hfirst hsame]
        exact .refl _
      · rw [afterStep_forward hrun hfirst hfwd]
        exact stepOver_frmStep ..

/-- What a step back that renumbers comes to. -/
theorem afterStep_renumbers (h : renumbersBack old (now k) d = true) (hrun : d.frm.run = some g) : afterStep old valid k d =
    forEach (List.range 10) (fun p => calDiscard p 0x10 (fun _ => true)) (renumbered g k (stepWork old k d)) := by
  have hw : renumbersBack old (now k) (stepWork old k d) = true := by
    rw [renumbersBack_congr _ _ (stepWork_frm ..) fun _ => rd_stepWork _ _ _]
    exact h
  simp only [renumbersBack, Bool.and_eq_true, decide_eq_true_eq] at h
  obtain ⟨⟨⟨⟨-, hfirst⟩, hback⟩, -⟩, -⟩ := h
  rw [afterStep_back hrun hfirst hback, stepBack_renumbers hw]

/-- The frames that a step from `old` to x passes over: all that wait when it renumbers, else those whose window a forward step has passed. -/
def passes (old x : Time) (d : Dev) (a : Admitted) : Bool := renumbersBack old x d || (decide (old < x) && decide (a.ws < fine * x))

/-- A discard of no frame keeps the port. -/
theorem PortDiscards.keeps_of_false {p : Nat} {d e : Dev} (h : PortDiscards (fun _ => false) p d e) : PortKeeps p d e := by
  obtain ⟨hcal, hcount⟩ := h
  have := (rd d (Reg.SPORT_LQ_DISCARD p)).isLt
  simp only [taken_false, List.filter_false, List.length_nil] at hcount
  refine ⟨by simpa [taken_false] using hcal, BitVec.eq_of_toNat_eq ?_⟩
  omega

/-- What is not the frame clock's after a step: the timebase's registers stand, and every port discards the frames passed over. -/
theorem afterStep_stepped (old : Time) (valid : Bool) (k : Clk) (d : Dev) :
    (∀ a, tbPlace a → rd (afterStep old valid k d) a = rd d a)
      ∧ ∀ p < 10, PortDiscards (passes old (now k) d) p d (afterStep old valid k d) := by
  have hwork := stepWork_discards old k d
  cases h : renumbersBack old (now k) d with
  | false =>
    have hstep : FrmStep (stepWork old k d) (afterStep old valid k d) := afterStep_frmStep h
    have hsel : passes old (now k) d = fun a => decide (old < now k) && decide (a.ws < nowW k) := by
      funext a
      simp only [passes, h, Bool.false_or]
      rfl
    rw [hsel]
    exact ⟨fun a ha => (hstep.tb a ha).trans (hwork.regs a (.inl ha)),
      fun p hp => (hwork.taken p hp (List.mem_range.mpr hp)).keeps (hstep.port p hp)⟩
  | true =>
    have hsel : passes old (now k) d = fun _ => true := by
      funext a
      simp [passes, h]
    have hcond := h
    simp only [renumbersBack, Bool.and_eq_true, decide_eq_true_eq, Option.isSome_iff_exists] at hcond
    obtain ⟨⟨⟨⟨⟨g, hrun⟩, -⟩, hback⟩, -⟩, -⟩ := hcond
    have hrenum := renumbered_frmStep g k (stepWork old k d)
    have hall := calDiscard_all (fun _ => true) (renumbered g k (stepWork old k d))
    rw [hsel, afterStep_renumbers h hrun]
    refine ⟨fun a ha => ?_, fun p hp => ?_⟩
    · rw [hall.regs a (.inl ha), hrenum.tb a ha, hwork.regs a (.inl ha)]
    · have hkeep : PortKeeps p d (stepWork old k d) := by
        have := hwork.taken p hp (List.mem_range.mpr hp)
        simp only [not_lt.mpr hback.le, decide_false, Bool.false_and] at this
        exact this.keeps_of_false
      exact hkeep.discards ((hrenum.port p hp).discards (hall.taken p hp (List.mem_range.mpr hp)))

end

end Sys2Proof.Machine

/-!
# Steps and sets of show time (O9)
-/

namespace Sys2Proof.Machine

/-- What the registers note of a move of show time: its size, its count and its event (R24). -/
def moveNote (diff : Time) (d : Dev) : Dev := raiseTb 0 (bump Reg.TB_STEP_COUNT 1 (wr64 Reg.TB_STEP_LAST_LO (stepSize diff) d))

/-- The clock after a move to what the timebase tb gives (R24, R27). -/
def movedClk (tb : Timebase) (k : Clk) : Clk := { k with tb := { tb with timeValid := true, floor := now { k with tb := tb } } }

theorem moveTime_eq (tb : Timebase) (k : Clk) (d : Dev) : moveTime tb k d =
    (movedClk tb k, afterStep (now k) k.tb.timeValid (movedClk tb k) (moveNote (now (movedClk tb k) - now k) d)) := rfl

/-- A step of zero only declares the time valid (R25). -/
def validClk (k : Clk) : Clk := { k with tb := { k.tb with timeValid := true } }

theorem stepTime_zero (k : Clk) (d : Dev) : stepTime 0 k d = (validClk k, afterStep (now k) k.tb.timeValid (validClk k) d) := rfl

theorem stepTime_rejected {diff : Time} {k : Clk} (d : Dev) (h0 : diff ≠ 0) (h : now k + diff < 0) : stepTime diff k d = (k, raiseTb 3 d) := by
  simp [stepTime, h0, h]

theorem stepTime_applied {diff : Time} {k : Clk} (d : Dev) (h0 : diff ≠ 0) (h : 0 ≤ now k + diff) :
    stepTime diff k d = moveTime { k.tb with offset := k.tb.offset + diff } k d := by
  simp [stepTime, h0, not_lt.mpr h]

/-- The clock a step by diff leaves (R24). -/
def stepClk (diff : Time) (k : Clk) : Clk := movedClk { k.tb with offset := k.tb.offset + diff } k

/-- The clock a set to x leaves: x, anchored at this tick (R24). -/
def setClk (x : Time) (k : Clk) : Clk := movedClk { k.tb with offset := x, anchor := k.ticks } k

@[simp] theorem now_stepClk (diff : Time) (k : Clk) : now (stepClk diff k) = now k + diff := by
  simp only [now, stepClk, movedClk]
  ring

@[simp] theorem now_setClk (x : Time) (k : Clk) : now (setClk x k) = x := by
  simp [now, setClk, movedClk]

/-- The device after a move of show time from that of k to that of k'. -/
def movedDev (k k' : Clk) (d : Dev) : Dev := afterStep (now k) k.tb.timeValid k' (moveNote (now k' - now k) d)

theorem stepTime_moves {diff : Time} {k : Clk} (d : Dev) (h0 : diff ≠ 0) (h : 0 ≤ now k + diff) :
    stepTime diff k d = (stepClk diff k, movedDev k (stepClk diff k) d) := by
  rw [stepTime_applied d h0 h, moveTime_eq]
  rfl

theorem setTime_moves (x : Time) (k : Clk) (d : Dev) : setTime x k d = (setClk x k, movedDev k (setClk x k) d) := rfl

/-! The commands. -/

theorem tbCmd_step {req : Req} {k : Clk} {d : Dev} (hopen : csrShut d Reg.TB_CMD = false) (hown : foreign d req = false) :
    tbCmd req 2 k d = tbStep k d := by
  rw [tbCmd, if_neg (by simp [hopen]), if_neg (by simp [hown]), if_neg (by decide), if_pos (by decide)]

theorem tbCmd_set {req : Req} {k : Clk} {d : Dev} (alsoStep : Bool) (hopen : csrShut d Reg.TB_CMD = false) (hown : foreign d req = false) :
    tbCmd req (if alsoStep then 3 else 1) k d = tbSet k d := by
  rw [tbCmd, if_neg (by simp [hopen]), if_neg (by simp [hown]), if_pos (by cases alsoStep <;> decide)]

/-- The step that TB_STEP asks for (R24). -/
def stepAsked (d : Dev) : Time := (rd64 d Reg.TB_STEP_LO).toInt * ns1

theorem stepAsked_eq_zero_iff (d : Dev) : stepAsked d = 0 ↔ rd64 d Reg.TB_STEP_LO = 0 := by
  rw [stepAsked, mul_eq_zero_iff_right (by decide)]
  exact ⟨fun h => BitVec.eq_of_toInt_eq h, fun h => by rw [h]; rfl⟩

theorem tbStep_applied {k : Clk} {d : Dev} (h : 0 ≤ now k + stepAsked d) :
    tbStep k d = ((stepTime (stepAsked d) k d).1, tellStep 6 (stepAsked d) (stepTime (stepAsked d) k d).1 (stepTime (stepAsked d) k d).2) :=
  if_neg (not_lt.mpr h)

theorem tbStep_rejected {k : Clk} {d : Dev} (hne : stepAsked d ≠ 0) (h : now k + stepAsked d < 0) : tbStep k d = (k, raiseTb 3 d) :=
  (if_pos h).trans (stepTime_rejected d hne h)

/-- The instant that TB_SET asks for (R24). -/
def setAsked (d : Dev) : Time := timeOf (rd64 d Reg.TB_SET_SEC_LO) (rd d Reg.TB_SET_NS)

theorem tbSet_applied {k : Clk} {d : Dev} (h : (rd d Reg.TB_SET_NS).toNat ≤ 999999999) :
    tbSet k d = ((setTime (setAsked d) k d).1, tellStep 9 (setAsked d) (setTime (setAsked d) k d).1 (setTime (setAsked d) k d).2) :=
  if_neg (not_lt.mpr h)

theorem tbSet_rejected {k : Clk} {d : Dev} (h : 999999999 < (rd d Reg.TB_SET_NS).toNat) : tbSet k d = (k, raiseTb 3 d) := if_pos h

/-! The instructions by the clock's owner, while the register is open. -/

section
variable {req : Req} {s : State} (hopen : csrShut s.dev Reg.TB_CMD = false) (hown : foreign s.dev req = false)
include hopen hown

theorem exec_tbCmdStep : exec (.tbCmdStep req) s = .next { s with clk := (tbStep s.clk s.dev).1, dev := (tbStep s.clk s.dev).2 } := by
  rw [← tbCmd_step hopen hown]
  rfl

theorem exec_tbCmdSet (alsoStep : Bool) :
    exec (.tbCmdSet req alsoStep) s = .next { s with clk := (tbSet s.clk s.dev).1, dev := (tbSet s.clk s.dev).2 } := by
  rw [← tbCmd_set alsoStep hopen hown]
  rfl

theorem exec_tbCmdStep_moves (hne : rd64 s.dev Reg.TB_STEP_LO ≠ 0) (h : 0 ≤ now s.clk + stepAsked s.dev) :
    exec (.tbCmdStep req) s = .next { s with
      clk := stepClk (stepAsked s.dev) s.clk
      dev := tellStep 6 (stepAsked s.dev) (stepClk (stepAsked s.dev) s.clk)
        (movedDev s.clk (stepClk (stepAsked s.dev) s.clk) s.dev) } := by
  rw [exec_tbCmdStep hopen hown, tbStep_applied h, stepTime_moves s.dev (mt (stepAsked_eq_zero_iff s.dev).mp hne) h]

theorem exec_tbCmdStep_zero (hz : rd64 s.dev Reg.TB_STEP_LO = 0) (h : 0 ≤ now s.clk) :
    exec (.tbCmdStep req) s = .next { s with
      clk := validClk s.clk
      dev := tellStep 6 0 (validClk s.clk) (afterStep (now s.clk) s.clk.tb.timeValid (validClk s.clk) s.dev) } := by
  have h0 := (stepAsked_eq_zero_iff s.dev).mpr hz
  rw [exec_tbCmdStep hopen hown, tbStep_applied (by rw [h0]; simpa using h), h0, stepTime_zero]

theorem exec_tbCmdStep_rejected (hne : rd64 s.dev Reg.TB_STEP_LO ≠ 0) (h : now s.clk + stepAsked s.dev < 0) :
    exec (.tbCmdStep req) s = .next { s with dev := raiseTb 3 s.dev } := by
  rw [exec_tbCmdStep hopen hown, tbStep_rejected (mt (stepAsked_eq_zero_iff s.dev).mp hne) h]

theorem exec_tbCmdSet_moves (alsoStep : Bool) (h : (rd s.dev Reg.TB_SET_NS).toNat ≤ 999999999) :
    exec (.tbCmdSet req alsoStep) s = .next { s with
      clk := setClk (setAsked s.dev) s.clk
      dev := tellStep 9 (setAsked s.dev) (setClk (setAsked s.dev) s.clk)
        (movedDev s.clk (setClk (setAsked s.dev) s.clk) s.dev) } := by
  rw [exec_tbCmdSet hopen hown, tbSet_applied h, setTime_moves]

theorem exec_tbCmdSet_rejected (alsoStep : Bool) (h : 999999999 < (rd s.dev Reg.TB_SET_NS).toNat) :
    exec (.tbCmdSet req alsoStep) s = .next { s with dev := raiseTb 3 s.dev } := by
  rw [exec_tbCmdSet hopen hown, tbSet_rejected h]

/-- A step or a set that is applied: show time becomes what was asked, and the device follows but for what its messages to the partner do. -/
theorem exec_move {alsoStep : Bool} {c : Instr} {x : Time}
    (hc : (c = .tbCmdStep req ∧ rd64 s.dev Reg.TB_STEP_LO ≠ 0 ∧ x = now s.clk + (rd64 s.dev Reg.TB_STEP_LO).toInt * ns1 ∧ 0 ≤ x)
      ∨ (c = .tbCmdSet req alsoStep ∧ (rd s.dev Reg.TB_SET_NS).toNat ≤ 999999999
          ∧ x = timeOf (rd64 s.dev Reg.TB_SET_SEC_LO) (rd s.dev Reg.TB_SET_NS))) :
    ∃ t, exec c s = .next t ∧ now t.clk = x ∧ t.clk.tb.timeValid = true ∧ t.clk.ticks = s.clk.ticks ∧ t.clk.tb.incr = s.clk.tb.incr
      ∧ t.pending = s.pending ∧ Aside (movedDev s.clk t.clk s.dev) t.dev := by
  rcases hc with ⟨rfl, hne, rfl, hx⟩ | ⟨rfl, hns, rfl⟩
  · exact ⟨_, exec_tbCmdStep_moves hopen hown hne hx, now_stepClk .., rfl, rfl, rfl, rfl, tellStep_aside ..⟩
  · exact ⟨_, exec_tbCmdSet_moves hopen hown alsoStep hns, now_setClk .., rfl, rfl, rfl, rfl, tellStep_aside ..⟩

end

/-! What a move notes. -/

/-- A note of a move changes four registers of the timebase. -/
theorem rd_moveNote {a : Nat} (diff : Time) (d : Dev)
    (h : a ∉ [Reg.TB_EVENT, Reg.TB_STEP_COUNT, Reg.TB_STEP_LAST_LO + 4, Reg.TB_STEP_LAST_LO]) : rd (moveNote diff d) a = rd d a := by
  simp only [List.mem_cons, List.not_mem_nil, or_false, not_or] at h
  obtain ⟨hevent, hcount, hhi, hlo⟩ := h
  rw [moveNote, rd_raiseTb_ne 0 _ hevent, bump, rd_wr_ne _ _ hcount, rd_wr64_ne _ _ hlo hhi]

/-- It changes none of the frame clock. -/
theorem rd_moveNote_frm {a : Nat} (diff : Time) (d : Dev) (h : frmPlace a) : rd (moveNote diff d) a = rd d a := by
  refine rd_moveNote diff d fun ha => ?_
  obtain ⟨hlo, -⟩ := h
  simp only [List.mem_cons, List.not_mem_nil, or_false] at ha
  rcases ha with rfl | rfl | rfl | rfl <;> exact absurd hlo (by decide)

theorem moveNote_frm (diff : Time) (d : Dev) : (moveNote diff d).frm = d.frm := raiseAt_frm ..

theorem moveNote_portKeeps (diff : Time) (d : Dev) (p : Nat) : PortKeeps p d (moveNote diff d) := by
  refine ⟨?_, rd_moveNote diff d fun ha => ?_⟩
  · rw [port, moveNote, raiseTb, raiseAt_ports]
    rfl
  · have := lqDiscard_ge p
    simp only [List.mem_cons, List.not_mem_nil, or_false] at ha
    rcases ha with ha | ha | ha | ha <;> rw [ha] at this <;> exact absurd this (by decide)

theorem rd_moveNote_count (diff : Time) (d : Dev) : rd (moveNote diff d) Reg.TB_STEP_COUNT = rd d Reg.TB_STEP_COUNT + 1 := by
  rw [moveNote, rd_raiseTb_ne 0 _ (by decide), bump, rd_wr_same, rd_wr64_ne _ _ (by decide) (by decide)]
  rfl

theorem rd64_moveNote_last (diff : Time) (d : Dev) : rd64 (moveNote diff d) Reg.TB_STEP_LAST_LO = stepSize diff := by
  rw [moveNote, rd64_raiseTb 0 _ (by decide) (by decide), rd64, bump, rd_wr_ne _ _ (by decide), rd_wr_ne _ _ (by decide), ← rd64, rd64_wr64_same]

/-- A step's size saturates at 63 bits and a sign (R24, R43). -/
theorem toInt_stepSize (diff : Time) : (stepSize diff).toInt = max (-(2 ^ 63 - 1)) (min (2 ^ 63 - 1) (diff.tdiv ns1)) := by
  rw [stepSize, BitVec.toInt_ofInt]
  apply Int.bmod_eq_of_le <;> omega

end Sys2Proof.Machine

/-!
# The frame clock after a step or a set (O9)
-/

namespace Sys2Proof.Machine

/-- From d to e the frame clock and its registers stand. -/
structure FrmStands (d e : Dev) : Prop where
  frm : e.frm = d.frm
  regs : ∀ a, frmPlace a → rd e a = rd d a

theorem Aside.frmStands {d e : Dev} (h : Aside d e) : FrmStands d e := ⟨h.frm, fun a ha => h.regs a (.inr (.inl ha))⟩

theorem FrmStands.trans {d e f : Dev} (h : FrmStands d e) (g : FrmStands e f) : FrmStands d f :=
  ⟨g.frm.trans h.frm, fun a ha => (g.regs a ha).trans (h.regs a ha)⟩

theorem Discards.frmStands {ports : List Nat} {sel : Admitted → Bool} {d e : Dev} (h : Discards ports sel d e) : FrmStands d e :=
  ⟨h.frm, fun a ha => h.regs a (.inr ha)⟩

theorem moveNote_frmStands (diff : Time) (d : Dev) : FrmStands d (moveNote diff d) := ⟨moveNote_frm .., fun _ ha => rd_moveNote_frm _ _ ha⟩

theorem stepWork_frmStands (old : Time) (k : Clk) (d : Dev) : FrmStands d (stepWork old k d) := (stepWork_discards old k d).frmStands

theorem FrmStands.renumbersBack {d e : Dev} (h : FrmStands d e) (old x : Time) : renumbersBack old x e = renumbersBack old x d :=
  renumbersBack_congr old x h.frm h.regs

theorem FrmStands.holdsBack {d e : Dev} (h : FrmStands d e) (old x : Time) : holdsBack old x e = holdsBack old x d :=
  holdsBack_congr old x h.frm h.regs

theorem holdsBack_lt {old x : Time} {d : Dev} (h : holdsBack old x d = true) : x < old := by
  simp only [Machine.holdsBack, Bool.and_eq_true, decide_eq_true_eq] at h
  obtain ⟨⟨⟨⟨-, hback⟩, -⟩, -⟩, -⟩ := h
  exact hback

theorem renumbersBack_lt {old x : Time} {d : Dev} (h : renumbersBack old x d = true) : x < old := by
  simp only [Machine.renumbersBack, Bool.and_eq_true, decide_eq_true_eq] at h
  obtain ⟨⟨⟨-, hback⟩, -⟩, -⟩ := h
  exact hback

/-! What each update of the frame clock's state writes. -/

/-- A bit of FRM_EVENT stays raised. -/
theorem rb_raiseFrm_of {i j : Nat} {d : Dev} (h : rb d Reg.FRM_EVENT j = true) : rb (raiseFrm i d) Reg.FRM_EVENT j = true := by
  rw [rb_eq] at h ⊢
  simp [raiseFrm, h]

theorem holdNow_frm (d : Dev) : (holdNow d).frm = { d.frm with holding := true } := raiseFrm_frm ..

theorem rb_holdNow (d : Dev) : rb (holdNow d) Reg.FRM_EVENT 0 = true := rb_raiseFrm 0 (by decide) _

theorem rd_holdNow_count (d : Dev) : rd (holdNow d) Reg.FRM_HOLD_COUNT = rd d Reg.FRM_HOLD_COUNT + 1 := by
  rw [holdNow, rd_raiseFrm_ne 0 _ (by decide), bump, rd_wr_same]
  rfl

/-- A renumbering that ends a hold says so. -/
theorem rb_endHold {d : Dev} (h : d.frm.holding = true) :
    rb (when d.frm.holding (fun d => raiseFrm 1 (onFrm (fun x => { x with holding := false }) d)) d) Reg.FRM_EVENT 1 = true := by
  rw [when, if_pos h]
  exact rb_raiseFrm 1 (by decide) _

theorem rd_endHold {a : Nat} (d : Dev) (h : a ≠ Reg.FRM_EVENT) :
    rd (when d.frm.holding (fun d => raiseFrm 1 (onFrm (fun x => { x with holding := false }) d)) d) a = rd d a := by
  unfold when
  split
  · exact rd_raiseFrm_ne 1 _ h
  · rfl

theorem rb_renumbered (g : Grid) (k : Clk) (d : Dev) : rb (renumbered g k d) Reg.FRM_EVENT 2 = true := rb_raiseFrm 2 (by decide) _

theorem rb_renumbered_endHold (g : Grid) (k : Clk) {d : Dev} (h : d.frm.holding = true) : rb (renumbered g k d) Reg.FRM_EVENT 1 = true := by
  refine rb_raiseFrm_of ?_
  rw [bump, rb, rd_wr_ne _ _ (by decide)]
  exact rb_endHold h

theorem rd_renumbered_count (g : Grid) (k : Clk) (d : Dev) : rd (renumbered g k d) Reg.FRM_RENUMBER_COUNT = rd d Reg.FRM_RENUMBER_COUNT + 1 := by
  rw [renumbered, rd_raiseFrm_ne 2 _ (by decide), bump, rd_wr_same]
  exact congrArg (· + 1) (rd_endHold d (by decide))

theorem skipped_frm (g : Grid) (k : Clk) (gaps : List (BitVec 18 × Nat)) (d : Dev) :
    (skipped g k gaps d).frm = { d.frm with next := g.firstFrom (now k), skipped := true, gaps } := raiseFrm_frm ..

theorem rb_skipped (g : Grid) (k : Clk) (gaps : List (BitVec 18 × Nat)) (d : Dev) : rb (skipped g k gaps d) Reg.FRM_EVENT 3 = true :=
  rb_raiseFrm 3 (by decide) _

theorem rd_skipped_count (g : Grid) (k : Clk) (gaps : List (BitVec 18 × Nat)) (d : Dev) : rd (skipped g k gaps d) Reg.FRM_FRAMES_SKIPPED
    = rd d Reg.FRM_FRAMES_SKIPPED + w32 (g.firstFrom (now k) - d.frm.next) := by
  rw [skipped, rd_raiseFrm_ne 3 _ (by decide), bump, rd_wr_same]
  rfl

/-! A move of show time from k to k', from the device d to e. -/

section
variable {k k' : Clk} {d e : Dev} {g : Grid} (h : Aside (movedDev k k' d) e)
include h

/-- The timebase's registers are as noted, and the frames passed over leave the calendars. -/
theorem movedDev_regs {a : Nat} (ha : tbPlace a) : rd e a = rd (moveNote (now k' - now k) d) a :=
  (h.regs a (.inl ha)).trans ((afterStep_stepped ..).1 a ha)

/-- The event, the count and the size of the move (R24). -/
theorem movedDev_noted : rb e Reg.TB_EVENT 0 = true ∧ rd e Reg.TB_STEP_COUNT = rd d Reg.TB_STEP_COUNT + 1
    ∧ rd64 e Reg.TB_STEP_LAST_LO = stepSize (now k' - now k) := by
  have hregs {a : Nat} (ha : tbPlace a) := movedDev_regs h ha
  refine ⟨?_, ?_, ?_⟩
  · rw [rb, hregs (by decide)]
    exact rb_raiseTb 0 (by decide) _
  · rw [hregs (by decide), rd_moveNote_count]
  · rw [rd64, hregs (by decide), hregs (by decide)]
    exact rd64_moveNote_last ..

theorem movedDev_discards {p : Nat} (hp : p < 10) : PortDiscards (passes (now k) (now k') d) p d e := by
  have hnote := moveNote_frmStands (now k' - now k) d
  have hsel : passes (now k) (now k') (moveNote (now k' - now k) d) = passes (now k) (now k') d := by
    funext a
    rw [passes, passes, hnote.renumbersBack]
  have hstep := (afterStep_stepped (now k) k.tb.timeValid k' (moveNote (now k' - now k) d)).2 p hp
  rw [hsel] at hstep
  exact ((moveNote_portKeeps _ d p).discards hstep).keeps (h.portKeeps hp)

/-- The frame clock moves from where it was. -/
theorem movedDev_frmStands : ∃ d₁, FrmStands d d₁ ∧ FrmStands (afterStep (now k) k.tb.timeValid k' d₁) e :=
  ⟨_, moveNote_frmStands .., h.frmStands⟩

theorem frm_moved_noRun (hrun : d.frm.run = none) : e.frm = d.frm := by
  obtain ⟨d₁, h₁, he⟩ := movedDev_frmStands h
  rw [afterStep_noRun (by rw [h₁.frm, hrun])] at he
  exact ((h₁.trans (stepWork_frmStands ..)).trans he).frm

theorem frm_moved_waiting (hrun : d.frm.run = some g) (hfirst : d.frm.firstDone = false) :
    e.frm = if now k' = now k ∧ k.tb.timeValid = true then d.frm else { d.frm with next := g.firstFrom (now k') } := by
  obtain ⟨d₁, h₁, he⟩ := movedDev_frmStands h
  have hw := h₁.trans (stepWork_frmStands (now k) k' d₁)
  rw [afterStep_waiting (by rw [h₁.frm, hrun]) (by rw [h₁.frm, hfirst])] at he
  rw [he.frm, ← hw.frm]
  split <;> rfl

/-! Once a run has emitted a boundary. -/

variable (hrun : d.frm.run = some g) (hfirst : d.frm.firstDone = true)
include hrun hfirst

theorem movedDev_back (hback : now k' < now k) : ∃ w, FrmStands d w ∧ FrmStands (stepBack g k' w) e := by
  obtain ⟨d₁, h₁, he⟩ := movedDev_frmStands h
  rw [afterStep_back (by rw [h₁.frm, hrun]) (by rw [h₁.frm, hfirst]) hback] at he
  exact ⟨_, h₁.trans (stepWork_frmStands ..), he⟩

theorem movedDev_forward (hfwd : now k < now k') : ∃ w, FrmStands d w ∧ FrmStands (stepOver g k' w) e := by
  obtain ⟨d₁, h₁, he⟩ := movedDev_frmStands h
  rw [afterStep_forward (by rw [h₁.frm, hrun]) (by rw [h₁.frm, hfirst]) hfwd] at he
  exact ⟨_, h₁.trans (stepWork_frmStands ..), he⟩

theorem movedDev_after (hback : now k' < now k) (hlast : d.frm.lastB ≤ now k') : FrmStands d e := by
  obtain ⟨w, hw, he⟩ := movedDev_back h hrun hfirst hback
  rw [stepBack_after (by rwa [hw.frm])] at he
  exact hw.trans he

theorem movedDev_holds (hhold : holdsBack (now k) (now k') d = true) : e.frm = { d.frm with holding := true }
    ∧ (d.frm.holding = false → rb e Reg.FRM_EVENT 0 = true ∧ rd e Reg.FRM_HOLD_COUNT = rd d Reg.FRM_HOLD_COUNT + 1)
    ∧ (d.frm.holding = true → FrmStands d e) := by
  obtain ⟨w, hw, he⟩ := movedDev_back h hrun hfirst (holdsBack_lt hhold)
  rw [stepBack_holds (old := now k) (by rwa [hw.holdsBack]), hw.frm] at he
  cases hh : d.frm.holding with
  | true =>
    rw [hh, if_pos rfl] at he
    have hde := hw.trans he
    refine ⟨hde.frm.trans ?_, by simp, fun _ => hde⟩
    rw [← hh]
  | false =>
    rw [hh, if_neg (by simp)] at he
    refine ⟨?_, fun _ => ⟨?_, ?_⟩, by simp⟩
    · rw [he.frm, holdNow_frm, hw.frm]
    · rw [rb, he.regs _ frmPlace_event]
      exact rb_holdNow w
    · rw [he.regs _ (by decide), rd_holdNow_count, hw.regs _ (by decide)]

theorem movedDev_renumbers (hrenum : renumbersBack (now k) (now k') d = true) : e.frm.next = g.firstFrom (now k')
    ∧ e.frm.bias = d.frm.lastFrame + 1 - w64 (g.firstFrom (now k')) ∧ e.frm.run = some g ∧ e.frm.lastFrame = d.frm.lastFrame
    ∧ e.frm.lastB = d.frm.lastB ∧ e.frm.holding = false ∧ rb e Reg.FRM_EVENT 2 = true
    ∧ rd e Reg.FRM_RENUMBER_COUNT = rd d Reg.FRM_RENUMBER_COUNT + 1 ∧ (d.frm.holding = true → rb e Reg.FRM_EVENT 1 = true) := by
  obtain ⟨w, hw, he⟩ := movedDev_back h hrun hfirst (renumbersBack_lt hrenum)
  rw [stepBack_renumbers (old := now k) (by rwa [hw.renumbersBack])] at he
  have he := (calDiscard_all ..).frmStands.trans he
  obtain ⟨skipped, gaps, hfrm⟩ := renumbered_frm g k' w
  have hevent (i : Nat) : rb e Reg.FRM_EVENT i = rb (renumbered g k' w) Reg.FRM_EVENT i := by rw [rb, rb, he.regs _ frmPlace_event]
  rw [he.frm, hfrm, hw.frm, hevent, hevent]
  refine ⟨rfl, rfl, hrun, rfl, rfl, rfl, rb_renumbered .., ?_, fun hh => rb_renumbered_endHold g k' (by rwa [hw.frm])⟩
  rw [he.regs _ (by decide), rd_renumbered_count, hw.regs _ (by decide)]

theorem movedDev_forward_none (hfwd : now k < now k') (hnext : g.firstFrom (now k') ≤ d.frm.next) : FrmStands d e := by
  obtain ⟨w, hw, he⟩ := movedDev_forward h hrun hfirst hfwd
  rw [stepOver_none (by rwa [hw.frm])] at he
  exact hw.trans he

theorem movedDev_skips (hfwd : now k < now k') (hnext : d.frm.next < g.firstFrom (now k')) :
    e.frm.next = g.firstFrom (now k') ∧ e.frm.bias = d.frm.bias ∧ e.frm.run = some g ∧ e.frm.lastFrame = d.frm.lastFrame
    ∧ e.frm.lastB = d.frm.lastB ∧ e.frm.holding = d.frm.holding ∧ e.frm.skipped = true ∧ rb e Reg.FRM_EVENT 3 = true
    ∧ rd e Reg.FRM_FRAMES_SKIPPED = rd d Reg.FRM_FRAMES_SKIPPED + w32 (g.firstFrom (now k') - d.frm.next) := by
  obtain ⟨w, hw, he⟩ := movedDev_forward h hrun hfirst hfwd
  obtain ⟨gaps, hskip⟩ := stepOver_skips (g := g) (k := k') (d := w) (by rwa [hw.frm])
  have he := hskip.frmStands.trans he
  rw [he.frm, skipped_frm, hw.frm, rb, he.regs _ frmPlace_event, he.regs _ (by decide), rd_skipped_count, hw.frm,
    hw.regs _ (by decide)]
  exact ⟨rfl, rfl, hrun, rfl, rfl, rfl, rfl, rb_skipped .., rfl⟩

end

end Sys2Proof.Machine

/-!
# Foreign writes of the clock's registers (O9)
-/

namespace Sys2Proof.Machine

/-- The registers that only the clock's owner writes (R28). -/
def clockRegs : List Nat :=
  [Reg.TB_INCR_LO, Reg.TB_INCR_HI, Reg.TB_STEP_LO, Reg.TB_STEP_HI, Reg.TB_SET_SEC_LO, Reg.TB_SET_SEC_HI, Reg.TB_SET_NS, Reg.TB_CMD]

/-- A row of such a register at place a: it is not guarded, and its write asks who owns the clock. -/
def ownedRow (a : Nat) (row : RegRow) : Bool :=
  !row.gk && (row.hook == .tbIncrLo || row.hook == .tbOwned || (row.hook == .tbIncrHi && a == Reg.TB_INCR_HI)
    || (row.hook == .tbCmd && a == Reg.TB_CMD))

theorem rowAt_clockRegs {a : Nat} (h : a ∈ clockRegs) : ∃ x, Reg.rowAt a = some x ∧ ownedRow a x.1 = true := by
  have hrow : (Reg.rowAt a).any (fun x => ownedRow a x.1) = true := by
    revert a
    decide
  exact (Option.any_eq_true _ _).mp hrow

/-- A write that leaves the register and the word before it leaves nothing for a seal pass to note. -/
theorem noteSeal_same {a : Nat} {was d : Dev} (hlo : rd d (a - 4) = rd was (a - 4)) (h : rd d a = rd was a) : noteSeal a was d = d := by
  simp [noteSeal, forEach, hlo, h]

theorem sealing_raiseTb {a : Nat} (h : a ∈ clockRegs) (i : Nat) (d : Dev) : sealing a (raiseTb i) d = raiseTb i d := by
  have hne : a - 4 ≠ Reg.TB_EVENT ∧ a ≠ Reg.TB_EVENT := by
    revert a
    decide
  exact noteSeal_same (rd_raiseTb_ne i d hne.1) (rd_raiseTb_ne i d hne.2)

theorem incrCommit_foreign {req : Req} {d : Dev} (v : W32) (k : Clk) (hopen : csrShut d Reg.TB_INCR_HI = false) (h : foreign d req = true) :
    incrCommit req v k d = (k, raiseTb 4 d) := by
  rw [incrCommit, if_neg (by simp [hopen]), if_pos h]

theorem tbCmd_foreign {req : Req} {d : Dev} (v : W32) (k : Clk) (hopen : csrShut d Reg.TB_CMD = false) (h : foreign d req = true) :
    tbCmd req v k d = (k, raiseTb 4 d) := by
  rw [tbCmd, if_neg (by simp [hopen]), if_pos h]

theorem csrEffect_foreign {req : Req} {row : RegRow} {d : Dev} (i : List Nat) (a : Nat) (v : W32) (k : Clk)
    (hhook : row.hook = .tbIncrLo ∨ row.hook = .tbOwned) (h : foreign d req = true) : csrEffect req row i a v k d = raiseTb 4 d := by
  rcases hhook with hhook | hhook <;> simp only [csrEffect, hhook, h, if_true]

/-- R28, R29: a foreign write of one of these registers only says that it was. -/
theorem csrWrite_foreign {req : Req} {a : Nat} {d : Dev} (v : W32) (k : Clk) (ha : a ∈ clockRegs) (hopen : csrShut d a = false)
    (h : foreign d req = true) : csrWrite req a v k d = (k, raiseTb 4 d) := by
  obtain ⟨⟨row, i⟩, hrow, howned⟩ := rowAt_clockRegs ha
  simp only [ownedRow, Bool.and_eq_true, Bool.or_eq_true, beq_iff_eq, Bool.not_eq_true'] at howned
  obtain ⟨hgk, (hhook | ⟨hhook, rfl⟩) | ⟨hhook, rfl⟩⟩ := howned
  · have heffect : csrWrite req a v k d = (k, sealing a (csrEffect req row i a v k) d) := by
      rcases hhook with hhook | hhook <;> simp only [csrWrite, hopen, hrow, hhook, hgk, if_false, Bool.false_eq_true]
    rw [heffect, sealing, csrEffect_foreign i a v k hhook h, ← sealing, sealing_raiseTb ha]
  · simp only [csrWrite, hopen, hrow, hhook, if_false, Bool.false_eq_true, incrCommit_foreign v k hopen h]
  · simp only [csrWrite, hopen, hrow, hhook, if_false, Bool.false_eq_true, tbCmd_foreign v k hopen h]

theorem toNat_clockRegs {a : Nat} (h : a ∈ clockRegs) : (BitVec.ofNat 24 a).toNat = a := by
  revert a
  decide

theorem halfAt_clockRegs : (∀ a ∈ [Reg.TB_INCR_LO, Reg.TB_STEP_LO, Reg.TB_SET_SEC_LO], halfAt .lo a = true)
    ∧ ∀ a ∈ [Reg.TB_INCR_HI, Reg.TB_STEP_HI, Reg.TB_SET_SEC_HI], halfAt .hi a = true := by
  decide

theorem foreign_iff (req : Req) (d : Dev) : foreign d req = true ↔ d.pins.pairSlaved = true ∨ req ≠ servoOwner d := by
  rw [foreign, Bool.or_eq_true, bne_iff_ne, ne_comm]

/-- R28, R29 for every command that writes one of these registers. -/
theorem exec_foreign {req : Req} {alsoStep : Bool} {v : W32} {a : Nat} {c : Instr} {s : State}
    (hc : (a ∈ clockRegs ∧ c = .csrWrite req (BitVec.ofNat 24 a) v true)
      ∨ (a ∈ [Reg.TB_INCR_LO, Reg.TB_STEP_LO, Reg.TB_SET_SEC_LO] ∧ c = .pairLoWrite req (BitVec.ofNat 24 a) v)
      ∨ (a ∈ [Reg.TB_INCR_HI, Reg.TB_STEP_HI, Reg.TB_SET_SEC_HI] ∧ c = .pairHiWrite req (BitVec.ofNat 24 a) v)
      ∨ (a = Reg.TB_INCR_HI ∧ c = .tbIncrCommit req v) ∨ (a = Reg.TB_CMD ∧ (c = .tbCmdStep req ∨ c = .tbCmdSet req alsoStep)))
    (hopen : csrShut s.dev a = false) (h : foreign s.dev req = true) : exec c s = nextDev s (raiseTb 4 s.dev) := by
  rcases hc with ⟨ha, rfl⟩ | ⟨ha, rfl⟩ | ⟨ha, rfl⟩ | ⟨rfl, rfl⟩ | ⟨rfl, rfl | rfl⟩
  · change onClk s (csrWrite req (BitVec.ofNat 24 a).toNat v) = _
    rw [toNat_clockRegs ha, onClk, csrWrite_foreign v _ ha hopen h]
  · have hmem : a ∈ clockRegs := (show _ ⊆ clockRegs by decide) ha
    change onClk s (fun k d => if halfAt .lo (BitVec.ofNat 24 a).toNat then csrWrite req (BitVec.ofNat 24 a).toNat v k d else (k, d)) = _
    rw [toNat_clockRegs hmem, halfAt_clockRegs.1 a ha, onClk, if_pos rfl, csrWrite_foreign v _ hmem hopen h]
  · have hmem : a ∈ clockRegs := (show _ ⊆ clockRegs by decide) ha
    change onClk s (fun k d => if halfAt .hi (BitVec.ofNat 24 a).toNat then csrWrite req (BitVec.ofNat 24 a).toNat v k d else (k, d)) = _
    rw [toNat_clockRegs hmem, halfAt_clockRegs.2 a ha, onClk, if_pos rfl, csrWrite_foreign v _ hmem hopen h]
  · change onClk s (incrCommit req v) = _
    rw [onClk, incrCommit_foreign v _ hopen h]
  · change onClk s (tbCmd req 2) = _
    rw [onClk, tbCmd_foreign _ _ hopen h]
  · change onClk s (tbCmd req (if alsoStep then 3 else 1)) = _
    rw [onClk, tbCmd_foreign _ _ hopen h]


end Sys2Proof.Machine

/-!
# STEP and SET (O9)
-/

namespace Sys2Proof.Machine

/-- A step of zero notes nothing in the timebase's registers (R25). -/
theorem rd_stepZero {a : Nat} (k : Clk) (d : Dev) (ha : tbPlace a) :
    rd (tellStep 6 0 (validClk k) (afterStep (now k) k.tb.timeValid (validClk k) d)) a = rd d a :=
  ((tellStep_aside ..).regs a (.inl ha)).trans ((afterStep_stepped ..).1 a ha)

/-- STEP of zero (R25). -/
theorem exec_tbCmdStep_zero_quiet {req : Req} {s : State} (hopen : csrShut s.dev Reg.TB_CMD = false) (hown : foreign s.dev req = false)
    (hz : rd64 s.dev Reg.TB_STEP_LO = 0) (hnow : 0 ≤ now s.clk) :
    ∃ t, exec (.tbCmdStep req) s = .next t ∧ now t.clk = now s.clk ∧ t.clk.tb.timeValid = true ∧ t.clk.ticks = s.clk.ticks
      ∧ ∀ a, tbPlace a → rd t.dev a = rd s.dev a :=
  ⟨_, exec_tbCmdStep_zero hopen hown hz hnow, rfl, rfl, rfl, fun _ ha => rd_stepZero _ _ ha⟩

/-- STEP by any amount that does not lead before the epoch (R24, R25). -/
theorem exec_tbCmdStep_adds {req : Req} {s : State} (hopen : csrShut s.dev Reg.TB_CMD = false) (hown : foreign s.dev req = false)
    (hnow : 0 ≤ now s.clk) (h : 0 ≤ now s.clk + stepAsked s.dev) :
    ∃ t, exec (.tbCmdStep req) s = .next t ∧ now t.clk = now s.clk + stepAsked s.dev
      ∧ t.clk.tb.timeValid = true ∧ t.clk.ticks = s.clk.ticks ∧ t.clk.tb.incr = s.clk.tb.incr ∧ t.pending = s.pending := by
  by_cases hz : rd64 s.dev Reg.TB_STEP_LO = 0
  · refine ⟨_, exec_tbCmdStep_zero hopen hown hz hnow, ?_, rfl, rfl, rfl, rfl⟩
    rw [(stepAsked_eq_zero_iff s.dev).mpr hz, add_zero]
    rfl
  · exact ⟨_, exec_tbCmdStep_moves hopen hown hz h, now_stepClk .., rfl, rfl, rfl, rfl⟩

/-- A servo's clock is its owner's alone (R28, R376). -/
theorem servoOwner_host_iff (d : Dev) : servoOwner d = .host ↔ rf d Reg.TB_CTL 0 2 = 1 ∧ rb d Reg.SYS_STRAPS 0 = false := by
  unfold servoOwner
  split <;> simp [*]

theorem foreign_eq_false_iff (req : Req) (d : Dev) : foreign d req = false ↔ d.pins.pairSlaved = false ∧ req = servoOwner d := by
  rw [foreign, Bool.or_eq_false_iff, bne_eq_false_iff_eq, eq_comm (a := req)]

/-- Settles O9: each command by its own lemma; what the frame clock does of a move is told by where the move ends. -/
theorem stepAndSet : Obligations.StepAndSet := by
  refine ⟨fun req alsoStep c x s hopen hown hc => ?_, fun p desc a sel d _ hcal horigin => calDiscard_single hcal horigin,
    fun req s hopen hown hz hnow => ?_, fun req alsoStep v a c s hc hopen h => ?_,
    fun req d => ⟨servoOwner_host_iff d, foreign_eq_false_iff req d⟩,
    fun req s hopen hown hnow h => exec_tbCmdStep_adds hopen hown hnow h, fun req s hopen hown h hne => ?_,
    fun req alsoStep s hopen hown h => ?_, fun req alsoStep s hopen hown h => ?_⟩
  · obtain ⟨t, hexec, rfl, hvalid, hticks, hincr, hpending, hmoved⟩ := exec_move hopen hown hc
    obtain ⟨hevent, hcount, hlast⟩ := movedDev_noted hmoved
    refine ⟨t, hexec, rfl, hvalid, hticks, hincr, hpending, hevent, hcount, by rw [hlast, toInt_stepSize],
      fun p hp => movedDev_discards hmoved hp, fun hrun => frm_moved_noRun hmoved hrun,
      fun g hrun hfirst => frm_moved_waiting hmoved hrun hfirst, fun g hrun hfirst => ⟨fun hback hafter => ?_, fun hhold => ?_,
        fun hrenum => movedDev_renumbers hmoved hrun hfirst hrenum, fun hfwd hnext => ?_,
        fun hfwd hnext => movedDev_skips hmoved hrun hfirst hfwd hnext⟩⟩
    · have hstands := movedDev_after hmoved hrun hfirst hback hafter
      exact ⟨hstands.frm, hstands.regs _ frmPlace_event, hstands.regs _ (by decide), hstands.regs _ (by decide)⟩
    · obtain ⟨hfrm, hnew, hheld⟩ := movedDev_holds hmoved hrun hfirst hhold
      exact ⟨hfrm, hnew, fun hh => ⟨(hheld hh).regs _ frmPlace_event, (hheld hh).regs _ (by decide)⟩⟩
    · have hstands := movedDev_forward_none hmoved hrun hfirst hfwd hnext
      exact ⟨hstands.frm, hstands.regs _ frmPlace_event⟩
  · obtain ⟨t, hexec, hnow', hvalid, hticks, hregs⟩ := exec_tbCmdStep_zero_quiet hopen hown hz hnow
    refine ⟨t, hexec, hnow', hvalid, hticks, hregs _ (by decide), hregs _ (by decide), ?_⟩
    rw [rd64, rd64, hregs _ (by decide), hregs _ (by decide)]
  · exact ⟨exec_foreign hc hopen ((foreign_iff req s.dev).mpr h), rb_raiseTb 4 (by decide) _, onlyThese_raiseTb ..⟩
  · exact ⟨_, exec_tbCmdStep_rejected hopen hown hne h, rfl, rb_raiseTb 3 (by decide) _, onlyThese_raiseTb ..⟩
  · exact ⟨_, exec_tbCmdSet_moves hopen hown alsoStep h, now_setClk .., rfl, rfl, rfl, rfl, rfl⟩
  · exact ⟨_, exec_tbCmdSet_rejected hopen hown alsoStep h, rfl, rb_raiseTb 3 (by decide) _, onlyThese_raiseTb ..⟩

end Sys2Proof.Machine

/-!
R47 for the register instructions (O21): each of their meanings gives a brew's registers, or a fault, by those registers alone.
-/

namespace Sys2Proof.Machine

/-- What an instruction of a brew comes to, as a function of the slot, the clock and the device it runs in, is given by the brew's registers
alone: they change to the same ones everywhere, or the same fault is taken everywhere (R47). -/
def PlaceFree (g : Nat → Clk → Dev → Res) : Prop :=
  (∃ b, ∀ i k d, g i k d = .done k (setBrew i (some b) d)) ∨ ∃ code addr lane, ∀ i k d, g i k d = .fault code addr lane d

/-- A meaning that uses the brew's registers alone. -/
def RegisterStep (f : Runner → Option W32 → W32 → Clk → Dev → Res) : Prop :=
  ∀ b pre w, PlaceFree fun i k d => f (.slot i b) pre w k d

theorem placeFree_illegal : PlaceFree fun _ _ d => illegal d := .inr ⟨_, _, _, fun _ _ _ => rfl⟩

theorem placeFree_goOn (b : Brew) (pre : Option W32) : PlaceFree fun i k d => goOn (.slot i b) pre k d :=
  .inl ⟨{ b with pc := b.pc + instrLen pre }, fun _ _ _ => rfl⟩

/-- A choice that rests on nothing but the registers keeps an outcome free of its place. -/
theorem PlaceFree.ite {c : Prop} [Decidable c] {g h : Nat → Clk → Dev → Res} (hg : PlaceFree g) (hh : PlaceFree h) :
    PlaceFree fun i k d => if c then g i k d else h i k d := by
  by_cases hc : c
  · simpa only [if_pos hc] using hg
  · simpa only [if_neg hc] using hh

theorem placeFree_writeD (b : Brew) (pre : Option W32) (w : W32) (v : Option W64) : PlaceFree fun i k d => writeD (.slot i b) pre w v k d := by
  cases v with
  | none => exact placeFree_illegal
  | some x => exact placeFree_goOn (b.setG (dOf w) x) pre

theorem placeFree_vWrite (b : Brew) (pre : Option W32) (w : W32) (r : Option VRes) : PlaceFree fun i k d => vWrite i b pre w r k d := by
  cases r with
  | none => exact placeFree_illegal
  | some x =>
    cases x with
    | vec => exact placeFree_goOn _ pre
    | pred => exact (placeFree_goOn _ pre).ite placeFree_illegal
    | predFl => exact (placeFree_goOn _ pre).ite placeFree_illegal
    | scalar => exact placeFree_goOn _ pre

/-! The meanings, each by its own check. -/

theorem registerStep_alu : RegisterStep aluStep := fun b pre w =>
  placeFree_writeD b pre w (if pOf w = 0 then alu (funcOf w) (bOf w) (b.gReg (aOf w)) (b.gReg (bOf w)) else none)

theorem registerStep_immediate : RegisterStep immediateStep := fun b pre w =>
  placeFree_writeD b pre w (some (immediateOp (opOf w) (immediate pre w).1 (immediate pre w).2 (b.gReg (aOf w))))

theorem registerStep_lui : RegisterStep luiStep := fun b pre w => placeFree_writeD b pre w _

theorem registerStep_shifti : RegisterStep shiftiStep := fun b pre w =>
  placeFree_writeD b pre w (if fld w 8 8 = 0 then some (shift64 (fld w 6 2) (b.gReg (aOf w)) (fld w 0 6)) else none)

theorem registerStep_nop : RegisterStep nopStep := fun b pre _ => (placeFree_goOn b pre).ite placeFree_illegal

theorem registerStep_trap : RegisterStep trapStep := fun _ _ _ =>
  PlaceFree.ite (.inr ⟨_, _, _, fun _ _ _ => rfl⟩) placeFree_illegal

theorem registerStep_branch : RegisterStep branchStep := fun b pre w =>
  PlaceFree.ite (c := branchTaken (opOf w) (b.gReg (dOf w)) (b.gReg (aOf w)))
    (.inl ⟨{ b with pc := b.pc + immSx pre w * 4 }, fun _ _ _ => rfl⟩) (placeFree_goOn b pre)

theorem registerStep_jal : RegisterStep jalStep := fun b pre w =>
  .inl ⟨{ b.setG 31 (b.pc + instrLen pre) with pc := b.pc + sx 26 (fld w 0 26) * 4 }, fun _ _ _ => rfl⟩

theorem registerStep_jalr : RegisterStep jalrStep := fun b pre w =>
  PlaceFree.ite (c := (b.gReg (aOf w) + immSx pre w).toNat % 4 = 0)
    (.inl ⟨{ b.setG (dOf w) (b.pc + instrLen pre) with pc := b.gReg (aOf w) + immSx pre w }, fun _ _ _ => rfl⟩)
    (.inr ⟨0x02, b.gReg (aOf w) + immSx pre w, 0xFF, fun _ _ _ => rfl⟩)

theorem registerStep_fence : RegisterStep fenceStep := fun b pre _ => (placeFree_goOn b pre).ite placeFree_illegal

/-- A MISC instruction of a brew: it changes the registers if its fields are in order. -/
theorem registerStep_checked (ok : W32 → Bool) (g : Brew → W32 → Brew) :
    RegisterStep (onBrew fun i b pre w k d => if ok w then brewOn i (g b w) pre k d else illegal d) :=
  fun _ pre _ => (placeFree_goOn _ pre).ite placeFree_illegal

/-- A vector instruction writes what its operands give. -/
theorem registerStep_vWrite (g : Brew → Option W32 → W32 → Option VRes) :
    RegisterStep (onBrew fun i b pre w k d => vWrite i b pre w (g b pre w) k d) :=
  fun b pre w => placeFree_vWrite b pre w _

theorem registerStep_key (useB : Bool) (g : Brew → W64 → W64 → W64) : RegisterStep (keyStep useB g) :=
  fun _ _ _ => (placeFree_goOn _ none).ite placeFree_illegal

/-- VPRED checks its fields first. -/
theorem registerStep_vpred : RegisterStep (onBrew fun i b pre w k d =>
    if pOf w = 0 ∧ vpredFields w then
      vWrite i b pre w (vpred (funcOf w) (bOf w) (b.pReg (aOf w)) (b.pReg (bOf w)) (b.gReg (aOf w))) k d
    else illegal d) :=
  fun b pre w => (placeFree_vWrite b pre w _).ite placeFree_illegal

/-- The commands that run a register instruction of a brew, each with the class of its word. -/
def registerCommands : List (Op × (SlotId → Instr)) :=
  [(.alu, fun x => .alu (.slot x)), (.immediate, fun x => .immediateOp (.slot x)), (.lui, fun x => .lui (.slot x)),
    (.shifti, fun x => .shifti (.slot x)), (.nop, fun x => .nop (.slot x)), (.movl, .movl), (.movk, .movk), (.movfl, .movfl),
    (.clrfl, .clrfl), (.trap, fun x => .trap (.slot x)), (.branch, fun x => .branch (.slot x)), (.jal, fun x => .jal (.slot x)),
    (.jalr, fun x => .jalr (.slot x)), (.vint, .vint), (.vfix, .vfix), (.vfp, .vfp), (.vpred, .vpred), (.vmove, .vmove),
    (.fence, fun x => .fence (.slot x)), (.kmake, .kmake), (.ksetf, .ksetf), (.kaddf, .kaddf), (.kaddi, .kaddi), (.ksett, .ksett),
    (.kgett, .kgett), (.kgetf, .kgetf), (.kgeti, .kgeti)]

/-- Each of these commands runs a meaning that uses the brew's registers alone. -/
theorem registerCommands_step : ∀ p ∈ registerCommands, ∃ f, RegisterStep f ∧ ∀ x s, exec (p.2 x) s = runClass p.1 (.slot x) f s := by
  unfold registerCommands
  simp only [List.forall_mem_cons]
  exact ⟨⟨_, registerStep_alu, fun _ _ => rfl⟩, ⟨_, registerStep_immediate, fun _ _ => rfl⟩, ⟨_, registerStep_lui, fun _ _ => rfl⟩,
    ⟨_, registerStep_shifti, fun _ _ => rfl⟩, ⟨_, registerStep_nop, fun _ _ => rfl⟩, ⟨_, registerStep_checked _ _, fun _ _ => rfl⟩,
    ⟨_, registerStep_checked _ _, fun _ _ => rfl⟩, ⟨_, registerStep_checked _ _, fun _ _ => rfl⟩, ⟨_, registerStep_checked _ _, fun _ _ => rfl⟩,
    ⟨_, registerStep_trap, fun _ _ => rfl⟩, ⟨_, registerStep_branch, fun _ _ => rfl⟩, ⟨_, registerStep_jal, fun _ _ => rfl⟩,
    ⟨_, registerStep_jalr, fun _ _ => rfl⟩, ⟨_, registerStep_vWrite _, fun _ _ => rfl⟩, ⟨_, registerStep_vWrite _, fun _ _ => rfl⟩,
    ⟨_, registerStep_vWrite _, fun _ _ => rfl⟩, ⟨_, registerStep_vpred, fun _ _ => rfl⟩, ⟨_, registerStep_vWrite _, fun _ _ => rfl⟩,
    ⟨_, registerStep_fence, fun _ _ => rfl⟩, ⟨_, registerStep_key _ _, fun _ _ => rfl⟩, ⟨_, registerStep_key _ _, fun _ _ => rfl⟩,
    ⟨_, registerStep_key _ _, fun _ _ => rfl⟩, ⟨_, registerStep_key _ _, fun _ _ => rfl⟩, ⟨_, registerStep_key _ _, fun _ _ => rfl⟩,
    ⟨_, registerStep_key _ _, fun _ _ => rfl⟩, ⟨_, registerStep_key _ _, fun _ _ => rfl⟩, ⟨_, registerStep_key _ _, fun _ _ => rfl⟩,
    by simp⟩

/-- Settles O21: the outcome of the class's meaning is free of its place, so both runs close with the same registers or the same fault. -/
theorem sameResultAnywhere : Obligations.SameResultAnywhere := by
  intro i j i' j' b s t pre w d e op c hc hi hj
  obtain ⟨f, hf, hexec⟩ := registerCommands_step (op, c) hc
  rw [hexec, hexec]
  obtain ⟨b', h⟩ | ⟨code, addr, lane, h⟩ := hf b pre w
  · exact .inl ⟨b', runClass_done hi (h ..), runClass_done hj (h ..)⟩
  · exact .inr ⟨code, addr, lane, runClass_fault hi (h ..), runClass_fault hj (h ..)⟩

end Sys2Proof.Machine

/-!
The scalar arithmetic of Machine/Alu.lean in the words of the manual (R56, R59, R60, R62, R77), and the ALU instructions (O14).
-/

namespace Sys2Proof.Machine

/-! Fields and immediates. -/

theorem fld_toNat_setWidth {n : Nat} (v : BitVec n) (m : Nat) : fld v 0 m = (v.setWidth m).toNat := by simp [fld]

theorem fld_lt {n : Nat} (v : BitVec n) (lo len : Nat) : fld v lo len < 2 ^ len := Nat.mod_lt _ (Nat.two_pow_pos len)

/-- A field whose sign is extended is the field as a bit vector, sign-extended. -/
theorem sx_toNat {m : Nat} (hm : 0 < m) (v : BitVec m) : sx m v.toNat = v.signExtend 64 := by
  rw [sx, BitVec.signExtend]
  congr 1
  rw [signExt, Nat.mod_eq_of_lt v.isLt, BitVec.toInt_eq_toNat_cond]
  have h : 2 ^ m = 2 * 2 ^ (m - 1) := by rw [← Nat.pow_succ']; congr; omega
  simp only [h]
  by_cases hlow : v.toNat < 2 ^ (m - 1)
  · rw [if_pos hlow, if_pos (by omega)]
  · rw [if_neg hlow, if_neg (by omega)]

theorem sx_mod (m x : Nat) : sx m (x % 2 ^ m) = sx m x := by simp [sx, signExt]

/-- The sign-extended low bits of a number. -/
theorem sx_ofNat {m : Nat} (hm : 0 < m) (x : Nat) : sx m x = (BitVec.ofNat m x).signExtend 64 := by
  rw [← sx_toNat hm, BitVec.toNat_ofNat, sx_mod]

theorem sx_fld {n m : Nat} (hm : 0 < m) (v : BitVec n) : sx m (fld v 0 m) = (v.setWidth m).signExtend 64 := by
  rw [fld_toNat_setWidth, sx_toNat hm]

/-- The low bits of a register, sign-extended and zero-extended (R59). -/
theorem sx_setWidth {m : Nat} (hm : 0 < m) (a : W64) : sx m a.toNat = (a.setWidth m).signExtend 64 := by rw [sx_ofNat hm, BitVec.ofNat_toNat]

theorem zx_setWidth (m : Nat) (a : W64) : w64 (a.toNat % 2 ^ m) = (a.setWidth m).setWidth 64 := by
  rw [← BitVec.toNat_setWidth, w64, BitVec.ofNat_toNat]

/-- The immediate of a LIMM form: 22 bits of the LIMM word above 16 of its own (R56). -/
def limm (p w : W32) : BitVec 38 := p.setWidth 22 ++ w.setWidth 16

theorem toNat_limm (p w : W32) : (limm p w).toNat = fld p 0 22 * 2 ^ 16 + immOf w := by
  rw [limm, BitVec.toNat_append, immOf, fld_toNat_setWidth, fld_toNat_setWidth, ← Nat.shiftLeft_add_eq_or_of_lt (BitVec.isLt _), Nat.shiftLeft_eq]

/-- The sign-extended immediate of the I and B formats (R56). -/
theorem immSx_eq (pre : Option W32) (w : W32) :
    immSx pre w = pre.elim ((w.setWidth 16).signExtend 64) fun p => (limm p w).signExtend 64 := by
  cases pre with
  | none => exact sx_fld (m := 16) (by decide) w
  | some p => exact (congrArg (sx 38) (toNat_limm p w).symm).trans (sx_toNat (m := 38) (by decide) _)

/-- The zero-extended immediate (R56, R60). -/
theorem immZx_eq (pre : Option W32) (w : W32) :
    w64 (immediate pre w).2 = pre.elim ((w.setWidth 16).setWidth 64) fun p => (limm p w).setWidth 64 := by
  cases pre with
  | none => exact (congrArg w64 (fld_toNat_setWidth w 16)).trans (BitVec.ofNat_toNat 64 _)
  | some p => exact (congrArg w64 (toNat_limm p w).symm).trans (BitVec.ofNat_toNat 64 _)

/-! Comparisons, minima and products. -/

/-- The smaller and the larger of two signed values, by the order's strict form. -/
theorem minMax_signed {n : Nat} (a b : BitVec n) :
    minMax 0 a b = (if a.slt b then a else b) ∧ minMax 1 a b = if a.slt b then b else a := by
  simp only [minMax, BitVec.slt, decide_eq_true_eq]
  rcases lt_trichotomy a.toInt b.toInt with h | h | h
  · simp [h, h.le]
  · simp [BitVec.eq_of_toInt_eq h]
  · simp [h.not_ge, h.not_gt]

theorem minMax_unsigned {n : Nat} (a b : BitVec n) : minMax 2 a b = (if a < b then a else b) ∧ minMax 3 a b = if a < b then b else a := by
  simp only [minMax, BitVec.lt_def]
  rcases lt_trichotomy a.toNat b.toNat with h | h | h
  · simp [h, h.le]
  · simp [BitVec.eq_of_toNat_eq h]
  · simp [h.not_ge, h.not_gt]

/-- The high half of a product of two 128-bit values is the product's quotient (R59). -/
theorem mulh_unsigned (a b : W64) : w64 (a.toNat * b.toNat / 2 ^ 64) = ((a.setWidth 128 * b.setWidth 128) >>> 64).setWidth 64 := by
  have h : a.toNat * b.toNat < 2 ^ 64 * 2 ^ 64 := Nat.mul_lt_mul'' a.isLt b.isLt
  apply BitVec.eq_of_toNat_eq
  simp only [w64, BitVec.toNat_ofNat, BitVec.toNat_setWidth, BitVec.toNat_ushiftRight, BitVec.toNat_mul, Nat.shiftRight_eq_div_pow]
  rw [Nat.mod_eq_of_lt (a := a.toNat) (by omega), Nat.mod_eq_of_lt (a := b.toNat) (by omega)]
  generalize a.toNat * b.toNat = t at h ⊢
  omega

theorem mulh_signed (a b : W64) :
    BitVec.ofInt 64 (a.toInt * b.toInt / 2 ^ 64) = ((a.signExtend 128 * b.signExtend 128) >>> 64).setWidth 64 := by
  simp only [BitVec.signExtend, ← BitVec.ofInt_mul]
  generalize a.toInt * b.toInt = t
  apply BitVec.eq_of_toNat_eq
  simp only [BitVec.toNat_ofInt, BitVec.toNat_setWidth, BitVec.toNat_ushiftRight, Nat.shiftRight_eq_div_pow]
  omega

theorem sdiv_eq (a b : W64) : BitVec.ofInt 64 (a.toInt.tdiv b.toInt) = a.sdiv b := by
  apply BitVec.eq_of_toInt_eq
  rw [BitVec.toInt_sdiv, BitVec.toInt_ofInt]

theorem srem_eq (a b : W64) : BitVec.ofInt 64 (a.toInt.tmod b.toInt) = a.srem b := by
  apply BitVec.eq_of_toInt_eq
  rw [BitVec.toInt_srem, BitVec.toInt_ofInt, ← BitVec.toInt_srem, BitVec.toInt_bmod_cancel]

theorem udiv_eq (a b : W64) : w64 (a.toNat / b.toNat) = a / b := by
  apply BitVec.eq_of_toNat_eq
  simp [w64, BitVec.toNat_udiv]
  exact (Nat.div_le_self ..).trans_lt a.isLt

theorem umod_eq (a b : W64) : w64 (a.toNat % b.toNat) = a % b := by
  apply BitVec.eq_of_toNat_eq
  simp [w64, BitVec.toNat_umod]
  exact (Nat.mod_le ..).trans_lt a.isLt

/-! Counts of bits. -/

/-- The first index of a range with a property: it is z when those before z lack it and z, if it is in range, has it. -/
theorem firstIdx_range {p : Nat → Bool} {n z : Nat} (hz : z ≤ n) (hbefore : ∀ i < z, p i = false) (hat : z < n → p z = true) :
    (firstIdx p (List.range n) 0).getD n = z := by
  have key : ∀ (m k : Nat), k ≤ z → k + m = n → firstIdx p (List.range' k m) k = if z < n then some z else none := by
    intro m
    induction m with
    | zero => intro k hk hn; simp [firstIdx]; omega
    | succ m ih =>
      intro k hk hn
      rw [List.range'_succ, firstIdx]
      by_cases hkz : k = z
      · subst hkz; simp [hat (by omega)]; omega
      · rw [hbefore k (by omega), if_neg (by simp), ih (k + 1) (by omega) (by omega)]
  rw [List.range_eq_range', key n 0 (Nat.zero_le z) (Nat.zero_add n)]
  split
  · rfl
  · simp only [Option.getD_none]; omega

theorem popcount_eq {n : Nat} (a : BitVec n) : popcount a = ((List.range n).map fun i => bnat (a.getLsbD i)).sum := by
  rw [popcount, ← List.countP_eq_length_filter]
  induction List.range n with
  | nil => rfl
  | cons i l ih => rw [List.countP_cons, ih, List.map_cons, List.sum_cons, Nat.add_comm]; rfl

theorem fld_shift (b : W64) : fld b 0 6 = b.toNat % 64 := by simp [fld]

/-! The ALU instructions. -/

/-- An ALU instruction with a defined value gives it to g[D] (R59). -/
theorem exec_alu {who : Who} {s : State} {r : Runner} {w : W32} {e : Dev} {v : W64} (h : Issues .alu who r none w s e) (hp : pOf w = 0)
    (hv : alu (funcOf w) (bOf w) (r.g (aOf w)) (r.g (bOf w)) = some v) :
    exec (.alu who) s = nextDev s ((r.setG (dOf w) v).next none e) :=
  runClass_done h (by rw [aluStep, if_pos hp, hv]; rfl)

/-- One without is ILLEGAL (R58). -/
theorem exec_alu_illegal {who : Who} {s : State} {r : Runner} {w : W32} {e : Dev} (h : Issues .alu who r none w s e)
    (hv : pOf w = 0 → alu (funcOf w) (bOf w) (r.g (aOf w)) (r.g (bOf w)) = none) :
    exec (.alu who) s = nextDev s (takeFault r 0x01 0 0xFF s.clk e) := by
  refine runClass_fault h ?_
  rw [aluStep]
  split
  · next hp => rw [hv hp]; rfl
  · rfl

/-- FUNC values without an instruction, and values of B that the bit counts and the extensions do not define (R58, R59). -/
theorem alu_undefined {f n : Nat} (a b : W64)
    (h : f ∈ [0x06, 0x07, 0x0C, 0x0D, 0x0E, 0x0F, 0x13, 0x23] ∨ 0x26 ≤ f ∨ (f ∈ [0x20, 0x21, 0x22] ∧ n ≠ 0) ∨ (f ∈ [0x24, 0x25] ∧ 2 < n)) :
    alu f n a b = none := by
  simp only [List.mem_cons, List.not_mem_nil, or_false] at h
  rcases h with (rfl | rfl | rfl | rfl | rfl | rfl | rfl | rfl) | hf | ⟨rfl | rfl | rfl, hn⟩ | ⟨rfl | rfl, hn⟩
  case inr.inl =>
    obtain ⟨k, rfl⟩ := Nat.exists_eq_add_of_le' hf
    rfl
  case inr.inr.inl.inl | inr.inr.inl.inr.inl | inr.inr.inl.inr.inr => exact if_neg hn
  case inr.inr.inr.inl | inr.inr.inr.inr => exact if_neg (by omega)
  all_goals rfl

/-- Settles O14: each FUNC by its line of the table, and the others by `alu_undefined`. -/
theorem aluRule : Obligations.AluRule := by
  intro who s r w e h a b f n done
  refine ⟨fun hp => ?_, fun hbad => exec_alu_illegal h fun hp => alu_undefined _ _ (hbad.resolve_left (not_not_intro hp))⟩
  have hB : ∀ {x y u v}, alu x y a b = some u → u = v → f = x → bOf w = y → done v := by
    rintro x y u v hu rfl rfl rfl
    exact exec_alu h hp hu
  have hF : ∀ {x u v}, alu x (bOf w) a b = some u → u = v → f = x → done v := fun hu huv hf => hB hu huv hf rfl
  have hshift (kind : Nat) : shift64 kind a (fld b 0 6) = shift64 kind a n := by rw [fld_shift]
  refine ⟨hF rfl rfl, hF rfl rfl, hF rfl rfl, hF rfl rfl, hF rfl rfl, hF rfl rfl,
    hF rfl (hshift 0), hF rfl (hshift 1), hF rfl (hshift 2), hF rfl (hshift 3),
    hF rfl rfl, hF rfl (mulh_signed a b), hF rfl (mulh_unsigned a b),
    hF rfl (by rw [sdiv_eq]), hF rfl (by rw [udiv_eq]), hF rfl (by rw [srem_eq]), hF rfl (by rw [umod_eq]),
    hF rfl (by simp [flag64]), hF rfl (by simp [flag64]), hF rfl rfl, hF rfl (by simp [flag64, BitVec.lt_def]),
    hF rfl (minMax_signed a b).1, hF rfl (minMax_signed a b).2, hF rfl (minMax_unsigned a b).1, hF rfl (minMax_unsigned a b).2,
    fun hf hb z hz hbefore hat => hB rfl (congrArg w64 (firstIdx_range hz hbefore hat)) hf hb,
    fun hf hb z hz hbefore hat => hB rfl (congrArg w64 (firstIdx_range hz hbefore hat)) hf hb,
    hB rfl (congrArg w64 (popcount_eq a)),
    fun hf => ⟨hB rfl (sx_setWidth (by decide) a) hf, hB rfl (sx_setWidth (by decide) a) hf, hB rfl (sx_setWidth (by decide) a) hf⟩,
    fun hf => ⟨hB rfl (zx_setWidth 8 a) hf, hB rfl (zx_setWidth 16 a) hf, hB rfl (zx_setWidth 32 a) hf⟩⟩

end Sys2Proof.Machine

/-!
Immediates, MISC, branches and jumps (O15).
-/

namespace Sys2Proof.Machine

section
variable {op : Op} {who : Who} {r : Runner} {pre : Option W32} {w : W32} {s : State} {e : Dev}

/-- A class that takes neither a LIMM, a VX nor a TX word before it issues alone (R56). -/
theorem Issues.pre_eq_none (h : Issues op who r pre w s e) (hlimm : op.takesLimm = false) (hvx : ∀ p, vxOk op p w = false)
    (htx : (op == .sample2 || op == .sample3) = false) : pre = none := by
  cases pre with
  | none => rfl
  | some p =>
    have hok := h.prefixOk.2.2
    simp only [Machine.prefixOk, hlimm, hvx p, htx] at hok
    split at hok <;> cases hok

end

/-- ADDI, ANDI, ORI, XORI, SLTI and SLTIU by their immediates' two readings (R60). -/
theorem immediateOp_eq (op m imm : Nat) (a : W64) : immediateOp op m imm a = match op with
    | 0x02 => a + sx m imm | 0x03 => a &&& w64 imm | 0x04 => a ||| w64 imm | 0x05 => a ^^^ w64 imm
    | 0x08 => if a.slt (sx m imm) then 1 else 0 | _ => if a < sx m imm then 1 else 0 := by
  unfold immediateOp
  split
  case h_6 => simp [flag64, BitVec.lt_def]
  all_goals rfl

theorem branchTaken_eq (op : Nat) (x a : W64) : branchTaken op x a = match op with
    | 0x18 => x == a | 0x19 => x != a | 0x1A => x.slt a | 0x1B => !x.slt a | 0x1C => decide (x < a) | _ => !decide (x < a) := by
  unfold branchTaken
  split
  case h_4 => simp [BitVec.slt, ← decide_not]
  case h_6 => simp [BitVec.lt_def, ← decide_not]
  all_goals rfl

/-- LUI shifts the sign-extended immediate above the bits that an ADDI can add (R60). -/
theorem luiValue_eq (pre : Option W32) (w : W32) :
    luiValue (immediate pre w).1 (immediate pre w).2 = immSx pre w <<< (if pre.isSome then 26 else 16) := by
  cases pre <;> rfl

theorem w32_fld_six (a : W64) : w32 (fld a 0 6) = (a.setWidth 6).setWidth 32 := by
  rw [fld_toNat_setWidth, w32, BitVec.ofNat_toNat]

theorem shift64_eq (kind : Nat) (a : W64) (n : Nat) : shift64 kind a n = match kind with
    | 0 => a <<< n | 1 => a >>> n | 2 => a.sshiftRight n | _ => a.rotateRight n := rfl

/-- Settles O15: each meaning under its fields, with the immediates as bit vectors. -/
theorem immediatesAndJumps : Obligations.ImmediatesAndJumps := by
  intro who s r pre w e a x imm zimm take
  have himm : immSx pre w = imm := immSx_eq pre w
  have hzimm : w64 (immediate pre w).2 = zimm := immZx_eq pre w
  refine ⟨fun h => runClass_done h ?_, fun h ha => runClass_done h ?_, fun h hf => runClass_done h ?_,
    fun h hp hd ha hb => runClass_done h ?_, fun h hp hd hb => runClass_fault h ?_, ?_, ?_, fun h => runClass_done h ?_,
    fun h => ?_, fun h hd ha hz hk => runClass_done h (if_pos ⟨hd, ha, hz, hk⟩)⟩
  · change goOn (r.setG (dOf w) (immediateOp _ _ _ a)) pre s.clk e = _
    rw [immediateOp_eq, hzimm, ← himm]
    rfl
  · change writeD r pre w (if aOf w = 0 then _ else none) s.clk e = _
    rw [if_pos ha, luiValue_eq, himm]
    rfl
  · change writeD r pre w (if fld w 8 8 = 0 then _ else none) s.clk e = _
    rw [if_pos hf, shift64_eq]
    rfl
  · exact if_pos (by simp [miscOk, hp, hd, ha, hb])
  · exact if_pos (by simp [miscOk, hp, hd, hb])
  · rintro i i' b rfl rfl hp hb
    refine ⟨fun h ha => runClass_done h (if_pos (by simp [miscOk, hp, hb, ha])), fun h ha => runClass_done h (if_pos (by simp [miscOk, hp, hb, ha])),
      fun h ha => runClass_done h (if_pos (by simp [miscOk, hp, hb, ha])), fun h hd => runClass_done h ?_⟩
    refine (if_pos (by simp [miscOk, hp, hb, hd])).trans ?_
    rw [w32_fld_six]
    rfl
  · intro h taken
    have htaken : branchTaken (opOf w) x a = taken := branchTaken_eq ..
    refine runClass_done h ?_
    change (if branchTaken (opOf w) x a then _ else _) = _
    rw [htaken, himm]
    exact (apply_ite (Res.done s.clk) (taken = true) _ _).symm
  · obtain rfl := h.pre_eq_none rfl (fun _ => Bool.and_false _) rfl
    change Res.done s.clk (((r.setG 31 (r.after none)).jump (r.pc + sx 26 (fld w 0 26) * 4)).put e) = _
    rw [sx_fld (m := 26) (by decide)]
    rfl
  · rw [← himm]
    by_cases h4 : (a + immSx pre w).toNat % 4 = 0
    · rw [if_pos h4]
      exact runClass_done h (if_pos h4)
    · rw [if_neg h4]
      exact runClass_fault h (if_neg h4)

end Sys2Proof.Machine

/-!
VPRED (O18) and the writing of a vector instruction's result.
-/

namespace Sys2Proof.Machine

@[simp] theorem Brew.raiseFl_zero (b : Brew) : b.raiseFl 0 = b := by simp [Brew.raiseFl]

theorem vWrite_pred {i : Nat} {b : Brew} {pre : Option W32} {w : W32} {k : Clk} {d : Dev} (p : W32) (hd : dOf w < 8) :
    vWrite i b pre w (some (.pred p)) k d = .done k ((Runner.slot i (b.setP (dOf w) p)).next pre d) := if_pos (decide_eq_true hd)

theorem vWrite_predFl {i : Nat} {b : Brew} {pre : Option W32} {w : W32} {k : Clk} {d : Dev} (p fl : W32) (hd : dOf w < 8) :
    vWrite i b pre w (some (.predFl p fl)) k d = .done k ((Runner.slot i ((b.setP (dOf w) p).raiseFl fl)).next pre d) :=
  if_pos (decide_eq_true hd)

theorem vWrite_scalar_noFlags (i : Nat) (b : Brew) (pre : Option W32) (w : W32) (v : W64) (k : Clk) (d : Dev) :
    vWrite i b pre w (some (.scalar v 0)) k d = .done k ((Runner.slot i (b.setG (dOf w) v)).next pre d) := by
  change goOn (.slot i ((b.setG (dOf w) v).raiseFl 0)) pre k d = _
  rw [Brew.raiseFl_zero]
  rfl

/-- A VPRED that computes a predicate may name no register beyond p7 as its destination (R55). -/
theorem vWrite_pred_illegal {i : Nat} {b : Brew} {pre : Option W32} {w : W32} {k : Clk} {d : Dev} (p : W32) (hd : 8 ≤ dOf w) :
    vWrite i b pre w (some (.pred p)) k d = illegal d := if_neg (by simp [predField, hd])

section
variable {i : SlotId} {i' : Nat} {b : Brew} {s : State} {w : W32} {e : Dev} (h : Issues .vpred (.slot i) (.slot i' b) none w s e)
include h

/-- A VPRED whose fields name predicate registers writes what its FUNC computes. -/
theorem exec_vpred (hp : pOf w = 0) (hf : vpredFields w = true) {r : Option VRes} {d : Dev}
    (hr : vpred (funcOf w) (bOf w) (b.pReg (aOf w)) (b.pReg (bOf w)) (b.gReg (aOf w)) = r)
    (hw : vWrite i' b none w r s.clk e = .done s.clk d) : exec (.vpred i) s = nextDev s d :=
  runClass_done h ((if_pos ⟨hp, hf⟩).trans (by rw [hr, hw]))

/-- Any other faults. -/
theorem exec_vpred_illegal (hbad : pOf w = 0 → vpredFields w = true →
      vWrite i' b none w (vpred (funcOf w) (bOf w) (b.pReg (aOf w)) (b.pReg (bOf w)) (b.gReg (aOf w))) s.clk e = illegal e) :
    exec (.vpred i) s = nextDev s (takeFault (.slot i' b) 0x01 0 0xFF s.clk e) := by
  refine runClass_fault h ?_
  change (if pOf w = 0 ∧ vpredFields w = true then _ else illegal e) = _
  split
  · next hok => exact hbad hok.1 hok.2
  · rfl

end

/-- The FUNC values of VPRED without an operation (R69). -/
theorem vpred_undefined {f : Nat} (n : Nat) (p q : W32) (g : W64) (h : f ∈ [0x05, 0x06, 0x07] ∨ 0x0D ≤ f) : vpred f n p q g = none := by
  simp only [List.mem_cons, List.not_mem_nil, or_false] at h
  rcases h with (rfl | rfl | rfl) | hf
  case inr =>
    obtain ⟨k, rfl⟩ := Nat.exists_eq_add_of_le' hf
    rfl
  all_goals rfl

/-- Which fields of a VPRED must name predicate registers beside D (R55, R69). -/
theorem vpredFields_iff (w : W32) : vpredFields w = true ↔
    (funcOf w = 8 ∨ funcOf w = 9) ∨ aOf w < 8 ∧ (funcOf w ∈ [0x04, 0x0A, 0x0B, 0x0C] ∨ bOf w < 8) := by
  unfold vpredFields
  split <;> simp_all [predField]

/-- PLEN: the first elements, up to 32 (R69). -/
theorem plen_eq {n : Nat} {p : W32} (h : ∀ j < 32, p.getLsbD j = decide (j < n)) : w32 (2 ^ min n 32 - 1) = p := by
  apply BitVec.eq_of_getLsbD_eq
  intro j hj
  rw [h j hj, w32, BitVec.getLsbD_ofNat, Nat.testBit_two_pow_sub_one]
  simp [hj]

/-- Settles O18: the operations through `exec_vpred`, the ILLEGAL cases through `exec_vpred_illegal`. -/
theorem predicateRule : Obligations.PredicateRule := by
  intro i i' b s w e h pa pb ga toP toG bad
  have hfields := vpredFields_iff w
  simp only [List.mem_cons, List.not_mem_nil, or_false] at hfields
  have hunnamed : ¬ vpredFields w = true → bad := fun hf => exec_vpred_illegal h fun _ hf' => absurd hf' hf
  have hnone : ∀ {f n}, vpred f n pa pb ga = none → funcOf w = f → bOf w = n → bad := by
    rintro f n hr rfl rfl
    exact exec_vpred_illegal h fun _ _ => by rw [hr]; rfl
  have hwide : ∀ {f n p}, vpred f n pa pb ga = some (.pred p) → 8 ≤ dOf w → funcOf w = f → bOf w = n → bad := by
    rintro f n p hr hd rfl rfl
    exact exec_vpred_illegal h fun _ _ => by rw [hr]; exact vWrite_pred_illegal p hd
  refine ⟨fun hp => exec_vpred_illegal h fun h0 => absurd h0 hp, fun hu => hnone (vpred_undefined _ _ _ _ hu) rfl rfl, fun hp => ?_⟩
  have hP : ∀ {f n p q}, vpred f n pa pb ga = some (.pred q) → q = p → vpredFields w = true → dOf w < 8 → funcOf w = f → bOf w = n → toP p := by
    rintro f n p q hr rfl hf hd rfl rfl
    exact exec_vpred h hp hf hr (vWrite_pred q hd)
  have hG : ∀ {f v u}, vpred f (bOf w) pa pb ga = some (.scalar u 0) → u = v → vpredFields w = true → funcOf w = f → toG v := by
    rintro f v u hr rfl hf rfl
    exact exec_vpred h hp hf hr (vWrite_scalar_noFlags ..)
  refine ⟨fun hf hfar => ?_, fun hf hfar => ?_, fun hf hd => ?_, fun hf ha => hunnamed (by rw [hfields]; omega), fun hd ha hb => ?_, fun hd hf p hbits => ?_,
    fun hd hf => hP rfl rfl (hfields.mpr (by omega)) hd hf rfl, fun ha => ⟨fun hf => ?_, fun hf => ?_, fun hf z hz hbefore hat => ?_⟩⟩
  · by_cases hd : 8 ≤ dOf w
    · obtain hf | hf | hf | hf : funcOf w = 0 ∨ funcOf w = 1 ∨ funcOf w = 2 ∨ funcOf w = 3 := by omega
      all_goals exact hwide rfl hd hf rfl
    · exact hunnamed (by rw [hfields]; omega)
  · by_cases hb : bOf w = 0
    · by_cases hd : 8 ≤ dOf w
      · exact hwide rfl hd hf hb
      · exact hunnamed (by rw [hfields]; omega)
    · exact hnone (f := 4) (if_neg hb) hf rfl
  · rcases hf with hf | hf
    · exact hwide rfl hd hf rfl
    · exact hwide rfl hd hf rfl
  · have hok : vpredFields w = true := hfields.mpr (.inr ⟨ha, .inr hb⟩)
    exact ⟨fun hf => hP rfl rfl hok hd hf rfl, fun hf => hP rfl rfl hok hd hf rfl, fun hf => hP rfl rfl hok hd hf rfl,
      fun hf => hP rfl rfl hok hd hf rfl, fun hf hb0 => hP rfl rfl hok hd hf hb0⟩
  · exact hP rfl (plen_eq hbits) (hfields.mpr (by omega)) hd hf rfl
  · exact hG rfl (by simp [w64]) (hfields.mpr (by omega)) hf
  · exact hG rfl (congrArg w64 (popcount_eq pa)) (hfields.mpr (by omega)) hf
  · exact hG rfl (congrArg w64 (firstIdx_range hz hbefore hat)) (hfields.mpr (by omega)) hf

end Sys2Proof.Machine

/-!
Vector results (O17): the elements of a vector, the frame that every operation puts around its results (R64), and three operations.
-/

namespace Sys2Proof.Machine

/-! Elements (R48). -/

/-- An element of a number of elements of w bits. -/
theorem pack_div_mod (w : Nat) (l : List Nat) (j : Nat) :
    (l.foldr (fun x acc => x % 2 ^ w + acc * 2 ^ w) 0) / 2 ^ (w * j) % 2 ^ w = l.getD j 0 % 2 ^ w := by
  induction l generalizing j with
  | nil => simp
  | cons x l ih =>
    have hx : x % 2 ^ w < 2 ^ w := Nat.mod_lt _ (Nat.two_pow_pos w)
    rw [List.foldr_cons]
    cases j with
    | zero => simp
    | succ j =>
      rw [List.getD_cons_succ, ← ih j, Nat.mul_succ, Nat.add_comm (w * j), Nat.pow_add, ← Nat.div_div_eq_div_mul,
        Nat.add_mul_div_right _ _ (Nat.two_pow_pos w), Nat.div_eq_of_lt hx, Nat.zero_add]

/-- An element of a number kept to m bits, if the bits hold it. -/
theorem toNat_ofNat_div_mod {m w j : Nat} (n : Nat) (h : w * j + w ≤ m) :
    (BitVec.ofNat m n).toNat / 2 ^ (w * j) % 2 ^ w = n / 2 ^ (w * j) % 2 ^ w := by
  rw [BitVec.toNat_ofNat]
  apply Nat.eq_of_testBit_eq
  intro i
  simp only [Nat.testBit_mod_two_pow, Nat.testBit_div_two_pow]
  by_cases hi : i < w
  · simp [hi, show i + w * j < m by omega]
  · simp [hi]

theorem mul_add_le_512 {w j : Nat} (h : j < 512 / w) : w * j + w ≤ 512 := by
  rw [← Nat.mul_succ]
  exact (Nat.mul_le_mul_left w h).trans (Nat.mul_div_le 512 w)

theorem elems_getD {w j : Nat} (v : W512) (h : j < 512 / w) : (elems w v).getD j 0 = v.toNat / 2 ^ (w * j) % 2 ^ w := by
  simp [elems, h]

/-- The elements of a vector made of elements. -/
theorem elems_ofElems_getD {w j : Nat} (l : List Nat) (h : j < 512 / w) : (elems w (ofElems w l)).getD j 0 = l.getD j 0 % 2 ^ w := by
  rw [elems_getD _ h, ofElems, toNat_ofNat_div_mod _ (mul_add_le_512 h), pack_div_mod]

theorem elems_getD_lt (w : Nat) (v : W512) (j : Nat) : (elems w v).getD j 0 < 2 ^ w := by
  by_cases h : j < 512 / w
  · rw [elems_getD v h]
    exact Nat.mod_lt _ (Nat.two_pow_pos w)
  · simp [elems, List.getD, h]

@[simp] theorem elems_length (w : Nat) (v : W512) : (elems w v).length = 512 / w := by simp [elems]

/-! The frame of an operation (R64). -/

theorem mergeElems_getD {pred : W32} {zero : Bool} {old new : List Nat} {j : Nat} (h : j < new.length) :
    (mergeElems pred zero old new).getD j 0 = if bit pred j then new.getD j 0 else if zero then 0 else old.getD j 0 := by
  simp [mergeElems, h]

/-- An element of a framed result: an active one takes the new value, an inactive one keeps its own or becomes zero. -/
theorem framed_elem {x : VArgs} {w j : Nat} {r : List (Nat × W32)} {v : W512} {fl : W32} (h : framed x w r = .vec v fl) (hj : j < 512 / w)
    (hr : r.length = 512 / w) :
    (elems w v).getD j 0 = if bit x.pred j then (r.getD j (0, 0)).1 % 2 ^ w else if x.zero then 0 else (elems w x.old).getD j 0 := by
  simp only [framed, VRes.vec.injEq] at h
  rw [← h.1, elems_ofElems_getD _ hj, mergeElems_getD (by simpa [hr] using hj)]
  split
  · simp [hr, hj]
  · split
    · rfl
    · exact Nat.mod_eq_of_lt (elems_getD_lt w x.old j)

/-- The width of an element by TYPE (R64). -/
def elemBits (x : VArgs) : Nat := if x.type = 0 then 16 else 32

/-- The format of an element of VFP by TYPE (R68). -/
def elemFmt (x : VArgs) : FpFmt := if x.type = 0 then fp16 else fp32

theorem elemFmt_width (x : VArgs) : (elemFmt x).width = elemBits x := by
  unfold elemBits elemFmt
  split <;> rfl

/-- A vector result is a frame around as many results as the vector has elements. -/
def Framed (x : VArgs) (w : Nat) (v : W512) (fl : W32) : Prop := ∃ r, r.length = 512 / w ∧ framed x w r = .vec v fl

theorem Framed.inactive {x : VArgs} {w j : Nat} {v : W512} {fl : W32} (h : Framed x w v fl) (hj : j < 512 / w) (hx : bit x.pred j = false) :
    (elems w v).getD j 0 = if x.zero then 0 else (elems w x.old).getD j 0 := by
  obtain ⟨r, hr, hv⟩ := h
  rw [framed_elem hv hj hr, if_neg (by simp [hx])]

theorem framed_mapElems {x : VArgs} {w : Nat} {f : Nat → Nat → Nat → Nat × W32} {v : W512} {fl : W32} (h : mapElems x w f = .vec v fl) :
    Framed x w v fl := ⟨_, by simp, h⟩

/-- The three classes frame their vector results. -/
theorem framed_vint {x : VArgs} {v : W512} {fl : W32} (h : vint x = some (.vec v fl)) : Framed x (elemBits x) v fl := by
  have hw : (if x.type = 0 then 16 else 32) = elemBits x := rfl
  simp only [vint, hw] at h
  split at h
  · cases h
  · split at h
    · exact framed_mapElems (Option.some.inj h)
    · split at h <;> cases h

theorem framed_vfix {x : VArgs} {v : W512} {fl : W32} (h : vfix x = some (.vec v fl)) : Framed x 16 v fl := by
  simp only [vfix] at h
  split at h
  · cases h
  · split at h
    · exact framed_mapElems (Option.some.inj h)
    · cases h

theorem framed_vfp {x : VArgs} {v : W512} {fl : W32} (h : vfp x = some (.vec v fl)) : Framed x (elemBits x) v fl := by
  have hf : (if x.type = 0 then fp16 else fp32) = elemFmt x := rfl
  simp only [vfp, hf, elemFmt_width] at h
  split at h
  · cases h
  · split at h
    · split at h
      · next ht =>
        have hw : elemBits x = 32 := by simp [elemBits, ht.1]
        rw [hw]
        exact ⟨_, by simp, Option.some.inj h⟩
      · cases h
    · split at h
      · split at h
        · next ht =>
          have hw : elemBits x = 16 := by simp [elemBits, ht]
          rw [hw]
          exact ⟨_, by simp, Option.some.inj h⟩
        · cases h
      · split at h
        · cases h
        · split at h
          · exact framed_mapElems (Option.some.inj h)
          · cases h

/-! VINT ADD and ADDUS (R65). -/

/-- A VINT with element arithmetic maps it over the elements. -/
theorem vint_map {x : VArgs} (ht : x.type < 2) (hr : x.rnd = 0) (hf : x.func < 0x14) {f : Nat → Nat → Nat × W32}
    (hfun : ∀ a b, vintElem x.func (elemBits x) a b = some (f a b)) : vint x = some (mapElems x (elemBits x) fun a b _ => f a b) := by
  have hfun' : ∀ a b, vintElem x.func (if x.type = 0 then 16 else 32) a b = some (f a b) := hfun
  simp only [vint, hfun', Option.isSome_some, if_true, Option.getD_some]
  rw [if_neg (by omega)]
  rfl

/-- The result of a mapped operation: its active elements and its flags. -/
theorem mapElems_result (x : VArgs) (w : Nat) (f : Nat → Nat → Nat → Nat × W32) :
    let y (i : Nat) := f ((elems w x.a).getD i 0) ((elems w x.b).getD i 0) ((elems w x.acc).getD i 0)
    ∃ v, mapElems x w f = .vec v (activeFlags x.pred ((List.range (512 / w)).map fun i => (y i).2))
      ∧ ∀ j < 512 / w, bit x.pred j = true → (elems w v).getD j 0 = (y j).1 % 2 ^ w := by
  intro y
  refine ⟨_, by rw [mapElems, framed, List.map_map (f := _) (g := Prod.snd)]; rfl, fun j hj hx => ?_⟩
  rw [framed_elem (x := x) (r := (List.range (512 / w)).map y) rfl hj (by simp), if_pos hx]
  simp [hj]

/-- Operations that set no flag leave none. -/
theorem activeFlags_zero (pred : W32) (n : Nat) : activeFlags pred (List.replicate n 0) = 0 := by
  have key : ∀ (k : Nat), ((List.replicate n (0 : W32)).zipIdx k).foldl (fun acc (x, i) => if bit pred i then acc ||| x else acc) 0 = 0 := by
    induction n with
    | zero => exact fun _ => rfl
    | succ n ih =>
      intro k
      rw [List.replicate_succ, List.zipIdx_cons, List.foldl_cons]
      simpa using ih (k + 1)
  exact key 0

/-- An unsigned sum clamped to w bits. -/
theorem clampTo_unsigned (w n : Nat) : (clampTo w 0 (2 ^ w - 1) n).1 % 2 ^ w = min (2 ^ w - 1) n := by
  have hpos := Nat.two_pow_pos w
  have hcast : (2 : Int) ^ w = ((2 ^ w : Nat) : Int) := by norm_cast
  rw [clampTo, if_neg (by omega), hcast]
  split
  · rw [Int.emod_eq_of_lt (by omega) (by omega), Nat.mod_eq_of_lt (by omega)]
    omega
  · rw [Int.emod_eq_of_lt (by omega) (by omega), Nat.mod_eq_of_lt (by omega)]
    omega

/-- ADD wraps and sets no flag. -/
theorem vint_add {x : VArgs} {j : Nat} (ht : x.type < 2) (hr : x.rnd = 0) (hf : x.func = 0) (hj : j < 512 / elemBits x)
    (hx : bit x.pred j = true) : ∃ v, vint x = some (.vec v 0)
      ∧ (elems (elemBits x) v).getD j 0 = ((elems (elemBits x) x.a).getD j 0 + (elems (elemBits x) x.b).getD j 0) % 2 ^ elemBits x := by
  have hmap := vint_map (f := fun a b => ((((a + b : Nat) : Int) % 2 ^ elemBits x).toNat, 0)) ht hr (by omega) fun a b => by rw [hf]; rfl
  obtain ⟨v, hv, helem⟩ := mapElems_result x (elemBits x) fun a b _ => ((((a + b : Nat) : Int) % 2 ^ elemBits x).toNat, 0)
  refine ⟨v, ?_, ?_⟩
  · rw [hmap, hv, List.map_const', activeFlags_zero]
  · rw [helem j hj hx]
    norm_cast
    exact Nat.mod_mod ..

/-- ADDUS saturates. -/
theorem vint_addus {x : VArgs} {j : Nat} (ht : x.type < 2) (hr : x.rnd = 0) (hf : x.func = 3) (hj : j < 512 / elemBits x)
    (hx : bit x.pred j = true) : ∃ v fl, vint x = some (.vec v fl)
      ∧ (elems (elemBits x) v).getD j 0 = min (2 ^ elemBits x - 1) ((elems (elemBits x) x.a).getD j 0 + (elems (elemBits x) x.b).getD j 0) := by
  have hmap := vint_map (f := fun a b => clampTo (elemBits x) 0 (2 ^ elemBits x - 1) (a + b : Nat)) ht hr (by omega) fun a b => by rw [hf]; rfl
  obtain ⟨v, hv, helem⟩ := mapElems_result x (elemBits x) fun a b _ => clampTo (elemBits x) 0 (2 ^ elemBits x - 1) (a + b : Nat)
  exact ⟨v, _, hmap.trans (congrArg some hv), (helem j hj hx).trans (clampTo_unsigned _ _)⟩

/-! VFIX: rounding stays between the neighbouring integers (R67). -/

theorem rndQ_bounds {mode : Nat} (p : Int) : p / 65536 ≤ rndQ mode p 16 ∧ rndQ mode p 16 ≤ (p + 65535) / 65536 := by
  simp only [rndQ]
  norm_num
  split
  · omega
  · omega
  · split
    · omega
    · split <;> omega

/-- A value within UQ0.16 is not clamped. -/
theorem qSat_inside {v : Int} (h0 : 0 ≤ v) (h1 : v ≤ 65535) : qSat 1 v = (v.toNat, 0) := by
  rw [qSat, if_neg (by decide), clampTo, if_neg (by omega), if_neg (by omega), Int.emod_eq_of_lt h0 (by norm_num; omega)]

/-- LERP lies between its ends: what is added to the first is the distance times a weight below 1, rounded (R67). -/
theorem lerp_between {rnd a b acc : Nat} (ha : a < 2 ^ 16) (hb : b < 2 ^ 16) (hacc : acc < 2 ^ 16) :
    ∃ v, vfixElem 3 1 rnd a b acc = some (v, 0) ∧ min a b ≤ v ∧ v ≤ max a b := by
  have hbounds := rndQ_bounds (mode := rnd) (((b : Int) - a) * acc)
  have hvalue : vfixElem 3 1 rnd a b acc = some (qSat 1 (a + rndQ rnd (((b : Int) - a) * acc) 16)) := rfl
  generalize rndQ rnd (((b : Int) - a) * acc) 16 = q at hbounds hvalue
  have hacc' : (acc : Int) ≤ 65535 := by omega
  rcases le_total a b with hab | hab
  · have hlow : 0 ≤ ((b : Int) - a) * acc := mul_nonneg (by omega) (by omega)
    have hhigh : ((b : Int) - a) * acc ≤ ((b : Int) - a) * 65535 := mul_le_mul_of_nonneg_left hacc' (by omega)
    generalize ((b : Int) - a) * acc = p at hbounds hlow hhigh
    exact ⟨_, by rw [hvalue, qSat_inside (by omega) (by omega)], by omega, by omega⟩
  · have hhigh : ((b : Int) - a) * acc ≤ 0 := mul_nonpos_of_nonpos_of_nonneg (by omega) (by omega)
    have hlow : ((b : Int) - a) * 65535 ≤ ((b : Int) - a) * acc := mul_le_mul_of_nonpos_left hacc' (by omega)
    generalize ((b : Int) - a) * acc = p at hbounds hlow hhigh
    exact ⟨_, by rw [hvalue, qSat_inside (by omega) (by omega)], by omega, by omega⟩

/-- Settles O17: the four classes through `vWrite`, then the frame of each operation and the corners, each a lemma above. -/
theorem vectorResults : Obligations.VectorResults := by
  refine ⟨fun i i' b s pre w e c op res hc h => ?_, fun x v fl j hj => ⟨fun hv => ?_, fun hv hlt => (framed_vfix hv).inactive hlt hj⟩,
    ?_, fun rnd a b acc _ ha hb hacc => lerp_between ha hb hacc,
    fun rnd acc hr => ?_⟩
  · have hexec : ∃ f, exec c s = runClass op (.slot i) (onBrew f) s ∧ f i' b pre w s.clk e = vWrite i' b pre w res s.clk e := by
      rcases hc with ⟨rfl, rfl, rfl⟩ | ⟨rfl, rfl, rfl⟩ | ⟨rfl, rfl, rfl⟩ | ⟨rfl, rfl, rfl⟩
      all_goals exact ⟨_, rfl, rfl⟩
    obtain ⟨f, hexec, hf⟩ := hexec
    rw [hexec]
    refine ⟨fun v fl hv => runClass_done h ?_, fun v fl hv => runClass_done h ?_, fun p hv hd => runClass_done h ?_,
      fun p fl hv hd => runClass_done h ?_, fun hv => runClass_fault h ?_⟩
    · exact hf.trans (by rw [hv]; rfl)
    · exact hf.trans (by rw [hv]; rfl)
    · exact hf.trans (by rw [hv, vWrite_pred p hd])
    · exact hf.trans (by rw [hv, vWrite_predFl p fl hd])
    · exact hf.trans (by rw [hv]; rfl)
  · rcases hv with hv | hv
    · exact fun hlt => (framed_vint hv).inactive hlt hj
    · exact fun hlt => (framed_vfp hv).inactive hlt hj
  · intro x j ht hr hj n a b hlt
    exact ⟨fun hf => vint_add ht hr hf hlt hj, fun hf => vint_addus ht hr hf hlt hj⟩
  · obtain rfl | rfl | rfl : rnd = 0 ∨ rnd = 1 ∨ rnd = 2 := by omega
    all_goals rfl

end Sys2Proof.Machine

/-!
Memory as a runner reaches it: what reads, writes and fetches leave of the device, which bytes a write of several ranges changes, where an
access lies and how it is refused (R49, R51, R83, R84).
-/

namespace Sys2Proof.Machine

/-! What the errors of words bring (R159): registers, events and the errors themselves. -/

/-- From d to e only registers, the MSI-X state and the errors of words may differ. -/
def ErrorsOnly (d e : Dev) : Prop := e = { d with regs := e.regs, msix := e.msix, ecc := e.ecc }

theorem ErrorsOnly.refl (d : Dev) : ErrorsOnly d d := rfl

theorem ErrorsOnly.trans {d e f : Dev} (h : ErrorsOnly d e) (g : ErrorsOnly e f) : ErrorsOnly d f := by
  unfold ErrorsOnly at *
  rw [g, h]

theorem onlyRegs.errorsOnly {d e : Dev} (h : onlyRegs d e) : ErrorsOnly d e := by
  unfold onlyRegs at h
  rw [ErrorsOnly, h]

theorem ErrorsOnly.when {f : Dev → Dev} (c : Bool) (h : ∀ d, ErrorsOnly d (f d)) (d : Dev) : ErrorsOnly d (when c f d) := by
  unfold Machine.when
  split
  · exact h d
  · exact .refl d

theorem ErrorsOnly.forEach {α : Type} {f : α → Dev → Dev} (h : ∀ x d, ErrorsOnly d (f x d)) (l : List α) (d : Dev) :
    ErrorsOnly d (forEach l f d) :=
  forEach_inv d (ErrorsOnly d) f (fun x e he => he.trans (h x e)) l (.refl d)

theorem errorsOnly_wr (a : Nat) (v : W32) (d : Dev) : ErrorsOnly d (wr a v d) := rfl

theorem errorsOnly_raiseAt (n ev : Nat) (mask : W32) (d : Dev) : ErrorsOnly d (raiseAt n ev mask d) :=
  (onlyThese_raiseAt n ev mask d).1.errorsOnly

theorem errorsOnly_pmon (src n : Nat) (d : Dev) : ErrorsOnly d (pmon src n d) :=
  .when _ (fun d => .forEach (fun _ => .when _ fun d => (errorsOnly_wr _ _ d).trans (errorsOnly_wr ..)) _ d) d

theorem errorsOnly_noteSingle (w : Nat) (d : Dev) : ErrorsOnly d (noteSingle w d) := by
  have h : ErrorsOnly d (setErr w .none d) := rfl
  simp only [noteSingle]
  split
  · exact ((h.trans (errorsOnly_wr ..)).trans (errorsOnly_pmon ..)).trans (errorsOnly_raiseAt ..)
  · exact h

theorem errorsOnly_noteMulti (w : Nat) (d : Dev) : ErrorsOnly d (noteMulti w d) := by
  simp only [noteMulti]
  split
  · exact ((ErrorsOnly.when _ (errorsOnly_wr _ _) d).trans (errorsOnly_wr ..)).trans (errorsOnly_raiseAt ..)
  · exact .refl d

theorem errorsOnly_touchRead (w : Nat) (d : Dev) : ErrorsOnly d (touchRead w d) := by
  unfold touchRead
  split
  · exact .refl d
  · exact errorsOnly_noteSingle w d
  · exact errorsOnly_noteMulti w d

theorem errorsOnly_touchWrite (a n w : Nat) (d : Dev) : ErrorsOnly d (touchWrite a n w d) := by
  unfold touchWrite
  split
  · exact .refl d
  · split
    · rfl
    · exact errorsOnly_noteSingle w d
  · split
    · rfl
    · split
      · exact (errorsOnly_noteMulti w d).trans (errorsOnly_raiseAt ..)
      · exact .refl d

theorem errorsOnly_tear (rs : List (Nat × Nat)) (d : Dev) : ErrorsOnly d (tear rs d) := by
  refine .forEach (fun h d => ?_) _ d
  simp only [tearHead]
  split
  · exact .refl d
  · split
    · exact .refl d
    · split
      · exact .refl d
      · exact (((ErrorsOnly.when _ (errorsOnly_wr _ _) d).trans (errorsOnly_wr ..)).trans (errorsOnly_pmon ..)).trans (errorsOnly_raiseAt ..)

theorem errorsOnly_load (a n : Nat) (d : Dev) : ErrorsOnly d (load a n d).2 := .forEach errorsOnly_touchRead _ d

theorem errorsOnly_readSpans (l : List (Nat × Nat)) (d : Dev) : ErrorsOnly d (readSpans l d).2 := .forEach errorsOnly_touchRead _ d

theorem ErrorsOnly.mem {d e : Dev} (h : ErrorsOnly d e) : e.mem = d.mem := by rw [h]

theorem ErrorsOnly.arr {d e : Dev} (h : ErrorsOnly d e) : e.arr = d.arr := by rw [h]

theorem ErrorsOnly.scarab {d e : Dev} (h : ErrorsOnly d e) : e.scarab = d.scarab := by rw [h]

/-! Bytes. -/

@[simp] theorem leBytes_length (n x : Nat) : (leBytes n x).length = n := by
  induction n generalizing x with
  | zero => rfl
  | succ n ih => rw [leBytes, List.length_cons, ih]

/-- The bytes of a number are those of its low bits. -/
theorem leBytes_congr {n x y : Nat} (h : x % 256 ^ n = y % 256 ^ n) : leBytes n x = leBytes n y := by
  induction n generalizing x y with
  | zero => rfl
  | succ n ih =>
    rw [Nat.pow_succ', Nat.mod_mul, Nat.mod_mul] at h
    have hlow : x % 256 = y % 256 := by omega
    have hhigh : x / 256 % 256 ^ n = y / 256 % 256 ^ n := by omega
    rw [leBytes, leBytes, ih hhigh]
    exact congrArg (· :: _) (BitVec.eq_of_toNat_eq hlow)

theorem ofLe_lt (l : List W8) : ofLe l < 256 ^ l.length := by
  induction l with
  | nil => decide
  | cons b r ih =>
    have hb := b.isLt
    rw [ofLe, List.length_cons, Nat.pow_succ']
    omega

@[simp] theorem getBytes_length (d : Dev) (a n : Nat) : (getBytes d a n).length = n := by
  induction n generalizing a with
  | zero => rfl
  | succ n ih => rw [getBytes, List.length_cons, ih]

theorem getBytes_congr {d e : Dev} (h : e.mem = d.mem) (a n : Nat) : getBytes e a n = getBytes d a n := by
  induction n generalizing a with
  | zero => rfl
  | succ n ih => rw [getBytes, getBytes, ih, getByte, getByte, h]

/-- The bytes that a list spells, one by one. -/
theorem getBytes_eq_of_getByte {d : Dev} {a : Nat} {l : List W8} (h : ∀ j < l.length, getByte d (a + j) = byteAt l j) :
    getBytes d a l.length = l := by
  induction l generalizing a with
  | nil => rfl
  | cons b r ih =>
    rw [List.length_cons, getBytes, ih fun j hj => ?_]
    · exact congrArg (· :: r) (h 0 (Nat.succ_pos _))
    · have := h (j + 1) (Nat.succ_lt_succ hj)
      rwa [Nat.add_comm j 1, ← Nat.add_assoc, Nat.add_comm 1 j] at this

theorem sameMemory_of_mem {d e : Dev} (h : e.mem = d.mem) : sameMemory d e := fun x => by rw [getByte, getByte, h]

/-! Writes of several ranges. -/

/-- Bytes put to several ranges in order, with nothing else. -/
def putRanges (rs : List (Nat × List W8)) (d : Dev) : Dev := forEach rs (fun x => putBytes x.1 x.2) d

@[simp] theorem putRanges_cons (x : Nat × List W8) (rs : List (Nat × List W8)) (d : Dev) :
    putRanges (x :: rs) d = putRanges rs (putBytes x.1 x.2 d) := rfl

theorem putRanges_append (rs ss : List (Nat × List W8)) (d : Dev) : putRanges (rs ++ ss) d = putRanges ss (putRanges rs d) :=
  List.foldl_append ..

theorem putBytes_append (a : Nat) (bs cs : List W8) (d : Dev) : putBytes a (bs ++ cs) d = putBytes (a + bs.length) cs (putBytes a bs d) := by
  induction bs generalizing a d with
  | nil => rfl
  | cons b r ih => rw [List.cons_append, putBytes, putBytes, ih, List.length_cons, Nat.add_right_comm, Nat.add_assoc]

theorem putBytes_mem_congr {d e : Dev} (h : e.mem = d.mem) (a : Nat) (bs : List W8) : (putBytes a bs e).mem = (putBytes a bs d).mem := by
  induction bs generalizing a d e with
  | nil => exact h
  | cons b r ih => exact ih (by rw [h]) _

theorem putRanges_mem_congr {d e : Dev} (h : e.mem = d.mem) (rs : List (Nat × List W8)) : (putRanges rs e).mem = (putRanges rs d).mem := by
  induction rs generalizing d e with
  | nil => exact h
  | cons x r ih => exact ih (putBytes_mem_congr h _ _)

/-- Joining ranges that adjoin changes no byte that is written. -/
theorem putRanges_joinRanges (rs : List (Nat × List W8)) (d : Dev) : putRanges (joinRanges rs) d = putRanges rs d := by
  induction rs generalizing d with
  | nil => rfl
  | cons x r ih =>
    obtain ⟨a, bs⟩ := x
    rw [putRanges_cons, ← ih, joinRanges]
    split
    · next b cs l hr =>
      split
      · next hb => rw [putRanges_cons, putBytes_append, hr, putRanges_cons, hb]
      · rw [putRanges_cons, hr]
    · next hr => rw [hr]; rfl

/-- A write leaves the memory that its ranges give; errors of words and tears keep the bytes. -/
theorem storeRanges_mem (rs : List (Nat × List W8)) (d : Dev) : (storeRanges rs d).mem = (putRanges rs d).mem := by
  simp only [storeRanges, tear_mem]
  induction rs generalizing d with
  | nil => rfl
  | cons x r ih => exact (ih (storeRange x.1 x.2 d)).trans (putRanges_mem_congr (storeRange_mem d x.1 x.2) r)

theorem getByte_putRanges_outside {rs : List (Nat × List W8)} {x : Nat} (h : ∀ r ∈ rs, x < r.1 ∨ r.1 + r.2.length ≤ x) (d : Dev) :
    getByte (putRanges rs d) x = getByte d x := by
  induction rs generalizing d with
  | nil => rfl
  | cons r rs ih =>
    have hr := h r (List.mem_cons_self ..)
    rw [putRanges_cons, ih fun y hy => h y (List.mem_cons_of_mem r hy), getByte_putBytes, if_neg (by omega)]

theorem getByte_congr {d e : Dev} (h : e.mem = d.mem) (x : Nat) : getByte e x = getByte d x := by rw [getByte, getByte, h]

/-- A byte outside every range of a write. -/
theorem getByte_storeRanges_outside {rs : List (Nat × List W8)} {x : Nat} (h : ∀ r ∈ rs, x < r.1 ∨ r.1 + r.2.length ≤ x) (d : Dev) :
    getByte (storeRanges (joinRanges rs) d) x = getByte d x := by
  rw [getByte_congr (storeRanges_mem ..), putRanges_joinRanges, getByte_putRanges_outside h]

/-- A range of a write that no later one overlaps holds what was written to it. -/
theorem getBytes_storeRanges_last {rs ss : List (Nat × List W8)} {a : Nat} {bs : List W8}
    (h : ∀ r ∈ ss, r.1 + r.2.length ≤ a ∨ a + bs.length ≤ r.1) (d : Dev) :
    getBytes (storeRanges (joinRanges (rs ++ (a, bs) :: ss)) d) a bs.length = bs := by
  refine getBytes_eq_of_getByte fun j hj => ?_
  rw [getByte_congr (storeRanges_mem ..), putRanges_joinRanges, putRanges_append, putRanges_cons,
    getByte_putRanges_outside (fun r hr => by have := h r hr; omega), getByte_putBytes, if_pos ⟨Nat.le_add_right .., Nat.add_lt_add_left hj a⟩,
    Nat.add_sub_cancel_left]

end Sys2Proof.Machine

/-!
Scalar loads, stores and atomics (O16).
-/

namespace Sys2Proof.Machine

/-! A fetch leaves memory (R54, R83). -/

theorem errorsOnly_protDeny (d : Dev) : ErrorsOnly d (protDeny d) := (errorsOnly_wr _ _ d).trans (errorsOnly_raiseAt ..)

theorem errorsOnly_loadOutside (a n : Nat) (d : Dev) : ErrorsOnly d (loadOutside a n d).2 := by
  unfold loadOutside
  split
  · exact ((errorsOnly_load _ _ d).trans (errorsOnly_load ..)).trans (errorsOnly_protDeny _)
  · exact errorsOnly_load a n d

theorem cacheFill_mem (i a : Nat) (d : Dev) : (cacheFill i a d).2.mem = d.mem := load_mem d a 4

theorem fireflyFetch_mem (i a : Nat) (d : Dev) : (fireflyFetch i a d).2.mem = d.mem := by
  unfold fireflyFetch
  split
  · split
    · exact cacheFill_mem i a d
    · split
      · rfl
      · split
        · rfl
        · exact cacheFill_mem i a _
  · rfl

theorem coreFetch_mem (c : Nat) (x : Core) (a : Nat) (d : Dev) : (coreFetch c x a d).2.mem = d.mem := by
  unfold coreFetch
  split
  · rfl
  · split
    · rfl
    · split
      · dsimp only
        split
        all_goals exact loadOutside_mem d _ 4
      · rfl

theorem Runner.fetchWord_mem (r : Runner) (a : W64) (d : Dev) : (r.fetchWord a d).2.mem = d.mem := by
  cases r with
  | slot i b => exact fireflyFetch_mem i a.toNat d
  | core c x => exact coreFetch_mem c x a.toNat d

theorem Runner.fetch_mem (r : Runner) (d : Dev) : (r.fetch d).2.mem = d.mem := by
  unfold Runner.fetch
  dsimp only
  split
  · exact fetchWord_mem ..
  · split
    · exact fetchWord_mem ..
    · split
      · exact fetchWord_mem ..
      · exact (fetchWord_mem ..).trans (fetchWord_mem ..)

/-- The device after an instruction's fetch holds the same memory. -/
theorem Issues.mem {op : Op} {who : Who} {r : Runner} {pre : Option W32} {w : W32} {s : State} {e : Dev} (h : Issues op who r pre w s e) :
    e.mem = s.dev.mem := by
  obtain ⟨_, hf, _⟩ := h
  rw [← Runner.fetch_mem r s.dev, hf]

@[simp] theorem Runner.put_mem (r : Runner) (d : Dev) : (r.put d).mem = d.mem := by cases r <;> rfl
@[simp] theorem Runner.put_scarab (r : Runner) (d : Dev) : (r.put d).scarab = d.scarab := by cases r <;> rfl
@[simp] theorem Runner.put_regs (r : Runner) (d : Dev) : (r.put d).regs = d.regs := by cases r <;> rfl
@[simp] theorem Runner.next_mem (r : Runner) (pre : Option W32) (d : Dev) : (r.next pre d).mem = d.mem := put_mem ..
@[simp] theorem Runner.next_scarab (r : Runner) (pre : Option W32) (d : Dev) : (r.next pre d).scarab = d.scarab := put_scarab ..
@[simp] theorem Runner.next_regs (r : Runner) (pre : Option W32) (d : Dev) : (r.next pre d).regs = d.regs := put_regs ..

/-! Areas and spaces (R49, R83, R84). -/

theorem Core.grants_iff (x : Core) (kind : Access) (c a n : Nat) : x.grants kind a n = true ↔ (Runner.core c x).allows kind a n := by
  rw [Core.grants, Bool.or_eq_true]
  refine or_congr_right ?_
  have hfirst : ∀ i, (List.range 8).find? (fun i =>
      decide (fld (Tab.get 0 x.areaBase i) 12 36 ≤ a / 4096 ∧ a / 4096 ≤ fld (Tab.get 0 x.areaLimit i) 12 36)) = some i ↔
      i < 8 ∧ x.inArea i a ∧ ∀ j < i, ¬ x.inArea j a := fun i => by
    simp only [List.find?_range_eq_some, decide_eq_true_eq, List.mem_range, Bool.not_eq_eq_eq_not, Bool.not_true, decide_eq_false_iff_not]
    exact and_left_comm
  split
  · next i hi =>
    obtain ⟨hlt, hin, hbefore⟩ := (hfirst i).mp hi
    rw [Bool.and_eq_true, decide_eq_true_eq]
    refine ⟨fun h => ⟨i, hlt, hin, hbefore, h⟩, ?_⟩
    rintro ⟨j, hj, hjin, hjbefore, h⟩
    obtain rfl : j = i := Option.some.inj (((hfirst j).mpr ⟨hj, hjin, hjbefore⟩).symm.trans hi)
    exact h
  · next hnone =>
    refine ⟨fun h => (nomatch h), ?_⟩
    rintro ⟨j, hj, hjin, hjbefore, _⟩
    cases hnone.symm.trans ((hfirst j).mpr ⟨hj, hjin, hjbefore⟩)

/-- Where the model keeps the bytes of an access, if its areas allow it (R49, R83). -/
def Runner.place (r : Runner) (kind : Access) (a n : Nat) (d : Dev) : Option Nat :=
  match r with
  | .slot i _ => brewPlaceOf d i a n
  | .core c x => if x.grants kind a n then corePlaceOf d c a n else none

theorem inShared_iff (d : Dev) (a n : Nat) : inShared d a n = true ↔
    (0x1000000000 ≤ a ∧ a + n ≤ 0x1020000000) ∨ (0x10000000000 ≤ a ∧ a + n ≤ 0x10000000000 + d.dramMiB * 0x100000) := by
  rw [inShared, inKet, inDram, Bool.or_eq_true, decide_eq_true_iff, decide_eq_true_iff]
  rfl

/-- One of three spaces that exclude each other: a choice in order is a choice. -/
theorem three_spaces {A B C : Prop} [Decidable A] [Decidable B] [Decidable C] {x y z p : Nat} (hAB : A → ¬ B) (hAC : A → ¬ C) (hBC : B → ¬ C) :
    (if A then some x else if B then some y else if C then some z else none) = some p ↔ ((A ∧ p = x) ∨ B ∧ p = y) ∨ p = z ∧ C := by
  by_cases hA : A
  · simp [hA, hAB hA, hAC hA, eq_comm]
  · by_cases hB : B
    · simp [hA, hB, hBC hB, eq_comm]
    · by_cases hC : C <;> simp [hA, hB, hC, eq_comm]

theorem brewPlaceOf_iff (d : Dev) (i : Nat) (b : Brew) (a n p : Nat) : brewPlaceOf d i a n = some p ↔ (Runner.slot i b).holds d a n p := by
  have hshared := inShared_iff d a n
  have hpot : (potBase ≤ a ∧ a + n ≤ potBase + potSize) ↔ 0x1000000 ≤ a ∧ a + n ≤ 0x1400000 := Iff.rfl
  rw [brewPlaceOf, three_spaces (by rw [hpot]; omega) (by rw [hshared]; omega) (by rw [hpot, hshared]; omega), hshared, hpot, and_assoc]
  rfl

theorem corePlaceOf_iff (d : Dev) (c : Nat) (x : Core) (a n p : Nat) : corePlaceOf d c a n = some p ↔ (Runner.core c x).holds d a n p := by
  have hshared := inShared_iff d a n
  rw [corePlaceOf, three_spaces (by omega) (by rw [hshared]; omega) (by rw [hshared]; omega), hshared, and_assoc]
  rfl

theorem Runner.place_iff (r : Runner) (kind : Access) (a n p : Nat) (d : Dev) :
    r.place kind a n d = some p ↔ r.holds d a n p ∧ r.allows kind a n := by
  cases r with
  | slot i b => simp [place, brewPlaceOf_iff d i b, allows]
  | core c x =>
    rw [← x.grants_iff kind c, ← corePlaceOf_iff d c x, place]
    split <;> simp [*]

theorem Runner.spot_eq (r : Runner) (kind : Access) (a n align : Nat) (d : Dev) : r.spot kind a n align d =
    match r.place kind a n d with
    | none => .error 0x03
    | some p => if a % align = 0 then .ok p else .error 0x02 := by cases r <;> rfl

theorem Runner.spot_ok {r : Runner} {kind : Access} {a n align p : Nat} {d : Dev} (h : r.holds d a n p) (ha : r.allows kind a n)
    (halign : a % align = 0) : r.spot kind a n align d = .ok p := by
  rw [spot_eq, (r.place_iff ..).mpr ⟨h, ha⟩]
  exact if_pos halign

theorem Runner.spot_misaligned {r : Runner} {kind : Access} {a n align p : Nat} {d : Dev} (h : r.holds d a n p) (ha : r.allows kind a n)
    (halign : a % align ≠ 0) : r.spot kind a n align d = .error 0x02 := by
  rw [spot_eq, (r.place_iff ..).mpr ⟨h, ha⟩]
  exact if_neg halign

theorem Runner.spot_access {r : Runner} {kind : Access} {a n : Nat} {d : Dev} (align : Nat)
    (h : (∀ p, ¬ r.holds d a n p) ∨ ¬ r.allows kind a n) : r.spot kind a n align d = .error 0x03 := by
  have hnone : r.place kind a n d = none := by
    rw [Option.eq_none_iff_forall_not_mem]
    intro p hp
    obtain ⟨hh, ha⟩ := (r.place_iff ..).mp hp
    exact h.elim (fun h => h p hh) fun h => h ha
  rw [spot_eq, hnone]

/-- An access that is refused takes the fault it is refused with: ACCESS before MISALIGN (R51). -/
theorem Runner.spot_refuses {r : Runner} {kind : Access} {a n code : Nat} {d : Dev} (h : r.refuses kind d a n code) :
    r.spot kind a n n d = .error code := by
  rcases h with ⟨rfl, h⟩ | ⟨rfl, ⟨p, h⟩, ha, halign⟩
  · exact spot_access n h
  · exact spot_misaligned h ha halign

end Sys2Proof.Machine

/-!
The values and the bytes of scalar loads, stores and atomics (O16).
-/

namespace Sys2Proof.Machine

/-! The words of LOAD and STORE (R63). -/

/-- No word of another class is one of these: MISC, PRIV and the brew operations hold none. -/
theorem miscOp_ne_memory (n : Nat) : miscOp n ≠ some .load ∧ miscOp n ≠ some .store := by
  unfold miscOp
  split <;> simp

theorem privOp_ne_memory (n : Nat) : privOp n ≠ some .load ∧ privOp n ≠ some .store := by
  unfold privOp
  split <;> simp

theorem keyOp_ne_memory (n : Nat) : keyOp n ≠ some .load ∧ keyOp n ≠ some .store := by
  unfold keyOp
  split <;> simp

theorem opOf_of_load {w : W32} (h : opOfWord w = some .load) : 0x0C ≤ opOf w ∧ opOf w ≤ 0x12 := by
  unfold opOfWord at h
  split at h
  all_goals simp_all [miscOp_ne_memory, privOp_ne_memory, keyOp_ne_memory, ite_eq_iff]

theorem opOf_of_store {w : W32} (h : opOfWord w = some .store) : 0x14 ≤ opOf w ∧ opOf w ≤ 0x17 := by
  unfold opOfWord at h
  split at h
  all_goals simp_all [miscOp_ne_memory, privOp_ne_memory, keyOp_ne_memory, ite_eq_iff]

/-- The size of a load by its opcode. -/
theorem loadSize_eq {op n : Nat} (hlo : 0x0C ≤ op) (hhi : op ≤ 0x12) (h1 : op = 0x0C ∨ op = 0x10 → n = 1) (h2 : op = 0x0D ∨ op = 0x11 → n = 2)
    (h4 : op = 0x0E ∨ op = 0x12 → n = 4) (h8 : op = 0x0F → n = 8) : loadSize op = n := by
  obtain rfl | rfl | rfl | rfl | rfl | rfl | rfl : op = 0x0C ∨ op = 0x0D ∨ op = 0x0E ∨ op = 0x0F ∨ op = 0x10 ∨ op = 0x11 ∨ op = 0x12 := by omega
  · exact (h1 (.inl rfl)).symm
  · exact (h2 (.inl rfl)).symm
  · exact (h4 (.inl rfl)).symm
  · exact (h8 rfl).symm
  · exact (h1 (.inr rfl)).symm
  · exact (h2 (.inr rfl)).symm
  · exact (h4 (.inr rfl)).symm

/-- What a load gives g[D] of the number that its bytes spell, by its opcode (R63). -/
def loadedValue (op m : Nat) : W64 :=
  match op with
  | 0x0C => (BitVec.ofNat 8 m).signExtend 64 | 0x0D => (BitVec.ofNat 16 m).signExtend 64
  | 0x0E => (BitVec.ofNat 32 m).signExtend 64 | _ => BitVec.ofNat 64 m

theorem loadValue_eq {op : Nat} (hlo : 0x0C ≤ op) (hhi : op ≤ 0x12) (bs : List W8) : loadValue op bs = loadedValue op (ofLe bs) := by
  obtain rfl | rfl | rfl | rfl | rfl | rfl | rfl : op = 0x0C ∨ op = 0x0D ∨ op = 0x0E ∨ op = 0x0F ∨ op = 0x10 ∨ op = 0x11 ∨ op = 0x12 := by omega
  · exact sx_ofNat (m := 8) (by decide) _
  · exact sx_ofNat (m := 16) (by decide) _
  · exact sx_ofNat (m := 32) (by decide) _
  · exact (sx_ofNat (m := 64) (by decide) _).trans (BitVec.signExtend_eq _)
  all_goals rfl

theorem storeSize_eq {op n : Nat} (hlo : 0x14 ≤ op) (hhi : op ≤ 0x17) (h1 : op = 0x14 → n = 1) (h2 : op = 0x15 → n = 2)
    (h4 : op = 0x16 → n = 4) (h8 : op = 0x17 → n = 8) : 2 ^ (op - 0x14) = n := by
  obtain rfl | rfl | rfl | rfl : op = 0x14 ∨ op = 0x15 ∨ op = 0x16 ∨ op = 0x17 := by omega
  · exact (h1 rfl).symm
  · exact (h2 rfl).symm
  · exact (h4 rfl).symm
  · exact (h8 rfl).symm

/-! Reads and writes at a place, past the protected window or not (R368). -/

/-- An access does not meet the protected window, or the runner is a brew, to which it is open. -/
def Runner.Clear (r : Runner) (d : Dev) (p n : Nat) : Prop := r.isCore = true → protHit d p n = false

/-- An access of a control core lies inside the protected window. -/
def Runner.Shielded (r : Runner) (d : Dev) (p n : Nat) : Prop :=
  r.isCore = true ∧ protects d = true ∧ d.scarab.base ≤ p ∧ p + n ≤ d.scarab.base + d.scarab.size

theorem protHit_congr {d e : Dev} (h : e.scarab = d.scarab) (p n : Nat) : protHit e p n = protHit d p n := by
  rw [protHit, protHit, protects, protects, h]

theorem Runner.Clear.congr {r : Runner} {d e : Dev} {p n : Nat} (h : r.Clear d p n) (he : e.scarab = d.scarab) : r.Clear e p n :=
  fun hr => (protHit_congr he p n).trans (h hr)

theorem Runner.Shielded.congr {r : Runner} {d e : Dev} {p n : Nat} (h : r.Shielded d p n) (he : e.scarab = d.scarab) : r.Shielded e p n := by
  obtain ⟨hr, hp, hlo, hhi⟩ := h
  refine ⟨hr, ?_, by rwa [he], by rwa [he]⟩
  rw [protects, he]
  exact hp

theorem Runner.Shielded.core {r : Runner} {d : Dev} {p n : Nat} (h : r.Shielded d p n) : ∃ c x, r = .core c x := by
  cases r with
  | slot => exact absurd h.1 (by simp [isCore])
  | core c x => exact ⟨c, x, rfl⟩

theorem Runner.Shielded.protHit {r : Runner} {d : Dev} {p n : Nat} (h : r.Shielded d p n) (hn : 0 < n) : protHit d p n = true := by
  obtain ⟨_, hp, hlo, hhi⟩ := h
  rw [Machine.protHit, hp, Bool.true_and, decide_eq_true_eq]
  omega

theorem rb_protDeny (d : Dev) : rb (protDeny d) Reg.SCARAB_EVENT 5 = true := by
  rw [rb_eq, protDeny, raiseScarab, rd_raiseAt_same, bit_or, bit_bitIf]
  simp

theorem Runner.errorsOnly_readAt (r : Runner) (p n : Nat) (d : Dev) : ErrorsOnly d (r.readAt p n d).2 := by
  cases r with
  | slot => exact errorsOnly_load p n d
  | core => exact errorsOnly_loadOutside p n d

/-- A read in the clear sees its bytes, or an uncorrectable word. -/
theorem Runner.readAt_clear {r : Runner} {p n : Nat} {d : Dev} (h : r.Clear d p n) :
    r.readAt p n d = (if uncorrectable d p n then none else some (getBytes d p n), (r.readAt p n d).2) := by
  cases r with
  | slot => rfl
  | core c x =>
    have hload : (Runner.core c x).readAt p n d = load p n d := if_neg (by simp [h rfl])
    rw [hload]
    rfl

/-- A control core reads zeros inside the window, and the attempt is told. -/
theorem Runner.readAt_shielded {r : Runner} {p n : Nat} {d : Dev} (h : r.Shielded d p n) (hn : 0 < n) :
    r.readAt p n d = (some (List.replicate n 0), (r.readAt p n d).2) ∧ rb (r.readAt p n d).2 Reg.SCARAB_EVENT 5 = true := by
  obtain ⟨c, x, rfl⟩ := h.core
  have hhit := h.protHit hn
  obtain ⟨_, _, hlo, hhi⟩ := h
  have hread : (Runner.core c x).readAt p n d = loadOutside p n d := rfl
  rw [hread, loadOutside, if_pos hhit]
  have hbefore : d.scarab.base - p = 0 := by omega
  have hafter : p + n - max p (d.scarab.base + d.scarab.size) = 0 := by omega
  have hmid : min (p + n) (d.scarab.base + d.scarab.size) - max p d.scarab.base = n := by omega
  refine ⟨Prod.ext ?_ rfl, rb_protDeny _⟩
  simp only [hbefore, hafter, hmid]
  simp [load, uncorrectable, wordsOf, getBytes]

/-- A write changes no byte outside its place. -/
theorem Runner.sameOutside_writeAt (r : Runner) (p : Nat) (bs : List W8) (d : Dev) : sameOutside p bs.length d (r.writeAt p bs d) := by
  intro x hx
  have hstore : getByte (store p bs d) x = getByte d x := by rw [getByte_store, if_neg (by omega)]
  cases r with
  | slot => exact hstore
  | core c y =>
    change getByte (storeOutside p bs d) x = _
    unfold storeOutside
    split
    · rw [getByte_congr (protDeny_mem _)]
      refine getByte_storeRanges_outside (fun r hr => ?_) d
      obtain ⟨i, hi, rfl⟩ := List.mem_map.mp hr
      have := List.mem_range.mp (List.mem_filter.mp hi).1
      simp only [List.length_singleton]
      omega
    · exact hstore

/-- A write in the clear leaves its bytes. -/
theorem Runner.getBytes_writeAt {r : Runner} {p : Nat} {bs : List W8} {d : Dev} (h : r.Clear d p bs.length) :
    getBytes (r.writeAt p bs d) p bs.length = bs := by
  have hstore : getBytes (store p bs d) p bs.length = bs := getBytes_eq_of_getByte fun j hj => by
    rw [getByte_store, if_pos (by omega), Nat.add_sub_cancel_left]
  cases r with
  | slot => exact hstore
  | core c x =>
    change getBytes (storeOutside p bs d) p bs.length = bs
    rwa [storeOutside, if_neg (by simp [h rfl])]

/-- A write of a control core inside the window changes no byte, and is told. -/
theorem Runner.writeAt_shielded {r : Runner} {p : Nat} {bs : List W8} {d : Dev} (h : r.Shielded d p bs.length) (hn : 0 < bs.length) :
    (r.writeAt p bs d).mem = d.mem ∧ rb (r.writeAt p bs d) Reg.SCARAB_EVENT 5 = true := by
  obtain ⟨c, x, rfl⟩ := h.core
  have hhit := h.protHit hn
  obtain ⟨_, hp, hlo, hhi⟩ := h
  have hnone : (List.range bs.length).filter (fun i => !guardedByte d (p + i)) = [] := by
    rw [List.filter_eq_nil_iff]
    intro i hi
    have := List.mem_range.mp hi
    simp only [guardedByte, hp, Bool.true_and, Bool.not_eq_eq_eq_not, Bool.not_true, decide_eq_false_iff_not, not_not]
    omega
  have hwrite : (Runner.core c x).writeAt p bs d = storeOutside p bs d := rfl
  rw [hwrite, storeOutside, if_pos hhit, hnone]
  exact ⟨(protDeny_mem _).trans (storeRanges_mem [] d), rb_protDeny _⟩

end Sys2Proof.Machine

/-!
Atomics, and the settling of O16.
-/

namespace Sys2Proof.Machine

/-! The new value of an atomic (R74). -/

/-- The new value of an atomic on 64 bits, by FUNC. -/
def atomicValue (func : Nat) (old b c : W64) : W64 :=
  match func with
  | 0 => b | 1 => old + b | 2 => old &&& b | 3 => old ||| b | 4 => old ^^^ b
  | 5 => if old.slt b then old else b | 6 => if old.slt b then b else old
  | 7 => if old < b then old else b | 8 => if old < b then b else old | _ => if old = c then b else old

/-- FUNC of an ATOM is 0 to 9. -/
theorem le_nine_cases {f : Nat} (h : f ≤ 9) :
    f = 0 ∨ f = 1 ∨ f = 2 ∨ f = 3 ∨ f = 4 ∨ f = 5 ∨ f = 6 ∨ f = 7 ∨ f = 8 ∨ f = 9 := by omega

theorem atomic_64 {func : Nat} (h : func ≤ 9) (old b c : W64) : atomic func old b c = some (atomicValue func old b c) := by
  obtain rfl | rfl | rfl | rfl | rfl | rfl | rfl | rfl | rfl | rfl := le_nine_cases h
  case inr.inr.inr.inr.inr.inl => exact congrArg some (minMax_signed old b).1
  case inr.inr.inr.inr.inr.inr.inl => exact congrArg some (minMax_signed old b).2
  case inr.inr.inr.inr.inr.inr.inr.inl => exact congrArg some (minMax_unsigned old b).1
  case inr.inr.inr.inr.inr.inr.inr.inr.inl => exact congrArg some (minMax_unsigned old b).2
  all_goals rfl

/-- Sign extension keeps both orders, and the low bits are the word again. -/
theorem setWidth_signExtend (x : W32) : (x.signExtend 64).setWidth 32 = x := by
  ext i hi
  simp [BitVec.getElem_signExtend, hi, show i < 64 by omega]

theorem signExtend_slt (x y : W32) : (x.signExtend 64).slt (y.signExtend 64) = x.slt y := by
  rw [BitVec.slt, BitVec.slt, BitVec.toInt_signExtend_of_le (by decide), BitVec.toInt_signExtend_of_le (by decide)]

theorem signExtend_lt (x y : W32) : x.signExtend 64 < y.signExtend 64 ↔ x < y := by
  have hx := x.isLt
  have hy := y.isLt
  simp only [BitVec.lt_def, BitVec.toNat_signExtend, BitVec.toNat_setWidth, BitVec.msb_eq_decide, decide_eq_true_eq]
  split <;> split <;> omega

theorem signExtend_inj (x y : W32) : x.signExtend 64 = y.signExtend 64 ↔ x = y :=
  ⟨fun h => by rw [← setWidth_signExtend x, h, setWidth_signExtend], fun h => h ▸ rfl⟩

/-- An atomic on 32 bits is the one on 64 of the sign-extended words, in its low bits. -/
theorem atomic_32 {func : Nat} (h : func ≤ 9) (old b c : W32) : atomic func old b c
    = some ((atomicValue func (old.signExtend 64) (b.signExtend 64) (c.signExtend 64)).setWidth 32) := by
  obtain rfl | rfl | rfl | rfl | rfl | rfl | rfl | rfl | rfl | rfl := le_nine_cases h
  case inr.inl => exact congrArg some (by rw [atomicValue, BitVec.setWidth_add _ _ (by decide), setWidth_signExtend, setWidth_signExtend])
  all_goals simp [atomic, atomicValue, minMax_signed, minMax_unsigned, signExtend_slt, signExtend_lt, signExtend_inj, setWidth_signExtend,
    apply_ite (BitVec.setWidth 32)]

/-- A word as an atomic of n bytes takes it: sign-extended when n is 4. -/
def atomicOperand (n : Nat) (x : W64) : W64 := if n = 4 then (x.setWidth 32).signExtend 64 else x

/-- The old value of an atomic of n bytes from the number that they spell. -/
def atomicOld (n m : Nat) : W64 := if n = 4 then (BitVec.ofNat 32 m).signExtend 64 else BitVec.ofNat 64 m

theorem atomicResult_eq {func n : Nat} (hf : func ≤ 9) (hn : n = 4 ∨ n = 8) (m : Nat) (b c : W64) : atomicResult func n m b c
    = some (atomicOld n m, leBytes n (atomicValue func (atomicOld n m) (atomicOperand n b) (atomicOperand n c)).toNat) := by
  rcases hn with rfl | rfl
  · rw [atomicResult, if_pos rfl, atomic_32 hf, Option.map_some, sx_ofNat (by decide)]
    refine congrArg (fun l => some (_, l)) (leBytes_congr ?_)
    rw [BitVec.toNat_setWidth, show 256 ^ 4 = 2 ^ 32 from rfl, Nat.mod_mod]
    rfl
  · rw [atomicResult, if_neg (by decide), atomic_64 hf]
    rfl

/-! The meanings by what the check of their access and the read give. -/

section
variable {r : Runner} {pre : Option W32} {w : W32} {k : Clk} {d e : Dev} {a : W64} {n p code : Nat} {bs : List W8}
  (ha : r.g (aOf w) + immSx pre w = a)
include ha

theorem loadStep_csr (hcsr : r.csrWord .read (opOf w == 0x0E) a.toNat = true) : loadStep r pre w k d =
    .done k ((r.setG (dOf w) ((csrRead .fw (a.toNat - csrBase) k d).bus.data.signExtend 64)).next pre (csrRead .fw (a.toNat - csrBase) k d)) := by
  simp only [loadStep, ha, hcsr, sx_toNat (m := 32) (by decide)]
  rfl

theorem storeStep_csr (hcsr : r.csrWord .write (opOf w == 0x16) a.toNat = true) : storeStep r pre w k d =
    .done (csrWrite .fw (a.toNat - csrBase) (lo32 (r.g (dOf w))) k (r.next pre d)).1
      (csrWrite .fw (a.toNat - csrBase) (lo32 (r.g (dOf w))) k (r.next pre d)).2 := by
  simp only [storeStep, ha, hcsr]
  rfl

theorem loadStep_ok (hcsr : r.csrWord .read (opOf w == 0x0E) a.toNat = false) (hn : loadSize (opOf w) = n)
    (hspot : r.spot .read a.toNat n n d = .ok p) (hread : r.readAt p n d = (some bs, e)) :
    loadStep r pre w k d = goOn (r.setG (dOf w) (loadValue (opOf w) bs)) pre k e := by
  simp only [loadStep, ha, hcsr, hn, hspot, hread]
  rfl

theorem loadStep_ecc (hcsr : r.csrWord .read (opOf w == 0x0E) a.toNat = false) (hn : loadSize (opOf w) = n)
    (hspot : r.spot .read a.toNat n n d = .ok p) (hread : r.readAt p n d = (none, e)) : loadStep r pre w k d = .fault 0x05 a 0xFF e := by
  simp only [loadStep, ha, hcsr, hn, hspot, hread]
  rfl

theorem loadStep_refused (hcsr : r.csrWord .read (opOf w == 0x0E) a.toNat = false) (hn : loadSize (opOf w) = n)
    (hspot : r.spot .read a.toNat n n d = .error code) : loadStep r pre w k d = .fault code a 0xFF d := by
  simp only [loadStep, ha, hcsr, hn, hspot]
  rfl

theorem storeStep_ok (hcsr : r.csrWord .write (opOf w == 0x16) a.toNat = false) (hn : 2 ^ (opOf w - 0x14) = n)
    (hspot : r.spot .write a.toNat n n d = .ok p) :
    storeStep r pre w k d = .done k (r.writeAt p (leBytes n (r.g (dOf w)).toNat) (r.next pre d)) := by
  simp only [storeStep, ha, hcsr, hn, hspot]
  rfl

theorem storeStep_refused (hcsr : r.csrWord .write (opOf w == 0x16) a.toNat = false) (hn : 2 ^ (opOf w - 0x14) = n)
    (hspot : r.spot .write a.toNat n n d = .error code) : storeStep r pre w k d = .fault code a 0xFF d := by
  simp only [storeStep, ha, hcsr, hn, hspot]
  rfl

end

theorem Runner.csrWord_iff (r : Runner) (kind : Access) (word : Bool) (a : Nat) : r.csrWord kind word a = true ↔
    r.isCore = true ∧ word = true ∧ 0x10000000 ≤ a ∧ a + 4 ≤ 0x11000000 ∧ a % 4 = 0 ∧ r.allows kind a 4 := by
  cases r with
  | slot => simp [csrWord, isCore]
  | core c x => simp [csrWord, isCore, inCsr, csrBase, ← x.grants_iff kind c, and_assoc]

section
variable {who : Who} {s : State} {r : Runner} {pre : Option W32} {w : W32} {e : Dev} {a : W64} {n p : Nat}

theorem ofLe_zeros (n : Nat) : ofLe (List.replicate n 0) = 0 := by
  induction n with
  | zero => rfl
  | succ n ih => rw [List.replicate_succ, ofLe, ih]; rfl

theorem loadValue_zeros (op n : Nat) : loadValue op (List.replicate n 0) = 0 := by
  rw [loadValue, ofLe_zeros]
  simp [sx, signExt, w64]

/-- LOAD (R63, R74, R79, R83). -/
theorem load_clause (h : Issues .load who r pre w s e) (ha : r.g (aOf w) + immSx pre w = a)
    (hcsr : r.csrWord .read (opOf w == 0x0E) a.toNat = false) (hn : loadSize (opOf w) = n) :
    (r.holds e a.toNat n p → r.allows .read a.toNat n → a.toNat % n = 0 → r.Clear e p n → uncorrectable e p n = false →
      ∃ t, exec (.load who) s = .next t ∧ t.clk = s.clk
        ∧ t.dev = (r.setG (dOf w) (loadValue (opOf w) (getBytes s.dev p n))).next pre (r.readAt p n e).2 ∧ sameMemory s.dev t.dev) ∧
    (r.holds e a.toNat n p → r.allows .read a.toNat n → a.toNat % n = 0 → r.Shielded e p n →
      ∃ t, exec (.load who) s = .next t ∧ t.clk = s.clk ∧ t.dev = (r.setG (dOf w) 0).next pre (r.readAt p n e).2
        ∧ sameMemory s.dev t.dev ∧ rb t.dev Reg.SCARAB_EVENT 5 = true) ∧
    (r.holds e a.toNat n p → r.allows .read a.toNat n → a.toNat % n = 0 → r.Clear e p n → uncorrectable e p n = true →
      exec (.load who) s = nextDev s (takeFault r 0x05 a 0xFF s.clk (r.readAt p n e).2)) ∧
    (∀ code, r.refuses .read e a.toNat n code → exec (.load who) s = nextDev s (takeFault r code a 0xFF s.clk e)) := by
  have hmem : ∀ r' : Runner, (r'.next pre (r.readAt p n e).2).mem = s.dev.mem := fun r' => by
    rw [Runner.next_mem, (r.errorsOnly_readAt p n e).mem, h.mem]
  refine ⟨fun hh hal hz hclear hok => ?_, fun hh hal hz hin => ?_, fun hh hal hz hclear hbad => ?_, fun code hr => ?_⟩
  · have hread := r.readAt_clear hclear
    rw [if_neg (by simp [hok]), getBytes_congr h.mem] at hread
    exact ⟨_, runClass_done h (loadStep_ok ha hcsr hn (Runner.spot_ok hh hal hz) hread), rfl, rfl, sameMemory_of_mem (hmem _)⟩
  · have hpos : 0 < n := hn ▸ Nat.two_pow_pos _
    obtain ⟨hread, hev⟩ := Runner.readAt_shielded hin hpos
    refine ⟨_, runClass_done h (loadStep_ok ha hcsr hn (Runner.spot_ok hh hal hz) hread), rfl, ?_, sameMemory_of_mem (hmem _), ?_⟩
    · rw [loadValue_zeros]
      rfl
    · exact (congrArg (bit · 5) (rd_congr (Runner.next_regs ..) _)).trans hev
  · have hread := r.readAt_clear hclear
    rw [if_pos hbad] at hread
    exact runClass_fault h (loadStep_ecc ha hcsr hn (Runner.spot_ok hh hal hz) hread)
  · exact runClass_fault h (loadStep_refused ha hcsr hn (Runner.spot_refuses hr))

/-- LW of the CSR space by a control core (R83). -/
theorem exec_load_csr (h : Issues .load who r pre w s e) (ha : r.g (aOf w) + immSx pre w = a)
    (hcsr : r.csrWord .read (opOf w == 0x0E) a.toNat = true) :
    let d := csrRead .fw (a.toNat - csrBase) s.clk e
    exec (.load who) s = nextDev s ((r.setG (dOf w) (d.bus.data.signExtend 64)).next pre d) := 
  runClass_done h (loadStep_csr ha hcsr)


/-- A store that a function of the clock and the device completes. -/
theorem runClass_store_onClk {f : Clk → Dev → Clk × Dev} (h : Issues .store who r pre w s e)
    (hf : storeStep r pre w s.clk e = .done (f s.clk (r.next pre e)).1 (f s.clk (r.next pre e)).2) :
    runClass .store who storeStep s = onClk { s with dev := r.next pre e } f := by
  rw [runClass_issues h, hf]
  rfl

/-- SW to it: a register write may reach the clock. -/
theorem exec_store_csr (h : Issues .store who r pre w s e) (ha : r.g (aOf w) + immSx pre w = a)
    (hcsr : r.csrWord .write (opOf w == 0x16) a.toNat = true) :
    exec (.store who) s = onClk { s with dev := r.next pre e } (csrWrite .fw (a.toNat - csrBase) (lo32 (r.g (dOf w)))) :=
  runClass_store_onClk h (storeStep_csr ha hcsr)

/-- A write from the device e on, after a fetch and a read that leave memory. -/
theorem write_clause {d : Dev} {bs : List W8} (hmem : d.mem = s.dev.mem) (hscarab : d.scarab = e.scarab) (hpos : 0 < bs.length) :
    sameOutside p bs.length s.dev (r.writeAt p bs d)
      ∧ (r.Clear e p bs.length → getBytes (r.writeAt p bs d) p bs.length = bs)
      ∧ (r.Shielded e p bs.length → sameMemory s.dev (r.writeAt p bs d) ∧ rb (r.writeAt p bs d) Reg.SCARAB_EVENT 5 = true) := by
  refine ⟨fun x hx => (r.sameOutside_writeAt p bs d x hx).trans (getByte_congr hmem x), fun hclear => Runner.getBytes_writeAt (hclear.congr hscarab),
    fun hin => ?_⟩
  obtain ⟨hkeep, hev⟩ := Runner.writeAt_shielded (hin.congr hscarab) hpos
  exact ⟨sameMemory_of_mem (hkeep.trans hmem), hev⟩

/-- STORE (R63, R83). -/
theorem store_clause (h : Issues .store who r pre w s e) (ha : r.g (aOf w) + immSx pre w = a)
    (hcsr : r.csrWord .write (opOf w == 0x16) a.toNat = false) (hn : 2 ^ (opOf w - 0x14) = n) :
    (r.holds e a.toNat n p → r.allows .write a.toNat n → a.toNat % n = 0 → ∃ t, exec (.store who) s = .next t ∧ t.clk = s.clk
      ∧ t.dev = r.writeAt p (leBytes n (r.g (dOf w)).toNat) (r.next pre e) ∧ sameOutside p n s.dev t.dev
      ∧ (r.Clear e p n → getBytes t.dev p n = leBytes n (r.g (dOf w)).toNat)
      ∧ (r.Shielded e p n → sameMemory s.dev t.dev ∧ rb t.dev Reg.SCARAB_EVENT 5 = true)) ∧
    (∀ code, r.refuses .write e a.toNat n code → exec (.store who) s = nextDev s (takeFault r code a 0xFF s.clk e)) := by
  refine ⟨fun hh hal hz => ?_, fun code hr => runClass_fault h (storeStep_refused ha hcsr hn (Runner.spot_refuses hr))⟩
  refine ⟨_, runClass_done h (storeStep_ok ha hcsr hn (Runner.spot_ok hh hal hz)), rfl, rfl, ?_⟩
  have hpos : 0 < n := hn ▸ Nat.two_pow_pos _
  have hw := write_clause (s := s) (r := r) (e := e) (p := p) (bs := leBytes n (r.g (dOf w)).toNat) (d := r.next pre e)
    ((Runner.next_mem ..).trans h.mem) (Runner.next_scarab ..) (by simpa using hpos)
  simpa only [leBytes_length] using hw

/-- The size of an ATOM by its W. -/
def atomSize (w : W32) : Nat := if fld w 6 2 = 2 then 4 else 8

theorem atomSize_cases (w : W32) : atomSize w = 4 ∨ atomSize w = 8 := by
  unfold atomSize
  split
  · exact .inl rfl
  · exact .inr rfl

/-- The bytes that an ATOM writes back where it read the bytes bs. -/
def atomBytes (r : Runner) (w : W32) (bs : List W8) : List W8 :=
  leBytes (atomSize w) (atomicValue (fld w 0 6) (atomicOld (atomSize w) (ofLe bs)) (atomicOperand (atomSize w) (r.g (bOf w)))
    (atomicOperand (atomSize w) (r.g (dOf w)))).toNat

theorem atomBytes_length (r : Runner) (w : W32) (bs : List W8) : (atomBytes r w bs).length = atomSize w := leBytes_length ..

theorem atomStep_illegal {k : Clk} {d : Dev} (h : pOf w ≠ 0 ∨ fld w 6 2 < 2 ∨ 9 < fld w 0 6) : atomStep r pre w k d = illegal d := if_pos h

section
variable {k : Clk} {d : Dev} {code q : Nat} {bs : List W8} (hlegal : pOf w = 0 ∧ 2 ≤ fld w 6 2 ∧ fld w 0 6 ≤ 9)
include hlegal

theorem atomStep_refused_read (hread : r.spot .read (r.g (aOf w)).toNat (atomSize w) 1 d = .error code) :
    atomStep r pre w k d = .fault code (r.g (aOf w)) 0xFF d := by
  have hok : ¬ (pOf w ≠ 0 ∨ fld w 6 2 < 2 ∨ 9 < fld w 0 6) := by omega
  simp only [atomStep, if_neg hok, ← atomSize.eq_1 w, hread]

theorem atomStep_refused_write (hread : r.spot .read (r.g (aOf w)).toNat (atomSize w) 1 d = .ok p)
    (hwrite : r.spot .write (r.g (aOf w)).toNat (atomSize w) (atomSize w) d = .error code) :
    atomStep r pre w k d = .fault code (r.g (aOf w)) 0xFF d := by
  have hok : ¬ (pOf w ≠ 0 ∨ fld w 6 2 < 2 ∨ 9 < fld w 0 6) := by omega
  simp only [atomStep, if_neg hok, ← atomSize.eq_1 w, hread, hwrite]

theorem atomStep_ecc (hread : r.spot .read (r.g (aOf w)).toNat (atomSize w) 1 d = .ok p)
    (hwrite : r.spot .write (r.g (aOf w)).toNat (atomSize w) (atomSize w) d = .ok q) (hbytes : r.readAt p (atomSize w) d = (none, e)) :
    atomStep r pre w k d = .fault 0x05 (r.g (aOf w)) 0xFF e := by
  have hok : ¬ (pOf w ≠ 0 ∨ fld w 6 2 < 2 ∨ 9 < fld w 0 6) := by omega
  simp only [atomStep, if_neg hok, ← atomSize.eq_1 w, hread, hwrite, hbytes]

theorem atomStep_ok (hread : r.spot .read (r.g (aOf w)).toNat (atomSize w) 1 d = .ok p)
    (hwrite : r.spot .write (r.g (aOf w)).toNat (atomSize w) (atomSize w) d = .ok q) (hbytes : r.readAt p (atomSize w) d = (some bs, e)) :
    atomStep r pre w k d = .done k (r.writeAt p (atomBytes r w bs) ((r.setG (dOf w) (atomicOld (atomSize w) (ofLe bs))).next pre e)) := by
  have hok : ¬ (pOf w ≠ 0 ∨ fld w 6 2 < 2 ∨ 9 < fld w 0 6) := by omega
  simp only [atomStep, if_neg hok, ← atomSize.eq_1 w, hread, hwrite, hbytes, atomicResult_eq hlegal.2.2 (atomSize_cases w)]
  rw [Runner.next, Runner.after_setG]
  rfl

end

/-- ATOM with defined fields, where no area refuses it (R74, R79, R83). -/
theorem atom_clause (h : Issues .atom who r pre w s e) (hlegal : pOf w = 0 ∧ 2 ≤ fld w 6 2 ∧ fld w 0 6 ≤ 9)
    (hh : r.holds e (r.g (aOf w)).toNat (atomSize w) p) (hal : r.allows .read (r.g (aOf w)).toNat (atomSize w))
    (hal' : r.allows .write (r.g (aOf w)).toNat (atomSize w)) (hz : (r.g (aOf w)).toNat % atomSize w = 0) :
    let bs := getBytes s.dev p (atomSize w)
    (r.Shielded e p (atomSize w) → ∃ t, exec (.atom who) s = .next t ∧ t.clk = s.clk ∧ sameMemory s.dev t.dev
      ∧ rb t.dev Reg.SCARAB_EVENT 5 = true) ∧
    (r.Clear e p (atomSize w) → uncorrectable e p (atomSize w) = false → ∃ t, exec (.atom who) s = .next t ∧ t.clk = s.clk
      ∧ t.dev = r.writeAt p (atomBytes r w bs) ((r.setG (dOf w) (atomicOld (atomSize w) (ofLe bs))).next pre (r.readAt p (atomSize w) e).2)
      ∧ getBytes t.dev p (atomSize w) = atomBytes r w bs ∧ sameOutside p (atomSize w) s.dev t.dev) ∧
    (r.Clear e p (atomSize w) → uncorrectable e p (atomSize w) = true →
      exec (.atom who) s = nextDev s (takeFault r 0x05 (r.g (aOf w)) 0xFF s.clk (r.readAt p (atomSize w) e).2)) := by
  intro bs
  have hpos : 0 < atomSize w := by rcases atomSize_cases w with hw | hw <;> omega
  have hread := Runner.spot_ok hh hal (Nat.mod_one _)
  have hwrite := Runner.spot_ok hh hal' hz
  have hback := fun (r' : Runner) (l : List W8) => write_clause (s := s) (r := r) (e := e) (p := p) (bs := atomBytes r w l)
    (d := r'.next pre (r.readAt p (atomSize w) e).2) ((Runner.next_mem ..).trans ((r.errorsOnly_readAt p _ e).mem.trans h.mem))
    ((Runner.next_scarab ..).trans (r.errorsOnly_readAt p _ e).scarab) (by rwa [atomBytes_length])
  simp only [atomBytes_length] at hback
  refine ⟨fun hin => ?_, fun hclear hok => ?_, fun hclear hbad => ?_⟩
  · obtain ⟨hbytes, _⟩ := Runner.readAt_shielded hin hpos
    exact ⟨_, runClass_done h (atomStep_ok hlegal hread hwrite hbytes), rfl, (hback _ _).2.2 hin⟩
  · have hbytes := r.readAt_clear hclear
    rw [if_neg (by simp [hok]), getBytes_congr h.mem] at hbytes
    exact ⟨_, runClass_done h (atomStep_ok hlegal hread hwrite hbytes), rfl, rfl, (hback _ _).2.1 hclear, (hback _ _).1⟩
  · have hbytes := r.readAt_clear hclear
    rw [if_pos hbad] at hbytes
    exact runClass_fault h (atomStep_ecc hlegal hread hwrite hbytes)

/-- ATOM where an area or a space refuses it, or its address is not aligned (R51, R74, R84). -/
theorem atom_refused {kind : Access} {code : Nat} (h : Issues .atom who r pre w s e)
    (hlegal : pOf w = 0 ∧ 2 ≤ fld w 6 2 ∧ fld w 0 6 ≤ 9) (hkind : kind ≠ .run) (hr : r.refuses kind e (r.g (aOf w)).toNat (atomSize w) code)
    (hboth : code = 0x02 → r.allows .read (r.g (aOf w)).toNat (atomSize w) ∧ r.allows .write (r.g (aOf w)).toNat (atomSize w)) :
    exec (.atom who) s = nextDev s (takeFault r code (r.g (aOf w)) 0xFF s.clk e) := by
  rcases hr with ⟨rfl, hno⟩ | ⟨rfl, ⟨p, hh⟩, _, hz⟩
  · by_cases hread : (∀ p, ¬ r.holds e (r.g (aOf w)).toNat (atomSize w) p) ∨ ¬ r.allows .read (r.g (aOf w)).toNat (atomSize w)
    · exact runClass_fault h (atomStep_refused_read hlegal (Runner.spot_access 1 hread))
    · simp only [not_or, not_forall, not_not] at hread
      obtain ⟨⟨p, hh⟩, hal⟩ := hread
      have hwrite : ¬ r.allows .write (r.g (aOf w)).toNat (atomSize w) := by
        cases kind with
        | read => exact absurd hal (hno.resolve_left fun hno => hno p hh)
        | write => exact hno.resolve_left fun hno => hno p hh
        | run => exact absurd rfl hkind
      exact runClass_fault h (atomStep_refused_write hlegal (Runner.spot_ok hh hal (Nat.mod_one _)) (Runner.spot_access _ (.inr hwrite)))
  · obtain ⟨hal, hal'⟩ := hboth rfl
    exact runClass_fault h (atomStep_refused_write hlegal (Runner.spot_ok hh hal (Nat.mod_one _)) (Runner.spot_misaligned hh hal' hz))

end

/-- Settles O16: each instruction by the clause above, at the size that its word names. -/
theorem loadsStoresAtomics : Obligations.LoadsStoresAtomics := by
  intro who s r pre w e imm a inside apart
  have ha : r.g (aOf w) + immSx pre w = a := congrArg (r.g (aOf w) + ·) (immSx_eq pre w)
  refine ⟨fun h hcsr n p h1 h2 h4 h8 => ?_, fun h hcsr n p h1 h2 h4 h8 => ?_, fun kind word => r.csrWord_iff kind word _,
    fun c x hr hlo hhi hz => ⟨fun h hop hal => ?_, fun h hop hal => ?_⟩, fun h hbad => runClass_fault h (atomStep_illegal hbad),
    fun h hp hw hf p => ?_⟩
  · obtain ⟨hlo, hhi⟩ := opOf_of_load h.prefixOk.1
    have hclause := load_clause (p := p) h ha hcsr (loadSize_eq hlo hhi h1 h2 h4 h8)
    rw [loadValue_eq hlo hhi] at hclause
    exact hclause
  · obtain ⟨hlo, hhi⟩ := opOf_of_store h.prefixOk.1
    exact store_clause h ha hcsr (storeSize_eq hlo hhi h1 h2 h4 h8)
  · exact exec_load_csr h ha ((r.csrWord_iff ..).mpr ⟨by rw [hr]; rfl, beq_iff_eq.mpr hop, hlo, hhi, hz, hal⟩)
  · exact exec_store_csr h ha ((r.csrWord_iff ..).mpr ⟨by rw [hr]; rfl, beq_iff_eq.mpr hop, hlo, hhi, hz, hal⟩)
  · intro x n old b c new
    refine ⟨fun hh hal hal' hz => atom_clause h ⟨hp, hw, hf⟩ hh hal hal' hz, fun code kind hkind hr hboth => atom_refused h ⟨hp, hw, hf⟩ hkind hr hboth⟩

end Sys2Proof.Machine

/-!
Vector memory (O19).
-/

namespace Sys2Proof.Machine

/-! The elements of an access (R72, R73). -/

/-- Active elements and their addresses, in rising order of the element. -/
def ElemList (w : W32) (l : List (Nat × W64)) : Prop := l.Pairwise (fun x y => x.1 < y.1) ∧ ∀ x ∈ l, x.1 < 512 / regBits w

theorem elemList_activeIdx (p : W32) (w : W32) (f : Nat → W64) : ElemList w ((activeIdx p (512 / regBits w)).map fun i => (i, f i)) := by
  constructor
  · rw [List.pairwise_map]
    exact List.pairwise_lt_range.filter _
  · intro x hx
    obtain ⟨i, hi, rfl⟩ := List.mem_map.mp hx
    exact List.mem_range.mp (List.mem_filter.mp hi).1

theorem elemList_lineElems (b : Brew) (pre : Option W32) (w : W32) : ElemList w (lineElems b pre w) := elemList_activeIdx ..

theorem elemList_indexElems (b : Brew) (w : W32) : ElemList w (indexElems b w) := elemList_activeIdx ..

theorem mem_activeIdx_map (p : W32) (n : Nat) (f : Nat → W64) (j : Nat) (a : W64) :
    (j, a) ∈ (activeIdx p n).map (fun i => (i, f i)) ↔ (j < n ∧ bit p j = true) ∧ a = f j := by
  simp only [activeIdx, List.mem_map, List.mem_filter, List.mem_range, Prod.mk.injEq]
  exact ⟨fun ⟨i, hi, hj, ha⟩ => hj ▸ ⟨hi, ha.symm⟩, fun ⟨hj, ha⟩ => ⟨j, hj, rfl, ha.symm⟩⟩

/-- The offset of a VLD or VST: the word's, or with a LIMM word that one's 22 bits above the word's 6 (R56, R72). -/
theorem lineOffset_eq (pre : Option W32) (w : W32) :
    (match pre with | some p => sx 28 (fld p 0 22 * 2 ^ 6 + fld w 0 6) | none => sx 6 (fld w 0 6))
      = pre.elim ((w.setWidth 6).signExtend 64) fun p => (p.setWidth 22 ++ w.setWidth 6 : BitVec 28).signExtend 64 := by
  cases pre with
  | none => exact sx_fld (by decide) w
  | some p =>
    have h : fld p 0 22 * 2 ^ 6 + fld w 0 6 = (p.setWidth 22 ++ w.setWidth 6 : BitVec 28).toNat := by
      rw [BitVec.toNat_append, fld_toNat_setWidth, fld_toNat_setWidth, ← Nat.shiftLeft_add_eq_or_of_lt (BitVec.isLt _), Nat.shiftLeft_eq]
    exact (congrArg (sx 28) h).trans (sx_toNat (m := 28) (by decide) _)

theorem mem_lineElems (b : Brew) (pre : Option W32) (w : W32) (j : Nat) (a : W64) : (j, a) ∈ lineElems b pre w ↔
    (j < 512 / regBits w ∧ bit (b.pReg (pOf w)) j = true) ∧ a = b.gReg (aOf w)
      + (pre.elim ((w.setWidth 6).signExtend 64) fun p => (p.setWidth 22 ++ w.setWidth 6 : BitVec 28).signExtend 64)
        * w64 (512 / regBits w * memBytes w) + w64 (j * memBytes w) := by
  rw [← lineOffset_eq]
  exact mem_activeIdx_map ..

/-! Checks, lowest element first (R73). -/

theorem Runner.spot_of_not_refuses {r : Runner} {kind : Access} {a n : Nat} {d : Dev} (h : ∀ code, ¬ r.refuses kind d a n code) :
    ∃ p, r.spot kind a n n d = .ok p := by
  have haccess := h 0x03
  have halign := h 0x02
  simp only [refuses, not_or, not_and, not_forall, not_not, true_implies, ne_eq] at haccess halign
  obtain ⟨⟨p, hp⟩, hal⟩ := haccess.1
  exact ⟨p, spot_ok hp hal (halign.2 ⟨p, hp⟩ hal)⟩

section
variable {r : Runner} {kind : Access} {n code : Nat} {w : W32} {l : List (Nat × W64)} {d : Dev} {y : Nat × W64}

/-- What stands before an element of a list in rising order is lower. -/
theorem ElemList.split (hl : ElemList w l) (hy : y ∈ l) : ∃ l₁ l₂, l = l₁ ++ y :: l₂ ∧ ∀ z ∈ l₁, z ∈ l ∧ z.1 < y.1 := by
  obtain ⟨l₁, l₂, rfl⟩ := List.append_of_mem hy
  refine ⟨l₁, l₂, rfl, fun z hz => ⟨List.mem_append_left _ hz, ?_⟩⟩
  exact (List.pairwise_append.mp hl.1).2.2 z hz y (List.mem_cons_self ..)

theorem firstFault_eq_none (h : ∀ z ∈ l, ∀ x, ¬ r.refuses kind d z.2.toNat n x) : firstFault r kind n l d = none := by
  rw [firstFault, List.findSome?_eq_none_iff]
  rintro ⟨j, a⟩ hz
  obtain ⟨p, hp⟩ := Runner.spot_of_not_refuses (h _ hz)
  simp only [hp]

theorem firstFault_append (l₁ l₂ : List (Nat × W64)) :
    firstFault r kind n (l₁ ++ l₂) d = (firstFault r kind n l₁ d).or (firstFault r kind n l₂ d) := List.findSome?_append

theorem firstFault_cons_refuses (hr : r.refuses kind d y.2.toNat n code) : firstFault r kind n (y :: l) d = some (code, y.2, y.1) := by
  obtain ⟨j, a⟩ := y
  simp only [firstFault, List.findSome?_cons, Runner.spot_refuses hr]

/-- The element that is refused while no lower one is, is the one that faults. -/
theorem firstFault_eq_some (hl : ElemList w l) (hy : y ∈ l) (hr : r.refuses kind d y.2.toNat n code)
    (hlow : ∀ z ∈ l, z.1 < y.1 → ∀ x, ¬ r.refuses kind d z.2.toNat n x) : firstFault r kind n l d = some (code, y.2, y.1) := by
  obtain ⟨l₁, l₂, rfl, hbefore⟩ := hl.split hy
  rw [firstFault_append, firstFault_eq_none fun z hz => hlow z (hbefore z hz).1 (hbefore z hz).2, firstFault_cons_refuses hr]
  rfl

theorem spotOf_eq {a : W64} {p : Nat} (h : r.holds d a.toNat n p) (hal : r.allows kind a.toNat n) (hz : a.toNat % n = 0) :
    spotOf r kind n a d = p := by
  rw [spotOf, Runner.spot_ok h hal hz]

end

/-! Loads. -/

section
variable {α : Type} {f : Nat × α → Nat} {l : List (Nat × α)} {v : List Nat}

/-- Places that no entry of the list names keep their values. -/
theorem foldl_set_getD_ne {j : Nat} (h : ∀ x ∈ l, x.1 ≠ j) : (l.foldl (fun v x => v.set x.1 (f x)) v).getD j 0 = v.getD j 0 := by
  induction l generalizing v with
  | nil => rfl
  | cons x l ih =>
    rw [List.foldl_cons, ih fun y hy => h y (List.mem_cons_of_mem x hy)]
    simp [List.getD, List.getElem?_set_ne (h x (List.mem_cons_self ..))]

/-- A place that one entry names takes its value. -/
theorem foldl_set_getD_mem {x : Nat × α} (hl : l.Pairwise fun x y => x.1 < y.1) (hx : x ∈ l) (hv : x.1 < v.length) :
    (l.foldl (fun v x => v.set x.1 (f x)) v).getD x.1 0 = f x := by
  induction l generalizing v with
  | nil => cases hx
  | cons y l ih =>
    obtain ⟨hy, hl⟩ := List.pairwise_cons.mp hl
    rw [List.foldl_cons]
    rcases List.mem_cons.mp hx with rfl | hx
    · rw [foldl_set_getD_ne fun z hz => (hy z hz).ne']
      simp [List.getD, hv]
    · exact ih hl hx (by rwa [List.length_set])

end

/-- The bytes of an element fit its place in a register. -/
theorem memBytes_le (w : W32) : 256 ^ memBytes w ≤ 2 ^ regBits w := by
  unfold memBytes regBits
  split
  · next h => simp [h]
  · next h => simp [h]
  · split <;> norm_num

section
variable {i' : Nat} {b : Brew} {pre : Option W32} {w : W32} {l : List (Nat × W64)} {k : Clk} {d : Dev} {code : Nat} {y : Nat × W64}

theorem loadElems_refused (h : firstFault (.slot i' b) .read (memBytes w) l d = some (code, y.2, y.1)) :
    loadElems i' b pre w l k d = .fault code y.2 y.1 d := by
  simp only [loadElems, h]

/-- The elements of a load with their addresses and places. -/
def located (r : Runner) (n : Nat) (l : List (Nat × W64)) (d : Dev) : List (Nat × W64 × Nat) := l.map fun x => (x.1, x.2, spotOf r .read n x.2 d)

/-- What the errors of the words that a load reads bring. -/
def afterReads (r : Runner) (n : Nat) (l : List (Nat × W64)) (d : Dev) : Dev := (readSpans (l.map fun x => (spotOf r .read n x.2 d, n)) d).2

/-- The elements of v[D] with those of a load in their places. -/
def loaded (r : Runner) (b : Brew) (w : W32) (l : List (Nat × W64)) (d : Dev) : List Nat :=
  l.foldl (fun v x => v.set x.1 (ofLe (getBytes d (spotOf r .read (memBytes w) x.2 d) (memBytes w)))) (elems (regBits w) (b.vReg (dOf w)))

theorem loadElems_of_find_some {p : Nat} (hnone : firstFault (.slot i' b) .read (memBytes w) l d = none)
    (h : (located (.slot i' b) (memBytes w) l d).find? (fun x => uncorrectable d x.2.2 (memBytes w)) = some (y.1, y.2, p)) :
    loadElems i' b pre w l k d = .fault 0x05 y.2 y.1 (afterReads (.slot i' b) (memBytes w) l d) := by
  simp only [loadElems, hnone]
  split
  · next heq =>
    cases heq.symm.trans h
    rw [List.map_map]
    rfl
  · next heq => cases heq.symm.trans h

theorem loadElems_of_find_none (hnone : firstFault (.slot i' b) .read (memBytes w) l d = none)
    (h : (located (.slot i' b) (memBytes w) l d).find? (fun x => uncorrectable d x.2.2 (memBytes w)) = none) :
    loadElems i' b pre w l k d = .done k ((Runner.slot i' (b.setV (dOf w) (ofElems (regBits w) (loaded (.slot i' b) b w l d)))).next pre
      (afterReads (.slot i' b) (memBytes w) l d)) := by
  simp only [loadElems, hnone]
  split
  · next heq => cases heq.symm.trans h
  · rw [List.map_map, List.foldl_map]
    rfl

/-- Where all checks pass, the lowest element with an uncorrectable word is the one that faults. -/
theorem loadElems_ecc (hl : ElemList w l) (hnone : firstFault (.slot i' b) .read (memBytes w) l d = none) (hy : y ∈ l)
    (hbad : uncorrectable d (spotOf (.slot i' b) .read (memBytes w) y.2 d) (memBytes w) = true)
    (hlow : ∀ z ∈ l, z.1 < y.1 → uncorrectable d (spotOf (.slot i' b) .read (memBytes w) z.2 d) (memBytes w) = false) :
    loadElems i' b pre w l k d = .fault 0x05 y.2 y.1 (afterReads (.slot i' b) (memBytes w) l d) := by
  refine loadElems_of_find_some hnone (p := spotOf (.slot i' b) .read (memBytes w) y.2 d) ?_
  obtain ⟨l₁, l₂, rfl, hbefore⟩ := hl.split hy
  rw [located, List.map_append, List.find?_append, List.find?_eq_none.mpr]
  · exact List.find?_cons_of_pos (p := fun x : Nat × W64 × Nat => uncorrectable d x.2.2 (memBytes w)) hbad
  · intro z hz
    obtain ⟨z, hz', rfl⟩ := List.mem_map.mp hz
    exact Bool.eq_false_iff.mp (hlow z (hbefore z hz').1 (hbefore z hz').2)

/-- Where no word is uncorrectable either, the elements are loaded. -/
theorem loadElems_ok (hnone : firstFault (.slot i' b) .read (memBytes w) l d = none)
    (hok : ∀ x ∈ l, uncorrectable d (spotOf (.slot i' b) .read (memBytes w) x.2 d) (memBytes w) = false) :
    loadElems i' b pre w l k d = .done k ((Runner.slot i' (b.setV (dOf w) (ofElems (regBits w) (loaded (.slot i' b) b w l d)))).next pre
      (afterReads (.slot i' b) (memBytes w) l d)) := by
  refine loadElems_of_find_none hnone (List.find?_eq_none.mpr fun z hz => ?_)
  obtain ⟨z, hz', rfl⟩ := List.mem_map.mp hz
  exact Bool.eq_false_iff.mp (hok z hz')

/-- An element that a load names. -/
theorem loaded_mem {r : Runner} {j : Nat} {a : W64} (hl : ElemList w l) (ha : (j, a) ∈ l) :
    (elems (regBits w) (ofElems (regBits w) (loaded r b w l d))).getD j 0
      = ofLe (getBytes d (spotOf r .read (memBytes w) a d) (memBytes w)) := by
  have hj : j < 512 / regBits w := hl.2 _ ha
  have hset : (loaded r b w l d).getD j 0 = ofLe (getBytes d (spotOf r .read (memBytes w) a d) (memBytes w)) :=
    foldl_set_getD_mem hl.1 ha (by simpa using hj)
  have hfit : ofLe (getBytes d (spotOf r .read (memBytes w) a d) (memBytes w)) < 2 ^ regBits w :=
    (ofLe_lt _).trans_le (by rw [getBytes_length]; exact memBytes_le w)
  rw [elems_ofElems_getD _ hj, hset, Nat.mod_eq_of_lt hfit]

/-- One that it does not name. -/
theorem loaded_ne {r : Runner} {j : Nat} (hj : j < 512 / regBits w) (ha : ∀ a, (j, a) ∉ l) :
    (elems (regBits w) (ofElems (regBits w) (loaded r b w l d))).getD j 0 = (elems (regBits w) (b.vReg (dOf w))).getD j 0 := by
  have hset : (loaded r b w l d).getD j 0 = (elems (regBits w) (b.vReg (dOf w))).getD j 0 :=
    foldl_set_getD_ne fun x hx hxj => ha x.2 (hxj ▸ hx)
  rw [elems_ofElems_getD _ hj, hset, Nat.mod_eq_of_lt (elems_getD_lt ..)]

/-! Stores. -/

theorem storedElem_length (w : W32) (x : Nat) : (storedElem w x).1.length = memBytes w := by
  unfold storedElem
  split
  · next h => rw [memBytes, h]; exact leBytes_length ..
  · exact leBytes_length ..

theorem storeElems_refused (h : firstFault (.slot i' b) .write (memBytes w) l d = some (code, y.2, y.1)) :
    storeElems i' b pre w l k d = .fault code y.2 y.1 d := by
  simp only [storeElems, h]

/-- The ranges of a vector store, in rising order of the element. -/
def storedRanges (r : Runner) (b : Brew) (w : W32) (l : List (Nat × W64)) (d : Dev) : List (Nat × List W8) :=
  l.map fun y => (spotOf r .write (memBytes w) y.2 d, (storedElem w ((elems (regBits w) (b.vReg (dOf w))).getD y.1 0)).1)

/-- The flags after a vector store: SAT where an element was clamped. -/
def storedFlags (b : Brew) (w : W32) (l : List (Nat × W64)) : W32 :=
  if l.any (fun y => (storedElem w ((elems (regBits w) (b.vReg (dOf w))).getD y.1 0)).2) then b.fl ||| flSAT else b.fl

theorem storeElems_ok (h : firstFault (.slot i' b) .write (memBytes w) l d = none) : storeElems i' b pre w l k d =
    .done k ((Runner.slot i' { b with fl := storedFlags b w l }).next pre (storeRanges (joinRanges (storedRanges (.slot i' b) b w l d)) d)) := by
  have hflags : (if l.any (fun y => (storedElem w ((elems (regBits w) (b.vReg (dOf w))).getD y.1 0)).2) then b.raiseFl flSAT else b)
      = { b with fl := storedFlags b w l } := by
    unfold storedFlags
    split
    · rfl
    · rfl
  simp only [storeElems, h, List.any_map, List.map_map]
  rw [← hflags]
  rfl

end

/-! The four instructions. -/

section
variable {i : SlotId} {i' : Nat} {b : Brew} {s : State} {pre : Option W32} {w : W32} {e : Dev} {c : Instr} {op : Op} {l : List (Nat × W64)}

/-- An instruction whose format is wrong is illegal. -/
theorem vectorMemory_illegal (hc : (c = .vld i ∧ op = .vld ∧ bOf w ≠ 0) ∨ (c = .vst i ∧ op = .vst ∧ bOf w ≠ 0)
      ∨ (c = .vgather i ∧ op = .vgather ∧ fld w 0 4 ≠ 0) ∨ (c = .vscatter i ∧ op = .vscatter ∧ fld w 0 4 ≠ 0)
      ∨ (fld w 6 2 = 3 ∧ (c, op) ∈ [(Instr.vld i, Op.vld), (.vst i, .vst), (.vgather i, .vgather), (.vscatter i, .vscatter)]))
    (h : Issues op (.slot i) (.slot i' b) pre w s e) : exec c s = nextDev s (takeFault (.slot i' b) 0x01 0 0xFF s.clk e) := by
  simp only [List.mem_cons, Prod.mk.injEq, List.not_mem_nil, or_false] at hc
  rcases hc with ⟨rfl, rfl, hw⟩ | ⟨rfl, rfl, hw⟩ | ⟨rfl, rfl, hw⟩ | ⟨rfl, rfl, hw⟩ | ⟨hw, ⟨rfl, rfl⟩ | ⟨rfl, rfl⟩ | ⟨rfl, rfl⟩ | ⟨rfl, rfl⟩⟩
  all_goals exact runClass_fault h (if_neg fun hok => by simp_all)

/-- A load of well-formed fields is `loadElems` of its elements. -/
theorem exec_vectorLoad (hsz : fld w 6 2 ≠ 3)
    (hc : (c = .vld i ∧ op = .vld ∧ l = lineElems b pre w ∧ bOf w = 0) ∨ (c = .vgather i ∧ op = .vgather ∧ l = indexElems b w ∧ fld w 0 4 = 0)) :
    ∃ f, exec c s = runClass op (.slot i) f s ∧ f (.slot i' b) pre w s.clk e = loadElems i' b pre w l s.clk e := by
  rcases hc with ⟨rfl, rfl, rfl, hw⟩ | ⟨rfl, rfl, rfl, hw⟩
  · exact ⟨_, rfl, if_pos ⟨hw, hsz⟩⟩
  · exact ⟨_, rfl, if_pos ⟨hw, hsz⟩⟩

/-- A store of well-formed fields is `storeElems` of its elements. -/
theorem exec_vectorStore (hsz : fld w 6 2 ≠ 3)
    (hc : (c = .vst i ∧ op = .vst ∧ l = lineElems b pre w ∧ bOf w = 0) ∨ (c = .vscatter i ∧ op = .vscatter ∧ l = indexElems b w ∧ fld w 0 4 = 0)) :
    ∃ f, exec c s = runClass op (.slot i) f s ∧ f (.slot i' b) pre w s.clk e = storeElems i' b pre w l s.clk e := by
  rcases hc with ⟨rfl, rfl, rfl, hw⟩ | ⟨rfl, rfl, rfl, hw⟩
  · exact ⟨_, rfl, if_pos ⟨hw, hsz⟩⟩
  · exact ⟨_, rfl, if_pos ⟨hw, hsz⟩⟩

/-- The elements of either kind of access stand in rising order. -/
theorem elemList_of_line_or_index {P Q P' Q' R R' : Prop}
    (h : (P ∧ P' ∧ l = lineElems b pre w ∧ R) ∨ (Q ∧ Q' ∧ l = indexElems b w ∧ R')) : ElemList w l := by
  rcases h with ⟨-, -, rfl, -⟩ | ⟨-, -, rfl, -⟩
  · exact elemList_lineElems ..
  · exact elemList_indexElems ..

end

/-- Settles O19: what the lowest failing element decides (`firstFault_eq_some`), then loads by `loadElems` and stores by `storeElems`. -/
theorem vectorMemory : Obligations.VectorMemory := by
  unfold Obligations.VectorMemory
  intro i i' b s pre w e c op l r n elem
  refine ⟨mem_lineElems b pre w, fun j a => mem_activeIdx_map .., fun kind a p hp hz => spotOf_eq hp trivial hz,
    vectorMemory_illegal, fun hsz h => ⟨fun hc => ?_, fun hc => ?_⟩⟩
  · have hl := elemList_of_line_or_index hc
    obtain ⟨f, hexec, hf⟩ := exec_vectorLoad (s := s) (e := e) hsz hc
    refine ⟨fun code y hy hr hlow => ?_, fun hall y hy hbad hlow => ?_, fun hall hok => ?_⟩
    · rw [hexec]
      exact runClass_fault h (hf.trans (loadElems_refused (firstFault_eq_some hl hy hr hlow)))
    · rw [hexec]
      exact runClass_fault h (hf.trans (loadElems_ecc hl (firstFault_eq_none hall) hy hbad hlow))
    · have hdone := runClass_done h (hf.trans (loadElems_ok (firstFault_eq_none hall) hok))
      refine ⟨_, _, hexec.trans hdone, rfl, ?_, rfl, fun j hj => ⟨fun a ha => ?_, loaded_ne hj⟩⟩
      · exact sameMemory_of_mem ((Runner.next_mem ..).trans ((errorsOnly_readSpans ..).mem.trans h.mem))
      · rw [loaded_mem hl ha, getBytes_congr h.mem]
  · have hl := elemList_of_line_or_index hc
    obtain ⟨f, hexec, hf⟩ := exec_vectorStore (s := s) (e := e) hsz hc
    refine ⟨fun code y hy hr hlow => ?_, fun hall => ?_⟩
    · rw [hexec]
      exact runClass_fault h (hf.trans (storeElems_refused (firstFault_eq_some hl hy hr hlow)))
    · have hdone := runClass_done h (hf.trans (storeElems_ok (firstFault_eq_none hall)))
      refine ⟨_, hexec.trans hdone, rfl, rfl, fun x hx => ?_, fun j a l₁ l₂ hsplit hafter => ?_⟩
      · refine (getByte_congr (Runner.next_mem ..) x).trans ((getByte_storeRanges_outside ?_ e).trans (getByte_congr h.mem x))
        intro q hq
        obtain ⟨y, hy, rfl⟩ := List.mem_map.mp hq
        exact (storedElem_length w _).symm ▸ hx y hy
      · have hlen := storedElem_length w ((elems (regBits w) (b.vReg (dOf w))).getD j 0)
        rw [getBytes_congr (Runner.next_mem ..), storedRanges, hsplit, List.map_append, List.map_cons]
        refine (congrArg (getBytes _ _) hlen.symm).trans (getBytes_storeRanges_last (fun q hq => ?_) e)
        obtain ⟨y, hy, rfl⟩ := List.mem_map.mp hq
        rw [hlen, storedElem_length]
        exact hafter y hy

end Sys2Proof.Machine

/-!
Control cores (O20).
-/

namespace Sys2Proof.Machine

@[simp] theorem Core.setG_pc (x : Core) (n : Nat) (v : W64) : (x.setG n v).pc = x.pc := by
  unfold Core.setG
  split
  · rfl
  · rfl

theorem Core.trap_eq (x : Core) (kind code : Nat) (saved : W64) (addr : Option W64) : x.trap kind code saved addr = { x with
    savedSt := x.st, savedPc := saved, cause := w64 (kind * 256 + code), faultAddr := addr.elim x.faultAddr id, st := 2
    pc := x.trapBase + w64 (256 * kind), dozing := false } := by
  cases addr with
  | none => rfl
  | some a => rfl

/-! The mode check of the PRIV operations (R84). -/

theorem privileged_task {x : Core} {legal : Bool} {d : Dev} {r : Res} (hl : legal = true) (hx : x.privileged = false) :
    privileged x legal d r = .fault 0x07 0 0xFF d := by
  simp [privileged, hl, hx]

theorem privileged_mode {x : Core} {legal : Bool} {d : Dev} {r : Res} (hl : legal = true) (hx : x.privileged = true) :
    privileged x legal d r = r := by
  simp [privileged, hl, hx]

theorem privFields_iff (w : W32) : privFields w = true ↔ fld w 8 4 = 0 := beq_iff_eq

/-! The lowest line that is pending and enabled (R85). -/

theorem irqLine_none {d : Dev} {x : Core} (h : irqPend d &&& x.irqEn = 0) : irqLine d x = none := by
  simp [irqLine, h, bit]

theorem irqLine_some {d : Dev} {x : Core} {n : Nat} (hn : n < 64) (h : bit (irqPend d &&& x.irqEn) n = true)
    (hlow : ∀ m < n, bit (irqPend d &&& x.irqEn) m = false) : irqLine d x = some n := by
  rw [irqLine, List.find?_range_eq_some]
  exact ⟨h, List.mem_range.mpr hn, fun m hm => by simp [hlow m hm]⟩

section
variable {c : Nat} {d : Dev} {n : Nat}

theorem coreInterrupt_taken (hline : irqLine d (coreAt d c) = some n) (hrun : (coreAt d c).running = true) (hien : (coreAt d c).ien = true) :
    coreInterrupt c d = setCore c ((coreAt d c).trap 2 n (coreAt d c).pc none) d := by
  simp [coreInterrupt, hline, hrun, hien]

/-- A pending line ends a doze; what the core then does depends on IEN. -/
theorem dozeWake_dozing (hline : irqLine d (coreAt d c) = some n) (hrun : (coreAt d c).running = true) (hdoze : (coreAt d c).dozing = true) :
    dozeWake c d = setCore c (if (coreAt d c).ien then (coreAt d c).trap 2 n (coreAt d c).pc none else { coreAt d c with dozing := false }) d := by
  simp [dozeWake, hline, hrun, hdoze]

end

/-! The operations. -/

section
variable {c : Fin 4} {x : Core} {s : State} {w : W32} {e : Dev} {v : W64}

theorem exec_getc (h : Issues .getc (.core c) (.core c x) none w s e) (hp : x.privileged = true) (hw : fld w 8 4 = 0)
    (hv : coreRead (fld w 0 8) c x s.clk e = some v) : exec (.getc c) s = nextDev s (setCore c { x.setG (dOf w) v with pc := x.pc + 4 } e) := by
  refine runClass_done h ?_
  simp only [onCore, hv, privileged_mode ((privFields_iff w).mpr hw) hp, goOn, Runner.after, Runner.pc, Core.setG_pc]
  rfl

theorem exec_setc {y : Core} (h : Issues .setc (.core c) (.core c x) none w s e) (hp : x.privileged = true) (hw : fld w 8 4 = 0)
    (hy : coreWrite (fld w 0 8) (x.gReg (aOf w)) x = some y) : exec (.setc c) s = nextDev s (setCore c { y with pc := y.pc + 4 } e) := by
  refine runClass_done h ?_
  simp only [onCore, hy, privileged_mode ((privFields_iff w).mpr hw) hp]
  rfl

theorem exec_resume (h : Issues .resume (.core c) (.core c x) none w s e) (hp : x.privileged = true) (hw : privEmpty w = true) :
    exec (.resume c) s = nextDev s (setCore c { x with st := x.savedSt, pc := x.savedPc } e) :=
  runClass_done h (privileged_mode hw hp)

theorem exec_doze_sleeps (h : Issues .doze (.core c) (.core c x) none w s e) (hp : x.privileged = true) (hw : privEmpty w = true)
    (hline : irqLine e x = none) : exec (.doze c) s = nextDev s (setCore c { x with pc := x.pc + 4, dozing := true } e) := by
  refine runClass_done h ?_
  simp only [onCore, privileged_mode hw hp, hline]
  rfl

/-- A line that is pending and enabled already ends a doze at once. -/
theorem exec_doze_awake {n : Nat} (h : Issues .doze (.core c) (.core c x) none w s e) (hp : x.privileged = true) (hw : privEmpty w = true)
    (hline : irqLine e x = some n) :
    exec (.doze c) s = nextDev s (setCore c (if x.ien then x.trap 2 n (x.pc + 4) none else { x with pc := x.pc + 4 }) e) := by
  refine runClass_done h ?_
  simp only [onCore, privileged_mode hw hp, hline]
  split
  · rfl
  · rfl

theorem exec_callp (h : Issues .callp (.core c) (.core c x) none w s e) (hw : privEmpty w = true) :
    exec (.callp c) s = nextDev s (setCore c (x.trap 1 8 (x.pc + 4) none) e) :=
  runClass_done h (if_pos hw)

/-- In TASK mode a well-formed PRIV operation takes PRIV_VIOL. -/
theorem exec_priv_task {op : Op} {cmd : Instr}
    (hc : (cmd = .getc c ∧ op = .getc ∧ coreRead (fld w 0 8) c x s.clk e = some v ∧ fld w 8 4 = 0)
      ∨ (cmd = .setc c ∧ op = .setc ∧ (coreWrite (fld w 0 8) v x).isSome ∧ v = x.gReg (aOf w) ∧ fld w 8 4 = 0)
      ∨ (cmd = .resume c ∧ op = .resume ∧ privEmpty w = true) ∨ (cmd = .doze c ∧ op = .doze ∧ privEmpty w = true))
    (h : Issues op (.core c) (.core c x) none w s e) (hp : x.privileged = false) :
    exec cmd s = nextDev s (setCore c (x.trap 0 7 x.pc (some 0)) e) := by
  rcases hc with ⟨rfl, rfl, hv, hw⟩ | ⟨rfl, rfl, hy, rfl, hw⟩ | ⟨rfl, rfl, hw⟩ | ⟨rfl, rfl, hw⟩
  · refine runClass_fault (lane := 0xFF) h ?_
    simp only [onCore, hv]
    exact privileged_task ((privFields_iff w).mpr hw) hp
  · obtain ⟨y, hy⟩ := Option.isSome_iff_exists.mp hy
    refine runClass_fault (lane := 0xFF) h ?_
    simp only [onCore, hy]
    exact privileged_task ((privFields_iff w).mpr hw) hp
  · exact runClass_fault h (privileged_task hw hp)
  · exact runClass_fault h (privileged_task hw hp)

end

/-! SWARM_ICACHE_CMD (R81). -/

/-- The swarm of a word of an instruction cache. -/
theorem icacheKey_swarm {a : Nat} (i : Nat) (ha : a < 2 ^ 48) : icacheKey i a / 2 ^ 48 / 17 = slotSwarm i := by
  have hfirefly : icacheKey i a / 2 ^ 48 = i / 8 := by unfold icacheKey; omega
  rw [hfirefly, slotSwarm, Nat.div_div_eq_div_mul]

theorem icacheInv_get {a : Nat} (sw i : Nat) (d : Dev) (ha : a < 2 ^ 48) :
    Tab.get none (icacheInv sw d).arr.icache (icacheKey i a) = if slotSwarm i = sw then none else Tab.get none d.arr.icache (icacheKey i a) := by
  refine (Tab.get_filter_keep none (fun n => n / 2 ^ 48 / 17 != sw) d.arr.icache _).trans ?_
  rw [icacheKey_swarm i ha]
  by_cases h : slotSwarm i = sw
  · simp [h]
  · simp [h]

/-- Settles O20: each PRIV operation by its mode, the lines by `irqLine_some`, and the cache by the swarm of its keys. -/
theorem controlCores : Obligations.ControlCores := by
  refine ⟨Core.trap_eq, fun c x s w e => ?_, fun c s n hn h hlow hrun => ?_, fun req sw s h => ?_⟩
  · refine ⟨fun op cmd v => exec_priv_task, fun v => exec_getc, fun y => exec_setc, exec_resume, fun h hp hw => ⟨fun hpend => ?_, ?_⟩, exec_callp⟩
    · exact exec_doze_sleeps h hp hw (irqLine_none hpend)
    · intro n hn hline hlow
      have hdoze := exec_doze_awake h hp hw (irqLine_some hn hline hlow)
      exact ⟨fun hien => by rw [hdoze, if_pos hien], fun hien => by rw [hdoze, if_neg (Bool.eq_false_iff.mp hien)]⟩
  · have hline := irqLine_some hn h hlow
    refine ⟨fun hien => congrArg (nextDev s) (coreInterrupt_taken hline hrun hien), fun hdoze hien => ?_, fun hdoze hien => ?_⟩
    · exact congrArg (nextDev s) ((dozeWake_dozing hline hrun hdoze).trans (by rw [if_pos hien]))
    · exact congrArg (nextDev s) ((dozeWake_dozing hline hrun hdoze).trans (by rw [if_neg (Bool.eq_false_iff.mp hien)]))
  · exact ⟨_, congrArg (nextDev s) (access_open _ h), rfl, rfl, fun i a ha => icacheInv_get sw i s.dev ha⟩

end Sys2Proof.Machine

/-!
Meters and counters: what `settle` and the performance monitors leave.
-/

namespace Sys2Proof.Machine

/-! Registers below the Kettle's block. -/

/-- From d to e the registers below the Kettle's block are left. -/
structure LowKept (d e : Dev) : Prop where
  regs : ∀ a < 0x80000, rd e a = rd d a

theorem LowKept.refl (d : Dev) : LowKept d d := ⟨fun _ _ => rfl⟩

theorem LowKept.of_regs {d e : Dev} (h : e.regs = d.regs) : LowKept d e := ⟨fun a _ => rd_congr h a⟩

theorem LowKept.trans {d e f : Dev} (h : LowKept d e) (g : LowKept e f) : LowKept d f :=
  ⟨fun a ha => (g.regs a ha).trans (h.regs a ha)⟩

theorem LowKept.when {f : Dev → Dev} {d : Dev} (c : Bool) (h : LowKept d (f d)) : LowKept d (when c f d) := by
  unfold Machine.when
  split
  · exact h
  · exact .refl d

theorem LowKept.ite {c : Prop} [Decidable c] {d e f : Dev} (h : LowKept d e) (g : LowKept d f) : LowKept d (if c then e else f) := by
  split
  · exact h
  · exact g

theorem LowKept.forEach {α : Type} {f : α → Dev → Dev} (h : ∀ x d, LowKept d (f x d)) (l : List α) (d : Dev) : LowKept d (forEach l f d) :=
  forEach_inv d (LowKept d) f (fun x _ hd => hd.trans (h x _)) l (.refl d)

theorem LowKept.wr {a : Nat} (v : W32) (d : Dev) (h : 0x80000 ≤ a) : LowKept d (wr a v d) :=
  ⟨fun _ hb => rd_wr_ne d v (hb.trans_le h).ne⟩

theorem LowKept.raiseAt {ev : Nat} (n : Nat) (mask : W32) (d : Dev) (h : 0x80000 ≤ ev) : LowKept d (raiseAt n ev mask d) :=
  ⟨fun _ hb => rd_raiseAt_ne d mask (hb.trans_le h).ne⟩

theorem lowKept_pmon (src n : Nat) (d : Dev) : LowKept d (pmon src n d) :=
  .when _ (.forEach (fun i d => .when _ ((LowKept.wr _ d (by simp only [Reg.PMON_CNT_LO]; omega)).trans
    (.wr _ _ (by simp only [Reg.PMON_CNT_LO]; omega)))) _ d)

theorem lowKept_noteSingle (w : Nat) (d : Dev) : LowKept d (noteSingle w d) := by
  have hecc : LowKept d (setErr w .none d) := .of_regs rfl
  have hcount : LowKept _ (bumpSat Reg.KET_CE_COUNT 1 (setErr w .none d)) := .wr _ _ (by decide)
  exact .ite (((hecc.trans hcount).trans (lowKept_pmon ..)).trans (.raiseAt _ _ _ (by decide))) hecc

theorem lowKept_touchWrite (a n w : Nat) (d : Dev) : LowKept d (touchWrite a n w d) := by
  have hecc : LowKept d (setErr w .none d) := .of_regs rfl
  unfold touchWrite
  split
  · exact .refl d
  · exact .ite hecc (lowKept_noteSingle ..)
  · refine .ite hecc (.ite (LowKept.trans ?_ (.raiseAt _ _ _ (by decide))) (.refl d))
    refine .ite ?_ (.refl d)
    exact ((LowKept.when _ (.wr _ d (by decide))).trans (.wr _ _ (by decide))).trans (.raiseAt _ _ _ (by decide))

theorem lowKept_tear (rs : List (Nat × Nat)) (d : Dev) : LowKept d (tear rs d) := by
  refine .forEach (fun h d => ?_) _ d
  simp only [tearHead]
  split
  · exact .refl d
  · split
    · exact .refl d
    · split
      · exact .refl d
      · exact (((LowKept.when _ (.wr _ d (by simp only [Reg.RHEAD_TEAR_INFO]; omega))).trans
          (.wr _ _ (by simp only [Reg.RHEAD_TEAR_COUNT]; omega))).trans (lowKept_pmon ..)).trans
          (.raiseAt _ _ _ (by simp only [Reg.RHEAD_EVENT]; omega))

theorem lowKept_putBytes (a : Nat) (bs : List W8) (d : Dev) : LowKept d (putBytes a bs d) := .of_regs (putBytes_regs ..)

theorem lowKept_storeRange (a : Nat) (bs : List W8) (d : Dev) : LowKept d (storeRange a bs d) :=
  (LowKept.forEach (fun w d => lowKept_touchWrite a _ w d) _ d).trans (lowKept_putBytes a bs _)

theorem lowKept_store (a : Nat) (bs : List W8) (d : Dev) : LowKept d (store a bs d) := by
  unfold store storeRanges
  exact LowKept.trans (.forEach (f := fun (x : Nat × List W8) d => storeRange x.1 x.2 d) (fun x d => lowKept_storeRange x.1 x.2 d) _ d)
    (lowKept_tear ..)

/-! Meters (R97, R128, R138, R156, R386). -/

/-- The places of the counters that meters and performance monitors write. -/
def meterPlace (a : Nat) : Prop :=
  a = Reg.SCHED_POUR_STALL ∨ (∃ s < 8, a = Reg.SWARM_EMIT_STALL s ∨ a = Reg.SWARM_INF_STALL s ∨ a = Reg.SWARM_INF_BUSY_LO s ∨ a = Reg.SWARM_INF_BUSY_HI s)
    ∨ ∃ i < 32, a = Reg.PMON_CNT_LO i ∨ a = Reg.PMON_CNT_HI i

/-- From d to e nothing but counters and meters may differ. -/
def MetersOnly (d e : Dev) : Prop :=
  e = { d with regs := e.regs, arr := { d.arr with meters := e.arr.meters } } ∧ ∀ a, ¬ meterPlace a → rd e a = rd d a

theorem MetersOnly.refl (d : Dev) : MetersOnly d d := ⟨rfl, fun _ _ => rfl⟩

theorem MetersOnly.trans {d e f : Dev} (h : MetersOnly d e) (g : MetersOnly e f) : MetersOnly d f := by
  obtain ⟨he, hregs⟩ := h
  obtain ⟨hf, gregs⟩ := g
  refine ⟨?_, fun a ha => (gregs a ha).trans (hregs a ha)⟩
  rw [hf, he]

theorem MetersOnly.forEach {α : Type} {f : α → Dev → Dev} {l : List α} (h : ∀ x ∈ l, ∀ d, MetersOnly d (f x d)) (d : Dev) :
    MetersOnly d (forEach l f d) := by
  induction l generalizing d with
  | nil => exact .refl d
  | cons x l ih => exact (h x (List.mem_cons_self ..) d).trans (ih (fun y hy => h y (List.mem_cons_of_mem x hy)) _)

theorem MetersOnly.when {f : Dev → Dev} {d : Dev} (c : Bool) (h : MetersOnly d (f d)) : MetersOnly d (when c f d) := by
  unfold Machine.when
  split
  · exact h
  · exact .refl d

theorem MetersOnly.wr {a : Nat} (v : W32) (d : Dev) (h : meterPlace a) : MetersOnly d (wr a v d) :=
  ⟨rfl, fun _ hb => rd_wr_ne d v fun e => hb (e ▸ h)⟩

theorem metersOnly_pmon (src n : Nat) (d : Dev) : MetersOnly d (pmon src n d) := by
  refine .when _ (.forEach (fun i hi d => .when _ ?_) d)
  have hi : i < 32 := List.mem_range.mp hi
  exact (MetersOnly.wr _ d (.inr (.inr ⟨i, hi, .inl rfl⟩))).trans
    (.wr _ _ (.inr (.inr ⟨i, hi, .inr (by simp only [Reg.PMON_CNT_LO, Reg.PMON_CNT_HI]; omega)⟩)))

theorem metersOnly_pmonSwarm (s ev n : Nat) (d : Dev) : MetersOnly d (pmonSwarm s ev n d) := metersOnly_pmon ..

theorem metersOnly_meter {read : Bool} {key mhz : Nat} {active : Dev → Bool} {add : Nat → Dev → Dev} (h : ∀ n d, MetersOnly d (add n d))
    (k : Clk) (d : Dev) : MetersOnly d (meter read key mhz active add k d) := by
  have hset (v : Option W64) (d : Dev) : MetersOnly d (onArr (fun a => { a with meters := Tab.put none a.meters key v }) d) := ⟨rfl, fun _ _ => rfl⟩
  simp only [meter]
  split
  · split
    · exact hset ..
    · exact .refl d
  · split
    · exact .refl d
    · exact (hset ..).trans (h ..)

theorem metersOnly_settle (k : Clk) (d : Dev) : MetersOnly d (settle k d) := by
  have hslot (i : Nat) (n : Nat) (d : Dev) : MetersOnly d (pmonSwarm i 1 n d) := metersOnly_pmon ..
  refine ((MetersOnly.forEach (fun s hs d => ?_) d).trans (metersOnly_meter (fun n d => ?_) k _)).trans
    (.forEach (fun i _ d => metersOnly_meter (fun n d => metersOnly_pmon ..) k d) _)
  · have hs : s < 8 := List.mem_range.mp hs
    refine ((metersOnly_meter (fun n d => ?_) k d).trans (metersOnly_meter (fun n d => ?_) k _)).trans (metersOnly_meter (fun n d => ?_) k _)
    · exact (MetersOnly.wr _ d (.inr (.inl ⟨s, hs, .inl rfl⟩))).trans (metersOnly_pmon ..)
    · exact .wr _ d (.inr (.inl ⟨s, hs, .inr (.inl rfl)⟩))
    · exact ((MetersOnly.wr _ d (.inr (.inl ⟨s, hs, .inr (.inr (.inl rfl))⟩))).trans
        (.wr _ _ (.inr (.inl ⟨s, hs, .inr (.inr (.inr (by simp only [Reg.SWARM_INF_BUSY_LO, Reg.SWARM_INF_BUSY_HI]; omega)))⟩)))).trans (metersOnly_pmon ..)
  · exact (MetersOnly.wr _ d (.inl rfl)).trans (metersOnly_pmon ..)

section
variable {d e : Dev}

theorem MetersOnly.mem (h : MetersOnly d e) : e.mem = d.mem := by rw [h.1]
theorem MetersOnly.slots (h : MetersOnly d e) : e.arr.slots = d.arr.slots := by rw [h.1]
theorem MetersOnly.steep (h : MetersOnly d e) : e.arr.steep = d.arr.steep := by rw [h.1]
theorem MetersOnly.tombs (h : MetersOnly d e) : e.arr.tombs = d.arr.tombs := by rw [h.1]
theorem MetersOnly.arr (h : MetersOnly d e) : e.arr = { d.arr with meters := e.arr.meters } := by rw [h.1]

end

end Sys2Proof.Machine

/-!
Slots and steeping tables: what the scheduler's commands change (R95 to R99, R110, R111).
-/

namespace Sys2Proof.Machine

/-! Slots. -/

@[simp] theorem brewAt_setBrew_same (i : Nat) (b : Option Brew) (d : Dev) : brewAt (setBrew i b d) i = b := Tab.get_put_same ..

theorem brewAt_setBrew_ne {i j : Nat} (b : Option Brew) (d : Dev) (h : j ≠ i) : brewAt (setBrew i b d) j = brewAt d j := Tab.get_put_ne _ _ _ _ _ h

theorem slotSwarm_slotNum (x : SlotId) : slotSwarm (slotNum x) = x.s.val := by
  have hf := x.f.isLt
  have hj := x.j.isLt
  unfold slotSwarm slotNum
  omega

theorem slotFirefly_slotNum (x : SlotId) : slotFirefly (slotNum x) = x.f.val := by
  have hf := x.f.isLt
  have hj := x.j.isLt
  unfold slotFirefly slotNum
  omega

theorem slotIndex_slotNum (x : SlotId) : slotIndex (slotNum x) = x.j.val := by
  have hj := x.j.isLt
  unfold slotIndex slotNum
  omega

/-! Tables. -/

@[simp] theorem steepOf_setSteep_same (s : Nat) (x : Steep) (d : Dev) : steepOf (setSteep s x d) s = x := Tab.get_put_same ..

theorem steepOf_setSteep_ne {s j : Nat} (x : Steep) (d : Dev) (h : j ≠ s) : steepOf (setSteep s x d) j = steepOf d j := Tab.get_put_ne _ _ _ _ _ h

theorem steepOf_congr {d e : Dev} (h : e.arr.steep = d.arr.steep) (s : Nat) : steepOf e s = steepOf d s := by rw [steepOf, h]; rfl

theorem brewAt_congr {d e : Dev} (h : e.arr.slots = d.arr.slots) (i : Nat) : brewAt e i = brewAt d i := by rw [brewAt, h]; rfl

@[simp] theorem postTomb_regs (f : Option Nat) (key : W64) (d : Dev) : (postTomb f key d).regs = d.regs := by cases f <;> rfl
@[simp] theorem postTomb_slots (f : Option Nat) (key : W64) (d : Dev) : (postTomb f key d).arr.slots = d.arr.slots := by cases f <;> rfl
@[simp] theorem postTomb_steep (f : Option Nat) (key : W64) (d : Dev) : (postTomb f key d).arr.steep = d.arr.steep := by cases f <;> rfl

@[simp] theorem postTomb_tombs (f : Option Nat) (key : W64) (d : Dev) :
    (postTomb f key d).arr.tombs = d.arr.tombs ++ (f.map fun f => (f, key)).toList := by
  cases f with
  | none => exact (List.append_nil _).symm
  | some f => rfl

@[simp] theorem bumpFld_arr (a lo len n : Nat) (d : Dev) : (bumpFld a lo len n d).arr = d.arr := rfl
@[simp] theorem bumpSat_arr (a n : Nat) (d : Dev) : (bumpSat a n d).arr = d.arr := rfl
@[simp] theorem bumpSat64_arr (a n : Nat) (d : Dev) : (bumpSat64 a n d).arr = d.arr := rfl
@[simp] theorem raiseSched_arr (i : Nat) (d : Dev) : (raiseSched i d).arr = d.arr := raiseAt_arr ..

theorem rd_raiseSched_ne {a : Nat} (i : Nat) (d : Dev) (h : a ≠ Reg.SCHED_EVENT) : rd (raiseSched i d) a = rd d a := rd_raiseAt_ne d _ h

theorem rb_raiseSched {i : Nat} (h : i < 32) (d : Dev) : rb (raiseSched i d) Reg.SCHED_EVENT i = true := by
  rw [rb, raiseSched, rd_raiseAt_same, bit_or, bit_bitIf]
  simp [h]

/-! Saturating counters. -/

theorem rd_bumpSat (a n : Nat) (d : Dev) : (rd (bumpSat a n d) a).toNat = min (2 ^ 32 - 1) ((rd d a).toNat + n) := by
  rw [bumpSat, rd_wr_same]
  exact Nat.mod_eq_of_lt (Nat.lt_of_le_of_lt (min_le_left ..) (by decide))

theorem rd64_bumpSat64 (a n : Nat) (d : Dev) : (rd64 (bumpSat64 a n d) a).toNat = min (2 ^ 64 - 1) ((rd64 d a).toNat + n) := by
  rw [bumpSat64, rd64_wr64_same]
  exact Nat.mod_eq_of_lt (Nat.lt_of_le_of_lt (min_le_left ..) (by decide))

theorem fld_setFld_low (v : W32) (x : Nat) : fld (setFld v 0 16 x) 0 16 = x % 2 ^ 16 := by
  have hv := v.isLt
  simp only [fld, setFld, BitVec.toNat_ofNat]
  omega

/-- Field [15:0] does not see a write of field [31:16]. -/
theorem fld_low_setFld_high (v : W32) (x : Nat) : fld (setFld v 16 16 x) 0 16 = fld v 0 16 := by
  have hv := v.isLt
  simp only [fld, setFld, BitVec.toNat_ofNat]
  omega

theorem rf_bumpFld_low (a n : Nat) (d : Dev) : rf (bumpFld a 0 16 n d) a 0 16 = min 0xFFFF (rf d a 0 16 + n) := by
  simp only [rf, bumpFld, wrFld, rd_wr_same, fld_setFld_low]
  omega

theorem rf_low_bumpFld_high (a n : Nat) (d : Dev) : rf (bumpFld a 16 16 n d) a 0 16 = rf d a 0 16 := by
  simp only [rf, bumpFld, wrFld, rd_wr_same, fld_low_setFld_high]

/-! DISPATCH (R46, R99). -/

/-- Of priorities tried from 3 down, the highest with a value decides. -/
theorem findSome_priority {α : Type} {f : Nat → Option α} {n : Nat} {x : α} (hn : n < 4) (hx : f n = some x) (hnone : ∀ p, n < p → f p = none) :
    [3, 2, 1, 0].findSome? f = some x := by
  obtain rfl | rfl | rfl | rfl : n = 3 ∨ n = 2 ∨ n = 1 ∨ n = 0 := by omega
  · simp [hx]
  · simp [hx, hnone 3]
  · simp [hx, hnone 3, hnone 2]
  · simp [hx, hnone 3, hnone 2, hnone 1]

/-- The first of the highest priority among the ready entries. -/
theorem highest_eq {l₁ l₂ : List Entry} {e : Entry} (hp : e.prio < 4) (h₁ : ∀ y ∈ l₁, y.prio < e.prio) (h₂ : ∀ y ∈ l₂, y.prio ≤ e.prio) :
    [3, 2, 1, 0].findSome? (fun p => (l₁ ++ e :: l₂).find? fun y => y.prio == p) = some e := by
  refine findSome_priority hp ?_ fun p hlt => ?_
  · rw [List.find?_append, List.find?_eq_none.mpr fun y hy => by simpa using (h₁ y hy).ne]
    exact List.find?_cons_of_pos (p := fun y : Entry => y.prio == e.prio) (beq_self_eq_true e.prio)
  · rw [List.find?_eq_none]
    intro y hy
    rcases List.mem_append.mp hy with hy | hy
    · simpa using ((h₁ y hy).trans hlt).ne
    · rcases List.mem_cons.mp hy with rfl | hy
      · simpa using hlt.ne
      · simpa using ((h₂ y hy).trans_lt hlt).ne

/-- The leaf registers of a fresh brew hold the leaves of its entry. -/
theorem leaves_get (l : List (Option W64)) (k : Nat) (t : Tab W64) (j : Nat) :
    Tab.get 0 ((l.zipIdx k).foldl (fun t x => Tab.put 0 t x.2 (x.1.getD 0)) t) j
      = if k ≤ j ∧ j < k + l.length then (l.getD (j - k) none).getD 0 else Tab.get 0 t j := by
  induction l generalizing k t with
  | nil => simp
  | cons v l ih =>
    rw [List.zipIdx_cons, List.foldl_cons, ih, List.length_cons]
    rcases lt_trichotomy j k with h | rfl | h
    · rw [if_neg (by omega), if_neg (by omega), Tab.get_put_ne _ _ _ _ _ h.ne]
    · rw [if_neg (by omega), if_pos (by omega), Tab.get_put_same, Nat.sub_self, List.getD_cons_zero]
    · by_cases hlt : j < k + (l.length + 1)
      · rw [if_pos (by omega), if_pos (by omega), show j - k = j - (k + 1) + 1 by omega, List.getD_cons_succ]
      · rw [if_neg (by omega), if_neg (by omega), Tab.get_put_ne _ _ _ _ _ h.ne']

theorem freshBrew_lReg (k : Clk) (d : Dev) (e : Entry) (j : Nat) :
    (freshBrew k d e).lReg j = if j < e.leaves.length then (e.leaves.getD j none).getD 0 else 0 := by
  refine (leaves_get e.leaves 0 [] j).trans ?_
  simp [Tab.get]

/-- The places of SWARM_DISPATCHED are no meter's. -/
theorem not_meterPlace_dispatched {s a : Nat} (ha : a = Reg.SWARM_DISPATCHED_LO s ∨ a = Reg.SWARM_DISPATCHED_LO s + 4) :
    ¬ meterPlace a := by
  simp only [Reg.SWARM_DISPATCHED_LO] at ha
  rintro (h | ⟨s', hs', h⟩ | ⟨i, hi, h⟩)
  · simp only [Reg.SCHED_POUR_STALL] at h
    omega
  · simp only [Reg.SWARM_EMIT_STALL, Reg.SWARM_INF_STALL, Reg.SWARM_INF_BUSY_LO, Reg.SWARM_INF_BUSY_HI] at h
    omega
  · simp only [Reg.PMON_CNT_LO, Reg.PMON_CNT_HI] at h
    omega

theorem MetersOnly.rd64_dispatched {d e : Dev} {s : Nat} (h : MetersOnly d e) :
    rd64 e (Reg.SWARM_DISPATCHED_LO s) = rd64 d (Reg.SWARM_DISPATCHED_LO s) := by
  rw [rd64, rd64, h.2 _ (not_meterPlace_dispatched (.inl rfl)), h.2 _ (not_meterPlace_dispatched (.inr rfl))]

section
variable {s : Nat} {e : Entry} {i : Nat} {k : Clk} {d : Dev} {l₁ l₂ : List W64}

/-- The device in which e has left its table for slot i. -/
def dispatched (s i : Nat) (e : Entry) (k : Clk) (d : Dev) : Dev :=
  setBrew i (some (freshBrew k d e)) (setSteep s ((steepOf d s).dropEntry e.key) d)

theorem dispatch_eq (hon : rb d Reg.SCHED_CTL 0 = true) (hrun : swarmRuns d s = true) (hready : (steepOf d s).ready = l₁ ++ e.key :: l₂)
    (he : (steepOf d s).entry? e.key = some e) (hp : e.prio < 4)
    (h₁ : ∀ k ∈ l₁, ∀ y, (steepOf d s).entry? k = some y → y.prio < e.prio)
    (h₂ : ∀ k ∈ l₂, ∀ y, (steepOf d s).entry? k = some y → y.prio ≤ e.prio) (hi : idleSlot d s = some i) :
    dispatch s k d = pmonSwarm s 0 1 (bumpSat64 (Reg.SWARM_DISPATCHED_LO s) 1 (dispatched s i e k d)) := by
  have hbest := highest_eq (l₁ := l₁.filterMap (steepOf d s).entry?) (l₂ := l₂.filterMap (steepOf d s).entry?) hp
    (fun y hy => by obtain ⟨k, hk, hy⟩ := List.mem_filterMap.mp hy; exact h₁ k hk y hy)
    (fun y hy => by obtain ⟨k, hk, hy⟩ := List.mem_filterMap.mp hy; exact h₂ k hk y hy)
  rw [← List.filterMap_cons_some he, ← List.filterMap_append, ← hready] at hbest
  simp only [dispatch, hon, hrun, hbest, hi, Bool.and_self]
  rfl

theorem dispatched_steep : steepOf (dispatched s i e k d) s = (steepOf d s).dropEntry e.key :=
  (steepOf_congr (d := setSteep s _ d) rfl s).trans (steepOf_setSteep_same ..)

theorem dispatched_brewAt : brewAt (dispatched s i e k d) i = some (freshBrew k d e) := brewAt_setBrew_same ..

theorem dispatched_brewAt_ne {j : Nat} (h : j ≠ i) : brewAt (dispatched s i e k d) j = brewAt d j :=
  (brewAt_setBrew_ne _ _ h).trans (brewAt_congr rfl j)

end

/-! The end of a brew by a fault (R79 to R81, R110). -/

@[simp] theorem pmon_arr (src n : Nat) (d : Dev) : (pmon src n d).arr = d.arr := (errorsOnly_pmon src n d).arr

/-- A write of bytes keeps what neither memory nor its errors show. -/
theorem store_keeps {β : Type} (f : Dev → β) (herr : ∀ d e, ErrorsOnly d e → f e = f d) (hmem : ∀ m d, f { d with mem := m } = f d)
    (a : Nat) (bs : List W8) (d : Dev) : f (store a bs d) = f d := by
  have hput (a : Nat) (bs : List W8) (d : Dev) : f (putBytes a bs d) = f d := by
    induction bs generalizing a d with
    | nil => rfl
    | cons b bs ih => exact (ih ..).trans (hmem ..)
  have htouch (a n : Nat) (l : List Nat) (d : Dev) : f (forEach l (touchWrite a n) d) = f d :=
    forEach_keeps d f _ (fun w d => herr _ _ (errorsOnly_touchWrite a n w d)) l
  unfold store storeRanges
  refine (herr _ _ (errorsOnly_tear _ _)).trans (forEach_keeps d f _ (fun x d => ?_) _)
  exact (hput ..).trans (htouch ..)

@[simp] theorem store_arr (a : Nat) (bs : List W8) (d : Dev) : (store a bs d).arr = d.arr :=
  store_keeps (·.arr) (fun _ _ h => h.arr) (fun _ _ => rfl) a bs d

@[simp] theorem store_sys (a : Nat) (bs : List W8) (d : Dev) : (store a bs d).sys = d.sys :=
  store_keeps (·.sys) (fun _ _ h => by rw [h]) (fun _ _ => rfl) a bs d

theorem queSpill_arr (q : Nat) (d : Dev) : (queSpill q d).arr = d.arr := by
  simp only [queSpill]
  split
  · exact store_arr ..
  · rfl

theorem quePush_arr (q : Nat) (entry : List W8) (d : Dev) : (quePush q entry d).2.arr = d.arr := by
  simp only [quePush]
  split
  · rfl
  · split
    · exact queSpill_arr q d
    · rfl

theorem lowKept_queSpill (q : Nat) (d : Dev) : LowKept d (queSpill q d) := by
  have hset (x : Queue) : LowKept d (setQueue q x d) := .of_regs rfl
  exact .ite ((hset _).trans (lowKept_store ..)) (.refl d)

theorem lowKept_quePush (q : Nat) (entry : List W8) (d : Dev) : LowKept d (quePush q entry d).2 := by
  have hset (x : Queue) (d : Dev) : LowKept d (setQueue q x d) := .of_regs rfl
  simp only [quePush]
  split
  · exact .wr _ d (by simp only [Reg.QUE_REFUSED]; omega)
  · exact (LowKept.ite (lowKept_queSpill q d) (.refl d)).trans (hset ..)

/-- A fault record is offered to the queue only where the swarm's fault control enables one. -/
theorem lowKept_offer (c : Bool) (q : Nat) (record : List W8) (d : Dev) : LowKept d (if c then quePush q record d else (false, d)).2 := by
  split
  · exact lowKept_quePush ..
  · exact .refl d

theorem offer_arr (c : Bool) (q : Nat) (record : List W8) (d : Dev) : (if c then quePush q record d else (false, d)).2.arr = d.arr := by
  split
  · exact quePush_arr ..
  · rfl

/-- A record that is lost is counted in the high field of its register. -/
theorem lost_arr (a : Nat) (r : Bool × Dev) : (if r.1 then r.2 else bumpFld a 16 16 1 r.2).arr = r.2.arr := by
  split
  · rfl
  · exact bumpFld_arr ..

theorem rf_low_lost (a : Nat) (r : Bool × Dev) : rf (if r.1 then r.2 else bumpFld a 16 16 1 r.2) a 0 16 = rf r.2 a 0 16 := by
  split
  · rfl
  · exact rf_low_bumpFld_high ..

theorem reportFault_arr (s : Nat) (record : List W8) (d : Dev) : (reportFault s record d).arr = d.arr := by
  simp only [reportFault]
  rw [lost_arr, offer_arr, pmonSwarm, pmon_arr, bumpFld_arr]

/-- A fault is counted in the low field of SWARM_FAULT_COUNT. -/
theorem rf_reportFault {s : Nat} (hs : s < 8) (record : List W8) (d : Dev) :
    rf (reportFault s record d) (Reg.SWARM_FAULT_COUNT s) 0 16 = min 0xFFFF (rf d (Reg.SWARM_FAULT_COUNT s) 0 16 + 1) := by
  have hplace : Reg.SWARM_FAULT_COUNT s < 0x80000 := by
    simp only [Reg.SWARM_FAULT_COUNT]
    omega
  have hcounted := rf_bumpFld_low (Reg.SWARM_FAULT_COUNT s) 1 d
  have hkept := (lowKept_pmon (0x40 + s * 0x20 + 5) 1 (bumpFld (Reg.SWARM_FAULT_COUNT s) 0 16 1 d)).trans
    (lowKept_offer (bit (rd d (Reg.SWARM_FAULT_CTL s)) 10) (fld (rd d (Reg.SWARM_FAULT_CTL s)) 0 10) record _)
  simp only [reportFault, rf_low_lost]
  rw [← hcounted]
  exact congrArg (fld · 0 16) (hkept.regs _ hplace)

section
variable {i code lane : Nat} {addr : W64} {b : Brew} {d : Dev}

theorem freeSlot_tombs (i : Nat) (d : Dev) : (freeSlot i d).arr.tombs = d.arr.tombs := rfl

theorem freeSlot_slots (i : Nat) (d : Dev) : (freeSlot i d).arr.slots = Tab.put none d.arr.slots i none := rfl

/-- What is left when the brew of slot i ends by a fault. -/
theorem killBrew_eq (hb : brewAt d i = some b) : killBrew i code addr lane d =
    postTomb b.flow b.key (freeSlot i (reportFault (slotSwarm i) (faultRecord b i code lane addr) d)) := by
  simp only [killBrew, hb]

theorem killBrew_slots (hb : brewAt d i = some b) : (killBrew i code addr lane d).arr.slots = Tab.put none d.arr.slots i none := by
  rw [killBrew_eq hb, postTomb_slots, freeSlot_slots, reportFault_arr]

theorem killBrew_tombs (hb : brewAt d i = some b) :
    (killBrew i code addr lane d).arr.tombs = d.arr.tombs ++ (b.flow.map fun f => (f, b.key)).toList := by
  rw [killBrew_eq hb, postTomb_tombs, freeSlot_tombs, reportFault_arr]

theorem killBrew_counts (hb : brewAt d i = some b) (hs : slotSwarm i < 8) : rf (killBrew i code addr lane d) (Reg.SWARM_FAULT_COUNT (slotSwarm i)) 0 16
    = min 0xFFFF (rf d (Reg.SWARM_FAULT_COUNT (slotSwarm i)) 0 16 + 1) := by
  rw [← rf_reportFault hs (faultRecord b i code lane addr), rf, killBrew_eq hb, rd_congr (postTomb_regs ..)]
  rfl

end

/-! The fault record (R80). -/

/-- A list of bytes spells the number that it was made of, as far as they go. -/
theorem ofLe_leBytes (n x : Nat) : ofLe (leBytes n x) = x % 256 ^ n := by
  induction n generalizing x with
  | zero => exact (Nat.mod_one x).symm
  | succ n ih =>
    rw [leBytes, ofLe, ih, BitVec.toNat_ofNat, pow_succ' 256 n]
    exact Nat.mod_mul.symm

theorem ofLe_leBytes_w64 (v : W64) : ofLe (leBytes 8 v.toNat) = v.toNat := (ofLe_leBytes 8 _).trans (Nat.mod_eq_of_lt v.isLt)

/-- A part of a list, when it lies between two others. -/
theorem slice_append (l₁ l₂ l₃ : List W8) : slice (l₁ ++ l₂ ++ l₃) l₁.length l₂.length = l₂ := by
  refine List.ext_getElem (by simp [slice]) fun j hj hj' => ?_
  simp [slice, byteAt, List.getElem?_append, hj']

section
variable {b : Brew} {i code lane : Nat} {addr : W64}

theorem faultRecord_length : (faultRecord b i code lane addr).length = 32 := by simp [faultRecord]

theorem faultRecord_key : ofLe ((faultRecord b i code lane addr).take 8) = b.key.toNat := by
  rw [faultRecord, List.append_assoc, List.append_assoc, List.take_left' (leBytes_length ..), ofLe_leBytes_w64]

theorem faultRecord_pc : ofLe (slice (faultRecord b i code lane addr) 8 8) = b.pc.toNat := by
  have h := slice_append (leBytes 8 b.key.toNat) (leBytes 8 b.pc.toNat) (leBytes 8 addr.toNat
    ++ leBytes 8 (lane * 2 ^ 32 + slotIndex i * 2 ^ 24 + slotFirefly i * 2 ^ 16 + slotSwarm i * 2 ^ 8 + code))
  rw [leBytes_length, leBytes_length, ← List.append_assoc] at h
  rw [faultRecord, h, ofLe_leBytes_w64]

theorem faultRecord_addr : ofLe (slice (faultRecord b i code lane addr) 16 8) = addr.toNat := by
  have h := slice_append (leBytes 8 b.key.toNat ++ leBytes 8 b.pc.toNat) (leBytes 8 addr.toNat)
    (leBytes 8 (lane * 2 ^ 32 + slotIndex i * 2 ^ 24 + slotFirefly i * 2 ^ 16 + slotSwarm i * 2 ^ 8 + code))
  rw [List.length_append, leBytes_length, leBytes_length, leBytes_length] at h
  rw [faultRecord, h, ofLe_leBytes_w64]

theorem faultRecord_place (x : SlotId) (hcode : code < 256) (hlane : lane < 256) : (faultRecord b (slotNum x) code lane addr).drop 24
    = [w64 code, w64 x.s.val, w64 x.f.val, w64 x.j.val, w64 lane, 0, 0, 0].map (·.setWidth 8) := by
  have hs := x.s.isLt
  have hf := x.f.isLt
  have hj := x.j.isLt
  rw [faultRecord, List.drop_left' (by simp), slotSwarm_slotNum, slotFirefly_slotNum, slotIndex_slotNum]
  simp only [leBytes, List.map_cons, List.map_nil, List.cons.injEq, and_true]
  refine ⟨?_, ?_, ?_, ?_, ?_, ?_, ?_, ?_⟩
  all_goals
    apply BitVec.eq_of_toNat_eq
    simp only [w64, BitVec.ofNat_eq_ofNat, BitVec.toNat_ofNat, BitVec.toNat_setWidth]
    omega

end

end Sys2Proof.Machine

/-!
Sweeps and cancels (R95, R98, R111, R116).
-/

namespace Sys2Proof.Machine

/-! The stale sweep (R98). -/

/-- A sweep discards entry e of swarm s. -/
def sweepOut (s : Nat) (e : Entry) (d : Dev) : Dev :=
  raiseSched 3 (bumpSat (Reg.SWARM_STALE_COUNT s) 1 (postTomb e.flow e.key (setSteep s ((steepOf d s).dropEntry e.key) d)))

theorem sweepTable_eq (s : Nat) (d : Dev) : sweepTable s d =
    forEach ((steepOf d s).entries.filter (stale d)) (sweepOut s) (setSteep s { steepOf d s with sweepDue := false } d) := rfl

section
variable {s : Nat} {e : Entry} {l : List Entry} {x : Steep} {d : Dev}

theorem sweepOut_steep : steepOf (sweepOut s e d) s = (steepOf d s).dropEntry e.key := by
  rw [sweepOut, steepOf_congr (d := setSteep s ((steepOf d s).dropEntry e.key) d), steepOf_setSteep_same]
  rw [raiseSched_arr, bumpSat_arr, postTomb_steep]

theorem sweepOut_steep_ne {j : Nat} (h : j ≠ s) : steepOf (sweepOut s e d) j = steepOf d j := by
  rw [sweepOut, steepOf_congr (d := setSteep s ((steepOf d s).dropEntry e.key) d), steepOf_setSteep_ne _ _ h]
  rw [raiseSched_arr, bumpSat_arr, postTomb_steep]

theorem sweepOut_tombs : (sweepOut s e d).arr.tombs = d.arr.tombs ++ (e.flow.map fun f => (f, e.key)).toList := by
  rw [sweepOut, raiseSched_arr, bumpSat_arr, postTomb_tombs]
  rfl

theorem staleCount_ne (s : Nat) : Reg.SWARM_STALE_COUNT s ≠ Reg.SCHED_EVENT := by
  simp only [Reg.SWARM_STALE_COUNT, Reg.SCHED_EVENT]
  omega

theorem sweepOut_counts : (rd (sweepOut s e d) (Reg.SWARM_STALE_COUNT s)).toNat = min (2 ^ 32 - 1) ((rd d (Reg.SWARM_STALE_COUNT s)).toNat + 1) := by
  rw [sweepOut, rd_raiseSched_ne _ _ (staleCount_ne s), rd_bumpSat, rd_congr (postTomb_regs ..)]
  rfl

theorem forEach_sweepOut_steep : steepOf (forEach l (sweepOut s) d) s = l.foldl (fun x e => x.dropEntry e.key) (steepOf d s) := by
  induction l generalizing d with
  | nil => rfl
  | cons e l ih => rw [forEach_cons, ih, sweepOut_steep, List.foldl_cons]

theorem forEach_sweepOut_steep_ne {j : Nat} (h : j ≠ s) : steepOf (forEach l (sweepOut s) d) j = steepOf d j :=
  forEach_keeps d (steepOf · j) _ (fun _ _ => sweepOut_steep_ne h) l

theorem forEach_sweepOut_tombs : (forEach l (sweepOut s) d).arr.tombs = d.arr.tombs ++ l.filterMap fun e => e.flow.map fun f => (f, e.key) := by
  induction l generalizing d with
  | nil => exact (List.append_nil _).symm
  | cons e l ih =>
    rw [forEach_cons, ih, sweepOut_tombs, List.append_assoc]
    cases h : e.flow with
    | none => simp [h]
    | some f => simp [h]

theorem forEach_sweepOut_counts : (rd (forEach l (sweepOut s) d) (Reg.SWARM_STALE_COUNT s)).toNat
    = min (2 ^ 32 - 1) ((rd d (Reg.SWARM_STALE_COUNT s)).toNat + l.length) := by
  induction l generalizing d with
  | nil =>
    have hlt := (rd d (Reg.SWARM_STALE_COUNT s)).isLt
    rw [List.length_nil]
    exact (min_eq_right (by omega)).symm
  | cons e l ih =>
    rw [forEach_cons, ih, sweepOut_counts, List.length_cons]
    omega

theorem forEach_sweepOut_raises (h : l ≠ []) : rb (forEach l (sweepOut s) d) Reg.SCHED_EVENT 3 = true := by
  obtain ⟨e, l, rfl⟩ := List.exists_cons_of_ne_nil h
  have hnext (e : Entry) (d : Dev) (h : rb d Reg.SCHED_EVENT 3 = true) : rb (sweepOut s e d) Reg.SCHED_EVENT 3 = true :=
    rb_raiseSched (by decide) _
  exact forEach_inv _ (fun d => rb d Reg.SCHED_EVENT 3 = true) _ hnext l (rb_raiseSched (by decide) _)

theorem foldl_dropEntry_entries : (l.foldl (fun x e => x.dropEntry e.key) x).entries = x.entries.filter fun e => !l.any fun y => y.key == e.key := by
  induction l generalizing x with
  | nil => simp
  | cons e l ih =>
    rw [List.foldl_cons, ih, Steep.dropEntry, List.filter_filter]
    refine List.filter_congr fun y _ => ?_
    simp only [List.any_cons, Bool.not_or, bne, Bool.and_comm, Bool.beq_comm (a := y.key)]

theorem foldl_dropEntry_rest : (l.foldl (fun x e => x.dropEntry e.key) x).markers = x.markers
    ∧ (l.foldl (fun x e => x.dropEntry e.key) x).sweepDue = x.sweepDue := by
  induction l generalizing x with
  | nil => exact ⟨rfl, rfl⟩
  | cons e l ih => exact ih

end

theorem sweepPass_rests {s : Nat} {d : Dev} (h : (steepOf d s).sweepDue = false ∨ cancelPending d s = true) : sweepPass s d = d := by
  rcases h with h | h
  · simp [sweepPass, h]
  · simp [sweepPass, h]

theorem sweepPass_due {s : Nat} {d : Dev} (h : (steepOf d s).sweepDue = true) (hc : cancelPending d s = false) : sweepPass s d = sweepTable s d := by
  simp [sweepPass, h, hc]

section
variable {s : Nat} {d : Dev}

theorem sweepTable_steep : steepOf (sweepTable s d) s
    = ((steepOf d s).entries.filter (stale d)).foldl (fun x e => x.dropEntry e.key) { steepOf d s with sweepDue := false } := by
  rw [sweepTable_eq, forEach_sweepOut_steep, steepOf_setSteep_same]

theorem sweepTable_entries : (steepOf (sweepTable s d) s).entries
    = (steepOf d s).entries.filter (fun e => !((steepOf d s).entries.filter (stale d)).any fun y => y.key == e.key) := by
  rw [sweepTable_steep, foldl_dropEntry_entries]

theorem sweepTable_rest : (steepOf (sweepTable s d) s).markers = (steepOf d s).markers ∧ (steepOf (sweepTable s d) s).sweepDue = false := by
  rw [sweepTable_steep]
  exact foldl_dropEntry_rest

theorem sweepTable_ne {j : Nat} (h : j ≠ s) : steepOf (sweepTable s d) j = steepOf d j := by
  rw [sweepTable_eq, forEach_sweepOut_steep_ne h, steepOf_setSteep_ne _ _ h]

end

theorem stale_iff (d : Dev) (e : Entry) : stale d e = true ↔ e.persist = false
    ∧ max 2 (rf d Reg.SCHED_STALE_CTL 0 16) ≤ (d.frm.cur - e.key.extractLsb' 32 18).toNat ∧ (d.frm.cur - e.key.extractLsb' 32 18).toNat < 2 ^ 17 := by
  have hframe : BitVec.ofNat 18 (keyFrame e.key) = e.key.extractLsb' 32 18 := by
    apply BitVec.eq_of_toNat_eq
    simp [keyFrame, fld, Nat.shiftRight_eq_div_pow]
  simp [stale, ageOf, hframe]

/-! Cancels (R111). -/

@[simp] theorem notePeak_arr (s : Nat) (d : Dev) : (notePeak s d).arr = d.arr := by
  unfold notePeak
  split
  · rfl
  · rfl

theorem rd_notePeak {s a : Nat} (d : Dev) (h : a ≠ Reg.SWARM_STEEP_PEAK s) : rd (notePeak s d) a = rd d a := by
  unfold notePeak
  split
  · exact rd_wr_ne d _ h
  · rfl

/-- The markers after a cancel of a key. -/
def Steep.mark (x : Steep) (key : W64) : List Marker :=
  if x.marked key then x.markers.map (fun m => if m.key = key then { m with left := 2 } else m) else x.markers ++ [{ key := key }]

theorem any_mark (x : Steep) (key : W64) : (x.mark key).any (fun m => m.key == key) = true := by
  unfold Steep.mark
  split
  · next h =>
    obtain ⟨m, hm, hkey⟩ := List.any_eq_true.mp h
    refine List.any_eq_true.mpr ⟨_, List.mem_map_of_mem hm, ?_⟩
    rw [if_pos (beq_iff_eq.mp hkey)]
    exact hkey
  · simp

section
variable {s : Nat} {key : W64} {d : Dev}

theorem placeMarker_steep : steepOf (placeMarker s key d) s = { steepOf d s with markers := (steepOf d s).mark key } :=
  (steepOf_congr (congrArg (·.steep) (notePeak_arr ..)) s).trans (steepOf_setSteep_same ..)

theorem placeMarker_marked : (steepOf (placeMarker s key d) s).marked key = true := by
  rw [placeMarker_steep]
  exact any_mark ..

theorem placeMarker_entry : (steepOf (placeMarker s key d) s).entry? key = (steepOf d s).entry? key := by
  rw [placeMarker_steep]
  rfl

theorem placeMarker_tombs : (placeMarker s key d).arr.tombs = d.arr.tombs := congrArg (·.tombs) (notePeak_arr ..)

theorem rd_placeMarker {a : Nat} (h : a ≠ Reg.SWARM_STEEP_PEAK s) : rd (placeMarker s key d) a = rd d a := (rd_notePeak _ h).trans rfl

end

theorem dropEntry_entry (x : Steep) (key : W64) : (x.dropEntry key).entry? key = none := by
  simp [Steep.dropEntry, Steep.entry?]

section
variable {input : Bool} {key : W64} {d : Dev}

/-- The cancel of an entry whose brew does not run. -/
theorem takeCancel_entry {e : Entry} (he : (steepOf d (homeOf d key)).entry? key = some e) (hrun : runningOf d (homeOf d key) key = []) :
    takeCancel input key d = (true, placeMarker (homeOf d key) key (bumpFld (Reg.SWARM_CANCEL_COUNT (homeOf d key)) 0 16 1
      (postTomb e.flow key (setSteep (homeOf d key) ((steepOf d (homeOf d key)).dropEntry key) d)))) := by
  simp only [takeCancel, he, hrun]
  rfl

/-- The cancel of a key that nothing knows, where its marker finds a place. -/
theorem takeCancel_unknown (he : (steepOf d (homeOf d key)).entry? key = none) (hm : (steepOf d (homeOf d key)).marked key = false)
    (hplace : (steepOf d (homeOf d key)).places < placeLimit input) (hrun : runningOf d (homeOf d key) key = []) :
    takeCancel input key d = (true, placeMarker (homeOf d key) key (bumpFld (Reg.SWARM_CANCEL_COUNT (homeOf d key)) 0 16 0
      (postTomb (tmplFlow d (keyTmpl key)) key d))) := by
  simp only [takeCancel, he, hrun, hm, decide_eq_false (Nat.not_le.mpr hplace)]
  rfl

theorem takeCancel_full (he : (steepOf d (homeOf d key)).entry? key = none) (hm : (steepOf d (homeOf d key)).marked key = false)
    (hplace : placeLimit false ≤ (steepOf d (homeOf d key)).places) : takeCancel false key d = (false, d) := by
  simp only [takeCancel, he, hm, decide_eq_true hplace]
  rfl

theorem cancelCount_ne (s : Nat) : Reg.SWARM_CANCEL_COUNT s ≠ Reg.SWARM_STEEP_PEAK s := by
  simp only [Reg.SWARM_CANCEL_COUNT, Reg.SWARM_STEEP_PEAK]
  omega

end

end Sys2Proof.Machine

/-!
What the tables serve, the host ports, templates and the route set; the scheduler's commands (O26).
-/

namespace Sys2Proof.Machine

/-! What brews send (R95, R105, R111). -/

theorem firstIdx_none {α : Type} {p : α → Bool} {l : List α} (h : ∀ x ∈ l, p x = false) (i : Nat) : firstIdx p l i = none := by
  induction l generalizing i with
  | nil => rfl
  | cons x l ih => rw [firstIdx, h x (List.mem_cons_self ..), ih fun y hy => h y (List.mem_cons_of_mem x hy)]; rfl

section
variable {sw : Nat} {d : Dev}

theorem headInput_none (h : ∀ y ∈ d.arr.inputs, homeOf d y.key ≠ sw) : headInput d sw = none := by
  rw [headInput, firstIdx_none fun y hy => beq_eq_false_iff_ne.mpr (h y hy)]

theorem headInput_first {x : Push} {l : List Push} (hl : d.arr.inputs = x :: l) (hx : homeOf d x.key = sw) : headInput d sw = some (0, x) := by
  simp [headInput, hl, firstIdx, hx]

/-- The first that brews sent, when it is a cancel for this table that its table takes. -/
theorem serveSends_first {x : Sent} {l : List Sent} (hl : d.arr.sends = x :: l) (hc : x.cancel = true) (hx : homeOf d x.key = sw)
    (ht : (takeCancel false x.key (setSends l d)).1 = true) :
    serveSends sw true d = (true, sentOff x (takeCancel false x.key (setSends l d)).2) := by
  simp only [serveSends, hl, List.length_cons, List.range_succ_eq_map, List.foldl_cons, List.getElem?_cons_zero, List.eraseIdx_cons_zero, hc, hx,
    behindRefused, List.take_zero, List.any_nil, Bool.and_false, bne_self_eq_false, Bool.or_self, takeSent, ht, if_pos]
  exact List.foldl_fixed' (fun _ => rfl) _

/-- Nothing that brews sent is a leaf for this table. -/
theorem serveSends_none (h : ∀ y ∈ d.arr.sends, y.cancel = true ∨ homeOf d y.key ≠ sw) : serveSends sw false d = (false, d) := by
  refine List.foldl_fixed' (fun n => ?_) _
  simp only [Bool.false_eq_true, if_false]
  split
  · rfl
  · next x hx =>
    refine if_pos ?_
    rcases h x (List.mem_of_getElem? hx) with h | h
    · simp [h]
    · simp [h]

/-- A list whose delay lists are empty releases nothing. -/
theorem serveDelay_none (h : ∀ j < 4, delayList d (4 * sw + j) = []) : serveDelay sw d = (false, d) := by
  have h0 : delayList d (4 * sw) = [] := h 0 (by decide)
  have hfirst (p : DelayEntry → Bool) : firstDelay p d sw = none := by
    simp [firstDelay, List.range_succ, h0, h, firstIdx]
  simp [serveDelay, readyDelay, hfirst]

theorem serveFrame_none (h : d.arr.frameLeaves = []) : serveFrame sw d = (false, d) := by
  simp [serveFrame, h]

end

/-! The rotation of the compute sources (R95). -/

section
variable {s : Nat} {d : Dev}

/-- When no other source has anything, the rotation serves the immediate host port. -/
theorem rotate_host (h0 : serveSends s false d = (false, d)) (h1 : serveDelay s d = (false, d)) (h2 : serveFrame s d = (false, d))
    (h3 : (serveHost s d).1 = false → (serveHost s d).2 = d) :
    rotate s d = if (serveHost s d).1 then (some 3, setSteep s { steepOf (serveHost s d).2 s with turn := 0 } (serveHost s d).2) else (none, d) := by
  obtain ⟨t, ht⟩ : ∃ t, (steepOf d s).turn % 4 = t := ⟨_, rfl⟩
  have hlt : t < 4 := ht ▸ Nat.mod_lt _ (by decide)
  have hturn (i : Nat) : ((steepOf d s).turn + i) % 4 = (t + i) % 4 := by omega
  simp only [rotate, show List.range 4 = [0, 1, 2, 3] from rfl, List.foldl_cons, List.foldl_nil, hturn]
  cases h : (serveHost s d).1 with
  | false =>
    have h3 : serveHost s d = (false, d) := Prod.ext h (h3 h)
    obtain rfl | rfl | rfl | rfl : t = 0 ∨ t = 1 ∨ t = 2 ∨ t = 3 := by omega
    all_goals simp [serveSource, h0, h1, h2, h3]
  | true =>
    obtain rfl | rfl | rfl | rfl : t = 0 ∨ t = 1 ∨ t = 2 ∨ t = 3 := by omega
    all_goals simp [serveSource, h0, h1, h2, h]

end

/-! The immediate host port (R95, R97, R116). -/

section
variable {x : Push} {l : List Push} {d : Dev}

/-- What the home table answers the leaf at the head of the immediate host port, once it is off the queue. -/
def portAnswer (x : Push) (l : List Push) (d : Dev) : Bool × Dev :=
  if leafBad d x.key x.slot then (true, discardBad x.key (onArr (fun a => { a with immediate := l }) d))
  else takeLeaf false x.key x.slot x.value (onArr (fun a => { a with immediate := l }) d)

theorem serveHost_eq (hl : d.arr.immediate = x :: l) (hc : x.cancel = false) :
    serveHost (homeOf d x.key) d = if (portAnswer x l d).1 then portAnswer x l d else (false, d) := by
  simp only [serveHost, hl, hc, bne_self_eq_false, Bool.or_self, Bool.false_eq_true, if_false, portAnswer]
  split
  · rfl
  · rfl

theorem hostRelease_leaf (hl : d.arr.immediate = x :: l) (hc : x.cancel = false) (hrun : swarmRuns d (homeOf d x.key) = true) :
    hostRelease d = serveTurn 3 (homeOf d x.key) d := by
  simp [hostRelease, hl, hc, hrun]

theorem hostRelease_cancel (hl : d.arr.immediate = x :: l) (hc : x.cancel = true) (hrun : swarmRuns d (homeOf d x.key) = true) :
    hostRelease d = if (takeCancel false x.key (onArr (fun a => { a with immediate := l }) d)).1
      then sweepPass (homeOf d x.key) (takeCancel false x.key (onArr (fun a => { a with immediate := l }) d)).2 else d := by
  simp [hostRelease, hl, hc, hrun, setHostPort]

/-- With nothing of any other source, the port's leaf is served. -/
theorem serveTurn_host (hl : d.arr.immediate = x :: l) (hc : x.cancel = false) (hrun : swarmRuns d (homeOf d x.key) = true)
    (hframe : d.arr.frameLeaves = []) (hsends : ∀ y ∈ d.arr.sends, y.cancel = true ∨ homeOf d y.key ≠ homeOf d x.key)
    (hdelay : ∀ j < 4, delayList d (4 * homeOf d x.key + j) = []) (hin : inputWaits d (homeOf d x.key) = false) :
    serveTurn 3 (homeOf d x.key) d = if (portAnswer x l d).1
      then setSteep (homeOf d x.key) { steepOf (portAnswer x l d).2 (homeOf d x.key) with turn := 0 } (portAnswer x l d).2 else d := by
  have hserve := serveHost_eq hl hc
  have hleft (h : (serveHost (homeOf d x.key) d).1 = false) : (serveHost (homeOf d x.key) d).2 = d := by
    rw [hserve] at h ⊢
    split
    · next hr => rw [if_pos hr, hr] at h; cases h
    · rfl
  have hrot := rotate_host (serveSends_none hsends) (serveDelay_none hdelay) (serveFrame_none hframe) hleft
  cases h : (portAnswer x l d).1 with
  | false =>
    rw [h] at hserve
    simp [serveTurn, hrun, hin, hrot, hserve]
  | true =>
    rw [h] at hserve
    simp [serveTurn, hrun, hin, hrot, hserve, h]

end

/-! Pushes (R116, R283). -/

theorem hostPort_setHostPort_same (p : Nat) (l : List Push) (d : Dev) : hostPort (setHostPort p l d) p = l := by
  unfold hostPort setHostPort
  split
  · simp
  · simp

theorem hostPort_setHostPort_other (p : Fin 2) (l : List Push) (d : Dev) : hostPort (setHostPort p l d) (1 - p.val) = hostPort d (1 - p.val) := by
  match p with
  | 0 => rfl
  | 1 => rfl

theorem hostPort_congr {d e : Dev} (h : e.arr = d.arr) (p : Nat) : hostPort e p = hostPort d p := by rw [hostPort, h]; rfl

theorem cricketSend_keeps {β : Type} (f : Dev → β) (hpair : ∀ g d, f (onPair g d) = f d) (hpmon : ∀ src n d, f (pmon src n d) = f d)
    (chan : Nat) (data : List W8) (k : Clk) (d : Dev) : f (cricketSend chan data k d) = f d := by
  unfold cricketSend
  split
  · refine (forEach_keeps _ f _ (fun _ d => ?_) _).trans (hpair ..)
    split
    · split
      · exact (hpmon ..).trans (hpair ..)
      · rfl
    · rfl
  · rfl

theorem mirrorPush_keeps {β : Type} (f : Dev → β) (hpair : ∀ g d, f (onPair g d) = f d) (hpmon : ∀ src n d, f (pmon src n d) = f d)
    (x : Push) (k : Clk) (d : Dev) : f (mirrorPush x k d) = f d := by
  unfold mirrorPush
  split
  · exact cricketSend_keeps f hpair hpmon ..
  · rfl

theorem mirrorPush_arr (x : Push) (k : Clk) (d : Dev) : (mirrorPush x k d).arr = d.arr :=
  mirrorPush_keeps (·.arr) (fun _ _ => rfl) (fun _ _ _ => pmon_arr ..) x k d

theorem mirrorPush_mem (x : Push) (k : Clk) (d : Dev) : (mirrorPush x k d).mem = d.mem :=
  mirrorPush_keeps (·.mem) (fun _ _ => rfl) (fun _ _ _ => pmon_mem ..) x k d

/-- Only the active mirrors its pushes. -/
theorem mirrorPush_quiet {x : Push} {k : Clk} {d : Dev} (h : d.pair.mode ≠ .active) : mirrorPush x k d = d := by
  simp [mirrorPush, h]

section
variable {req : Req} {p : Fin 2} {v : W32} {k : Clk} {d : Dev}

/-- The push that a requester's registers and the word written make. -/
def pushed (req : Req) (p : Nat) (slot : Nat) (cancel : Bool) (k : Clk) (d : Dev) : Push :=
  { key := rd d (ownOf req (Reg.SCHED_LEAF_KEY_HI p)) ++ rd d (ownOf req (Reg.SCHED_LEAF_KEY_LO p)), slot
    value := rd d (ownOf req (Reg.SCHED_LEAF_VAL_HI p)) ++ rd d (ownOf req (Reg.SCHED_LEAF_VAL_LO p)), cancel, tick := k.ticks }

theorem leafPush_joins {slot : Nat} {cancel : Bool} (hclosed : pushClosed d p = false) (hroom : (hostPort d p).length < if p = 0 then 4096 else 64)
    (hslot : fld v 0 3 = slot) (hcancel : bit v 3 = cancel) : leafPush req p v k d =
      if p = 0 then mirrorPush (pushed req p slot cancel k d) k (setHostPort p (hostPort d p ++ [pushed req p slot cancel k d]) d)
      else setHostPort p (hostPort d p ++ [pushed req p slot cancel k d]) d := by
  subst hslot hcancel
  match p with
  | 0 =>
    have hroom : ¬hostPortSize 0 ≤ (hostPort d 0).length := Nat.not_le.mpr hroom
    exact (if_neg (Bool.eq_false_iff.mp hclosed)).trans (if_neg hroom)
  | 1 =>
    have hroom : ¬hostPortSize 1 ≤ (hostPort d 1).length := Nat.not_le.mpr hroom
    exact (if_neg (Bool.eq_false_iff.mp hclosed)).trans (if_neg hroom)

theorem leafPush_full (hclosed : pushClosed d p = false) (hfull : (if p = 0 then 4096 else 64) ≤ (hostPort d p).length) :
    leafPush req p v k d = raiseSched 4 (bumpSat (Reg.SCHED_LEAF_OVF p) 1 d) := by
  match p with
  | 0 => exact (if_neg (Bool.eq_false_iff.mp hclosed)).trans (if_pos hfull)
  | 1 => exact (if_neg (Bool.eq_false_iff.mp hclosed)).trans (if_pos hfull)

end

/-! Templates (R88, R90). -/

/-- Words written one after the other from place t on. -/
theorem tmplWords_get (f : Nat → W32) (t n : Nat) (tab : Tab W32) (i : Nat) :
    Tab.get 0 ((List.range n).foldl (fun tab w => Tab.put 0 tab (t + w) (f w)) tab) i = if t ≤ i ∧ i < t + n then f (i - t) else Tab.get 0 tab i := by
  induction n with
  | zero => exact (if_neg (by omega)).symm
  | succ n ih =>
    rw [List.range_succ, List.foldl_append, List.foldl_cons, List.foldl_nil, Tab.get_put, ih]
    by_cases hi : i = t + n
    · rw [if_pos hi, if_pos (by omega), hi, Nat.add_sub_cancel_left]
    · rw [if_neg hi]
      by_cases hlt : t ≤ i ∧ i < t + n
      · rw [if_pos hlt, if_pos (by omega)]
      · rw [if_neg hlt, if_neg (by omega)]

/-- The word that SCHED_TMPL_CMD.WRITE gives word w of its template. -/
def tmplStored (req : Req) (d : Dev) (w : Nat) : W32 :=
  rd d (ownOf req (Reg.SCHED_TMPL_DATA w)) &&& ([0, 0xFFFFFFFC, 0x00FFFFFF, 0xFFFC0FFF] : List W32).getD w 0

theorem tmplWord_tmplWrite (req : Req) (d : Dev) (t w : Nat) (hw : w < 4) : tmplWord (tmplWrite req d) t w
    = if t = fld (rd d (ownOf req Reg.SCHED_TMPL_IDX)) 0 14 then tmplStored req d w else tmplWord d t w := by
  refine (tmplWords_get (tmplStored req d) (fld (rd d (ownOf req Reg.SCHED_TMPL_IDX)) 0 14 * 4) 4 d.arr.tmpl (t * 4 + w)).trans ?_
  by_cases ht : t = fld (rd d (ownOf req Reg.SCHED_TMPL_IDX)) 0 14
  · rw [if_pos ht, if_pos (by omega), ← ht, Nat.add_sub_cancel_left]
  · rw [if_neg ht, if_neg (by omega)]
    rfl

theorem ownOf_inj {req : Req} {a b : Nat} (h : ownOf req a = ownOf req b) : a = b := by
  cases req with
  | host => exact h
  | fw => exact Nat.add_left_cancel h

/-- Registers written one after the other. -/
theorem rd_forEach_wr {f : Nat → Nat} (hf : ∀ i j, f i = f j → i = j) (g : Nat → W32) (n : Nat) (d : Dev) :
    (∀ w < n, rd (forEach (List.range n) (fun w => wr (f w) (g w)) d) (f w) = g w)
      ∧ onlyThese ((List.range n).map f) d (forEach (List.range n) (fun w => wr (f w) (g w)) d) := by
  induction n with
  | zero => exact ⟨fun w hw => absurd hw (Nat.not_lt_zero w), .refl [] d⟩
  | succ n ih =>
    have hlast : forEach (List.range (n + 1)) (fun w => wr (f w) (g w)) d
        = wr (f n) (g n) (forEach (List.range n) (fun w => wr (f w) (g w)) d) := by
      simp [forEach, List.range_succ]
    rw [hlast]
    refine ⟨fun w hw => ?_, ?_⟩
    · rcases Nat.lt_succ_iff_lt_or_eq.mp hw with h | rfl
      · rw [rd_wr_ne _ _ fun e => h.ne (hf _ _ e), ih.1 w h]
      · rw [rd_wr_same]
    · rw [List.range_succ, List.map_append]
      exact ih.2.trans (onlyThese_wr ..)

theorem tmplData_inj (req : Req) (v w : Nat) (h : ownOf req (Reg.SCHED_TMPL_DATA v) = ownOf req (Reg.SCHED_TMPL_DATA w)) : v = w := by
  have h := ownOf_inj h
  simp only [Reg.SCHED_TMPL_DATA] at h
  omega

/-! The route set (R94). -/

theorem routeSetWrite_idle {v : W32} {d : Dev} (hstop : rb d Reg.SCHED_CTL 0 = false) (hidle : schedIdle d = true) :
    routeSetWrite v d = wr Reg.SCHED_ROUTE_SET (v &&& 0xFF) d := by
  simp [routeSetWrite, hstop, hidle]

theorem routeSetWrite_busy {v : W32} {d : Dev} (h : rb d Reg.SCHED_CTL 0 = true ∨ schedIdle d = false) : routeSetWrite v d = raiseSched 5 d := by
  rcases h with h | h
  · simp [routeSetWrite, h]
  · simp [routeSetWrite, h]

theorem accessSealed_open {a : Nat} {d : Dev} (f : Dev → Dev) (h : csrShut d a = false) : accessSealed a f d = noteSeal a d (f d) := by
  rw [accessSealed, sealing, access_open f h]

/-- ROUTE_LOCKED is no sealed value. -/
theorem accessSealed_routeLocked {v : W32} {d : Dev} (hopen : csrShut d Reg.SCHED_ROUTE_SET = false)
    (h : rb d Reg.SCHED_CTL 0 = true ∨ schedIdle d = false) : accessSealed Reg.SCHED_ROUTE_SET (routeSetWrite v) d = raiseSched 5 d := by
  rw [accessSealed_open _ hopen, routeSetWrite_busy h]
  exact noteSeal_same (rd_raiseSched_ne _ _ (by decide)) (rd_raiseSched_ne _ _ (by decide))

end Sys2Proof.Machine

/-!
The scheduler's commands (O26).
-/

namespace Sys2Proof.Machine

/-- A device that keeps what a seal pass has seen shows nothing of it. -/
theorem noted_of_bus {d e : Dev} (h : e.bus = d.bus) : noted e d = d := by rw [noted, h]

section
variable {sw : Fin 8} {s : State}

/-- R46, R99. -/
theorem exec_dispatch {e : Entry} {l₁ l₂ : List W64} {i : Nat} (hon : rb s.dev Reg.SCHED_CTL 0 = true) (hrun : swarmRuns s.dev sw = true)
    (hready : (steepOf s.dev sw).ready = l₁ ++ e.key :: l₂) (he : (steepOf s.dev sw).entry? e.key = some e) (hp : e.prio < 4)
    (h₁ : ∀ k ∈ l₁, ∀ y, (steepOf s.dev sw).entry? k = some y → y.prio < e.prio)
    (h₂ : ∀ k ∈ l₂, ∀ y, (steepOf s.dev sw).entry? k = some y → y.prio ≤ e.prio) (hi : idleSlot s.dev sw = some i) :
    ∃ t b, exec (.dispatch sw) s = .next t ∧ t.clk = s.clk ∧ sameMemory s.dev t.dev ∧ brewAt t.dev i = some b
      ∧ b = { key := e.key, pc := tmplCode s.dev (keyTmpl e.key), l := b.l, flow := e.flow, cycTick := s.clk.ticks }
      ∧ (∀ j < e.leaves.length, b.lReg j = (e.leaves.getD j none).getD 0) ∧ (∀ j, e.leaves.length ≤ j → b.lReg j = 0)
      ∧ (∀ j ≠ i, brewAt t.dev j = brewAt s.dev j) ∧ steepOf t.dev sw = (steepOf s.dev sw).dropEntry e.key
      ∧ (rd64 t.dev (Reg.SWARM_DISPATCHED_LO sw)).toNat = min (2 ^ 64 - 1) ((rd64 s.dev (Reg.SWARM_DISPATCHED_LO sw)).toNat + 1) := by
  have hexec := congrArg (fun d => nextDev s (settle s.clk d)) (dispatch_eq (k := s.clk) hon hrun hready he hp h₁ h₂ hi)
  generalize hd : dispatched sw i e s.clk s.dev = d at hexec
  generalize hcounted : bumpSat64 (Reg.SWARM_DISPATCHED_LO sw) 1 d = counted at hexec
  have harr : counted.arr = d.arr := hcounted ▸ bumpSat64_arr ..
  have hmem : counted.mem = s.dev.mem := by rw [← hcounted, ← hd]; rfl
  have hregs : d.regs = s.dev.regs := by rw [← hd]; rfl
  have hcount := rd64_bumpSat64 (Reg.SWARM_DISPATCHED_LO sw) 1 d
  rw [hcounted, rd64, rd64, rd_congr hregs, rd_congr hregs] at hcount
  have hm : MetersOnly counted (settle s.clk (pmonSwarm sw 0 1 counted)) := (metersOnly_pmonSwarm ..).trans (metersOnly_settle ..)
  have hslots := hm.slots.trans (congrArg (·.slots) harr)
  have hsteep := hm.steep.trans (congrArg (·.steep) harr)
  refine ⟨_, freshBrew s.clk s.dev e, hexec, rfl, sameMemory_of_mem (hm.mem.trans hmem), ?_, rfl,
    fun j hj => (freshBrew_lReg ..).trans (if_pos hj), fun j hj => (freshBrew_lReg ..).trans (if_neg (Nat.not_lt.mpr hj)), fun j hj => ?_, ?_, ?_⟩
  · rw [brewAt_congr hslots, ← hd, dispatched_brewAt]
  · rw [brewAt_congr hslots, ← hd, dispatched_brewAt_ne hj]
  · rw [steepOf_congr hsteep, ← hd, dispatched_steep]
  · rw [hm.rd64_dispatched]
    exact hcount

/-- R102. -/
theorem exec_brewOvertime {x : SlotId} {b : Brew} (hb : brewAt s.dev (slotNum x) = some b) :
    exec (.brewOvertime x) s = nextDev s (settle s.clk (if cycleLimit s.dev < brewCycles s.clk s.dev (slotNum x) b
      then killBrew (slotNum x) 0x10 0 0xFF s.dev else s.dev)) := by
  refine congrArg (fun d => nextDev s (settle s.clk d)) ?_
  simp only [brewOvertime, hb]

/-- R80, R110: what a fault leaves of a brew. -/
theorem killBrew_leaves {x : SlotId} {b : Brew} {d : Dev} (hb : brewAt d (slotNum x) = some b) {code : Nat} (addr : W64) {lane : Nat} :
    let e := killBrew (slotNum x) code addr lane d
    brewAt e (slotNum x) = none ∧ (∀ j ≠ slotNum x, brewAt e j = brewAt d j)
      ∧ rf e (Reg.SWARM_FAULT_COUNT x.s.val) 0 16 = min 0xFFFF (rf d (Reg.SWARM_FAULT_COUNT x.s.val) 0 16 + 1)
      ∧ e.arr.tombs = d.arr.tombs ++ (b.flow.map fun f => (f, b.key)).toList := by
  have hslots := killBrew_slots (code := code) (lane := lane) (addr := addr) hb
  refine ⟨(congrArg (Tab.get none · _) hslots).trans (Tab.get_put_same ..), fun j hj => ?_, ?_, killBrew_tombs hb⟩
  · exact (congrArg (Tab.get none · j) hslots).trans (Tab.get_put_ne _ _ _ _ _ hj)
  · have hcounts := killBrew_counts (code := code) (lane := lane) (addr := addr) hb (slotSwarm_slotNum x ▸ x.s.isLt)
    rwa [slotSwarm_slotNum] at hcounts

/-- A cancel at the head of the inputs. -/
theorem cancelArrive_input {x : Push} {l : List Push} {d : Dev} {sw : Nat} (hl : d.arr.inputs = x :: l) (hx : homeOf d x.key = sw)
    (hc : x.cancel = true) (hrun : swarmRuns d sw = true) :
    cancelArrive sw d = sweepPass sw (takeCancel true x.key (onArr (fun a => { a with inputs := l }) d)).2 := by
  have hdrop : dropPush 0 d = onArr (fun a => { a with inputs := l }) d := by simp [dropPush, onArr, hl]
  simp [cancelArrive, hrun, headInput_first hl hx, hc, hdrop]

/-- A cancel that a brew sent, when no input is for its table. -/
theorem cancelArrive_sent {x : Sent} {l : List Sent} {d : Dev} {sw : Nat} (hin : ∀ y ∈ d.arr.inputs, homeOf d y.key ≠ sw)
    (hl : d.arr.sends = x :: l) (hc : x.cancel = true) (hx : homeOf d x.key = sw) (hrun : swarmRuns d sw = true)
    (ht : (takeCancel false x.key (setSends l d)).1 = true) :
    cancelArrive sw d = sweepPass sw (sentOff x (takeCancel false x.key (setSends l d)).2) := by
  simp [cancelArrive, hrun, headInput_none hin, serveSends_first hl hc hx ht]

/-- R98. -/
theorem sweepPass_sweeps {sw : Nat} {d : Dev} (h : (steepOf d sw).sweepDue = true) (hc : cancelPending d sw = false) :
    (steepOf (sweepPass sw d) sw).sweepDue = false
      ∧ (steepOf (sweepPass sw d) sw).entries
          = (steepOf d sw).entries.filter (fun e => !((steepOf d sw).entries.filter (stale d)).any fun y => y.key == e.key)
      ∧ (sweepPass sw d).arr.tombs = d.arr.tombs ++ ((steepOf d sw).entries.filter (stale d)).filterMap (fun e => e.flow.map fun f => (f, e.key))
      ∧ (rd (sweepPass sw d) (Reg.SWARM_STALE_COUNT sw)).toNat
          = min (2 ^ 32 - 1) ((rd d (Reg.SWARM_STALE_COUNT sw)).toNat + ((steepOf d sw).entries.filter (stale d)).length)
      ∧ ((steepOf d sw).entries.filter (stale d) ≠ [] → rb (sweepPass sw d) Reg.SCHED_EVENT 3 = true)
      ∧ (steepOf (sweepPass sw d) sw).markers = (steepOf d sw).markers ∧ ∀ j ≠ sw, steepOf (sweepPass sw d) j = steepOf d j := by
  rw [sweepPass_due h hc]
  obtain ⟨hmarkers, hdue⟩ := sweepTable_rest (s := sw) (d := d)
  exact ⟨hdue, sweepTable_entries, forEach_sweepOut_tombs, forEach_sweepOut_counts, forEach_sweepOut_raises, hmarkers, fun j hj => sweepTable_ne hj⟩

/-- R111: the cancel of an entry. -/
theorem takeCancel_drops {input : Bool} {key : W64} {d : Dev} {e : Entry} (he : (steepOf d (homeOf d key)).entry? key = some e)
    (hrun : runningOf d (homeOf d key) key = []) :
    let s := homeOf d key
    let r := takeCancel input key d
    r.1 = true ∧ (steepOf r.2 s).entry? key = none ∧ (steepOf r.2 s).marked key = true
      ∧ r.2.arr.tombs = d.arr.tombs ++ (e.flow.map fun f => (f, key)).toList
      ∧ rf r.2 (Reg.SWARM_CANCEL_COUNT s) 0 16 = min 0xFFFF (rf d (Reg.SWARM_CANCEL_COUNT s) 0 16 + 1) := by
  intro s r
  have hr : r = _ := takeCancel_entry he hrun
  rw [hr]
  refine ⟨rfl, ?_, placeMarker_marked, ?_, ?_⟩
  · have hsteep := (steepOf_congr (postTomb_steep e.flow key (setSteep s ((steepOf d s).dropEntry key) d)) s).trans (steepOf_setSteep_same ..)
    rw [placeMarker_entry, steepOf_congr (congrArg (·.steep) (bumpFld_arr ..)), hsteep]
    exact dropEntry_entry ..
  · rw [placeMarker_tombs, bumpFld_arr, postTomb_tombs]
    rfl
  · have hcount := rf_bumpFld_low (Reg.SWARM_CANCEL_COUNT s) 1 (postTomb e.flow key (setSteep s ((steepOf d s).dropEntry key) d))
    rw [rf, rf, rd_congr (postTomb_regs ..)] at hcount
    rw [rf, rd_placeMarker (cancelCount_ne _)]
    exact hcount

/-- R111: the cancel of a key that nothing knows. -/
theorem takeCancel_marks {input : Bool} {key : W64} {d : Dev} (he : (steepOf d (homeOf d key)).entry? key = none)
    (hm : (steepOf d (homeOf d key)).marked key = false) (hplace : (steepOf d (homeOf d key)).places < placeLimit input)
    (hrun : runningOf d (homeOf d key) key = []) :
    let r := takeCancel input key d
    r.1 = true ∧ (steepOf r.2 (homeOf d key)).marked key = true
      ∧ r.2.arr.tombs = d.arr.tombs ++ ((tmplFlow d (keyTmpl key)).map fun f => (f, key)).toList := by
  intro r
  have hr : r = _ := takeCancel_unknown he hm hplace hrun
  rw [hr]
  refine ⟨rfl, placeMarker_marked, ?_⟩
  rw [placeMarker_tombs, bumpFld_arr, postTomb_tombs]

/-- R90: SCHED_TMPL_CMD.WRITE. -/
theorem exec_schedTmplWrite {req : Req} (h : csrShut s.dev Reg.SCHED_TMPL_CMD = false) :
    exec (.schedTmplWrite req) s = nextDev s (tmplWrite req s.dev) := congrArg (nextDev s) (access_open _ h)

/-- R90: SCHED_TMPL_CMD.READ. -/
theorem exec_schedTmplRead {req : Req} (h : csrShut s.dev Reg.SCHED_TMPL_CMD = false) :
    exec (.schedTmplRead req) s = nextDev s (tmplRead req s.dev) := congrArg (nextDev s) (access_open _ h)

/-- R116: a push that joins its queue. -/
theorem leafPush_enters {req : Req} {p : Fin 2} {v : W32} {k : Clk} {d : Dev} {slot : Nat} {cancel : Bool} (hclosed : pushClosed d p = false)
    (hroom : (hostPort d p).length < if p = 0 then 4096 else 64) (hslot : fld v 0 3 = slot) (hcancel : bit v 3 = cancel) :
    let e := leafPush req p v k d
    hostPort e p = hostPort d p ++ [pushed req p slot cancel k d] ∧ hostPort e (1 - p.val) = hostPort d (1 - p.val) ∧ e.mem = d.mem
      ∧ (d.pair.mode ≠ .active → e = setHostPort p (hostPort e p) d) := by
  intro e
  let x := pushed req p slot cancel k d
  let q := setHostPort p (hostPort d p ++ [x]) d
  have he : e = if p = 0 then mirrorPush x k q else q := leafPush_joins hclosed hroom hslot hcancel
  have harr : e.arr = q.arr := by
    rw [he]
    split
    · exact mirrorPush_arr ..
    · rfl
  have hmem : e.mem = d.mem := by
    rw [he]
    split
    · exact mirrorPush_mem ..
    · rfl
  have hport : hostPort e p = hostPort d p ++ [x] := (hostPort_congr harr p).trans (hostPort_setHostPort_same ..)
  refine ⟨hport, (hostPort_congr harr _).trans (hostPort_setHostPort_other ..), hmem, fun hmode => ?_⟩
  rw [hport, he]
  split
  · exact mirrorPush_quiet hmode
  · rfl

/-- R116: a push that finds its queue full. -/
theorem leafPush_drops {req : Req} {p : Fin 2} {v : W32} {k : Clk} {d : Dev} (hclosed : pushClosed d p = false)
    (hfull : (if p = 0 then 4096 else 64) ≤ (hostPort d p).length) :
    let e := leafPush req p v k d
    rb e Reg.SCHED_EVENT 4 = true ∧ rd e (Reg.SCHED_LEAF_OVF p) = w32 (min (2 ^ 32 - 1) ((rd d (Reg.SCHED_LEAF_OVF p)).toNat + 1))
      ∧ onlyThese [Reg.SCHED_EVENT, Reg.SCHED_LEAF_OVF p] d e := by
  intro e
  have he : e = raiseSched 4 (bumpSat (Reg.SCHED_LEAF_OVF p) 1 d) := leafPush_full hclosed hfull
  have hne : Reg.SCHED_LEAF_OVF p ≠ Reg.SCHED_EVENT := by
    simp only [Reg.SCHED_LEAF_OVF, Reg.SCHED_EVENT]
    omega
  rw [he]
  refine ⟨rb_raiseSched (by decide) _, ?_, ?_⟩
  · rw [rd_raiseSched_ne _ _ hne, bumpSat, rd_wr_same]
  · exact ((onlyThese_bumpSat ..).trans (onlyThese_raiseAt ..)).mono (by simp)

end

/-- Settles O26: each command by the lemma above that says what it leaves. -/
theorem schedulerCommands : Obligations.SchedulerCommands := by
  unfold Obligations.SchedulerCommands
  refine ⟨fun sw s e l₁ l₂ i => exec_dispatch, fun x b s hb => ?_, fun sw x l s hl hx hc hrun => ?_, fun sw d => ⟨sweepPass_rests, sweepPass_sweeps⟩,
    stale_iff, fun sw x l s hin hl hc hx hrun => ?_, fun input key d => ?_, fun sw s => rfl, fun req s h => ?_, fun req p slot s hopen hclosed => ?_,
    fun x l s hl hc hrun hframe hsends hdelay => ?_, fun x l s hl hc hrun => ?_, fun req v s hopen => ?_⟩
  · refine ⟨fun h => ?_, fun h => ?_, fun code addr lane hcode hlane => ?_⟩
    · rw [exec_brewOvertime hb, if_pos h]
    · rw [exec_brewOvertime hb, if_neg (Nat.not_lt.mpr h)]
    · obtain ⟨hfree, hothers, hcount, htombs⟩ := killBrew_leaves (code := code) (lane := lane) hb addr
      exact ⟨hfree, hothers, hcount, htombs, faultRecord_length, faultRecord_key, faultRecord_pc, faultRecord_addr, faultRecord_place x hcode hlane⟩
  · exact congrArg (fun d => nextDev s (settle s.clk d)) (cancelArrive_input hl hx hc hrun)
  · exact fun ht => congrArg (fun d => nextDev s (settle s.clk d)) (cancelArrive_sent hin hl hc hx hrun ht)
  · refine ⟨fun e => takeCancel_drops, fun he hm hplace hi => ?_, takeCancel_marks⟩
    subst hi
    exact takeCancel_full he hm hplace
  · refine ⟨⟨_, exec_schedTmplWrite h, rfl, rfl, ?_⟩, ⟨_, exec_schedTmplRead h, rfl, ?_⟩⟩
    · have hword (w : Nat) (hw : w < 4) := (tmplWord_tmplWrite req s.dev (fld (rd s.dev (ownOf req Reg.SCHED_TMPL_IDX)) 0 14) w hw).trans (if_pos rfl)
      refine ⟨(hword 0 (by decide)).trans (BitVec.and_zero ..), hword 1 (by decide), hword 2 (by decide), hword 3 (by decide), fun t' w ht hw => ?_⟩
      exact (tmplWord_tmplWrite req s.dev t' w hw).trans (if_neg ht)
    · exact rd_forEach_wr (tmplData_inj req) _ 4 s.dev
  · have hexec (v : W32) : access (Reg.SCHED_LEAF_PUSH p) (leafPush req p v s.clk) s.dev = leafPush req p v s.clk s.dev := access_open _ hopen
    refine ⟨fun hroom => ⟨?_, ?_⟩, fun hfull c hc => ?_⟩
    · have hslot : ∀ slot : Fin 8, fld (w32 slot) 0 3 = slot.val ∧ bit (w32 slot) 3 = false := by decide
      exact ⟨_, congrArg (nextDev s) (hexec _), rfl, leafPush_enters hclosed hroom (hslot slot).1 (hslot slot).2⟩
    · exact ⟨_, congrArg (nextDev s) (hexec _), rfl, leafPush_enters hclosed hroom (by decide) (by decide)⟩
    · rcases List.mem_pair.mp hc with rfl | rfl
      · exact ⟨_, congrArg (nextDev s) (hexec _), rfl, leafPush_drops hclosed hfull⟩
      · exact ⟨_, congrArg (nextDev s) (hexec _), rfl, leafPush_drops hclosed hfull⟩
  · refine ⟨fun hin => ?_, fun hin => ?_⟩
    · refine congrArg (fun d => nextDev s (settle s.clk d)) ((hostRelease_leaf hl hc hrun).trans ?_)
      simp [serveTurn, hin]
    · exact congrArg (fun d => nextDev s (settle s.clk d)) ((hostRelease_leaf hl hc hrun).trans (serveTurn_host hl hc hrun hframe hsends hdelay hin))
  · exact congrArg (fun d => nextDev s (settle s.clk d)) (hostRelease_cancel hl hc hrun)
  · refine ⟨fun ⟨hstop, hidle⟩ => ?_, fun h => ?_⟩
    · exact congrArg (nextDev s) ((accessSealed_open _ hopen).trans (congrArg (noteSeal _ _) (routeSetWrite_idle hstop hidle)))
    · refine ⟨_, congrArg (nextDev s) (accessSealed_routeLocked hopen h), rfl, rb_raiseSched (by decide) _, ?_⟩
      have hnoted : noted (raiseSched 5 s.dev) s.dev = s.dev := noted_of_bus (raiseAt_bus ..)
      rw [hnoted]
      exact onlyThese_raiseAt ..

end Sys2Proof.Machine

/-!
GPIO and I2C (R392).
-/

namespace Sys2Proof.Machine

/-! The board's event. -/

@[simp] theorem raiseBoard_sys (i : Nat) (d : Dev) : (raiseBoard i d).sys = d.sys := raiseAt_sys ..
@[simp] theorem raiseBoard_mem (i : Nat) (d : Dev) : (raiseBoard i d).mem = d.mem := raiseAt_mem ..

theorem rd_raiseBoard_ne {a : Nat} (i : Nat) (d : Dev) (h : a ≠ Reg.BOARD_EVENT) : rd (raiseBoard i d) a = rd d a := rd_raiseAt_ne d _ h

theorem rb_raiseBoard {i : Nat} (j : Nat) (d : Dev) (h : i < 32) :
    rb (raiseBoard i d) Reg.BOARD_EVENT j = (rb d Reg.BOARD_EVENT j || decide (i = j)) := by
  rw [rb, raiseBoard, rd_raiseAt_same, bit_or, bit_bitIf, Bool.true_and, rb]
  congr 2
  exact propext ⟨And.left, fun hij => ⟨hij, hij ▸ h⟩⟩

theorem rb_raiseBoard_same {i : Nat} (d : Dev) (h : i < 32) : rb (raiseBoard i d) Reg.BOARD_EVENT i = true := by
  rw [rb_raiseBoard i d h, decide_eq_true rfl, Bool.or_true]

theorem rb_raiseBoard_ne {i j : Nat} (d : Dev) (h : i < 32) (hij : i ≠ j) : rb (raiseBoard i d) Reg.BOARD_EVENT j = rb d Reg.BOARD_EVENT j := by
  rw [rb_raiseBoard j d h, decide_eq_false hij, Bool.or_false]

theorem onlyThese_raiseBoard (i : Nat) (d : Dev) : onlyThese [Reg.BOARD_EVENT] d (raiseBoard i d) := onlyThese_raiseAt ..

theorem onlyThese_wrBit (a i : Nat) (b : Bool) (d : Dev) : onlyThese [a] d (wrBit a i b d) := onlyThese_wr ..

/-! Bytes of words. -/

theorem byteAt_leBytes {n j : Nat} (h : j < n) (x : Nat) : byteAt (leBytes n x) j = BitVec.ofNat 8 (x / 256 ^ j) := by
  induction n generalizing x j with
  | zero => exact absurd h (Nat.not_lt_zero j)
  | succ n ih =>
    cases j with
    | zero => simp [leBytes, byteAt]
    | succ j =>
      rw [leBytes, byteAt, List.getD_cons_succ]
      refine (ih (Nat.lt_of_succ_lt_succ h) _).trans ?_
      rw [Nat.div_div_eq_div_mul, pow_succ']

theorem ofNat_ofLe (l : List W8) (j : Nat) : BitVec.ofNat 8 (ofLe l / 256 ^ j) = byteAt l j := by
  induction l generalizing j with
  | nil => simp [ofLe, byteAt]
  | cons b l ih =>
    have hb := b.isLt
    cases j with
    | zero =>
      apply BitVec.eq_of_toNat_eq
      simp only [ofLe, byteAt, List.getD_cons_zero, BitVec.toNat_ofNat]
      omega
    | succ j =>
      have hdiv : (b.toNat + 256 * ofLe l) / 256 = ofLe l := by omega
      rw [ofLe, pow_succ', ← Nat.div_div_eq_div_mul, hdiv, ih]
      exact List.getD_cons_succ.symm

/-- Byte j of a word. -/
theorem wordByte_eq (v : W32) (j : Nat) : (v >>> (8 * j)).truncate 8 = BitVec.ofNat 8 (v.toNat / 256 ^ j) := by
  apply BitVec.eq_of_toNat_eq
  rw [BitVec.truncate_eq_setWidth, BitVec.toNat_setWidth, BitVec.toNat_ushiftRight, Nat.shiftRight_eq_div_pow, BitVec.toNat_ofNat, pow_mul]
  rfl

/-- Byte j of a list of words, four bytes to each. -/
theorem byteAt_flatMap (f : Nat → List W8) (hf : ∀ w, (f w).length = 4) (n j : Nat) (hj : j < 4 * n) :
    byteAt ((List.range n).flatMap f) j = byteAt (f (j / 4)) (j % 4) := by
  have hlen (n : Nat) : ((List.range n).flatMap f).length = 4 * n := by simp [List.length_flatMap, hf, Nat.mul_comm]
  induction n with
  | zero => exact absurd hj (Nat.not_lt_zero j)
  | succ n ih =>
    rw [List.range_succ, List.flatMap_append, List.flatMap_singleton]
    by_cases h : j < 4 * n
    · rw [← ih h]
      exact List.getD_append _ _ _ _ (by rwa [hlen])
    · refine (List.getD_append_right _ _ _ _ (by rw [hlen]; omega)).trans ?_
      have hdiv : j / 4 = n := by omega
      have hmod : j - ((List.range n).flatMap f).length = j % 4 := by rw [hlen]; omega
      rw [hdiv, hmod]
      rfl

theorem byteAt_regBytes (d : Dev) (reg : Nat → Nat) (n j : Nat) (hj : j < 4 * n) :
    byteAt (regBytes d reg n) j = (rd d (reg (j / 4)) >>> (8 * (j % 4))).truncate 8 := by
  rw [regBytes, byteAt_flatMap _ (fun _ => leBytes_length ..) n j hj, byteAt_leBytes (Nat.mod_lt _ (by decide)), wordByte_eq]

theorem regBytes_length (d : Dev) (reg : Nat → Nat) (n : Nat) : (regBytes d reg n).length = 4 * n := by
  simp [regBytes, List.length_flatMap, Nat.mul_comm]

/-- What registers read after bytes were written to them. -/
theorem rd_putRegBytes {reg : Nat → Nat} (hreg : ∀ v w, reg v = reg w → v = w) (n : Nat) (l : List W8) (d : Dev) (j : Nat) (hj : j < 4 * n) :
    (rd (putRegBytes reg n l d) (reg (j / 4)) >>> (8 * (j % 4))).truncate 8 = byteAt l j := by
  have hword := (rd_forEach_wr hreg (fun w => w32 (ofLe (slice l (4 * w) 4))) n d).1 (j / 4) (by omega)
  have hslice : byteAt (slice l (4 * (j / 4)) 4) (j % 4) = byteAt l j := by
    have hj : 4 * (j / 4) + j % 4 = j := by omega
    have hlt : j % 4 < 4 := by omega
    simp [slice, byteAt, hlt, hj]
  have hfit : (w32 (ofLe (slice l (4 * (j / 4)) 4))).toNat = ofLe (slice l (4 * (j / 4)) 4) := by
    have hlt := ofLe_lt (slice l (4 * (j / 4)) 4)
    rw [slice, List.length_map, List.length_range] at hlt
    exact Nat.mod_eq_of_lt hlt
  rw [putRegBytes, hword, wordByte_eq, hfit, ofNat_ofLe, hslice]

theorem onlyThese_putRegBytes {reg : Nat → Nat} (hreg : ∀ v w, reg v = reg w → v = w) (n : Nat) (l : List W8) (d : Dev) :
    onlyThese ((List.range n).map reg) d (putRegBytes reg n l d) := (rd_forEach_wr hreg _ n d).2

/-! Bits of words. -/

theorem bit_and {n : Nat} (v w : BitVec n) (j : Nat) : bit (v &&& w) j = (bit v j && bit w j) := BitVec.getLsbD_and ..

theorem bit_not {n : Nat} (v : BitVec n) {j : Nat} (hj : j < n) : bit (~~~ v) j = !bit v j := by simp [bit, hj]

theorem bit_shiftRight {n : Nat} (v : BitVec n) (i j : Nat) : bit (v >>> i) j = bit v (i + j) := BitVec.getLsbD_ushiftRight ..

theorem bit_low16 (v : W32) (j : Nat) : bit (v &&& 0xFFFF) j = (bit v j && decide (j < 16)) := by
  have hmask : (0xFFFF : W32) = (BitVec.allOnes 16).setWidth 32 := by decide
  rw [bit_and, hmask, bit, bit, BitVec.getLsbD_setWidth, BitVec.getLsbD_allOnes]
  by_cases hj : j < 16
  · simp [hj, Nat.lt_trans hj (by decide : 16 < 32)]
  · simp [hj]

theorem bit_ext {n : Nat} {v w : BitVec n} (h : ∀ j < n, bit v j = bit w j) : v = w := BitVec.eq_of_getLsbD_eq h

/-! GPIO. -/

/-- The balls' edges that GPIO_EDGE selects. -/
def gpioHits (before after edge : W32) : W32 := (after &&& ~~~ before &&& edge >>> 16 ||| before &&& ~~~ after &&& edge) &&& 0xFFFF

theorem bit_gpioHits (before after edge : W32) {j : Nat} (hj : j < 32) : bit (gpioHits before after edge) j
    = ((bit after j && !bit before j && bit edge (16 + j) || bit before j && !bit after j && bit edge j) && decide (j < 16)) := by
  rw [gpioHits, bit_low16, bit_or, bit_and, bit_and, bit_and, bit_and, bit_not _ hj, bit_not _ hj, bit_shiftRight]

/-- Ball j is an output. -/
def gpioOut (d : Dev) (j : Nat) : Bool := rb d Reg.GPIO_DIR j && !d.sys.tripped

/-- The level at ball j. -/
theorem bit_gpioLevel (d : Dev) {j : Nat} (hj : j < 16) :
    bit (gpioLevel d) j = if gpioOut d j then rb d Reg.GPIO_OUT j else bit d.sys.gpioIn j := by
  have hlt : j < 32 := Nat.lt_trans hj (by decide)
  have hin : bit (d.sys.gpioIn.setWidth 32) j = bit d.sys.gpioIn j := by simp [bit, hlt]
  have hdir : bit (gpioDir d) j = gpioOut d j := by
    unfold gpioDir gpioOut
    cases d.sys.tripped with
    | true => simp [bit]
    | false => simp [rb]
  rw [gpioLevel, bit_or, bit_low16, bit_and, bit_and, bit_not _ hlt, hin, hdir, rb]
  cases gpioOut d j with
  | true => simp
  | false => simp [hj]

section
variable {i : Nat} {rising : Bool} {d : Dev}

/-- The device once the board drives ball i. -/
def driven (i : Nat) (rising : Bool) (d : Dev) : Dev := onSys (fun x => { x with gpioIn := setBit x.gpioIn i rising }) d

/-- An edge at ball i that GPIO_EDGE selects. -/
def gpioHit (i : Nat) (rising : Bool) (d : Dev) : Bool :=
  !gpioOut d i && bit d.sys.gpioIn i != rising && rb d Reg.GPIO_EDGE (if rising then 16 + i else i)

theorem bit_gpioLevel_driven (hi : i < 16) : bit (gpioLevel (driven i rising d)) i = if gpioOut d i then rb d Reg.GPIO_OUT i else rising := by
  have hset : bit (driven i rising d).sys.gpioIn i = rising := bit_setBit_same _ i rising hi
  rw [bit_gpioLevel _ hi, hset]
  rfl

theorem bit_gpioLevel_driven_ne {j : Nat} (hj : j < 16) (h : j ≠ i) : bit (gpioLevel (driven i rising d)) j = bit (gpioLevel d) j := by
  have hset : bit (driven i rising d).sys.gpioIn j = bit d.sys.gpioIn j := bit_setBit_ne _ i j rising h
  rw [bit_gpioLevel _ hj, bit_gpioLevel _ hj, hset]
  rfl

/-- Only ball i can make an edge. -/
theorem gpioHits_driven (hi : i < 16) : gpioHits (gpioLevel d) (gpioLevel (driven i rising d)) (rd d Reg.GPIO_EDGE)
    = bitIf i (gpioHit i rising d) := by
  refine bit_ext fun j hj => ?_
  rw [bit_gpioHits _ _ _ hj, bit_bitIf]
  by_cases h : j = i
  · subst h
    rw [bit_gpioLevel_driven hi, bit_gpioLevel _ hi, gpioHit]
    cases gpioOut d j with
    | true => simp
    | false => cases rising <;> cases bit d.sys.gpioIn j <;> simp [hi, hj, rb]
  · by_cases hlt : j < 16
    · simp [bit_gpioLevel_driven_ne hlt h, Ne.symm h]
    · simp [hlt, Ne.symm h]

/-- The board's event is raised at a selected edge of an enabled ball: that no bit stood enabled and one does says no more. -/
theorem gpioRaises (ev hits en : W32) : ((!(ev &&& en != 0) && (ev ||| hits) &&& en != 0) || hits &&& en != 0) = (hits &&& en != 0) := by
  by_cases h : hits &&& en = 0
  · have hor : (ev ||| hits) &&& en = ev &&& en ||| hits &&& en :=
      bit_ext fun j _ => by rw [bit_and, bit_or, bit_or, bit_and, bit_and, Bool.and_or_distrib_right]
    have hzero : ev &&& en ||| 0 = ev &&& en := BitVec.or_zero
    rw [hor, h, hzero, Bool.not_and_self, Bool.false_or]
  · rw [bne_iff_ne.mpr h, Bool.or_true]

theorem bitIf_and_ne_zero {i : Nat} (hi : i < 32) (b : Bool) (en : W32) : (bitIf i b &&& en != 0) = (b && bit en i) := by
  have hbit : bit (bitIf i b &&& en) i = (b && bit en i) := by simp [bit_and, bit_bitIf, hi]
  cases h : b && bit en i with
  | true =>
    refine bne_iff_ne.mpr fun hzero => ?_
    rw [h, hzero] at hbit
    exact absurd hbit (by simp [bit])
  | false =>
    rw [bne_eq_false_iff_eq]
    refine bit_ext fun j _ => ?_
    rw [bit_and, bit_bitIf]
    by_cases hij : i = j
    · subst hij
      simpa [hi, bit] using h
    · simp [hij, bit]

/-- The edges `hits` enter GPIO_EVENT, which read ev before. -/
def watched (ev hits : W32) (d : Dev) : Dev :=
  let e := wr Reg.GPIO_EVENT (ev ||| hits) d
  when ((!(ev &&& rd d Reg.GPIO_EVENT_EN != 0) && gpioEvent e) || hits &&& rd e Reg.GPIO_EVENT_EN != 0) (raiseBoard 0) e

theorem watched_eq (ev hits : W32) (d : Dev) : watched ev hits d
    = when (hits &&& rd d Reg.GPIO_EVENT_EN != 0) (raiseBoard 0) (wr Reg.GPIO_EVENT (ev ||| hits) d) := by
  have hen : rd (wr Reg.GPIO_EVENT (ev ||| hits) d) Reg.GPIO_EVENT_EN = rd d Reg.GPIO_EVENT_EN := rd_wr_ne _ _ (by decide)
  simp only [watched, gpioEvent, rd_wr_same, hen, gpioRaises]

theorem gpioWatch_driven (hi : i < 16) : gpioWatch (onSys fun x => { x with gpioIn := setBit x.gpioIn i rising }) d
    = when (gpioHit i rising d && rb d Reg.GPIO_EVENT_EN i) (raiseBoard 0)
        (wr Reg.GPIO_EVENT (rd d Reg.GPIO_EVENT ||| bitIf i (gpioHit i rising d)) (driven i rising d)) := by
  have hwatch : gpioWatch (onSys fun x => { x with gpioIn := setBit x.gpioIn i rising }) d
      = watched (rd d Reg.GPIO_EVENT) (gpioHits (gpioLevel d) (gpioLevel (driven i rising d)) (rd d Reg.GPIO_EDGE)) (driven i rising d) := rfl
  rw [hwatch, watched_eq, gpioHits_driven hi, bitIf_and_ne_zero (Nat.lt_trans hi (by decide))]
  rfl

end

/-! I2C. -/

section
variable {c : Fin 2} {s : State} {req : Req} {v : W32}

theorem i2cXfer_ne_status (c : Nat) : Reg.I2C_XFER c ≠ Reg.I2C_STATUS c := by
  simp only [Reg.I2C_XFER, Reg.I2C_STATUS]
  omega

theorem i2cBuf_ne (c w : Nat) : Reg.I2C_BUF c w ≠ Reg.I2C_XFER c ∧ Reg.I2C_BUF c w ≠ Reg.I2C_STATUS c := by
  simp only [Reg.I2C_XFER, Reg.I2C_STATUS, Reg.I2C_BUF]
  omega

theorem i2cBuf_inj (c v w : Nat) (h : Reg.I2C_BUF c v = Reg.I2C_BUF c w) : v = w := by
  simp only [Reg.I2C_BUF] at h
  omega

theorem i2c_ne_board (c : Fin 2) : Reg.I2C_XFER c ≠ Reg.BOARD_EVENT ∧ Reg.I2C_STATUS c ≠ Reg.BOARD_EVENT
    ∧ ∀ w < 8, Reg.I2C_BUF c w ≠ Reg.BOARD_EVENT := by
  have hc := c.isLt
  simp only [Reg.I2C_XFER, Reg.I2C_STATUS, Reg.I2C_BUF, Reg.BOARD_EVENT]
  refine ⟨by omega, by omega, fun w hw => by omega⟩

theorem i2cXferWrite_stays (c : Nat) (v : W32) (d : Dev)
    (h : (Tab.get none d.sys.i2c c).isSome = true ∨ rb d (Reg.I2C_CTL c) 31 = false ∨ d.sys.tripped = true) :
    i2cXferWrite c v d = wr (Reg.I2C_XFER c) (v &&& 0x7F3F3F00 ||| bitIf 0 (Tab.get none d.sys.i2c c).isSome) d := by
  have hgo : (bit v 0 && !(Tab.get none d.sys.i2c c).isSome && rb d (Reg.I2C_CTL c) 31 && !d.sys.tripped) = false := by
    rcases h with h | h | h
    · simp [h]
    · simp [h]
    · simp [h]
  simp only [i2cXferWrite, hgo, Bool.or_false, Bool.false_eq_true, if_false]

/-- The transfer that a GO of v starts. -/
def i2cStarted (c : Nat) (v : W32) (d : Dev) : I2cRun :=
  { addr := fld v 24 7, out := (i2cBuf d c).take (min 32 (fld v 16 6)), rlen := min 32 (fld v 8 6) }

theorem i2cXferWrite_starts {c : Nat} {v : W32} {d : Dev} (hv : bit v 0 = true) (hidle : Tab.get none d.sys.i2c c = none)
    (hen : rb d (Reg.I2C_CTL c) 31 = true) (hup : d.sys.tripped = false) : i2cXferWrite c v d =
      wr (Reg.I2C_STATUS c) 1 (setI2c c (some (i2cStarted c v d)) (wr (Reg.I2C_XFER c) (v &&& 0x7F3F3F00 ||| 1) d)) := by
  have hbuf : i2cBuf (wr (Reg.I2C_XFER c) (v &&& 0x7F3F3F00 ||| 1) d) c = i2cBuf d c := by
    simp only [i2cBuf, regBytes, rd_wr_ne _ _ (i2cBuf_ne c _).1]
  have hone : (bitIf 0 true : W32) = 1 := by decide
  simp only [i2cXferWrite, hv, hidle, hen, hup, Option.isSome_none, Bool.not_false, Bool.and_self, Bool.false_or, hone, if_pos, hbuf]
  rfl

theorem i2cStarted_length (c : Nat) (v : W32) (d : Dev) : (i2cStarted c v d).out.length = min 32 (fld v 16 6) := by
  simp only [i2cStarted, List.length_take, i2cBuf, regBytes_length]
  omega

theorem i2cStarted_out {c : Nat} {v : W32} {d : Dev} {j : Nat} (hj : j < (i2cStarted c v d).out.length) :
    (i2cStarted c v d).out.getD j 0 = (rd d (Reg.I2C_BUF c (j / 4)) >>> (8 * (j % 4))).truncate 8 := by
  rw [i2cStarted_length] at hj
  rw [← byteAt_regBytes d (Reg.I2C_BUF c) 8 j (by omega)]
  simp only [i2cStarted, List.getD]
  rw [List.getElem?_take_of_lt hj]
  rfl

/-- Once the transfer has left the controller: the data of one that is done, its status, the end of BUSY and the board's event. -/
def i2cEnded (c : Nat) (o : I2cEnd) (status : W32) (l : List W8) (d : Dev) : Dev :=
  raiseBoard (1 + c) (wrBit (Reg.I2C_XFER c) 0 false (wr (Reg.I2C_STATUS c) status
    (when (o == .done) (putRegBytes (Reg.I2C_BUF c) 8 l) (setI2c c none d))))

/-- The status of an end. -/
def i2cStatus : I2cEnd → W32
  | .done => 0
  | .nack => 4
  | .arbLost => 2

theorem i2cEnd_none {c : Nat} {o : I2cEnd} {data : List W8} {d : Dev} (h : Tab.get none d.sys.i2c c = none) : i2cEnd c o data d = d := by
  simp only [i2cEnd, h]

theorem i2cEnd_some {c : Nat} {o : I2cEnd} {data : List W8} {d : Dev} {x : I2cRun} (h : Tab.get none d.sys.i2c c = some x) :
    i2cEnd c o data d = i2cEnded c o (i2cStatus o) (splice (i2cBuf d c) 0 (data.take x.rlen)) d := by
  simp only [i2cEnd, h]
  cases o with
  | done => rfl
  | nack => rfl
  | arbLost => rfl

end

end Sys2Proof.Machine

/-!
The commands of GPIO and I2C (R392).
-/

namespace Sys2Proof.Machine

/-! Updates that leave what is around the device. -/

theorem when_sys {f : Dev → Dev} (hf : ∀ d, (f d).sys = d.sys) (c : Bool) (d : Dev) : (when c f d).sys = d.sys := when_keeps d (·.sys) c f hf

@[simp] theorem putRegBytes_sys (reg : Nat → Nat) (n : Nat) (l : List W8) (d : Dev) : (putRegBytes reg n l d).sys = d.sys :=
  forEach_keeps d (·.sys) (fun w => wr (reg w) (w32 (ofLe (slice l (4 * w) 4)))) (fun _ _ => rfl) _

theorem rd_when_raiseBoard {a : Nat} (c : Bool) (i : Nat) (d : Dev) (h : a ≠ Reg.BOARD_EVENT) : rd (when c (raiseBoard i) d) a = rd d a :=
  when_keeps d (rd · a) c _ fun d => rd_raiseBoard_ne i d h

theorem rb_when_raiseBoard {i : Nat} (c : Bool) (d : Dev) (h : i < 32) :
    rb (when c (raiseBoard i) d) Reg.BOARD_EVENT i = (rb d Reg.BOARD_EVENT i || c) := by
  cases c with
  | false => exact (Bool.or_false _).symm
  | true => exact (rb_raiseBoard i d h).trans (by simp)

/-! GPIO_EDGE. -/

theorem exec_gpioEdge (i : Fin 16) (rising : Bool) (s : State) : ∃ t, exec (.gpioEdge i rising) s = .next t ∧ t.clk = s.clk
    ∧ t.dev.sys = { s.dev.sys with gpioIn := setBit s.dev.sys.gpioIn i rising }
    ∧ onlyThese [Reg.GPIO_EVENT, Reg.BOARD_EVENT] { s.dev with sys := t.dev.sys } t.dev
    ∧ (∀ j < 16, j ≠ i.val → rb t.dev Reg.GPIO_EVENT j = rb s.dev Reg.GPIO_EVENT j)
    ∧ rb t.dev Reg.GPIO_EVENT i = (rb s.dev Reg.GPIO_EVENT i || gpioHit i rising s.dev)
    ∧ (bit (gpioLevel t.dev) i = if gpioOut s.dev i = true then rb s.dev Reg.GPIO_OUT i else rising)
    ∧ rb t.dev Reg.BOARD_EVENT 0 = (rb s.dev Reg.BOARD_EVENT 0 || (gpioHit i rising s.dev && rb s.dev Reg.GPIO_EVENT_EN i)) := by
  have hexec := congrArg (nextDev s) (gpioWatch_driven (rising := rising) (d := s.dev) i.isLt)
  generalize hw : wr Reg.GPIO_EVENT (rd s.dev Reg.GPIO_EVENT ||| bitIf i (gpioHit i rising s.dev)) (driven i rising s.dev) = w at hexec
  have hevent : rd w Reg.GPIO_EVENT = rd s.dev Reg.GPIO_EVENT ||| bitIf i (gpioHit i rising s.dev) := by rw [← hw, rd_wr_same]
  have hother {a : Nat} (h : a ≠ Reg.GPIO_EVENT) : rd w a = rd s.dev a := by
    rw [← hw, rd_wr_ne _ _ h]
    rfl
  have hlt : i.val < 32 := Nat.lt_trans i.isLt (by decide)
  have hsys {c : Bool} : (when c (raiseBoard 0) w).sys = { s.dev.sys with gpioIn := setBit s.dev.sys.gpioIn i rising } := by
    rw [when_sys (raiseBoard_sys 0), ← hw]
    rfl
  refine ⟨_, hexec, rfl, hsys, ?_, fun j hj hne => ?_, ?_, ?_, ?_⟩
  · have hhit : onlyThese [Reg.GPIO_EVENT] (driven i rising s.dev) w := by
      rw [← hw]
      exact onlyThese_wr ..
    rw [hsys]
    exact hhit.trans (onlyThese_when _ (onlyThese_raiseBoard ..))
  · simp only [rb, rd_when_raiseBoard _ _ _ (by decide : Reg.GPIO_EVENT ≠ Reg.BOARD_EVENT), hevent, bit_or, bit_bitIf]
    simp [Ne.symm hne]
  · simp only [rb, rd_when_raiseBoard _ _ _ (by decide : Reg.GPIO_EVENT ≠ Reg.BOARD_EVENT), hevent, bit_or, bit_bitIf]
    simp [hlt]
  · rw [bit_gpioLevel _ i.isLt]
    simp only [gpioOut, rb, rd_when_raiseBoard _ _ _ (by decide : Reg.GPIO_DIR ≠ Reg.BOARD_EVENT),
      rd_when_raiseBoard _ _ _ (by decide : Reg.GPIO_OUT ≠ Reg.BOARD_EVENT), hother (by decide : Reg.GPIO_DIR ≠ Reg.GPIO_EVENT),
      hother (by decide : Reg.GPIO_OUT ≠ Reg.GPIO_EVENT), hsys, bit_setBit_same _ _ _ i.isLt]
    rfl
  · rw [rb_when_raiseBoard _ _ (by decide), rb, hother (by decide)]
    rfl

/-! I2C_GO. -/

theorem i2c_setI2c_same (c : Nat) (x : Option I2cRun) (d : Dev) : Tab.get none (setI2c c x d).sys.i2c c = x := Tab.get_put_same ..

theorem i2c_setI2c_ne {c e : Nat} (x : Option I2cRun) (d : Dev) (h : e ≠ c) : Tab.get none (setI2c c x d).sys.i2c e = Tab.get none d.sys.i2c e :=
  Tab.get_put_ne _ _ _ _ _ h

section
variable {c : Fin 2} {s : State} {req : Req} {v : W32}

theorem exec_i2cGo (hopen : csrShut s.dev (Reg.I2C_XFER c) = false) (hv : bit v 0 = true) :
    exec (.i2cGo req c v) s = nextDev s (i2cXferWrite c v s.dev) := by
  refine congrArg (nextDev s) ((access_open _ hopen).trans ?_)
  rw [hv]
  rfl

theorem exec_i2cGo_idle (hopen : csrShut s.dev (Reg.I2C_XFER c) = false) (hv : bit v 0 = false) : exec (.i2cGo req c v) s = .next s := by
  refine congrArg (nextDev s) ((access_open _ hopen).trans ?_)
  rw [hv]
  rfl

/-- A GO that is discarded. -/
theorem exec_i2cGo_stays (hopen : csrShut s.dev (Reg.I2C_XFER c) = false) (hv : bit v 0 = true)
    (h : (Tab.get none s.dev.sys.i2c c).isSome = true ∨ rb s.dev (Reg.I2C_CTL c) 31 = false ∨ s.dev.sys.tripped = true) :
    exec (.i2cGo req c v) s = nextDev s (wr (Reg.I2C_XFER c) (v &&& 0x7F3F3F00 ||| bitIf 0 (Tab.get none s.dev.sys.i2c c).isSome) s.dev) := by
  rw [exec_i2cGo hopen hv, i2cXferWrite_stays _ _ _ h]

/-- A GO that starts a transfer. -/
theorem exec_i2cGo_starts (hopen : csrShut s.dev (Reg.I2C_XFER c) = false) (hv : bit v 0 = true) (hidle : Tab.get none s.dev.sys.i2c c = none)
    (hen : rb s.dev (Reg.I2C_CTL c) 31 = true) (hup : s.dev.sys.tripped = false) : ∃ t, exec (.i2cGo req c v) s = .next t ∧ t.clk = s.clk
      ∧ rd t.dev (Reg.I2C_XFER c) = v &&& 0x7F3F3F00 ||| 1 ∧ rd t.dev (Reg.I2C_STATUS c) = 1
      ∧ onlyThese [Reg.I2C_XFER c, Reg.I2C_STATUS c] { s.dev with sys := t.dev.sys } t.dev
      ∧ t.dev.sys = { s.dev.sys with i2c := t.dev.sys.i2c } ∧ (∀ e, e ≠ c.val → Tab.get none t.dev.sys.i2c e = Tab.get none s.dev.sys.i2c e)
      ∧ Tab.get none t.dev.sys.i2c c = some (i2cStarted c v s.dev) := by
  have hexec := exec_i2cGo (req := req) hopen hv
  rw [i2cXferWrite_starts hv hidle hen hup] at hexec
  refine ⟨_, hexec, rfl, ?_, rd_wr_same .., ?_, rfl, fun e he => i2c_setI2c_ne _ s.dev he, i2c_setI2c_same _ _ s.dev⟩
  · rw [rd_wr_ne _ _ (i2cXfer_ne_status c)]
    exact rd_wr_same ..
  · exact (onlyThese_wr (Reg.I2C_XFER c) _ (setI2c c (some (i2cStarted c v s.dev)) s.dev)).trans (onlyThese_wr ..)

/-! I2C_DONE. -/

/-- The bytes that a read leaves in the buffer. -/
theorem byteAt_splice_take (l data : List W8) {n : Nat} (hdata : n ≤ data.length) (j : Nat) :
    byteAt (splice l 0 (data.take n)) j = if j < n then data.getD j 0 else byteAt l j := by
  have hlen : (data.take n).length = n := List.length_take_of_le hdata
  rw [splice, List.take_zero, List.nil_append, Nat.zero_add, hlen]
  unfold byteAt
  split
  · next h =>
    rw [List.getD_append _ _ _ _ (by rwa [hlen])]
    simp [List.getD, h]
  · next h =>
    rw [List.getD_append_right _ _ _ _ (by rw [hlen]; omega), hlen]
    simp only [List.getD, List.getElem?_drop, Nat.add_sub_cancel' (Nat.not_lt.mp h)]

/-- The device once its controller c is idle and the bytes read are in place. -/
def i2cFilled (c : Nat) (o : I2cEnd) (l : List W8) (d : Dev) : Dev := when (o == .done) (putRegBytes (Reg.I2C_BUF c) 8 l) (setI2c c none d)

theorem i2cFilled_done (c : Nat) (l : List W8) (d : Dev) : i2cFilled c .done l d = putRegBytes (Reg.I2C_BUF c) 8 l (setI2c c none d) := rfl

theorem onlyThese_i2cFilled (c : Nat) (o : I2cEnd) (l : List W8) (d : Dev) :
    onlyThese ((List.range 8).map fun w => Reg.I2C_BUF c w) (setI2c c none d) (i2cFilled c o l d) :=
  onlyThese_when _ (onlyThese_putRegBytes (i2cBuf_inj c) 8 l _)

theorem i2cFilled_sys (c : Nat) (o : I2cEnd) (l : List W8) (d : Dev) : (i2cFilled c o l d).sys = (setI2c c none d).sys :=
  when_sys (putRegBytes_sys _ _ _) ..

theorem i2cFilled_byte (c : Nat) (o : I2cEnd) (l : List W8) (d : Dev) {j : Nat} (hj : j < 32) :
    (rd (i2cFilled c o l d) (Reg.I2C_BUF c (j / 4)) >>> (8 * (j % 4))).truncate 8
      = if o = .done then byteAt l j else (rd d (Reg.I2C_BUF c (j / 4)) >>> (8 * (j % 4))).truncate 8 := by
  cases o with
  | done => rw [if_pos rfl, i2cFilled_done, rd_putRegBytes (i2cBuf_inj c) 8 l _ j hj]
  | nack => rfl
  | arbLost => rfl

/-- What the end of a transfer leaves, its data apart. -/
theorem i2cEnded_leaves (c : Fin 2) (o : I2cEnd) (status : W32) (l : List W8) (d : Dev) : let e := i2cEnded c o status l d
    e.sys = (setI2c c none d).sys ∧ rd e (Reg.I2C_STATUS c) = status ∧ rb e (Reg.I2C_XFER c) 0 = false ∧ rb e Reg.BOARD_EVENT (1 + c.val) = true
      ∧ (∀ w < 8, rd e (Reg.I2C_BUF c w) = rd (i2cFilled c o l d) (Reg.I2C_BUF c w))
      ∧ onlyThese ([Reg.I2C_STATUS c, Reg.I2C_XFER c, Reg.BOARD_EVENT] ++ (List.range 8).map fun w => Reg.I2C_BUF c w) (setI2c c none d) e := by
  intro e
  have hc := c.isLt
  obtain ⟨hxfer, hstatus, hbuf⟩ := i2c_ne_board c
  have he : e = raiseBoard (1 + c) (wrBit (Reg.I2C_XFER c) 0 false (wr (Reg.I2C_STATUS c) status (i2cFilled c o l d))) := rfl
  rw [he]
  refine ⟨?_, ?_, ?_, ?_, fun w hw => ?_, ?_⟩
  · rw [raiseBoard_sys, ← i2cFilled_sys c o l d]
    rfl
  · rw [rd_raiseBoard_ne _ _ hstatus, rd_wrBit_ne _ _ _ (i2cXfer_ne_status c).symm, rd_wr_same]
  · rw [rb, rd_raiseBoard_ne _ _ hxfer, rd_wrBit_same, bit_setBit_same _ _ _ (by decide)]
  · rw [rb_raiseBoard _ _ (by omega), decide_eq_true rfl, Bool.or_true]
  · rw [rd_raiseBoard_ne _ _ (hbuf w hw), rd_wrBit_ne _ _ _ (i2cBuf_ne c w).1, rd_wr_ne _ _ (i2cBuf_ne c w).2]
  · refine ((((onlyThese_i2cFilled c o l d).trans (onlyThese_wr ..)).trans (onlyThese_wrBit ..)).trans (onlyThese_raiseBoard ..)).mono fun a ha => ?_
    simp only [List.mem_append, List.mem_cons, List.not_mem_nil, or_false] at ha ⊢
    tauto

theorem exec_i2cDone_none {o : I2cEnd} {data : List W8} (h : Tab.get none s.dev.sys.i2c c = none) : exec (.i2cDone c o data) s = .next s :=
  congrArg (nextDev s) (i2cEnd_none h)

theorem exec_i2cDone_some {o : I2cEnd} {data : List W8} {x : I2cRun} (h : Tab.get none s.dev.sys.i2c c = some x) :
    exec (.i2cDone c o data) s = nextDev s (i2cEnded c o (i2cStatus o) (splice (i2cBuf s.dev c) 0 (data.take x.rlen)) s.dev) :=
  congrArg (nextDev s) (i2cEnd_some h)

theorem exec_i2cDone_leaves {o : I2cEnd} {data : List W8} {x : I2cRun} (h : Tab.get none s.dev.sys.i2c c = some x) (hdata : x.rlen ≤ data.length) :
    ∃ t, exec (.i2cDone c o data) s = .next t ∧ t.clk = s.clk ∧ Tab.get none t.dev.sys.i2c c = none
      ∧ rd t.dev (Reg.I2C_STATUS c) = i2cStatus o ∧ rb t.dev (Reg.I2C_XFER c) 0 = false
      ∧ rb t.dev Reg.BOARD_EVENT (1 + c.val) = true
      ∧ (∀ j < 32, (rd t.dev (Reg.I2C_BUF c (j / 4)) >>> (8 * (j % 4))).truncate 8 =
          if o = .done ∧ j < x.rlen then data.getD j 0 else (rd s.dev (Reg.I2C_BUF c (j / 4)) >>> (8 * (j % 4))).truncate 8)
      ∧ onlyThese ([Reg.I2C_STATUS c, Reg.I2C_XFER c, Reg.BOARD_EVENT] ++ (List.range 8).map fun w => Reg.I2C_BUF c w)
          { s.dev with sys := t.dev.sys } t.dev := by
  obtain ⟨hsys, hstatus, hbusy, hboard, hbuf, honly⟩ :=
    i2cEnded_leaves c o (i2cStatus o) (splice (i2cBuf s.dev c) 0 (data.take x.rlen)) s.dev
  refine ⟨_, exec_i2cDone_some h, rfl, ?_, hstatus, hbusy, hboard, fun j hj => ?_, ?_⟩
  · rw [hsys]
    exact i2c_setI2c_same ..
  · rw [hbuf _ (by omega), i2cFilled_byte _ _ _ _ hj, byteAt_splice_take _ _ hdata, i2cBuf, byteAt_regBytes _ _ 8 _ hj]
    by_cases ho : o = .done
    · simp [ho]
    · simp [ho]
  · rw [hsys]
    exact honly

/-- A clock stretch that is too long ends as a NACK. -/
theorem exec_i2cStretchTimeout : ∃ t, exec (.i2cStretchTimeout c) s = .next t ∧ t.clk = s.clk
    ∧ Tab.get none t.dev.sys.i2c c = none ∧ ((Tab.get none s.dev.sys.i2c c).isSome = true → rd t.dev (Reg.I2C_STATUS c) = 4) := by
  cases h : Tab.get none s.dev.sys.i2c c with
  | none => exact ⟨s, exec_i2cDone_none (o := .nack) (data := []) h, rfl, h, fun hsome => by cases hsome⟩
  | some x =>
    obtain ⟨hsys, hstatus, -⟩ := i2cEnded_leaves c .nack (i2cStatus .nack) (splice (i2cBuf s.dev c) 0 (List.take x.rlen [])) s.dev
    refine ⟨_, exec_i2cDone_some (o := .nack) (data := []) h, rfl, ?_, fun _ => hstatus⟩
    rw [hsys]
    exact i2c_setI2c_same ..

end

end Sys2Proof.Machine

/-!
SPI, UART and MDIO (R392).
-/

namespace Sys2Proof.Machine

/-! Fields. -/

/-- A field at the foot of a word does not see a bit above it. -/
theorem fld_setBit_high (v : W32) {len i : Nat} (b : Bool) (h : len ≤ i) : fld (setBit v i b) 0 len = fld v 0 len := by
  rw [fld_toNat_setWidth, fld_toNat_setWidth]
  refine congrArg BitVec.toNat (bit_ext fun j hj => ?_)
  have hbit := bit_setBit_ne v i j b (by omega)
  simp only [bit] at hbit
  simp [bit, hj, hbit]

theorem bumpFld_sys (a lo len n : Nat) (d : Dev) : (bumpFld a lo len n d).sys = d.sys := rfl

theorem rf_bumpFld_top (a : Nat) (d : Dev) : rf (bumpFld a 24 8 1 d) a 24 8 = min 255 (rf d a 24 8 + 1) := by
  have hv := (rd d a).isLt
  simp only [rf, bumpFld, wrFld, rd_wr_same, fld, setFld, BitVec.toNat_ofNat]
  omega

/-! SPI. -/

/-- What SPI_CMD.GO sends, and the device once it has read it. -/
def spiSent (op : W32) (mem : Nat) (d : Dev) : List W8 × Dev :=
  if !bit op 15 then ([], d) else match load mem (spiLen op) d with | (some bs, d) => (bs, d) | (none, d) => freeBytes (spiLen op) d

theorem freeBytes_mem (n : Nat) (d : Dev) : (freeBytes n d).2.mem = d.mem := by
  induction n generalizing d with
  | zero => rfl
  | succ n ih => exact ih _

theorem freeBytes_length (n : Nat) (d : Dev) : (freeBytes n d).1.length = n := by
  induction n generalizing d with
  | zero => rfl
  | succ n ih => exact congrArg (· + 1) (ih _)

section
variable {op : W32} {mem : Nat} {d : Dev}

theorem spiSent_read (h : bit op 15 = false) : spiSent op mem d = ([], d) := by simp [spiSent, h]

theorem spiSent_write (h : bit op 15 = true) : spiSent op mem d = if uncorrectable d mem (spiLen op) then freeBytes (spiLen op) (load mem (spiLen op) d).2
    else (getBytes d mem (spiLen op), (load mem (spiLen op) d).2) := by
  by_cases hbad : uncorrectable d mem (spiLen op) = true
  · simp [spiSent, h, load, hbad]
  · simp [spiSent, h, load, hbad]

theorem spiSent_mem : (spiSent op mem d).2.mem = d.mem := by
  cases h : bit op 15 with
  | false => rw [spiSent_read h]
  | true =>
    rw [spiSent_write h]
    split
    · rw [freeBytes_mem, load_mem]
    · exact load_mem ..

theorem spiSent_length (h : bit op 15 = true) : (spiSent op mem d).1.length = spiLen op := by
  rw [spiSent_write h]
  split
  · exact freeBytes_length ..
  · exact getBytes_length ..

theorem spiSent_bytes (h : bit op 15 = true) (hok : uncorrectable d mem (spiLen op) = false) : (spiSent op mem d).1 = getBytes d mem (spiLen op) := by
  rw [spiSent_write h, hok]
  rfl

end

/-- The controller is free: Scarab does not own it, no transfer runs, and the device has not tripped. -/
def spiFree (d : Dev) : Prop := rb d Reg.SPI_STATUS 2 = false ∧ d.sys.spi = none ∧ d.sys.tripped = false

/-- The memory range of a GO. -/
def spiRanged (d : Dev) : Prop := spiLen (rd d Reg.SPI_OP) = 0 ∨ inShared d (rd64 d Reg.SPI_MEM_LO).toNat (spiLen (rd d Reg.SPI_OP)) = true

/-- The device once a transfer has begun. -/
def spiBegun (d : Dev) : Dev :=
  let x := spiSent (rd d Reg.SPI_OP) (rd64 d Reg.SPI_MEM_LO).toNat d
  wrBit Reg.SPI_CMD 0 true (wr Reg.SPI_STATUS 1 (onSys (fun y => { y with spi := some {
    op := rd d Reg.SPI_OP, addr := rd d Reg.SPI_ADDR, mem := (rd64 d Reg.SPI_MEM_LO).toNat, out := x.1 } }) x.2))

section
variable {d : Dev}

theorem spiBusy_iff (d : Dev) : (rb d Reg.SPI_STATUS 2 || d.sys.spi.isSome || d.sys.tripped) = true ↔ ¬ spiFree d := by
  simp only [spiFree, Bool.or_eq_true, Option.isSome_iff_ne_none, not_and_or, Bool.not_eq_false, or_assoc, ne_eq]

theorem spiRanged_iff (d : Dev) : (!(spiLen (rd d Reg.SPI_OP) == 0 || inShared d (rd64 d Reg.SPI_MEM_LO).toNat (spiLen (rd d Reg.SPI_OP)))) = true
    ↔ ¬ spiRanged d := by
  simp [spiRanged]

theorem spiGo_busy (h : ¬ spiFree d) : spiGo d = d := if_pos ((spiBusy_iff d).mpr h)

theorem spiGo_badRange (h : spiFree d) (hr : ¬ spiRanged d) : spiGo d = raiseBoard 4 (wr Reg.SPI_STATUS 2 d) :=
  (if_neg fun hb => (spiBusy_iff d).mp hb h).trans (if_pos ((spiRanged_iff d).mpr hr))

theorem spiGo_begins (h : spiFree d) (hr : spiRanged d) : spiGo d = spiBegun d :=
  (if_neg fun hb => (spiBusy_iff d).mp hb h).trans (if_neg fun hb => (spiRanged_iff d).mp hb hr)

/-- The device once the data of a transfer is in memory. -/
def spiStored (x : SpiRun) (data : List W8) (d : Dev) : Dev :=
  when (!bit x.op 15) (store x.mem (data.take (spiLen x.op))) (onSys (fun y => { y with spi := none }) d)

theorem spiDone_none {data : List W8} (h : d.sys.spi = none) : spiDone data d = d := by simp only [spiDone, h]

theorem spiDone_some {data : List W8} {x : SpiRun} (h : d.sys.spi = some x) : spiDone data d = raiseBoard 4 (wrBit Reg.SPI_CMD 0 false
    (wr Reg.SPI_STATUS (rd (spiStored x data d) Reg.SPI_STATUS &&& 4) (spiStored x data d))) := by
  simp only [spiDone, h]
  rfl

end

section
variable {s : State} {req : Req}

theorem exec_spiGo (hopen : csrShut s.dev Reg.SPI_CMD = false) : exec (.spiGo req) s = nextDev s (spiGo s.dev) :=
  congrArg (nextDev s) (access_open _ hopen)

theorem exec_spiGo_badRange (hopen : csrShut s.dev Reg.SPI_CMD = false) (h : spiFree s.dev) (hr : ¬ spiRanged s.dev) :
    ∃ t, exec (.spiGo req) s = .next t ∧ t.clk = s.clk ∧ rd t.dev Reg.SPI_STATUS = 2 ∧ t.dev.sys = s.dev.sys
      ∧ onlyThese [Reg.SPI_STATUS, Reg.BOARD_EVENT] s.dev t.dev := by
  have hexec := exec_spiGo (req := req) hopen
  rw [spiGo_badRange h hr] at hexec
  refine ⟨_, hexec, rfl, ?_, raiseBoard_sys .., (onlyThese_wr ..).trans (onlyThese_raiseBoard ..)⟩
  exact (rd_raiseBoard_ne _ _ (by decide)).trans (rd_wr_same ..)

theorem exec_spiGo_begins (hopen : csrShut s.dev Reg.SPI_CMD = false) (h : spiFree s.dev) (hr : spiRanged s.dev) :
    let op := rd s.dev Reg.SPI_OP
    let mem := (rd64 s.dev Reg.SPI_MEM_LO).toNat
    ∃ t, exec (.spiGo req) s = .next t ∧ t.clk = s.clk ∧ rd t.dev Reg.SPI_STATUS = 1 ∧ t.dev.mem = s.dev.mem ∧ rb t.dev Reg.SPI_CMD 0 = true
      ∧ ∃ x, t.dev.sys.spi = some x ∧ x.op = op ∧ x.addr = rd s.dev Reg.SPI_ADDR ∧ x.mem = mem ∧ (bit op 15 = false → x.out = [])
        ∧ (bit op 15 = true → x.out.length = spiLen op ∧ (uncorrectable s.dev mem (spiLen op) = false → x.out = getBytes s.dev mem (spiLen op))) := by
  intro op mem
  have hexec := exec_spiGo (req := req) hopen
  rw [spiGo_begins h hr] at hexec
  refine ⟨_, hexec, rfl, ?_, spiSent_mem, ?_, _, rfl, rfl, rfl, rfl, fun hop => congrArg Prod.fst (spiSent_read hop),
    fun hop => ⟨spiSent_length hop, spiSent_bytes hop⟩⟩
  · exact (rd_wrBit_ne _ _ _ (by decide)).trans (rd_wr_same ..)
  · exact (congrArg (bit · 0) (rd_wrBit_same ..)).trans (bit_setBit_same _ _ _ (by decide))

theorem spiStored_sys (x : SpiRun) (data : List W8) (d : Dev) : (spiStored x data d).sys.spi = none := by
  have hsys := when_sys (f := store x.mem (data.take (spiLen x.op))) (store_sys _ _) (!bit x.op 15) (onSys (fun y => { y with spi := none }) d)
  exact congrArg (·.spi) hsys

theorem exec_spiDone {data : List W8} {x : SpiRun} (h : s.dev.sys.spi = some x) :
    ∃ t, exec (.spiDone data) s = .next t ∧ t.clk = s.clk ∧ t.dev.sys.spi = none ∧ rb t.dev Reg.BOARD_EVENT 4 = true
      ∧ rb t.dev Reg.SPI_STATUS 0 = false ∧ rb t.dev Reg.SPI_STATUS 1 = false ∧ (bit x.op 15 = true → sameMemory s.dev t.dev)
      ∧ (bit x.op 15 = false → sameOutside x.mem (spiLen x.op) s.dev t.dev ∧ (spiLen x.op ≤ data.length →
          ∀ j < spiLen x.op, getByte t.dev (x.mem + j) = data.getD j 0)) := by
  have hexec := congrArg (nextDev s) (spiDone_some (data := data) h)
  generalize hd : spiStored x data s.dev = d at hexec
  have hmem : (raiseBoard 4 (wrBit Reg.SPI_CMD 0 false (wr Reg.SPI_STATUS (rd d Reg.SPI_STATUS &&& 4) d))).mem = d.mem := raiseBoard_mem ..
  have hstatus : rd (raiseBoard 4 (wrBit Reg.SPI_CMD 0 false (wr Reg.SPI_STATUS (rd d Reg.SPI_STATUS &&& 4) d))) Reg.SPI_STATUS
      = rd d Reg.SPI_STATUS &&& 4 := by
    rw [rd_raiseBoard_ne _ _ (by decide), rd_wrBit_ne _ _ _ (by decide), rd_wr_same]
  have hlow (i : Nat) (hi : bit (4 : W32) i = false) : bit (rd d Reg.SPI_STATUS &&& 4) i = false := by rw [bit_and, hi, Bool.and_false]
  refine ⟨_, hexec, rfl, ?_, ?_, ?_, ?_, fun hop => ?_, fun hop => ⟨fun y hy => ?_, fun hlen j hj => ?_⟩⟩
  · rw [raiseBoard_sys]
    exact hd ▸ spiStored_sys x data s.dev
  · exact rb_raiseBoard_same _ (by decide)
  · exact (congrArg (bit · 0) hstatus).trans (hlow 0 (by decide))
  · exact (congrArg (bit · 1) hstatus).trans (hlow 1 (by decide))
  · refine sameMemory_of_mem (hmem.trans ?_)
    rw [← hd, spiStored, hop]
    rfl
  all_goals
    have hstore : d = store x.mem (data.take (spiLen x.op)) (onSys (fun y => { y with spi := none }) s.dev) := by
      rw [← hd, spiStored, hop]
      rfl
    rw [getByte_congr hmem, hstore, getByte_store]
  · rw [if_neg (by rw [List.length_take]; omega)]
    rfl
  · rw [if_pos (by rw [List.length_take]; omega), Nat.add_sub_cancel_left, byteAt]
    simp [List.getD, hj]

/-! UART. -/

theorem exec_uartRxByte_full (b : W8) (hfull : 64 ≤ s.dev.sys.uartRx.length) :
    exec (.uartRxByte b) s = nextDev s (raiseBoard 6 (raiseBoard 5 (bumpFld Reg.UART_STAT 24 8 1 s.dev))) := congrArg (nextDev s) (if_pos hfull)

theorem exec_uartRxByte_room (b : W8) (hroom : s.dev.sys.uartRx.length < 64) :
    exec (.uartRxByte b) s = nextDev s (raiseBoard 6 (onSys (fun x => { x with uartRx := x.uartRx ++ [b] }) s.dev)) :=
  congrArg (nextDev s) (if_neg (Nat.not_le.mpr hroom))

theorem exec_uartRxByte (b : W8) : ∃ t, exec (.uartRxByte b) s = .next t ∧ t.clk = s.clk ∧ rb t.dev Reg.BOARD_EVENT 6 = true ∧
    (s.dev.sys.uartRx.length < 64 → t.dev.sys = { s.dev.sys with uartRx := s.dev.sys.uartRx ++ [b] }
      ∧ onlyThese [Reg.BOARD_EVENT] { s.dev with sys := t.dev.sys } t.dev ∧ rb t.dev Reg.BOARD_EVENT 5 = rb s.dev Reg.BOARD_EVENT 5) ∧
    (64 ≤ s.dev.sys.uartRx.length → t.dev.sys = s.dev.sys ∧ rf t.dev Reg.UART_STAT 24 8 = min 255 (rf s.dev Reg.UART_STAT 24 8 + 1)
      ∧ rb t.dev Reg.BOARD_EVENT 5 = true ∧ onlyThese [Reg.BOARD_EVENT, Reg.UART_STAT] s.dev t.dev) := by
  by_cases hfull : 64 ≤ s.dev.sys.uartRx.length
  · have hstat : rd (raiseBoard 6 (raiseBoard 5 (bumpFld Reg.UART_STAT 24 8 1 s.dev))) Reg.UART_STAT
        = rd (bumpFld Reg.UART_STAT 24 8 1 s.dev) Reg.UART_STAT :=
      (rd_raiseBoard_ne _ _ (by decide)).trans (rd_raiseBoard_ne _ _ (by decide))
    refine ⟨_, exec_uartRxByte_full b hfull, rfl, rb_raiseBoard_same _ (by decide), fun h => absurd hfull (Nat.not_le.mpr h), fun _ => ⟨?_, ?_, ?_, ?_⟩⟩
    · rw [raiseBoard_sys, raiseBoard_sys, bumpFld_sys]
    · rw [rf, hstat]
      exact rf_bumpFld_top ..
    · rw [rb_raiseBoard_ne _ (by decide) (by decide), rb_raiseBoard_same _ (by decide)]
    · exact (((onlyThese_bumpFld ..).trans (onlyThese_raiseBoard ..)).trans (onlyThese_raiseBoard ..)).mono (by simp)
  · refine ⟨_, exec_uartRxByte_room b (Nat.not_le.mp hfull), rfl, rb_raiseBoard_same _ (by decide), fun _ => ⟨raiseBoard_sys .., ?_, ?_⟩,
      fun h => absurd h hfull⟩
    · rw [raiseBoard_sys]
      exact onlyThese_raiseBoard ..
    · rw [rb_raiseBoard_ne _ (by decide) (by decide)]
      rfl

/-- A read of UART_RX. -/
def uartPopped (d : Dev) : Dev :=
  match d.sys.uartRx with
  | [] => ret 0x80000000 d
  | b :: r => ret (b.setWidth 32) (onSys (fun x => { x with uartRx := r }) d)

theorem uartPopped_nil {d : Dev} (h : d.sys.uartRx = []) : uartPopped d = ret 0x80000000 d := by simp only [uartPopped, h]

theorem uartPopped_cons {d : Dev} {b : W8} {r : List W8} (h : d.sys.uartRx = b :: r) :
    uartPopped d = ret (b.setWidth 32) (onSys (fun x => { x with uartRx := r }) d) := by simp only [uartPopped, h]

theorem exec_uartRxPop (hopen : csrShut s.dev Reg.UART_RX = false) : ∃ t, exec (.uartRxPop req) s = .next t ∧ t.clk = s.clk
    ∧ t.dev.regs = s.dev.regs ∧ t.dev.mem = s.dev.mem ∧ t.dev.sys = { s.dev.sys with uartRx := s.dev.sys.uartRx.tail }
    ∧ t.dev.bus.data = (match s.dev.sys.uartRx with | [] => 0x80000000 | b :: _ => b.setWidth 32) := by
  have hexec : exec (.uartRxPop req) s = nextDev s (uartPopped s.dev) := congrArg (nextDev s) (accessRead_open _ hopen)
  refine ⟨_, hexec, rfl, ?_⟩
  cases h : s.dev.sys.uartRx with
  | nil =>
    have hsys : { s.dev.sys with uartRx := [] } = s.dev.sys := by rw [← h]
    rw [uartPopped_nil h]
    exact ⟨rfl, rfl, hsys.symm, rfl⟩
  | cons b r =>
    rw [uartPopped_cons h]
    exact ⟨rfl, rfl, rfl, rfl⟩

end

/-! MDIO. -/

section
variable {n : Fin 2} {s : State} {req : Req} {v : W32}

theorem mdio_ne (n : Nat) : Reg.MDIO_CMD n ≠ Reg.MDIO_STATUS n := by
  simp only [Reg.MDIO_CMD, Reg.MDIO_STATUS]
  omega

theorem mdio_ne_board (n : Fin 2) : Reg.MDIO_CMD n ≠ Reg.BOARD_EVENT ∧ Reg.MDIO_STATUS n ≠ Reg.BOARD_EVENT := by
  have hn := n.isLt
  simp only [Reg.MDIO_CMD, Reg.MDIO_STATUS, Reg.BOARD_EVENT]
  omega

theorem exec_mdioGo (hopen : csrShut s.dev (Reg.MDIO_CMD n) = false) (hv : bit v 31 = true) :
    exec (.mdioGo req n v) s = nextDev s (mdioCmdWrite n v s.dev) := by
  refine congrArg (nextDev s) ((access_open _ hopen).trans ?_)
  rw [hv]
  rfl

theorem exec_mdioGo_idle (hopen : csrShut s.dev (Reg.MDIO_CMD n) = false) (hv : bit v 31 = false) : exec (.mdioGo req n v) s = .next s := by
  refine congrArg (nextDev s) ((access_open _ hopen).trans ?_)
  rw [hv]
  rfl

/-- A GO that is discarded writes its fields only. -/
theorem mdioCmdWrite_stays (n : Nat) (v : W32) (d : Dev)
    (h : (Tab.get none d.sys.mdio n).isSome = true ∨ rb d (Reg.MDIO_CTL n) 31 = false ∨ d.sys.tripped = true) :
    mdioCmdWrite n v d = wr (Reg.MDIO_CMD n) (v &&& 0x73FFFFFF ||| bitIf 31 (Tab.get none d.sys.mdio n).isSome) d := by
  have hgo : (bit v 31 && !(Tab.get none d.sys.mdio n).isSome && rb d (Reg.MDIO_CTL n) 31 && !d.sys.tripped) = false := by
    rcases h with h | h | h
    · simp [h]
    · simp [h]
    · simp [h]
  simp only [mdioCmdWrite, hgo, Bool.or_false, Bool.false_eq_true, if_false]

/-- A frame begins on interface n. -/
def mdioBegun (n : Nat) (v : W32) (d : Dev) : Dev := onSys (fun x => { x with mdio := Tab.put none x.mdio n (some v) }) d

theorem mdio_mdioBegun_same (n : Nat) (v : W32) (d : Dev) : Tab.get none (mdioBegun n v d).sys.mdio n = some v :=
  Tab.get_put_same none d.sys.mdio n (some v)

theorem mdio_mdioBegun_ne {n m : Nat} (v : W32) (d : Dev) (h : m ≠ n) : Tab.get none (mdioBegun n v d).sys.mdio m = Tab.get none d.sys.mdio m :=
  Tab.get_put_ne none d.sys.mdio n m (some v) h

theorem mdioFields_go (hv : bit v 31 = true) : v &&& 0x73FFFFFF ||| bitIf 31 true = v &&& 0xF3FFFFFF := by
  have hmask : (0xF3FFFFFF : W32) = 0x73FFFFFF ||| bitIf 31 true := by decide
  refine bit_ext fun j hj => ?_
  rw [hmask, bit_and, bit_or, bit_or, bit_and, bit_bitIf]
  by_cases h : 31 = j
  · subst h
    simp [hv]
  · simp [h]

theorem mdioCmdWrite_starts {n : Nat} {d : Dev} (hv : bit v 31 = true) (hidle : Tab.get none d.sys.mdio n = none)
    (hen : rb d (Reg.MDIO_CTL n) 31 = true) (hup : d.sys.tripped = false) :
    mdioCmdWrite n v d = wrBit (Reg.MDIO_STATUS n) 31 true (mdioBegun n v (wr (Reg.MDIO_CMD n) (v &&& 0xF3FFFFFF) d)) := by
  simp only [mdioCmdWrite, hv, hidle, hen, hup, Option.isSome_none, Bool.not_false, Bool.and_self, Bool.false_or, mdioFields_go hv, if_pos]
  rfl

theorem exec_mdioGo_starts (hopen : csrShut s.dev (Reg.MDIO_CMD n) = false) (hv : bit v 31 = true) (hidle : Tab.get none s.dev.sys.mdio n = none)
    (hen : rb s.dev (Reg.MDIO_CTL n) 31 = true) (hup : s.dev.sys.tripped = false) : ∃ t, exec (.mdioGo req n v) s = .next t ∧ t.clk = s.clk
      ∧ Tab.get none t.dev.sys.mdio n = some v
      ∧ rb t.dev (Reg.MDIO_STATUS n) 31 = true ∧ rf t.dev (Reg.MDIO_STATUS n) 0 16 = rf s.dev (Reg.MDIO_STATUS n) 0 16
      ∧ rd t.dev (Reg.MDIO_CMD n) = v &&& 0xF3FFFFFF ∧ (∀ m, m ≠ n.val → Tab.get none t.dev.sys.mdio m = Tab.get none s.dev.sys.mdio m)
      ∧ onlyThese [Reg.MDIO_CMD n, Reg.MDIO_STATUS n] { s.dev with sys := t.dev.sys } t.dev := by
  have hexec := exec_mdioGo (req := req) hopen hv
  rw [mdioCmdWrite_starts hv hidle hen hup] at hexec
  have hstatus : rd (mdioBegun n v (wr (Reg.MDIO_CMD n) (v &&& 0xF3FFFFFF) s.dev)) (Reg.MDIO_STATUS n) = rd s.dev (Reg.MDIO_STATUS n) :=
    rd_wr_ne _ _ (mdio_ne n).symm
  refine ⟨_, hexec, rfl, mdio_mdioBegun_same .., ?_, ?_, ?_, fun m hm => mdio_mdioBegun_ne _ _ hm, ?_⟩
  · exact (congrArg (bit · 31) (rd_wrBit_same ..)).trans (bit_setBit_same _ _ _ (by decide))
  · rw [rf, rf, rd_wrBit_same, hstatus, fld_setBit_high _ _ (by decide)]
  · exact (rd_wrBit_ne _ _ _ (mdio_ne n)).trans (rd_wr_same ..)
  · exact (onlyThese_wr (Reg.MDIO_CMD n) _ (mdioBegun n v s.dev)).trans (onlyThese_wrBit ..)

theorem mdioReads_iff (v : W32) : mdioReads v = true ↔ fld v 28 2 = 2 ∨ (bit v 30 = true ∧ fld v 28 2 = 3) := by
  have hlt := fld_lt v 28 2
  cases h : bit v 30 with
  | false => simp [mdioReads, h]
  | true =>
    simp only [mdioReads, h, if_true, decide_eq_true_eq, true_and]
    omega

/-- What MDIO_STATUS reads after a frame. -/
def mdioResult (v : W32) (data : W16) (old : W32) : W32 := if mdioReads v then data.setWidth 32 else old &&& 0xFFFF

theorem mdioResult_busy (v : W32) (data : W16) (old : W32) : bit (mdioResult v data old) 31 = false := by
  unfold mdioResult
  split
  · simp [bit]
  · rw [bit_low16]
    simp

theorem mdioResult_data (v : W32) (data : W16) (old : W32) :
    fld (mdioResult v data old) 0 16 = if mdioReads v then data.toNat else fld old 0 16 := by
  have hlow : (old &&& 0xFFFF).setWidth 16 = old.setWidth 16 := bit_ext fun j hj => by
    have hbit := bit_low16 old j
    simp only [bit, hj, decide_true, Bool.and_true] at hbit
    rw [bit, bit, BitVec.getLsbD_setWidth, BitVec.getLsbD_setWidth, hbit]
  rw [fld_toNat_setWidth, fld_toNat_setWidth, mdioResult]
  split
  · simp
  · rw [hlow]

theorem exec_mdioDone_none {data : W16} (h : Tab.get none s.dev.sys.mdio n = none) : exec (.mdioDone n data) s = .next s := by
  refine congrArg (nextDev s) ?_
  simp only [h]

theorem exec_mdioDone_some {data : W16} (h : Tab.get none s.dev.sys.mdio n = some v) : exec (.mdioDone n data) s = nextDev s
    (raiseBoard 3 (wrBit (Reg.MDIO_CMD n) 31 false (wr (Reg.MDIO_STATUS n) (mdioResult v data (rd s.dev (Reg.MDIO_STATUS n)))
      (onSys (fun x => { x with mdio := Tab.put none x.mdio n none }) s.dev)))) := by
  refine congrArg (nextDev s) ?_
  simp only [h]
  rfl

theorem exec_mdioDone {data : W16} (h : Tab.get none s.dev.sys.mdio n = some v) : ∃ t, exec (.mdioDone n data) s = .next t ∧ t.clk = s.clk
    ∧ Tab.get none t.dev.sys.mdio n = none ∧ rb t.dev Reg.BOARD_EVENT 3 = true
    ∧ rb t.dev (Reg.MDIO_CMD n) 31 = false ∧ rb t.dev (Reg.MDIO_STATUS n) 31 = false
    ∧ rf t.dev (Reg.MDIO_STATUS n) 0 16 = (if mdioReads v then data.toNat else rf s.dev (Reg.MDIO_STATUS n) 0 16)
    ∧ onlyThese [Reg.MDIO_CMD n, Reg.MDIO_STATUS n, Reg.BOARD_EVENT] { s.dev with sys := t.dev.sys } t.dev := by
  obtain ⟨hcmd, hstat⟩ := mdio_ne_board n
  have hexec := exec_mdioDone_some (data := data) h
  generalize hd : onSys (fun x => { x with mdio := Tab.put none x.mdio n none }) s.dev = d at hexec
  generalize hw : mdioResult v data (rd s.dev (Reg.MDIO_STATUS n)) = w at hexec
  have hidle : Tab.get none d.sys.mdio n = none := by
    rw [← hd]
    exact Tab.get_put_same none s.dev.sys.mdio n none
  have hstatus : rd (raiseBoard 3 (wrBit (Reg.MDIO_CMD n) 31 false (wr (Reg.MDIO_STATUS n) w d))) (Reg.MDIO_STATUS n) = w := by
    rw [rd_raiseBoard_ne _ _ hstat, rd_wrBit_ne _ _ _ (mdio_ne n).symm, rd_wr_same]
  have hsys : (raiseBoard 3 (wrBit (Reg.MDIO_CMD n) 31 false (wr (Reg.MDIO_STATUS n) w d))).sys = d.sys := raiseBoard_sys ..
  have hdev : { s.dev with sys := d.sys } = d := by
    rw [← hd]
    rfl
  refine ⟨_, hexec, rfl, ?_, ?_, ?_, ?_, ?_, ?_⟩
  · rw [hsys, hidle]
  · exact rb_raiseBoard_same _ (by decide)
  · rw [rb, rd_raiseBoard_ne _ _ hcmd, rd_wrBit_same, bit_setBit_same _ _ _ (by decide)]
  · rw [rb, hstatus, ← hw, mdioResult_busy]
  · rw [rf, hstatus, ← hw, mdioResult_data]
    rfl
  · rw [hsys, hdev]
    exact (((onlyThese_wr ..).trans (onlyThese_wrBit ..)).trans (onlyThese_raiseBoard ..)).mono fun a ha => by
      simp only [List.mem_append, List.mem_cons, List.not_mem_nil, or_false] at ha ⊢
      tauto

end

end Sys2Proof.Machine

/-!
The TAP, the levels of the balls, and the board's interfaces (O60).
-/

namespace Sys2Proof.Machine

/-! The TAP (R340, R341). -/

section
variable {d : Dev} {i : TapInstr} {held : Bool} {bits : List Bool}

theorem tapNow_reset (h : d.sys.tapHeld = false) : tapNow d = .idcode := by simp [tapNow, h]

theorem tapNow_held (h : d.sys.tapHeld = true) : tapNow d = tapDecode d.scarab.lc d.sys.tap := by simp [tapNow, h]

theorem tapDecode_self {lc : Lifecycle} (h : lc ≠ .deployed ∨ i = .bypass ∨ i = .idcode ∨ i = .sample) : tapDecode lc i = i := by
  rcases h with h | rfl | rfl | rfl
  · cases i with
    | extest | extestPulse | extestTrain | clamp | highz => exact if_neg h
    | bypass | idcode | sample => rfl
  · rfl
  · rfl
  · rfl

theorem tapDecode_deployed (hi : i ≠ .idcode) (hs : i ≠ .sample) : tapDecode .deployed i = .bypass := by
  cases i with
  | idcode => exact absurd rfl hi
  | sample => exact absurd rfl hs
  | bypass | extest | extestPulse | extestTrain | clamp | highz => rfl

/-- In DEPLOYED no instruction drives balls. -/
theorem tapNow_deployed (h : d.scarab.lc = .deployed) : tapNow d ∈ [.bypass, .idcode, .sample] := by
  cases hh : d.sys.tapHeld with
  | false => simp [tapNow_reset hh]
  | true =>
    rw [tapNow_held hh, h]
    cases d.sys.tap <;> simp [tapDecode]

theorem tapCapture_rest (d : Dev) : (tapCapture d).2 = { d with freeIdx := (tapCapture d).2.freeIdx } := by
  unfold tapCapture
  split <;> rfl

theorem tapCapture_low (h : tapNow d ∈ [.bypass, .clamp, .highz]) : (tapCapture d).1 = [false] ∧ tapBoundary (tapNow d) = false := by
  simp only [List.mem_cons, List.not_mem_nil, or_false] at h
  rcases h with h | h | h
  all_goals simp [tapCapture, tapBoundary, h]

theorem tapCapture_idcode (h : tapNow d = .idcode) :
    (tapCapture d).1 = (List.range 32).map (fun j => bit tapIdcode j) ∧ tapBoundary (tapNow d) = false := by
  simp [tapCapture, tapBoundary, h]

theorem tapCapture_boundary (h : tapNow d ∈ [.sample, .extest, .extestPulse, .extestTrain]) :
    (tapCapture d).1 = (List.range Config.boundaryLength).map (fun j => bit (Config.freeValue (d.freeIdx + j)) 0)
      ∧ tapBoundary (tapNow d) = true := by
  simp only [List.mem_cons, List.not_mem_nil, or_false] at h
  rcases h with h | h | h | h
  all_goals simp [tapCapture, tapBoundary, h]

/-- The device once the instruction is in. -/
def tapLoaded (i : TapInstr) (held : Bool) (d : Dev) : Dev := onSys (fun x => { x with tap := i, tapHeld := held }) d

theorem tapScan_rest (bits : List Bool) (d : Dev) : tapScan bits d = { d with sys := (tapScan bits d).sys, freeIdx := (tapScan bits d).freeIdx } := by
  simp only [tapScan, onSys]
  rw [tapCapture_rest]

theorem tapScan_sys (bits : List Bool) (d : Dev) : (tapScan bits d).sys = { d.sys with
    tdo := ((tapCapture d).1 ++ bits).take bits.length
    boundary := if tapBoundary (tapNow d) then ((tapCapture d).1 ++ bits).drop bits.length else d.sys.boundary } := by
  simp only [tapScan, onSys]
  rw [tapCapture_rest]

theorem tapShift_scan : tapShift i held (some bits) d = tapScan bits (tapLoaded i held d) := rfl

/-- What every shift leaves. -/
theorem tapShift_rest (i : TapInstr) (held : Bool) (scan : Option (List Bool)) (d : Dev) : let t := tapShift i held scan d
    t = { d with sys := t.sys, freeIdx := t.freeIdx }
      ∧ t.sys = { d.sys with tap := i, tapHeld := held, tdo := t.sys.tdo, boundary := t.sys.boundary } := by
  cases scan with
  | none => exact ⟨rfl, rfl⟩
  | some bits =>
    have hsys := tapScan_sys bits (tapLoaded i held d)
    refine ⟨tapScan_rest bits (tapLoaded i held d), ?_⟩
    rw [tapShift_scan, hsys]
    rfl

theorem tapNow_tapShift (i : TapInstr) (held : Bool) (scan : Option (List Bool)) (d : Dev) :
    tapNow (tapShift i held scan d) = if held then tapDecode d.scarab.lc i else .idcode := by
  obtain ⟨hdev, hsys⟩ := tapShift_rest i held scan d
  have hlc : (tapShift i held scan d).scarab = d.scarab := by rw [hdev]
  rw [tapNow, hlc, hsys]

theorem tapNow_tapLoaded (i : TapInstr) (held : Bool) (bits : List Bool) (d : Dev) :
    tapNow (tapShift i held (some bits) d) = tapNow (tapLoaded i held d) := tapNow_tapShift ..

/-- What a data scan shifts, as far as its length goes, and what its register keeps. -/
theorem tapShift_low (h : tapNow (tapShift i held (some bits) d) ∈ [.bypass, .clamp, .highz]) :
    (tapShift i held (some bits) d).sys.tdo = (false :: bits).take bits.length
      ∧ (tapShift i held (some bits) d).sys.boundary = d.sys.boundary := by
  rw [tapNow_tapLoaded] at h
  obtain ⟨hcapture, hkeeps⟩ := tapCapture_low h
  rw [tapShift_scan, tapScan_sys, hcapture, hkeeps]
  exact ⟨rfl, rfl⟩

theorem tapShift_idcode (h : tapNow (tapShift i held (some bits) d) = .idcode) :
    (tapShift i held (some bits) d).sys.tdo = ((List.range 32).map (fun j => bit tapIdcode j) ++ bits).take bits.length
      ∧ (tapShift i held (some bits) d).sys.boundary = d.sys.boundary := by
  rw [tapNow_tapLoaded] at h
  obtain ⟨hcapture, hkeeps⟩ := tapCapture_idcode h
  rw [tapShift_scan, tapScan_sys, hcapture, hkeeps]
  exact ⟨rfl, rfl⟩

/-- The cells of the boundary register as a scan captures them. -/
def tapCells (d : Dev) : List Bool := (List.range Config.boundaryLength).map fun j => bit (Config.freeValue (d.freeIdx + j)) 0

theorem tapShift_boundary (h : tapNow (tapShift i held (some bits) d) ∈ [.sample, .extest, .extestPulse, .extestTrain]) :
    (tapShift i held (some bits) d).sys.tdo = (tapCells d ++ bits).take bits.length
      ∧ (tapShift i held (some bits) d).sys.boundary = (tapCells d ++ bits).drop bits.length := by
  rw [tapNow_tapLoaded] at h
  obtain ⟨hcapture, hkeeps⟩ := tapCapture_boundary h
  rw [tapShift_scan, tapScan_sys, hcapture, hkeeps]
  exact ⟨rfl, rfl⟩

end

/-! Balls (R341, R404). -/

section
variable {b : Ball} {k : Clk} {d : Dev}

theorem acLane_iff (b : Ball) : acLane b = true ↔ (∃ l, b = .lane l) ∨ (∃ n, b = .sgmii n) ∨ ∃ l, b = .pcieLane l := by
  cases b <;> simp [acLane]

theorem ballLevel_highz (h : tapNow d = .highz) : ballLevel b k d = none := by simp [ballLevel, h]

theorem ballLevel_cell (h : tapNow d ∈ [.extest, .clamp]) : ballLevel b k d = some (d.sys.boundary.getD (Config.boundaryCell b) false) := by
  simp only [List.mem_cons, List.not_mem_nil, or_false] at h
  rcases h with h | h
  all_goals simp [ballLevel, h]

theorem ballLevel_pulse (h : tapNow d = .extestPulse) : ballLevel b k d
    = some (d.sys.boundary.getD (Config.boundaryCell b) false != (acLane b && Config.acInverse false b k.ticks)) := by
  simp [ballLevel, h]

theorem ballLevel_train (h : tapNow d = .extestTrain) : ballLevel b k d
    = some (d.sys.boundary.getD (Config.boundaryCell b) false != (acLane b && Config.acInverse true b k.ticks)) := by
  simp [ballLevel, h]

theorem ballLevel_quiet (h : tapNow d ∈ [.bypass, .idcode, .sample]) : ballLevel b k d
    = if wrapping d && !d.sys.tapHeld && wrapBall b then some (d.sys.boundary.getD (Config.boundaryCell b) false) else ballFunction b k d := by
  simp only [List.mem_cons, List.not_mem_nil, or_false] at h
  rcases h with h | h | h
  all_goals simp [ballLevel, h]

theorem ballFunction_awake (h : awake d = true) : ballFunction b k d = ballAwake b k d := if_pos h

theorem ballFunction_asleep (h : awake d = false) : ballFunction b k d = ballAsleep b d := if_neg (Bool.eq_false_iff.mp h)

theorem thermTrip_level : ballFunction .thermTripN k d = if d.sys.tripped = true then some false else none := by
  unfold ballFunction
  split
  · rfl
  · rfl

end

/-- R341, R336: the level at a ball, by the instruction in force. -/
theorem ballLevel_rule (b : Ball) (k : Clk) (d : Dev) : let cell := d.sys.boundary.getD (Config.boundaryCell b) false
    (tapNow d = .highz → ballLevel b k d = none) ∧ (tapNow d ∈ [.extest, .clamp] → ballLevel b k d = some cell) ∧
    (tapNow d ∈ [.extestPulse, .extestTrain] → acLane b = false → ballLevel b k d = some cell) ∧
    (tapNow d = .extestPulse → acLane b = true → ballLevel b k d = some (cell != Config.acInverse false b k.ticks)) ∧
    (tapNow d = .extestTrain → acLane b = true → ballLevel b k d = some (cell != Config.acInverse true b k.ticks)) ∧
    (acLane b = true ↔ (∃ l, b = .lane l) ∨ (∃ n, b = .sgmii n) ∨ ∃ l, b = .pcieLane l) ∧
    (d.sys.tapHeld = false → wrapping d = true → wrapBall b = true → ballLevel b k d = some cell) ∧
    (tapNow d ∈ [.bypass, .idcode, .sample] ∨ d.scarab.lc = .deployed → d.sys.tapHeld = true ∨ wrapping d = false ∨ wrapBall b = false →
      ballLevel b k d = ballFunction b k d) := by
  intro cell
  refine ⟨ballLevel_highz, ballLevel_cell, fun h hac => ?_, fun h hac => ?_, fun h hac => ?_, acLane_iff b, fun hheld hwrap hball => ?_,
    fun h hrest => ?_⟩
  · rcases List.mem_pair.mp h with h | h
    · rw [ballLevel_pulse h, hac, Bool.false_and, Bool.bne_false]
    · rw [ballLevel_train h, hac, Bool.false_and, Bool.bne_false]
  · rw [ballLevel_pulse h, hac, Bool.true_and]
  · rw [ballLevel_train h, hac, Bool.true_and]
  · rw [ballLevel_quiet (by simp [tapNow_reset hheld]), hwrap, hheld, hball]
    rfl
  · rw [ballLevel_quiet (h.elim id tapNow_deployed), if_neg]
    rcases hrest with hrest | hrest | hrest
    all_goals simp [hrest]

/-- R378, R404, R411: the balls of a device whose outputs rest. -/
theorem ballFunction_rests (k : Clk) {d : Dev} (h : awake d = false) : let level (b : Ball) : Option Bool := ballFunction b k d
    level .ownN = none ∧ level .pairSelOut = some false ∧ level .ppsOut = some false ∧ level .spiClk = some false
      ∧ level .spiCsN = some true ∧ level .spiResetN = some false ∧ level .uartTxd = some true ∧ level .ltcOut = some false ∧ level .midiOut = some true
      ∧ ∀ n, level (.perOut n) = some false ∧ level (.dmxDe n) = some false ∧ level (.dmxTxd n) = some true ∧ level (.gpio n) = none
        ∧ level (.lportRefclk n) = some false ∧ level (.mdc n) = some false ∧ ∀ i, level (.rgmii n i) = some false := by
  simp only [ballFunction_asleep h]
  exact ⟨rfl, rfl, rfl, rfl, rfl, rfl, rfl, rfl, rfl, fun n => ⟨rfl, rfl, rfl, rfl, rfl, rfl, fun i => rfl⟩⟩

/-- R404: the balls of a device whose outputs are driven. -/
theorem ballFunction_drives (k : Clk) {d : Dev} (h : awake d = true) : let level (b : Ball) : Option Bool := ballFunction b k d
    (level .ownN = if ownOut d = true then some false else none) ∧ level .pairSelOut = some (selOut d)
      ∧ level .ppsOut = some d.pins.ppsOut ∧ level .spiCsN = some d.sys.spi.isNone ∧ level .spiResetN = some (rb d Reg.SPI_CTL 1)
      ∧ ∀ n, level (.perOut n) = some (perOutLevel d n) ∧ level (.dmxDe n) = some (dmxDe d n k)
        ∧ level (.lportRefclk n) = some (Config.lineLevel (.lportRefclk n) k.ticks)
        ∧ (level (.gpio n) = if rb d Reg.GPIO_DIR n = true then some (rb d Reg.GPIO_OUT n) else none)
        ∧ (Tab.get none d.sys.mdio n = none → level (.mdc n) = some false) ∧ (dmxDe d n k = false → level (.dmxTxd n) = some true)
        ∧ ∀ i, rb d (Reg.SPORT_CTL (8 + n)) 7 = false → level (.rgmii n i) = some false := by
  obtain ⟨-, hup⟩ := (awake_iff d).mp h
  have hdir : gpioDir d = rd d Reg.GPIO_DIR := by simp [gpioDir, hup]
  simp only [ballFunction_awake h]
  refine ⟨rfl, rfl, rfl, rfl, rfl, fun n => ⟨rfl, rfl, rfl, ?_, fun hn => ?_, fun hn => ?_, fun i hi => ?_⟩⟩
  · simp only [ballAwake, hdir]
    rfl
  · simp [ballAwake, hn]
  · simp [ballAwake, hn]
  · simp [ballAwake, usesRgmii, hi]

/-- R340, R341: TAP_INSTRUCTION. -/
theorem exec_tapInstruction (i : TapInstr) (held : Bool) (scan : Option (List Bool)) (s : State) :
    ∃ t, exec (.tapInstruction (i, scan) held) s = nextDev s t
    ∧ t = { s.dev with sys := t.sys, freeIdx := t.freeIdx }
    ∧ t.sys = { s.dev.sys with tap := i, tapHeld := held, tdo := t.sys.tdo, boundary := t.sys.boundary }
    ∧ (held = false → tapNow t = .idcode)
    ∧ (held = true → s.dev.scarab.lc ≠ .deployed ∨ i = .bypass ∨ i = .idcode ∨ i = .sample → tapNow t = i)
    ∧ (held = true → s.dev.scarab.lc = .deployed → i ≠ .idcode → i ≠ .sample → tapNow t = .bypass)
    ∧ (scan = none → t.sys.tdo = s.dev.sys.tdo ∧ t.sys.boundary = s.dev.sys.boundary)
    ∧ ∀ bits, scan = some bits →
      let cells := (List.range Config.boundaryLength).map fun j => bit (Config.freeValue (s.dev.freeIdx + j)) 0
      (tapNow t ∈ [.bypass, .clamp, .highz] → t.sys.tdo = (false :: bits).take bits.length ∧ t.sys.boundary = s.dev.sys.boundary) ∧
      (tapNow t = .idcode → t.sys.tdo = (((List.range 32).map fun j => bit (0x19710000 ||| Config.idcodeLow.setWidth 32 : W32) j) ++ bits).take bits.length
        ∧ t.sys.boundary = s.dev.sys.boundary) ∧
      (tapNow t ∈ [.sample, .extest, .extestPulse, .extestTrain] → t.sys.tdo = (cells ++ bits).take bits.length
        ∧ t.sys.boundary = (cells ++ bits).drop bits.length) := by
  obtain ⟨hdev, hsys⟩ := tapShift_rest i held scan s.dev
  have hnow := tapNow_tapShift i held scan s.dev
  refine ⟨tapShift i held scan s.dev, rfl, hdev, hsys, fun h => ?_, fun h hi => ?_, fun h hlc hne hs => ?_, fun h => ?_, fun bits h => ?_⟩
  · rw [hnow, h]
    rfl
  · rw [hnow, if_pos h, tapDecode_self hi]
  · rw [hnow, if_pos h, hlc, tapDecode_deployed hne hs]
  · subst h
    exact ⟨rfl, rfl⟩
  · subst h
    exact ⟨tapShift_low, tapShift_idcode, tapShift_boundary⟩

/-- The status of an end, written out. -/
theorem i2cStatus_eq (o : I2cEnd) : i2cStatus o = match o with | .done => 0 | .nack => 4 | .arbLost => 2 := by
  cases o with
  | done | nack | arbLost => rfl

/-- Settles O60: a lemma for each interface's commands, then the TAP and the balls. -/
theorem boardInterfaces : Obligations.BoardInterfaces := by
  unfold Obligations.BoardInterfaces
  intro i2c mdio
  refine ⟨fun i rising s => ?_, fun req c v s hopen => ?_, fun c o data s => ⟨exec_i2cDone_none, fun x hx _ hdata => ?_⟩,
    fun c s => ⟨rfl, exec_i2cStretchTimeout⟩, fun s => ?_, fun req s hopen => ?_, fun data s => ⟨fun h => ?_, fun x => exec_spiDone⟩,
    fun req v s hopen => ⟨fun hfull => ?_, fun hroom => ?_⟩, fun s => ⟨fun hup => ?_, fun htrip => ?_⟩, fun b s => exec_uartRxByte b,
    fun req s => exec_uartRxPop, fun req n v s hopen => ?_, fun n data s => ⟨exec_mdioDone_none, fun v hv => ?_⟩, exec_tapInstruction,
    ballLevel_rule, fun k d => ⟨rfl, thermTrip_level, ballFunction_rests k, ballFunction_drives k⟩⟩
  · obtain ⟨t, hexec, hclk, hsys, honly, hothers, hevent, hlevel, hboard⟩ := exec_gpioEdge i rising s
    exact ⟨t, hexec, hclk, hsys, honly, hothers, hevent, hlevel, hboard⟩
  · refine ⟨exec_i2cGo_idle hopen, fun hv hbusy => ?_, fun hv hidle h => ?_, fun hv hidle hen hup => ?_⟩
    · refine ⟨_, exec_i2cGo_stays hopen hv (.inl hbusy), rfl, ?_, onlyThese_wr .., rfl⟩
      rw [rd_wr_same, hbusy]
      rfl
    · have hidle : Tab.get none s.dev.sys.i2c c = none := hidle
      refine ⟨_, exec_i2cGo_stays hopen hv (.inr h), rfl, ?_, onlyThese_wr ..⟩
      rw [rd_wr_same, hidle]
      exact BitVec.or_zero
    · obtain ⟨t, hexec, hclk, hxfer, hstatus, honly, hsys, hothers, hrun⟩ := exec_i2cGo_starts (req := req) hopen hv hidle hen hup
      exact ⟨t, hexec, hclk, hxfer, hstatus, honly, hsys, hothers, _, hrun, rfl, rfl, i2cStarted_length .., fun j => i2cStarted_out⟩
  · obtain ⟨t, hexec, hclk, hidle, hstatus, hrest⟩ := exec_i2cDone_leaves (o := o) hx hdata
    exact ⟨t, hexec, hclk, hidle, hstatus.trans (i2cStatus_eq o), hrest⟩
  · exact ⟨_, rfl, rfl, rb_raiseBoard_same _ (by decide), onlyThese_raiseBoard ..⟩
  · intro op mem ranges idle
    refine ⟨fun h => ?_, exec_spiGo_badRange hopen, exec_spiGo_begins hopen⟩
    rw [exec_spiGo hopen, spiGo_busy h]
  · exact congrArg (nextDev s) (spiDone_none h)
  · exact congrArg (nextDev s) ((access_open _ hopen).trans (if_pos hfull))
  · exact congrArg (nextDev s) ((access_open _ hopen).trans (if_neg (Nat.not_le.mpr hroom)))
  · refine congrArg (nextDev s) ((if_neg (Bool.eq_false_iff.mp hup)).trans ?_)
    rw [onSys, List.drop_one]
  · exact congrArg (nextDev s) (if_pos htrip)
  · refine ⟨exec_mdioGo_idle hopen, fun hv h => ?_, exec_mdioGo_starts hopen⟩
    have hexec := exec_mdioGo (req := req) hopen hv
    rw [mdioCmdWrite_stays _ _ _ h] at hexec
    exact ⟨_, hexec, rfl, onlyThese_wr ..⟩
  · obtain ⟨t, hexec, hclk, hidle, hboard, hcmd, hstatus, hdata, honly⟩ := exec_mdioDone (data := data) hv
    refine ⟨t, hexec, hclk, hidle, hboard, hcmd, hstatus, ⟨fun h => ?_, fun h => ?_⟩, honly⟩
    · rw [hdata, if_pos ((mdioReads_iff v).mpr h)]
    · rw [hdata, if_neg fun hr => h ((mdioReads_iff v).mp hr)]

end Sys2Proof.Machine

/-!
Ordered flows: where a member stands, and what a closure, a release and a capture change (R119 to R124).
-/

namespace Sys2Proof.Machine

/-! The events of the pour unit. -/

@[simp] theorem raiseRel_arr (i : Nat) (d : Dev) : (raiseRel i d).arr = d.arr := raiseAt_arr ..
@[simp] theorem raiseRel_mem (i : Nat) (d : Dev) : (raiseRel i d).mem = d.mem := raiseAt_mem ..

theorem rd_raiseRel_ne {a : Nat} (i : Nat) (d : Dev) (h : a ≠ Reg.SCHED_REL_EVENT) : rd (raiseRel i d) a = rd d a := rd_raiseAt_ne d _ h

theorem rb_raiseRel {i : Nat} (h : i < 32) (d : Dev) : rb (raiseRel i d) Reg.SCHED_REL_EVENT i = true := by
  rw [rb, raiseRel, rd_raiseAt_same, bit_or, bit_bitIf]
  simp [h]

theorem onlyThese_raiseRel (i : Nat) (d : Dev) : onlyThese [Reg.SCHED_REL_EVENT] d (raiseRel i d) := onlyThese_raiseAt ..

theorem flowCounts_ne_relEvent (f : Nat) : Reg.SCHED_FLOW_COUNTS f ≠ Reg.SCHED_REL_EVENT := by
  simp only [Reg.SCHED_FLOW_COUNTS, Reg.SCHED_REL_EVENT]
  omega

/-- No counter of a meter lies in the scheduler's block, SCHED_POUR_STALL apart. -/
theorem not_meterPlace_sched {a : Nat} (hlo : 0x20000 ≤ a) (hhi : a < 0x40000) (h : a ≠ Reg.SCHED_POUR_STALL) : ¬ meterPlace a := by
  rintro (h' | ⟨s, hs, h'⟩ | ⟨i, hi, h'⟩)
  · exact h h'
  · simp only [Reg.SWARM_EMIT_STALL, Reg.SWARM_INF_STALL, Reg.SWARM_INF_BUSY_LO, Reg.SWARM_INF_BUSY_HI] at h'
    omega
  · simp only [Reg.PMON_CNT_LO, Reg.PMON_CNT_HI] at h'
    omega

/-! A flow of the device. -/

@[simp] theorem flow_setFlow_same (f : Nat) (x : Flow) (d : Dev) : flow (setFlow f x d) f = x := Tab.get_put_same ..

theorem flow_setFlow_ne {f g : Nat} (x : Flow) (d : Dev) (h : g ≠ f) : flow (setFlow f x d) g = flow d g := Tab.get_put_ne _ _ _ _ _ h

theorem flow_congr {d e : Dev} (h : e.arr.flows = d.arr.flows) (f : Nat) : flow e f = flow d f := by rw [flow, h]; rfl

theorem MetersOnly.flow {d e : Dev} (h : MetersOnly d e) (f : Nat) : flow e f = flow d f := flow_congr (by rw [h.arr]) f

/-! Positions (R119). -/

section
variable {x : Flow} {f : BitVec 18} {i : W32}

theorem Flow.place_of_disabled (h : x.enabled = false) : x.place f i = .disabled := by simp [Flow.place, h]

theorem Flow.place_of_stream (h : x.enabled = true) (hs : x.stream = true) :
    x.place f i = if 2 ^ 31 ≤ (i - x.next).toNat then .behind else .pos (i - x.next).toNat := by
  simp [Flow.place, h, hs]

theorem Flow.place_of_framed {F : BitVec 18} (h : x.enabled = true) (hs : x.stream = false) (hF : x.frame = some F) :
    let pos : Int := (f - F).toNat * x.len.toNat + i.toNat - x.next.toNat
    x.place f i = if 2 ^ 17 ≤ (f - F).toNat ∨ x.len ≤ i ∨ pos < 0 then .behind else .pos pos.toNat := by
  have hneg (n m : Nat) : ((n : Int) - m < 0) = (n < m) := propext (by omega)
  have hpos (n m : Nat) : ((n : Int) - m).toNat = n - m := by omega
  simp only [Flow.place, h, hs, hF, ← Int.natCast_mul, ← Int.natCast_add, hneg, hpos, BitVec.le_def]
  rfl

/-- The member that a flow waits for stands at position 0, unless NEXT lies outside its frames. -/
theorem Flow.place_next (h : x.enabled = true) (hF : x.stream = true ∨ x.frame.isSome = true) :
    x.place (x.frame.getD 0) x.next = if x.stream = true ∨ x.next < x.len then .pos 0 else .behind := by
  cases hs : x.stream with
  | true => simp [Flow.place_of_stream h hs]
  | false =>
    obtain ⟨F, hF⟩ : ∃ F, x.frame = some F := Option.isSome_iff_exists.mp (by simpa [hs] using hF)
    rw [Flow.place_of_framed h hs hF]
    by_cases hn : x.next < x.len
    · simp [hF, hn, BitVec.not_le.mpr hn]
    · simp [hn, BitVec.not_lt.mp hn]

end

theorem ofNat_keyFrame (key : W64) : BitVec.ofNat 18 (keyFrame key) = key.extractLsb' 32 18 :=
  BitVec.eq_of_toNat_eq (by simp [keyFrame, fld, Nat.shiftRight_eq_div_pow])

theorem w32_keyInst (key : W64) : w32 (keyInst key) = key.setWidth 32 := BitVec.eq_of_toNat_eq (by simp [keyInst, fld, w32])

/-- A key's place goes by its FRAME and its INST. -/
theorem keyPlace_eq (d : Dev) (f : Nat) (key : W64) : keyPlace d f key = (flow d f).place (key.extractLsb' 32 18) (key.setWidth 32) := by
  rw [keyPlace, ofNat_keyFrame, w32_keyInst]

/-! Closures (R120, R122). -/

/-- The closure of a key, by END with its records, or by a tombstone. -/
def closureOf (key : W64) (recs : Option (List Rec)) : Closure := { frame := key.extractLsb' 32 18, inst := key.setWidth 32, recs }

section
variable {d : Dev} {f : Nat} {key : W64} {recs : Option (List Rec)} {n : Nat}

theorem recordClosure_open (hp : keyPlace d f key = .pos n) (hopen : (flow d f).isClosed n = false) :
    recordClosure f key recs d = setFlow f { flow d f with closed := (flow d f).closed ++ [closureOf key recs] } d := by
  simp only [recordClosure, hp, hopen, ofNat_keyFrame, w32_keyInst]
  rfl

theorem recordClosure_closed (hp : keyPlace d f key = .pos n) (hclosed : (flow d f).isClosed n = true) :
    recordClosure f key recs d = countStray f d := by
  simp [recordClosure, hp, hclosed]

end

/-- A stray shows in its event and in the flow's count. -/
theorem countStray_shows (f : Nat) (d : Dev) : rb (countStray f d) Reg.SCHED_REL_EVENT 0 = true
    ∧ rf (countStray f d) (Reg.SCHED_FLOW_COUNTS f) 16 16 = min 0xFFFF (rf d (Reg.SCHED_FLOW_COUNTS f) 16 16 + 1)
    ∧ onlyThese [Reg.SCHED_REL_EVENT, Reg.SCHED_FLOW_COUNTS f] d (countStray f d) := by
  refine ⟨rb_raiseRel (by decide) _, ?_, ?_⟩
  · rw [rf, countStray, rd_raiseRel_ne _ _ (flowCounts_ne_relEvent f)]
    exact rf_bumpFld_high ..
  · exact ((onlyThese_bumpFld ..).trans (onlyThese_raiseRel ..)).mono fun a ha => List.mem_cons.mpr (by simpa [or_comm] using ha)

/-! Tombstones on their way (R120). -/

section
variable {d : Dev} {f : Nat} {key : W64} {l : List (Nat × W64)}

/-- The device without its oldest tombstone. -/
def tombsLeft (l : List (Nat × W64)) : Dev → Dev := onArr fun a => { a with tombs := l }

/-- The oldest tombstone of all is taken when its flow has positions. -/
theorem flowTombstone_first (h : d.arr.tombs = (f, key) :: l) (hp : keyPlace d f key ≠ .undetermined) : flowTombstone d = takeTomb 0 d := by
  have hfirst : firstIdx (fun x : Nat × W64 => keyPlace d x.1 x.2 != .undetermined) d.arr.tombs 0 = some 0 := by simp [h, firstIdx, hp]
  simp only [flowTombstone, hfirst]

theorem tombsLeft_of_eraseIdx (h : d.arr.tombs = (f, key) :: l) : onArr (fun a => { a with tombs := a.tombs.eraseIdx 0 }) d = tombsLeft l d := by
  simp [onArr, tombsLeft, h]

theorem flowTombstone_pos {n : Nat} (h : d.arr.tombs = (f, key) :: l) (hp : keyPlace d f key = .pos n) :
    flowTombstone d = if 4096 ≤ n then raiseRel 2 (tombsLeft l d) else recordClosure f key none (tombsLeft l d) := by
  have hp' : keyPlace (tombsLeft l d) f key = .pos n := hp
  rw [flowTombstone_first h (by simp [hp])]
  simp only [takeTomb, h, List.getElem?_cons_zero, tombsLeft_of_eraseIdx h, hp']

theorem flowTombstone_stray (h : d.arr.tombs = (f, key) :: l) (hp : keyPlace d f key = .behind ∨ keyPlace d f key = .disabled) :
    flowTombstone d = countStray f (tombsLeft l d) := by
  have hp' : keyPlace (tombsLeft l d) f key = .behind ∨ keyPlace (tombsLeft l d) f key = .disabled := hp
  rw [flowTombstone_first h (by rcases hp with hp | hp <;> simp [hp])]
  rcases hp' with hp' | hp'
  all_goals simp only [takeTomb, h, List.getElem?_cons_zero, tombsLeft_of_eraseIdx h, hp']

end

/-! Release (R121). -/

/-- The flow once the closure c of its position 0 has been released. -/
def Flow.released (x : Flow) (c : Closure) : Flow :=
  ({ x with closed := x.closed.filter (fun y => y != c), out := x.out ++ c.recs.getD [] } : Flow).advance

section
variable (x : Flow)

@[simp] theorem Flow.advance_enabled : x.advance.enabled = x.enabled := by
  unfold Flow.advance
  split_ifs
  all_goals rfl

@[simp] theorem Flow.advance_closed : x.advance.closed = x.closed := by
  unfold Flow.advance
  split_ifs
  all_goals rfl

@[simp] theorem Flow.advance_out : x.advance.out = x.out := by
  unfold Flow.advance
  split_ifs
  all_goals rfl

theorem Flow.advance_of_stream {x : Flow} (h : x.stream = true) : x.advance = { x with next := x.next + 1 } := by simp [Flow.advance, h]

theorem Flow.advance_of_framed {x : Flow} (h : x.stream = false) (hn : x.next + 1 ≠ x.len) : x.advance = { x with next := x.next + 1 } := by
  rw [Flow.advance, if_neg (Bool.eq_false_iff.mp h), if_neg hn]

/-- The last member of a frame is followed by member 0 of the next. -/
theorem Flow.advance_of_last {x : Flow} (h : x.stream = false) (hn : x.next + 1 = x.len) :
    x.advance = { x with next := 0, frame := x.frame.map (· + 1) } := by
  rw [Flow.advance, if_neg (Bool.eq_false_iff.mp h), if_pos hn]

end

section
variable {x : Flow} (c : Closure)

@[simp] theorem Flow.released_enabled : (x.released c).enabled = x.enabled := Flow.advance_enabled _
@[simp] theorem Flow.released_out : (x.released c).out = x.out ++ c.recs.getD [] := Flow.advance_out _
theorem Flow.released_closed : (x.released c).closed = x.closed.filter (fun y => y != c) := Flow.advance_closed _

theorem Flow.released_of_stream (h : x.stream = true) : (x.released c).next = x.next + 1 := by
  rw [Flow.released, Flow.advance_of_stream]
  exact h

theorem Flow.released_of_framed (h : x.stream = false) (hn : x.next + 1 ≠ x.len) :
    (x.released c).next = x.next + 1 ∧ (x.released c).frame = x.frame := by
  rw [Flow.released, Flow.advance_of_framed]
  exacts [⟨rfl, rfl⟩, h, hn]

theorem Flow.released_of_last (h : x.stream = false) (hn : x.next + 1 = x.len) :
    (x.released c).next = 0 ∧ (x.released c).frame = x.frame.map (· + 1) := by
  rw [Flow.released, Flow.advance_of_last]
  exacts [⟨rfl, rfl⟩, h, hn]

end

section
variable {f : Nat} {d : Dev}

theorem flowRelease_none (h : ∀ c ∈ (flow d f).closed, (flow d f).place c.frame c.inst ≠ .pos 0) : flowRelease f d = d := by
  have hfind : ((flow d f).closed.find? fun c => (flow d f).place c.frame c.inst == .pos 0) = none := by simpa using h
  simp only [flowRelease, hfind]

/-- The registers that a release of flow f may count in. -/
def releaseCounts (f a : Nat) : Prop := a = Reg.SCHED_FLOW_COUNTS f ∨ meterPlace a

/-- A release counts, and moves its closure to what waits for hand-on. -/
theorem flowRelease_some {c : Closure} (h : ((flow d f).closed.find? fun c => (flow d f).place c.frame c.inst == .pos 0) = some c) :
    ∃ e, e.arr = d.arr ∧ e.mem = d.mem ∧ (∀ a, ¬ releaseCounts f a → rd e a = rd d a)
      ∧ flowRelease f d = setFlow f ((flow d f).released c) e := by
  let tombed := when c.recs.isNone (bumpFld (Reg.SCHED_FLOW_COUNTS f) 0 16 1) d
  let src := if c.recs.isSome then 0x2C0 else 0x2C1
  let n := c.recs.elim 1 List.length
  have htombed : onlyThese [Reg.SCHED_FLOW_COUNTS f] d tombed := onlyThese_when _ (onlyThese_bumpFld ..)
  have harr : tombed.arr = d.arr := by rw [htombed.1]
  have hmem : tombed.mem = d.mem := by rw [htombed.1]
  refine ⟨pmon src n tombed, (pmon_arr ..).trans harr, (pmon_mem ..).trans hmem, fun a ha => ?_, ?_⟩
  · rw [releaseCounts, not_or] at ha
    rw [(metersOnly_pmon src n tombed).2 a ha.2, htombed.2 a (by simpa using ha.1)]
  · simp only [flowRelease, h]
    cases hc : c.recs with
    | none => simp [src, n, tombed, hc, Flow.released]
    | some l => simp [src, n, tombed, hc, Flow.released]

theorem rd_flowRelease {a : Nat} (h : ¬ releaseCounts f a) : rd (flowRelease f d) a = rd d a := by
  cases hfind : (flow d f).closed.find? fun c => (flow d f).place c.frame c.inst == .pos 0 with
  | none => rw [flowRelease_none (by simpa using hfind)]
  | some c =>
    obtain ⟨e, -, -, hregs, he⟩ := flowRelease_some hfind
    rw [he]
    exact hregs a h

theorem not_releaseCounts_flowArg (f : Nat) : ¬ releaseCounts f Reg.SCHED_FLOW_ARG := by
  rintro (h | h)
  · simp only [Reg.SCHED_FLOW_ARG, Reg.SCHED_FLOW_COUNTS] at h
    omega
  · exact not_meterPlace_sched (by decide) (by decide) (by decide) h

theorem rd_releaseAll {a : Nat} (h : ¬ releaseCounts f a) : rd (releaseAll f d) a = rd d a :=
  forEach_keeps d (rd · a) _ (fun _ _ => rd_flowRelease h) _

theorem releaseAll_none (h : ∀ c ∈ (flow d f).closed, (flow d f).place c.frame c.inst ≠ .pos 0) : releaseAll f d = d :=
  forEach_inv d (· = d) _ (fun _ e he => (by subst he; exact flowRelease_none h)) _ rfl

end

/-! Stalled POURs (R120, R128). -/

section
variable {i : Nat} {b : Brew} {r : Rec} {d : Dev} {f n : Nat}

theorem pourStep_pos (hc : b.cancelled = false) (hf : b.flow = some f) (hp : keyPlace d f b.key = .pos n) :
    pourStep i b r d = if n < 1024 ∧ pourFits d (n == 0) r = true then (true, setBrew i (some { b with recs := b.recs ++ [r] }) d)
      else (false, d) := by
  simp [pourStep, hc, brewPlace, hf, hp]

/-- The instruction completes, and its record is held. -/
theorem pourResume_held (hb : brewAt d i = some b) (hw : b.wait = .pour r) (hc : b.cancelled = false) (hf : b.flow = some f)
    (hp : keyPlace d f b.key = .pos n) (hn : n < 1024) (hfits : pourFits d (n == 0) r = true) :
    brewAt (pourResume i d) i = some { b with recs := b.recs ++ [r], wait := .none, pc := b.pc + 4 }
      ∧ ∀ j ≠ i, brewAt (pourResume i d) j = brewAt d j := by
  have hresume : pourResume i d = finishWait i (setBrew i (some { b with recs := b.recs ++ [r] }) d) := by
    simp [pourResume, hb, hw, pourStep_pos hc hf hp, hn, hfits]
  simp only [hresume, finishWait, brewAt_setBrew_same]
  exact ⟨trivial, fun j hj => (brewAt_setBrew_ne _ _ hj).trans (brewAt_setBrew_ne _ _ hj)⟩

theorem pourResume_stalled (hb : brewAt d i = some b) (hw : b.wait = .pour r) (hc : b.cancelled = false) (hf : b.flow = some f)
    (hp : keyPlace d f b.key = .pos n) (h : 1024 ≤ n ∨ pourFits d (n == 0) r = false) : pourResume i d = d := by
  have hno : ¬ (n < 1024 ∧ pourFits d (n == 0) r = true) := by
    rintro ⟨hn, hfits⟩
    rcases h with h | h
    · exact Nat.not_lt.mpr h hn
    · exact Bool.false_ne_true (h.symm.trans hfits)
  simp [pourResume, hb, hw, pourStep_pos hc hf hp, hno]

end

/-! What a capture and a clear discard (R122, R124). -/

/-- What a table answers beside its default is one of its entries. -/
theorem Tab.mem_of_get {α : Type} {d : α} {t : Tab α} {i : Nat} {v : α} (h : Tab.get d t i = v) (hv : v ≠ d) : (i, v) ∈ t := by
  induction t with
  | nil => exact absurd h.symm hv
  | cons x t ih =>
    obtain ⟨k, w⟩ := x
    by_cases hk : i = k
    · obtain rfl : w = v := by simpa [Tab.get, hk] using h
      exact hk ▸ List.mem_cons_self ..
    · exact List.mem_cons_of_mem _ (ih (by simpa [Tab.get, hk] using h))

theorem mem_busySlots {d : Dev} {i : Nat} {b : Brew} (h : brewAt d i = some b) : (i, b) ∈ busySlots d :=
  List.mem_filterMap.mpr ⟨(i, some b), Tab.mem_of_get h (Option.some_ne_none b), rfl⟩

/-- The records of a brew of flow f are discarded. -/
def dropRecs (f : Nat) (x : Nat × Brew) (d : Dev) : Dev :=
  if x.2.flow = some f then setBrew x.1 (some { x.2 with recs := [] }) d else d

theorem flowDiscard_eq (f : Nat) (d : Dev) :
    flowDiscard f d = forEach (busySlots d) (dropRecs f) (setFlow f { flow d f with closed := [] } d) := rfl

/-- No brew of flow f holds records. -/
def flowEmptied (f : Nat) (d : Dev) : Prop := ∀ i b, brewAt d i = some b → b.flow = some f → b.recs = []

theorem forEach_dropRecs {f : Nat} {l : List (Nat × Brew)} {d : Dev}
    (h : ∀ i b, brewAt d i = some b → b.flow = some f → b.recs = [] ∨ (i, b) ∈ l) : flowEmptied f (forEach l (dropRecs f) d) := by
  induction l generalizing d with
  | nil => exact fun i b hb hf => (h i b hb hf).resolve_right List.not_mem_nil
  | cons x l ih =>
    obtain ⟨j, c⟩ := x
    rw [forEach_cons]
    refine ih fun i b hb hf => ?_
    by_cases hc : c.flow = some f
    · rw [dropRecs, if_pos hc] at hb
      by_cases hij : i = j
      · subst hij
        rw [brewAt_setBrew_same, Option.some.injEq] at hb
        exact .inl (hb ▸ rfl)
      · rw [brewAt_setBrew_ne _ _ hij] at hb
        exact (h i b hb hf).imp_right fun hmem => (List.mem_cons.mp hmem).resolve_left fun e => hij (congrArg Prod.fst e)
    · rw [dropRecs, if_neg hc] at hb
      exact (h i b hb hf).imp_right fun hmem => (List.mem_cons.mp hmem).resolve_left fun e => hc ((congrArg (fun x => x.2.flow) e).symm.trans hf)

theorem dropRecs_keeps {β : Type} (p : Dev → β) (hp : ∀ i b d, p (setBrew i b d) = p d) (f : Nat) (x : Nat × Brew) (d : Dev) :
    p (dropRecs f x d) = p d := by
  unfold dropRecs
  split
  · exact hp ..
  · rfl

/-- What depends on neither the brews nor the flows outlives a discard. -/
theorem flowDiscard_keeps {β : Type} (p : Dev → β) (hbrew : ∀ i b d, p (setBrew i b d) = p d) (hflow : ∀ f x d, p (setFlow f x d) = p d)
    (f : Nat) (d : Dev) : p (flowDiscard f d) = p d := by
  rw [flowDiscard_eq]
  exact (forEach_keeps _ p _ (dropRecs_keeps p hbrew f) _).trans (hflow ..)

section
variable (f : Nat) (d : Dev)

theorem flowDiscard_flows : (flowDiscard f d).arr.flows = (setFlow f { flow d f with closed := [] } d).arr.flows := by
  rw [flowDiscard_eq]
  exact forEach_keeps _ (·.arr.flows) _ (dropRecs_keeps (·.arr.flows) (fun _ _ _ => rfl) f) _

@[simp] theorem flow_flowDiscard_same : flow (flowDiscard f d) f = { flow d f with closed := [] } := by
  rw [flow_congr (flowDiscard_flows f d), flow_setFlow_same]

theorem flow_flowDiscard_ne {g : Nat} (h : g ≠ f) : flow (flowDiscard f d) g = flow d g := by
  rw [flow_congr (flowDiscard_flows f d), flow_setFlow_ne _ _ h]

@[simp] theorem flowDiscard_regs : (flowDiscard f d).regs = d.regs := flowDiscard_keeps (·.regs) (fun _ _ _ => rfl) (fun _ _ _ => rfl) f d
@[simp] theorem flowDiscard_mem : (flowDiscard f d).mem = d.mem := flowDiscard_keeps (·.mem) (fun _ _ _ => rfl) (fun _ _ _ => rfl) f d
@[simp] theorem flowDiscard_frm : (flowDiscard f d).frm = d.frm := flowDiscard_keeps (·.frm) (fun _ _ _ => rfl) (fun _ _ _ => rfl) f d

@[simp] theorem flowDiscard_tombs : (flowDiscard f d).arr.tombs = d.arr.tombs :=
  flowDiscard_keeps (·.arr.tombs) (fun _ _ _ => rfl) (fun _ _ _ => rfl) f d

theorem rd_setFlow_flowDiscard (x : Flow) (a : Nat) : rd (setFlow f x (flowDiscard f d)) a = rd d a := rd_congr (flowDiscard_regs f d) a

theorem flowEmptied_flowDiscard : flowEmptied f (flowDiscard f d) := by
  rw [flowDiscard_eq]
  exact forEach_dropRecs fun i b hb _ => .inr (mem_busySlots (d := d) hb)

end

/-! Captures (R124). -/

/-- Flow x as a capture leaves it, with v in SCHED_FLOW_CFG and `len` in SCHED_FLOW_LEN; `on` says whether it is to be enabled. -/
def Flow.captured (x : Flow) (on : Bool) (v len : W32) (c : Frm) : Flow :=
  { x with
    closed := [], stream := bit v 30, expire := fld v 0 8, len
    enabled := on && (bit v 30 || len != 0)
    next := if bit v 30 = true then len else 0
    frame := if bit v 30 = false ∧ len ≠ 0 ∧ c.leavesIssued = true then some c.cur else none }

theorem fld_and_low (v : W32) : fld (v &&& 0xC00000FF) 0 8 = fld v 0 8 := by
  have h : (v &&& 0xC00000FF).setWidth 8 = v.setWidth 8 := by
    rw [BitVec.setWidth_and]
    exact BitVec.and_allOnes
  rw [fld_toNat_setWidth, h, fld_toNat_setWidth]

theorem bit_and_mode (v : W32) : bit (v &&& 0xC00000FF) 30 = bit v 30 := (bit_and v _ 30).trans (Bool.and_true _)

theorem bit_and_en (v : W32) : bit (v &&& 0xC00000FF) 31 = bit v 31 := (bit_and v _ 31).trans (Bool.and_true _)

section
variable {x : Flow} {on : Bool} {v len : W32} {c : Frm}

/-- SCHED_FLOW_CFG holds of a written word all that a capture takes (R136). -/
theorem Flow.captured_masked : x.captured on (v &&& 0xC00000FF) len c = x.captured on v len c := by
  simp only [Flow.captured, bit_and_mode, fld_and_low]

theorem Flow.captured_of_stream (h : bit v 30 = true) : (x.captured on v len c).enabled = on ∧ (x.captured on v len c).next = len := by
  simp [Flow.captured, h]

theorem Flow.captured_of_framed (h : bit v 30 = false) (hlen : len ≠ 0) : (x.captured on v len c).enabled = on
    ∧ (x.captured on v len c).next = 0 ∧ (x.captured on v len c).frame = if c.leavesIssued then some c.cur else none := by
  have hne : (len != 0#32) = true := bne_iff_ne.mpr hlen
  simp [Flow.captured, h, hne, bne_iff_ne.mp hne]

theorem Flow.captured_rejected (h : bit v 30 = false) (hlen : len = 0) : (x.captured on v len c).enabled = false := by
  simp [Flow.captured, h, hlen]

end

/-- A capture empties the flow; one that is rejected says so and clears EN. -/
theorem flowCapture_eq (f : Nat) (on : Bool) (d : Dev) :
    let v := rd d (Reg.SCHED_FLOW_CFG f)
    let len := rd d (Reg.SCHED_FLOW_LEN f)
    let e := setFlow f ((flow d f).captured on v len d.frm) (flowDiscard f d)
    flowCapture f on d = if bit v 30 = false ∧ len = 0 then raiseRel 5 (wrBit (Reg.SCHED_FLOW_CFG f) 31 false e) else e := by
  intro v len e
  simp only [flowCapture, flow_flowDiscard_same, flowDiscard_frm]
  by_cases hmode : bit (rd d (Reg.SCHED_FLOW_CFG f)) 30 = true
  · simp [e, v, len, Flow.captured, hmode]
  · by_cases hlen : rd d (Reg.SCHED_FLOW_LEN f) = 0
    · simp [e, v, len, Flow.captured, hmode, hlen]
    · have hne : ¬ rd d (Reg.SCHED_FLOW_LEN f) = 0#32 := hlen
      simp [e, v, len, Flow.captured, hmode, hne, bne_iff_ne.mpr hne]

/-- From d to e flow f gives up what it holds, becomes x, and the other flows and the memory stay as they are. -/
structure EmptiedTo (f : Nat) (x : Flow) (d e : Dev) : Prop where
  flow : flow e f = x
  others : ∀ g, g ≠ f → Machine.flow e g = Machine.flow d g
  brews : flowEmptied f e
  tombs : e.arr.tombs = d.arr.tombs
  mem : sameMemory d e

theorem emptiedTo_setFlow (f : Nat) (x : Flow) (d : Dev) : EmptiedTo f x d (setFlow f x (flowDiscard f d)) where
  flow := flow_setFlow_same ..
  others g hg := by rw [flow_setFlow_ne _ _ hg, flow_flowDiscard_ne _ _ hg]
  brews := flowEmptied_flowDiscard f d
  tombs := flowDiscard_tombs f d
  mem := sameMemory_of_mem (flowDiscard_mem f d)

section
variable {f : Nat} {x : Flow} {d e e' : Dev}

/-- Only the array's state and the memory tell. -/
theorem EmptiedTo.congr (h : EmptiedTo f x d e) (hflows : e'.arr.flows = e.arr.flows) (hslots : e'.arr.slots = e.arr.slots)
    (htombs : e'.arr.tombs = e.arr.tombs) (hmem : e'.mem = e.mem) : EmptiedTo f x d e' where
  flow := (flow_congr hflows f).trans h.flow
  others g hg := (flow_congr hflows g).trans (h.others g hg)
  brews i b hb := h.brews i b ((brewAt_congr hslots i).symm.trans hb)
  tombs := htombs.trans h.tombs
  mem a := (getByte_congr hmem a).trans (h.mem a)

theorem EmptiedTo.of_wr {a : Nat} {v : W32} (h : EmptiedTo f x (wr a v d) e) : EmptiedTo f x d e := ⟨h.flow, h.others, h.brews, h.tombs, h.mem⟩

theorem EmptiedTo.settle (h : EmptiedTo f x d e) (k : Clk) : EmptiedTo f x d (settle k e) := by
  have hk := metersOnly_settle k e
  exact h.congr (by rw [hk.arr]) hk.slots hk.tombs hk.mem

theorem EmptiedTo.noteSeal (h : EmptiedTo f x d e) (a : Nat) (was : Dev) : EmptiedTo f x d (noteSeal a was e) := by
  obtain ⟨seen, hseen⟩ := noteSeal_only a was e
  rw [hseen]
  exact h.congr rfl rfl rfl rfl

end

theorem emptiedTo_flowCapture (f : Nat) (on : Bool) (d : Dev) :
    EmptiedTo f ((flow d f).captured on (rd d (Reg.SCHED_FLOW_CFG f)) (rd d (Reg.SCHED_FLOW_LEN f)) d.frm) d (flowCapture f on d) := by
  rw [flowCapture_eq]
  split
  · exact (emptiedTo_setFlow ..).congr (by rw [raiseRel_arr]; rfl) (by rw [raiseRel_arr]; rfl) (by rw [raiseRel_arr]; rfl) (by rw [raiseRel_mem]; rfl)
  · exact emptiedTo_setFlow ..

theorem flowLen_ne_flowCfg (f : Nat) : Reg.SCHED_FLOW_LEN f ≠ Reg.SCHED_FLOW_CFG f := by
  simp only [Reg.SCHED_FLOW_LEN, Reg.SCHED_FLOW_CFG]
  omega

theorem not_meterPlace_flowCfg (f : Fin 4096) : ¬ meterPlace (Reg.SCHED_FLOW_CFG f) := by
  have hf := f.isLt
  refine not_meterPlace_sched ?_ ?_ ?_
  all_goals simp only [Reg.SCHED_FLOW_CFG, Reg.SCHED_POUR_STALL]
  all_goals omega

theorem not_meterPlace_relEvent : ¬ meterPlace Reg.SCHED_REL_EVENT := not_meterPlace_sched (by decide) (by decide) (by decide)

theorem flowCfg_ne_relEvent (f : Nat) : Reg.SCHED_FLOW_CFG f ≠ Reg.SCHED_REL_EVENT := by
  simp only [Reg.SCHED_FLOW_CFG, Reg.SCHED_REL_EVENT]
  omega

/-- A rejected capture shows in EN and in FLOW_CFG_REJECT. -/
def FlowRejected (f : Fin 4096) (e : Dev) : Prop := rb e (Reg.SCHED_FLOW_CFG f) 31 = false ∧ rb e Reg.SCHED_REL_EVENT 5 = true

theorem flowRejected_flowCapture {f : Fin 4096} {on : Bool} {d : Dev} (h : rb d (Reg.SCHED_FLOW_CFG f) 30 = false)
    (hlen : rd d (Reg.SCHED_FLOW_LEN f) = 0) : FlowRejected f (flowCapture f on d) := by
  rw [flowCapture_eq, if_pos ⟨h, hlen⟩]
  refine ⟨?_, rb_raiseRel (by decide) _⟩
  rw [rb, rd_raiseRel_ne _ _ (flowCfg_ne_relEvent f), rd_wrBit_same]
  exact bit_setBit_same _ _ _ (by decide)

section
variable {f : Fin 4096} {e e' : Dev}

theorem FlowRejected.congr (h : FlowRejected f e) (hregs : ∀ a, ¬ meterPlace a → rd e' a = rd e a) : FlowRejected f e' := by
  unfold FlowRejected rb at *
  rwa [hregs _ (not_meterPlace_flowCfg f), hregs _ not_meterPlace_relEvent]

theorem FlowRejected.settle (h : FlowRejected f e) (k : Clk) : FlowRejected f (settle k e) := h.congr (metersOnly_settle k e).2

theorem FlowRejected.noteSeal (h : FlowRejected f e) (a : Nat) (was : Dev) : FlowRejected f (noteSeal a was e) :=
  h.congr fun b _ => rd_noteSeal a was e b

end

/-- A capture that is taken leaves the registers alone. -/
theorem rd_flowCapture {f : Nat} {on : Bool} {d : Dev} (h : rb d (Reg.SCHED_FLOW_CFG f) 30 = true ∨ rd d (Reg.SCHED_FLOW_LEN f) ≠ 0) (a : Nat) :
    rd (flowCapture f on d) a = rd d a := by
  have hno : ¬ (bit (rd d (Reg.SCHED_FLOW_CFG f)) 30 = false ∧ rd d (Reg.SCHED_FLOW_LEN f) = 0) := by
    rintro ⟨hmode, hlen⟩
    exact h.elim (fun h => Bool.false_ne_true (hmode.symm.trans h)) (· hlen)
  rw [flowCapture_eq, if_neg hno]
  exact rd_congr (flowDiscard_regs f d) a

end Sys2Proof.Machine

/-!
The flow commands (O28).
-/

namespace Sys2Proof.Machine

section
variable {s : State} {f : Fin 4096}

theorem exec_flowTombstone (s : State) : exec .flowTombstone s = nextDev s (flowTombstone s.dev) := rfl

/-- R120, R122: the oldest tombstone. -/
theorem exec_flowTombstone_open {f : Nat} {key : W64} {l : List (Nat × W64)} {n : Nat} (h : s.dev.arr.tombs = (f, key) :: l)
    (hp : keyPlace s.dev f key = .pos n) (hn : n < 4096) (hopen : (flow s.dev f).isClosed n = false) :
    exec .flowTombstone s = nextDev s (setFlow f { flow s.dev f with closed := (flow s.dev f).closed ++ [closureOf key none] } (tombsLeft l s.dev)) := by
  rw [exec_flowTombstone, flowTombstone_pos h hp, if_neg (Nat.not_le.mpr hn)]
  exact congrArg (nextDev s) (recordClosure_open hp hopen)

/-- A stray. -/
theorem exec_flowTombstone_stray {f : Nat} {key : W64} {l : List (Nat × W64)} (h : s.dev.arr.tombs = (f, key) :: l)
    (hp : keyPlace s.dev f key = .behind ∨ keyPlace s.dev f key = .disabled
      ∨ ∃ n < 4096, keyPlace s.dev f key = .pos n ∧ (flow s.dev f).isClosed n = true) :
    exec .flowTombstone s = nextDev s (countStray f (tombsLeft l s.dev)) := by
  rw [exec_flowTombstone]
  rcases hp with hp | hp | ⟨n, hn, hp, hclosed⟩
  · rw [flowTombstone_stray h (.inl hp)]
  · rw [flowTombstone_stray h (.inr hp)]
  · rw [flowTombstone_pos h hp, if_neg (Nat.not_le.mpr hn)]
    exact congrArg (nextDev s) (recordClosure_closed hp hclosed)

theorem exec_flowTombstone_far {f : Nat} {key : W64} {l : List (Nat × W64)} {n : Nat} (h : s.dev.arr.tombs = (f, key) :: l)
    (hp : keyPlace s.dev f key = .pos n) (hn : 4096 ≤ n) : exec .flowTombstone s = nextDev s (raiseRel 2 (tombsLeft l s.dev)) := by
  rw [exec_flowTombstone, flowTombstone_pos h hp, if_pos hn]

/-- R121: the first closure of position 0 is released. -/
theorem exec_flowRelease {c : Closure} {l₁ l₂ : List Closure} (h : (flow s.dev f).closed = l₁ ++ c :: l₂) (h₁ : c ∉ l₁) (h₂ : c ∉ l₂)
    (hc : (flow s.dev f).place c.frame c.inst = .pos 0) (hfirst : ∀ y ∈ l₁, (flow s.dev f).place y.frame y.inst ≠ .pos 0) :
    ∃ t, exec (.flowRelease f) s = .next t ∧ t.clk = s.clk ∧ sameMemory s.dev t.dev
      ∧ flow t.dev f = (flow s.dev f).released c ∧ (flow t.dev f).closed = l₁ ++ l₂
      ∧ ∀ g, g ≠ f.val → flow t.dev g = flow s.dev g := by
  have hfind : ((flow s.dev f).closed.find? fun c => (flow s.dev f).place c.frame c.inst == .pos 0) = some c :=
    List.find?_eq_some_iff_append.mpr ⟨by simp [hc], l₁, l₂, h, fun y hy => by simp [hfirst y hy]⟩
  have hleft : (flow s.dev f).closed.filter (fun y => y != c) = l₁ ++ l₂ := by
    have hkeep {l : List Closure} (hl : c ∉ l) : l.filter (fun y => y != c) = l :=
      List.filter_eq_self.mpr fun y hy => bne_iff_ne.mpr fun e => hl (e ▸ hy)
    rw [h, List.filter_append, List.filter_cons_of_neg (by simp), hkeep h₁, hkeep h₂]
  obtain ⟨e, harr, hmem, -, he⟩ := flowRelease_some hfind
  have hk := metersOnly_settle s.clk (flowRelease f s.dev)
  have hflow : flow (settle s.clk (flowRelease f s.dev)) f = (flow s.dev f).released c := by rw [hk.flow, he, flow_setFlow_same]
  refine ⟨_, rfl, rfl, ?_, ?_, ?_, fun g hg => ?_⟩
  all_goals dsimp only
  · exact sameMemory_of_mem (hk.mem.trans (by rw [he]; exact hmem))
  · exact hflow
  · rw [hflow, Flow.released_closed, hleft]
  · rw [hk.flow, he, flow_setFlow_ne _ _ hg]
    exact flow_congr (by rw [harr]) g

/-- R126: the oldest record goes when its destination takes it. -/
theorem exec_recordHandOn {r : Rec} {l : List Rec} {d : Dev} (h : (flow s.dev f).out = r :: l) (hd : handOn r s.clk s.dev = some d) :
    exec (.recordHandOn (some f)) s = nextDev s (settle s.clk (setFlow f { flow d f with out := l } d)) := by
  refine congrArg (fun d => nextDev s (settle s.clk d)) ?_
  simp only [Option.map_some, recordHandOn, h, hd]

/-- R120, R128: a stalled POUR goes on when its record can be held. -/
theorem exec_pourResume {x : SlotId} {b : Brew} {r : Rec} {f n : Nat} (hb : brewAt s.dev (slotNum x) = some b) (hw : b.wait = .pour r)
    (hc : b.cancelled = false) (hf : b.flow = some f) (hp : keyPlace s.dev f b.key = .pos n) (hn : n < 1024)
    (hfits : pourFits s.dev (n == 0) r = true) : ∃ t, exec (.pourResume x) s = .next t ∧ t.clk = s.clk
      ∧ brewAt t.dev (slotNum x) = some { b with recs := b.recs ++ [r], wait := .none, pc := b.pc + 4 }
      ∧ ∀ j ≠ slotNum x, brewAt t.dev j = brewAt s.dev j := by
  obtain ⟨hheld, hothers⟩ := pourResume_held hb hw hc hf hp hn hfits
  have hslots := brewAt_congr (metersOnly_settle s.clk (pourResume (slotNum x) s.dev)).slots
  refine ⟨_, rfl, rfl, ?_, fun j hj => ?_⟩
  all_goals dsimp only
  · exact (hslots _).trans hheld
  · exact (hslots j).trans (hothers j hj)

variable {req : Req} {v : W32}

/-- R124: EN goes from 0 to 1. -/
theorem exec_flowEnable (hopen : csrShut s.dev (Reg.SCHED_FLOW_CFG f) = false) (hv : bit v 31 = true)
    (hwas : rb s.dev (Reg.SCHED_FLOW_CFG f) 31 = false) : ∃ t, exec (.flowEnable req f v) s = .next t ∧ t.clk = s.clk
      ∧ EmptiedTo f ((flow s.dev f).captured true v (rd s.dev (Reg.SCHED_FLOW_LEN f)) s.dev.frm) s.dev t.dev
      ∧ (bit v 30 = true → rb t.dev (Reg.SCHED_FLOW_CFG f) 31 = true)
      ∧ (bit v 30 = false → rd s.dev (Reg.SCHED_FLOW_LEN f) = 0 → FlowRejected f t.dev) := by
  let d := wr (Reg.SCHED_FLOW_CFG f) (v &&& 0xC00000FF) s.dev
  have hwrite : when (bit v 31) (flowCfgWrite f v) s.dev = flowCapture f true d := by simp [when, flowCfgWrite, hv, hwas, d]
  have hexec : exec (.flowEnable req f v) s = nextDev s (noteSeal (Reg.SCHED_FLOW_CFG f) s.dev (settle s.clk (flowCapture f true d))) := by
    rw [← hwrite]
    exact congrArg (nextDev s) (accessSealed_open _ hopen)
  have hmode : rb d (Reg.SCHED_FLOW_CFG f) 30 = bit v 30 := by rw [rb, rd_wr_same, bit_and_mode]
  have hlen : rd d (Reg.SCHED_FLOW_LEN f) = rd s.dev (Reg.SCHED_FLOW_LEN f) := rd_wr_ne _ _ (flowLen_ne_flowCfg f)
  have hempty := emptiedTo_flowCapture f true d
  rw [rd_wr_same, hlen, Flow.captured_masked] at hempty
  refine ⟨_, hexec, rfl, ((hempty.settle s.clk).noteSeal _ _).of_wr, fun h => ?_, fun h hzero => ?_⟩
  · rw [rb, rd_noteSeal, (metersOnly_settle ..).2 _ (not_meterPlace_flowCfg f), rd_flowCapture (.inl (hmode.trans h)), rd_wr_same, bit_and_en, hv]
  · have hrejected : FlowRejected f (flowCapture f true d) := flowRejected_flowCapture (hmode.trans h) (hlen.trans hzero)
    exact (hrejected.settle s.clk).noteSeal _ _

/-- R124: EN goes from 1 to 0. -/
theorem exec_flowDisable (hopen : csrShut s.dev (Reg.SCHED_FLOW_CFG f) = false) (hv : bit v 31 = false)
    (hwas : rb s.dev (Reg.SCHED_FLOW_CFG f) 31 = true) :
    ∃ t, exec (.flowDisable req f v) s = .next t ∧ t.clk = s.clk
      ∧ EmptiedTo f { flow s.dev f with closed := [], enabled := false, frame := none } s.dev t.dev ∧ rb t.dev (Reg.SCHED_FLOW_CFG f) 31 = false := by
  let d := wr (Reg.SCHED_FLOW_CFG f) (v &&& 0xC00000FF) s.dev
  let e := setFlow f { flow s.dev f with closed := [], enabled := false, frame := none } (flowDiscard f d)
  have hflow : flow d f = flow s.dev f := rfl
  have hwrite : when (!bit v 31) (flowCfgWrite f v) s.dev = e := by simp [when, flowCfgWrite, hv, hwas, ← hflow, d, e]
  have hempty : EmptiedTo f _ d e := emptiedTo_setFlow ..
  have hexec : exec (.flowDisable req f v) s = nextDev s (noteSeal (Reg.SCHED_FLOW_CFG f) s.dev (settle s.clk e)) := by
    rw [← hwrite]
    exact congrArg (nextDev s) (accessSealed_open _ hopen)
  refine ⟨_, hexec, rfl, ((hempty.settle s.clk).noteSeal _ _).of_wr, ?_⟩
  rw [rb, rd_noteSeal, (metersOnly_settle ..).2 _ (not_meterPlace_flowCfg f), rd_setFlow_flowDiscard, rd_wr_same, bit_and_en, hv]

/-- R124, R129: SKIP. -/
theorem exec_flowSkip (hopen : csrShut s.dev Reg.SCHED_FLOW_CMD = false) : let d := releaseAll f s.dev
    let x := flow d f
    exec (.flowSkip req f) s = nextDev s (settle s.clk
      (if x.enabled = true ∧ (x.stream = true ∨ x.frame.isSome = true) ∧ x.next = rd s.dev Reg.SCHED_FLOW_ARG then
        setFlow f { x with closed := x.closed ++ [{ frame := x.frame.getD 0, inst := x.next, recs := none }] } d
      else raiseRel 4 d)) := by
  intro d x
  have harg : rd d Reg.SCHED_FLOW_ARG = rd s.dev Reg.SCHED_FLOW_ARG := rd_releaseAll (not_releaseCounts_flowArg f)
  refine congrArg (nextDev s) ((access_open _ hopen).trans (congrArg (settle s.clk) ?_))
  simp only [flowSkip, Bool.and_eq_true, Bool.or_eq_true, beq_iff_eq, and_assoc]
  rw [harg]

/-- R124: RESET. -/
theorem exec_flowReset (hopen : csrShut s.dev Reg.SCHED_FLOW_CMD = false) :
    ∃ t, exec (.flowReset req f) s = .next t ∧ t.clk = s.clk
      ∧ EmptiedTo f ((flow s.dev f).captured (flow s.dev f).enabled (rd s.dev (Reg.SCHED_FLOW_CFG f)) (rd s.dev (Reg.SCHED_FLOW_LEN f)) s.dev.frm)
          s.dev t.dev
      ∧ (rb s.dev (Reg.SCHED_FLOW_CFG f) 30 = false → rd s.dev (Reg.SCHED_FLOW_LEN f) = 0 → FlowRejected f t.dev) := by
  have hexec : exec (.flowReset req f) s = nextDev s (settle s.clk (flowCapture f (flow s.dev f).enabled s.dev)) :=
    congrArg (nextDev s) (access_open _ hopen)
  have hempty := emptiedTo_flowCapture f (flow s.dev f).enabled s.dev
  refine ⟨_, hexec, rfl, ?_, fun hmode hlen => ?_⟩
  all_goals dsimp only
  · exact hempty.settle s.clk
  · exact (flowRejected_flowCapture hmode hlen).settle s.clk

end

/-- Settles O28: a lemma for each command, and those on what a capture and a release leave. -/
theorem flowCommands : Obligations.FlowCommands := by
  unfold Obligations.FlowCommands
  refine ⟨fun x f i => ⟨Flow.place_of_stream, fun F => Flow.place_of_framed, Flow.place_of_disabled⟩, fun s f key l htombs => ?_,
    fun f s c l₁ l₂ hclosed h₁ h₂ hc hfirst => ?_, fun f s r l d => exec_recordHandOn, fun x b r s f n hb hw hc hf hp => ?_,
    fun req f v s hopen => ⟨fun hv hwas => ?_, fun hv hwas => ?_⟩, fun req f s hopen => ⟨?_, fun hlen => ?_, fun hlen hmode => ?_⟩⟩
  · simp only [← keyPlace_eq]
    refine ⟨fun n hp hn => exec_flowTombstone_open htombs hp hn, fun hp => ?_, fun n hp hn => ?_⟩
    · obtain ⟨hevent, hcount, honly⟩ := countStray_shows f (tombsLeft l s.dev)
      exact ⟨_, exec_flowTombstone_stray htombs hp, rfl, hevent, hcount, honly⟩
    · exact ⟨_, exec_flowTombstone_far htombs hp hn, rfl, rb_raiseRel (by decide) _, onlyThese_raiseRel ..⟩
  · obtain ⟨t, hexec, hclk, hmem, hflow, hleft, hothers⟩ := exec_flowRelease hclosed h₁ h₂ hc hfirst
    refine ⟨t, hexec, hclk, hmem, ?_, hleft, ?_, ?_, ?_, ?_, hothers⟩
    all_goals rw [hflow]
    · exact Flow.released_out c
    · exact Flow.released_of_stream c
    · exact Flow.released_enabled c
    · exact Flow.released_of_framed c
    · exact Flow.released_of_last c
  · exact ⟨exec_pourResume hb hw hc hf hp, fun h => congrArg (fun d => nextDev s (settle s.clk d)) (pourResume_stalled hb hw hc hf hp h)⟩
  · obtain ⟨t, hexec, hclk, hempty, htaken, hrejected⟩ := exec_flowEnable (req := req) hopen hv hwas
    refine ⟨t, hexec, hclk, hempty.mem, ?_, ?_, ?_, ?_, ?_, fun hmode => ?_, fun hmode hlen => ?_, fun hmode hlen => ?_, hempty.others⟩
    all_goals rw [hempty.flow]
    · rfl
    · rfl
    · rfl
    · rfl
    · rfl
    · obtain ⟨hen, hnext⟩ := Flow.captured_of_stream hmode
      exact ⟨hen, hnext, htaken hmode⟩
    · exact Flow.captured_of_framed hmode hlen
    · exact ⟨Flow.captured_rejected hmode hlen, hrejected hmode hlen⟩
  · obtain ⟨t, hexec, hclk, hempty, hen⟩ := exec_flowDisable (req := req) hopen hv hwas
    refine ⟨t, hexec, hclk, hempty.mem, ?_, ?_, ?_, hen, hempty.tombs, hempty.others⟩
    all_goals rw [hempty.flow]
  · intro d x open0
    refine ⟨releaseAll_none, fun ho => ⟨?_, Flow.place_next ho.1 ho.2.1⟩, fun ho => ?_⟩
    · rw [exec_flowSkip hopen, if_pos ho]
    · rw [exec_flowSkip hopen, if_neg ho]
  · obtain ⟨t, hexec, hclk, hempty, -⟩ := exec_flowReset (req := req) (f := f) hopen
    refine ⟨t, hexec, hclk, ?_, hempty.tombs, ?_, ?_, hempty.brews, ?_, ?_, hempty.others⟩
    all_goals rw [hempty.flow]
    · cases hmode : rb s.dev (Reg.SCHED_FLOW_CFG f) 30 with
      | true => exact (Flow.captured_of_stream hmode).1
      | false => exact (Flow.captured_of_framed hmode hlen).1
    · rfl
    · rfl
    · rfl
    · rfl
  · obtain ⟨t, hexec, hclk, hempty, hrejected⟩ := exec_flowReset (req := req) (f := f) hopen
    obtain ⟨hen, hevent⟩ := hrejected hmode hlen
    refine ⟨t, hexec, hclk, ?_, hen, hevent, hempty.tombs⟩
    rw [hempty.flow, Flow.captured_rejected hmode hlen]

end Sys2Proof.Machine

/-!
O29 fails on its clauses about DELAY_DEFERRED_RELEASE. They give the device after the command without `settle`, with which the model ends it: in
a state where something stalls or runs and its meter is off, the command starts that meter. The hypothesis that the meters are settled, so
that `settle` changes nothing, would exclude this counterexample; so would the words `settle s.clk` in the clauses, as the other commands' have
them.
-/

namespace Sys2Proof.Machine

/-- A leaf waits at the input port of swarm 0, and a brew runs in slot 0 whose meter no command has started. -/
def unmeteredState : State where
  pending := []
  clk := Clk.reset
  dev := onArr (fun a => { a with
    inputs := [{ key := 0, slot := 0, value := 0 }]
    slots := [(0, some { key := 0, pc := 0, flow := none, cycTick := 0 })] }) Dev.reset

theorem inputWaits_unmeteredState : inputWaits unmeteredState.dev 0 = true := by decide +kernel

/-- The meter of slot 0 is off. -/
theorem slotMeter_unmeteredState : Tab.get none unmeteredState.dev.arr.meters 65 = none := by decide +kernel

/-- `settle` starts it (R386). -/
theorem slotMeter_settle_unmeteredState :
    Tab.get none (settle unmeteredState.clk unmeteredState.dev).arr.meters 65 = some unmeteredState.clk.ticks := by decide +kernel

/-- The table port serves no delay entry while an input-class leaf waits (R95): the command does no more than start and stop meters. -/
theorem exec_delayDeferredRelease_inputWaits {sw : Fin 8} {s : State} (h : inputWaits s.dev sw = true) :
    exec (.delayDeferredRelease sw) s = nextDev s (settle s.clk s.dev) := by
  have hturn : serveTurn 1 sw s.dev = s.dev := by simp [serveTurn, h]
  exact congrArg (fun d => nextDev s (settle s.clk d)) hturn

/-- Refutes O29: its clause on DELAY_DEFERRED_RELEASE behind an input-class leaf is false of `unmeteredState`, where the command starts the
meter of slot 0. -/
theorem not_expiryAndDelays : ¬ Obligations.ExpiryAndDelays := by
  unfold Obligations.ExpiryAndDelays
  rintro ⟨-, -, -, -, -, -, hwaits, -⟩
  have hdev : settle unmeteredState.clk unmeteredState.dev = unmeteredState.dev := by
    have hnext := hwaits 0 unmeteredState inputWaits_unmeteredState
    rw [exec_delayDeferredRelease_inputWaits inputWaits_unmeteredState] at hnext
    injection hnext with hstate
    exact congrArg State.dev hstate
  have hmeter := slotMeter_settle_unmeteredState
  rw [hdev, slotMeter_unmeteredState] at hmeter
  cases hmeter

end Sys2Proof.Machine

/-!
The infuser's commands (O30): what each leaves of a brew's slot, of the queue and of the counter of samples (R138, R154, R156).
-/

namespace Sys2Proof.Machine

/-! A slot written twice. -/

theorem Tab.filter_add_same {α : Type} (i : Nat) (v : α) (t : Tab α) :
    (Tab.add i v t).filter (fun x => x.1 != i) = t.filter (fun x => x.1 != i) := by
  induction t with
  | nil => simp [Tab.add]
  | cons x t ih =>
    obtain ⟨k, y⟩ := x
    by_cases hlt : i < k
    · simp [Tab.add, hlt]
    · simp only [Tab.add, hlt, if_false, List.filter_cons, ih]

/-- Of two writes of one number the last counts. -/
theorem Tab.put_put {α : Type} [DecidableEq α] (e : α) (t : Tab α) (i : Nat) (v w : α) : Tab.put e (Tab.put e t i v) i w = Tab.put e t i w := by
  have hfilter : (Tab.put e t i v).filter (fun x => x.1 != i) = t.filter (fun x => x.1 != i) := by
    unfold Tab.put
    split
    · simp only [List.filter_filter, Bool.and_self]
    · simp only [Tab.filter_add_same, List.filter_filter, Bool.and_self]
  rw [Tab.put, hfilter, Tab.put]

theorem setBrew_setBrew (i : Nat) (b c : Option Brew) (d : Dev) : setBrew i b (setBrew i c d) = setBrew i b d :=
  congrArg (fun t => onArr (fun a => { a with slots := t }) d) (Tab.put_put ..)

/-! The queue. -/

theorem infuserQueue_congr {d e : Dev} (h : e.arr.infuser = d.arr.infuser) (s : Nat) : infuserQueue e s = infuserQueue d s := by
  rw [infuserQueue, h]
  rfl

@[simp] theorem infuserQueue_setInfuserQueue (s : Nat) (l : List Infusion) (d : Dev) : infuserQueue (setInfuserQueue s l d) s = l := Tab.get_put_same ..

@[simp] theorem infuserQueue_setBrew (s i : Nat) (b : Option Brew) (d : Dev) : infuserQueue (setBrew i b d) s = infuserQueue d s := rfl

@[simp] theorem rd64_setInfuserQueue (s a : Nat) (l : List Infusion) (d : Dev) : rd64 (setInfuserQueue s l d) a = rd64 d a := rfl

@[simp] theorem brewAt_setInfuserQueue (s i : Nat) (l : List Infusion) (d : Dev) : brewAt (setInfuserQueue s l d) i = brewAt d i := rfl

/-! Issue (R138). -/

section
variable {i : Nat} {b : Brew} {d : Dev}

theorem infuserIssue_queued (x : Infusion) (hb : brewAt d i = some b) (hroom : (infuserQueue d (slotSwarm i)).length < 64) :
    infuserIssue i x d = setInfuserQueue (slotSwarm i) (infuserQueue d (slotSwarm i) ++ [x]) (setBrew i (some { b with wait := .infuser }) d) := by
  simp only [infuserIssue, hb, if_pos hroom]

theorem infuserIssue_stalled (x : Infusion) (hb : brewAt d i = some b) (hfull : 64 ≤ (infuserQueue d (slotSwarm i)).length) :
    infuserIssue i x d = onArr (fun a => { a with infuserStalled := a.infuserStalled ++ [x] })
      (setBrew i (some { b with wait := .infuserPlace }) d) := by
  simp only [infuserIssue, hb, if_neg (Nat.not_lt.mpr hfull)]

end

section
variable {i : SlotId} {i' : Nat} {b : Brew} {s : State} {pre : Option W32} {w : W32} {e : Dev} {op : Op} {c : Instr}

theorem exec_sample (hc : (op, c) ∈ [(Op.sample2, Instr.sample2 i), (.sample3, .sample3 i), (.matrix, .matrix i), (.lut3, .lut3 i),
      (.curve, .curve i), (.dither, .dither i)]) : exec c s = runClass op (.slot i) (onBrew sampleStep) s := by
  simp only [List.mem_cons, Prod.mk.injEq, List.not_mem_nil, or_false] at hc
  rcases hc with ⟨rfl, rfl⟩ | ⟨rfl, rfl⟩ | ⟨rfl, rfl⟩ | ⟨rfl, rfl⟩ | ⟨rfl, rfl⟩ | ⟨rfl, rfl⟩
  all_goals rfl

/-- R58, R141, R142. -/
theorem sample_illegal (h : Issues op (.slot i) (.slot i' b) pre w s e) (hbad : sampleLegal pre w = false) :
    runClass op (.slot i) (onBrew sampleStep) s = nextDev s (takeFault (.slot i' b) 0x01 0 0xFF s.clk e) :=
  runClass_fault h (if_neg (by simp [hbad]))

theorem sample_legal (h : Issues op (.slot i) (.slot i' b) pre w s e) (hok : sampleLegal pre w = true) :
    runClass op (.slot i) (onBrew sampleStep) s
      = nextDev s (settle s.clk (infuserIssue i' { slotId := i', pre, word := w } (setBrew i' (some b) e))) :=
  runClass_done h (if_pos hok)

theorem sample_queued (h : Issues op (.slot i) (.slot i' b) pre w s e) (hok : sampleLegal pre w = true)
    (hroom : (infuserQueue e (slotSwarm i')).length < 64) :
    runClass op (.slot i) (onBrew sampleStep) s = nextDev s (settle s.clk (setInfuserQueue (slotSwarm i')
      (infuserQueue e (slotSwarm i') ++ [{ slotId := i', pre, word := w }]) (setBrew i' (some { b with wait := .infuser }) e))) := by
  rw [sample_legal h hok, infuserIssue_queued _ (brewAt_setBrew_same ..) hroom, setBrew_setBrew, infuserQueue_setBrew]

theorem sample_stalled (h : Issues op (.slot i) (.slot i' b) pre w s e) (hok : sampleLegal pre w = true)
    (hfull : 64 ≤ (infuserQueue e (slotSwarm i')).length) :
    runClass op (.slot i) (onBrew sampleStep) s = nextDev s (settle s.clk (onArr (fun a =>
      { a with infuserStalled := a.infuserStalled ++ [{ slotId := i', pre, word := w }] }) (setBrew i' (some { b with wait := .infuserPlace }) e))) := by
  rw [sample_legal h hok, infuserIssue_stalled _ (brewAt_setBrew_same ..) hfull, setBrew_setBrew]

end

/-! A freed place (R138). -/

section
variable {sw : Nat} {x : Infusion} {l₁ l₂ : List Infusion}

/-- The oldest of a swarm's stalled instructions. -/
theorem find_stalled (h₁ : ∀ y ∈ l₁, slotSwarm y.slotId ≠ sw ∧ y ≠ x) (hx : slotSwarm x.slotId = sw) :
    (l₁ ++ x :: l₂).find? (fun y => slotSwarm y.slotId == sw) = some x := by
  rw [List.find?_append, List.find?_eq_none.mpr fun y hy => by simpa using (h₁ y hy).1]
  exact List.find?_cons_of_pos (p := fun y : Infusion => slotSwarm y.slotId == sw) (by simp [hx])

theorem filter_stalled (h₁ : ∀ y ∈ l₁, slotSwarm y.slotId ≠ sw ∧ y ≠ x) (h₂ : x ∉ l₂) : (l₁ ++ x :: l₂).filter (fun y => y != x) = l₁ ++ l₂ := by
  rw [List.filter_append, List.filter_cons_of_neg (by simp), List.filter_eq_self.mpr fun y hy => by simpa using (h₁ y hy).2,
    List.filter_eq_self.mpr fun y hy => by simpa using fun h : y = x => h₂ (h ▸ hy)]

/-- The device in which x has taken the place that it was stalled for; l are those still stalled. -/
def accepted (sw : Nat) (x : Infusion) (b : Brew) (l : List Infusion) (d : Dev) : Dev :=
  setInfuserQueue sw (infuserQueue d sw ++ [x]) (setBrew x.slotId (some { b with wait := .infuser })
    (onArr (fun a => { a with infuserStalled := l }) d))

@[simp] theorem accepted_mem (sw : Nat) (x : Infusion) (b : Brew) (l : List Infusion) (d : Dev) : (accepted sw x b l d).mem = d.mem := rfl
@[simp] theorem accepted_stalled (sw : Nat) (x : Infusion) (b : Brew) (l : List Infusion) (d : Dev) :
    (accepted sw x b l d).arr.infuserStalled = l := rfl
@[simp] theorem infuserQueue_accepted (sw : Nat) (x : Infusion) (b : Brew) (l : List Infusion) (d : Dev) :
    infuserQueue (accepted sw x b l d) sw = infuserQueue d sw ++ [x] := infuserQueue_setInfuserQueue ..
@[simp] theorem brewAt_accepted (sw : Nat) (x : Infusion) (b : Brew) (l : List Infusion) (d : Dev) :
    brewAt (accepted sw x b l d) x.slotId = some { b with wait := .infuser } :=
  (brewAt_setInfuserQueue ..).trans (brewAt_setBrew_same ..)
theorem brewAt_accepted_ne {j : Nat} (b : Brew) (l : List Infusion) (d : Dev) (h : j ≠ x.slotId) :
    brewAt (accepted sw x b l d) j = brewAt d j := (brewAt_setInfuserQueue ..).trans (brewAt_setBrew_ne _ _ h)

theorem infuserAccept_eq {b : Brew} {d : Dev} (hroom : (infuserQueue d sw).length < 64) (hl : d.arr.infuserStalled = l₁ ++ x :: l₂)
    (h₁ : ∀ y ∈ l₁, slotSwarm y.slotId ≠ sw ∧ y ≠ x) (h₂ : x ∉ l₂) (hx : slotSwarm x.slotId = sw) (hb : brewAt d x.slotId = some b) :
    infuserAccept sw d = accepted sw x b (l₁ ++ l₂) d := by
  rw [infuserAccept, if_neg (Nat.not_le.mpr hroom), hl, find_stalled h₁ hx]
  subst hx
  have hfreed : onArr (fun a => { a with infuserStalled := a.infuserStalled.filter (fun y => y != x) }) d
      = onArr (fun a => { a with infuserStalled := l₁ ++ l₂ }) d := by
    rw [← filter_stalled h₁ h₂, ← hl]
    rfl
  simp only [hfreed]
  exact infuserIssue_queued x (d := onArr (fun a => { a with infuserStalled := l₁ ++ l₂ }) d) hb hroom

end

theorem MetersOnly.infuser {d e : Dev} (h : MetersOnly d e) : e.arr.infuser = d.arr.infuser := by rw [h.arr]
theorem MetersOnly.infuserStalled {d e : Dev} (h : MetersOnly d e) : e.arr.infuserStalled = d.arr.infuserStalled := by rw [h.arr]

/-- R138: a freed place goes to the oldest of the stalled instructions, and nothing else changes. -/
theorem exec_infuserQueueAccept {sw : Fin 8} {s : State} {x : Infusion} {l₁ l₂ : List Infusion} {b : Brew}
    (hroom : (infuserQueue s.dev sw).length < 64) (hl : s.dev.arr.infuserStalled = l₁ ++ x :: l₂)
    (h₁ : ∀ y ∈ l₁, slotSwarm y.slotId ≠ sw.val ∧ y ≠ x) (h₂ : x ∉ l₂) (hx : slotSwarm x.slotId = sw.val) (hb : brewAt s.dev x.slotId = some b) :
    ∃ t, exec (.infuserQueueAccept sw) s = .next t ∧ t.clk = s.clk ∧ t.dev.mem = s.dev.mem
      ∧ infuserQueue t.dev sw = infuserQueue s.dev sw ++ [x] ∧ t.dev.arr.infuserStalled = l₁ ++ l₂
      ∧ brewAt t.dev x.slotId = some { b with wait := .infuser } ∧ ∀ j ≠ x.slotId, brewAt t.dev j = brewAt s.dev j := by
  have hexec := congrArg (fun d => nextDev s (settle s.clk d)) (infuserAccept_eq hroom hl h₁ h₂ hx hb)
  have hm := metersOnly_settle s.clk (accepted sw x b (l₁ ++ l₂) s.dev)
  refine ⟨_, hexec, rfl, hm.mem.trans (accepted_mem ..), ?_, ?_, ?_, fun j hj => ?_⟩
  · rw [infuserQueue_congr hm.infuser, infuserQueue_accepted]
  · rw [hm.infuserStalled, accepted_stalled]
  · rw [brewAt_congr hm.slots, brewAt_accepted]
  · rw [brewAt_congr hm.slots, brewAt_accepted_ne _ _ _ hj]

/-! Results (R138, R154, R156). -/

theorem lowKept_noteMulti (w : Nat) (d : Dev) : LowKept d (noteMulti w d) :=
  .ite (((LowKept.when _ (.wr _ d (by decide))).trans (.wr _ _ (by decide))).trans (.raiseAt _ _ _ (by decide))) (.refl d)

theorem lowKept_touchRead (w : Nat) (d : Dev) : LowKept d (touchRead w d) := by
  unfold touchRead
  split
  · exact .refl d
  · exact lowKept_noteSingle w d
  · exact lowKept_noteMulti w d

theorem lowKept_readSpans (l : List (Nat × Nat)) (d : Dev) : LowKept d (readSpans l d).2 := .forEach lowKept_touchRead _ d

/-- The brew b once the infuser has made y of its instruction. -/
def Brew.infused (b : Brew) (y : Infused) (pre : Option W32) : Brew :=
  { b with v := y.v, fl := b.fl ||| y.fl, wait := .none, pc := b.pc + instrLen pre }

/-- The device in which the infuser has given y to the brew b, whose instruction x it was, after reading what y needs. -/
def completed (sw : Nat) (x : Infusion) (b : Brew) (y : Infused) (d : Dev) : Dev :=
  bumpSat64 (Reg.SWARM_INF_SAMPLES_LO sw) y.count (setBrew x.slotId (some (b.infused y x.pre)) (readSpans y.spans d).2)

section
variable {sw : Nat} {x : Infusion} {l : List Infusion} {b : Brew} {y : Infused} {d : Dev}

theorem infuserResult_fault {code : Nat} {addr : W64} (hq : infuserQueue d sw = x :: l) (hb : brewAt d x.slotId = some b)
    (hy : infuse (setInfuserQueue sw l d) b sw x = y) (hfault : y.fault = some (code, addr)) :
    infuserResult sw d = killBrew x.slotId code addr 0xFF (setInfuserQueue sw l d) := by
  simp only [infuserResult, hq, brewAt_setInfuserQueue, hb, hy, hfault]

theorem infuserResult_uncorrectable {p : Nat} (hq : infuserQueue d sw = x :: l) (hb : brewAt d x.slotId = some b)
    (hy : infuse (setInfuserQueue sw l d) b sw x = y) (hfault : y.fault = none) (hread : (readSpans y.spans (setInfuserQueue sw l d)).1 = some p) :
    infuserResult sw d = killBrew x.slotId 0x05 (infuserAddr sw p) 0xFF (readSpans y.spans (setInfuserQueue sw l d)).2 := by
  simp only [infuserResult, hq, brewAt_setInfuserQueue, hb, hy, hfault, hread]

theorem infuserResult_completed (hq : infuserQueue d sw = x :: l) (hb : brewAt d x.slotId = some b)
    (hy : infuse (setInfuserQueue sw l d) b sw x = y) (hfault : y.fault = none) (hread : (readSpans y.spans (setInfuserQueue sw l d)).1 = none) :
    infuserResult sw d = completed sw x b y (setInfuserQueue sw l d) := by
  simp only [infuserResult, hq, brewAt_setInfuserQueue, hb, hy, hfault, hread]
  rfl

theorem completed_mem : (completed sw x b y d).mem = d.mem := (errorsOnly_readSpans y.spans d).mem

theorem completed_infuser : (completed sw x b y d).arr.infuser = d.arr.infuser := congrArg (·.infuser) (errorsOnly_readSpans y.spans d).arr

theorem completed_brewAt : brewAt (completed sw x b y d) x.slotId = some (b.infused y x.pre) := brewAt_setBrew_same ..

theorem completed_brewAt_ne {j : Nat} (h : j ≠ x.slotId) : brewAt (completed sw x b y d) j = brewAt d j :=
  (brewAt_setBrew_ne _ _ h).trans (brewAt_congr (congrArg (·.slots) (errorsOnly_readSpans y.spans d).arr) j)

/-- The places of SWARM_INF_SAMPLES lie below the Kettle's block, so errors of words leave them. -/
theorem rd64_infSamples_of_lowKept {d e : Dev} (hsw : sw < 8) (h : LowKept d e) :
    rd64 e (Reg.SWARM_INF_SAMPLES_LO sw) = rd64 d (Reg.SWARM_INF_SAMPLES_LO sw) := by
  have hplace : Reg.SWARM_INF_SAMPLES_LO sw + 4 < 0x80000 := by
    simp only [Reg.SWARM_INF_SAMPLES_LO]
    omega
  rw [rd64, rd64, h.regs _ (by omega), h.regs _ hplace]

/-- R156. -/
theorem completed_samples (hsw : sw < 8) : rd64 (completed sw x b y d) (Reg.SWARM_INF_SAMPLES_LO sw)
    = w64 (min (2 ^ 64 - 1) ((rd64 d (Reg.SWARM_INF_SAMPLES_LO sw)).toNat + y.count)) := by
  rw [completed, bumpSat64, rd64_wr64_same, ← rd64_infSamples_of_lowKept hsw (lowKept_readSpans y.spans d)]
  rfl

end

/-- The places of SWARM_INF_SAMPLES are no meter's. -/
theorem not_meterPlace_infSamples {s a : Nat} (ha : a = Reg.SWARM_INF_SAMPLES_LO s ∨ a = Reg.SWARM_INF_SAMPLES_LO s + 4) :
    ¬ meterPlace a := by
  simp only [Reg.SWARM_INF_SAMPLES_LO] at ha
  rintro (h | ⟨s', hs', h⟩ | ⟨i, hi, h⟩)
  · simp only [Reg.SCHED_POUR_STALL] at h
    omega
  · simp only [Reg.SWARM_EMIT_STALL, Reg.SWARM_INF_STALL, Reg.SWARM_INF_BUSY_LO, Reg.SWARM_INF_BUSY_HI] at h
    omega
  · simp only [Reg.PMON_CNT_LO, Reg.PMON_CNT_HI] at h
    omega

theorem MetersOnly.rd64_infSamples {d e : Dev} {s : Nat} (h : MetersOnly d e) :
    rd64 e (Reg.SWARM_INF_SAMPLES_LO s) = rd64 d (Reg.SWARM_INF_SAMPLES_LO s) := by
  rw [rd64, rd64, h.2 _ (not_meterPlace_infSamples (.inl rfl)), h.2 _ (not_meterPlace_infSamples (.inr rfl))]

/-- R138, R156: a result that meets no fault and no uncorrectable word. -/
theorem exec_infuserResult {sw : Fin 8} {s : State} {x : Infusion} {l : List Infusion} {b : Brew} {y : Infused}
    (hq : infuserQueue s.dev sw = x :: l) (hb : brewAt s.dev x.slotId = some b) (hy : infuse (setInfuserQueue sw l s.dev) b sw x = y)
    (hfault : y.fault = none) (hread : (readSpans y.spans (setInfuserQueue sw l s.dev)).1 = none) :
    ∃ t, exec (.infuserResult sw) s = .next t ∧ t.clk = s.clk ∧ sameMemory s.dev t.dev ∧ infuserQueue t.dev sw = l
      ∧ (∀ j ≠ x.slotId, brewAt t.dev j = brewAt s.dev j) ∧ brewAt t.dev x.slotId = some (b.infused y x.pre)
      ∧ rd64 t.dev (Reg.SWARM_INF_SAMPLES_LO sw) = w64 (min (2 ^ 64 - 1) ((rd64 s.dev (Reg.SWARM_INF_SAMPLES_LO sw)).toNat + y.count)) := by
  have hexec := congrArg (fun d => nextDev s (settle s.clk d)) (infuserResult_completed hq hb hy hfault hread)
  have hm := metersOnly_settle s.clk (completed sw x b y (setInfuserQueue sw l s.dev))
  refine ⟨_, hexec, rfl,
    sameMemory_of_mem (hm.mem.trans completed_mem), ?_, fun j hj => ?_, ?_, ?_⟩
  · rw [infuserQueue_congr (hm.infuser.trans completed_infuser), infuserQueue_setInfuserQueue]
  · rw [brewAt_congr hm.slots, completed_brewAt_ne hj, brewAt_setInfuserQueue]
  · rw [brewAt_congr hm.slots, completed_brewAt]
  · rw [hm.rd64_infSamples, completed_samples sw.isLt, rd64_setInfuserQueue]

/-! Faults (R144, R154). -/

theorem tableOk_iff (a n : Nat) : tableOk a n = true ↔ a % 64 = 0 ∧ 0x1000000 ≤ a ∧ a + n ≤ 0x1400000 := decide_eq_true_iff

/-- The fault that a table of n bytes at address a brings (R154). -/
def tableFault (a n : Nat) : Option (Nat × W64) := if a % 64 = 0 ∧ 0x1000000 ≤ a ∧ a + n ≤ 0x1400000 then none else some (0x21, w64 a)

section
variable {d : Dev} {b : Brew} {s : Nat} {w : W32}

theorem infuseSample_invalid (three : Bool) (pre : W32) (h : descValid (surfDesc d (fld pre 12 10)) = false) :
    (infuseSample three d b pre w).fault = some (0x20, w64 (fld pre 12 10)) := by
  have hrejected : surfAccepted three (surfDesc d (fld pre 12 10)) = false := by simp only [surfAccepted, h, Bool.false_and]
  simp [infuseSample, hrejected]

/-- A result whose fault is that of its table. -/
theorem fault_eq_tableFault {a n : Nat} {y z : Infused} (hy : y.fault = some (0x21, w64 a)) (hz : z.fault = none) :
    (if (!tableOk a n) = true then y else z).fault = tableFault a n := by
  unfold tableFault
  by_cases h : tableOk a n = true
  · rw [if_neg (by simp [h]), if_pos ((tableOk_iff a n).mp h), hz]
  · rw [if_pos (by simpa using h), if_neg fun hok => h ((tableOk_iff a n).mpr hok), hy]

theorem infuseMatrix_fault : (infuseMatrix d b s w).fault = tableFault (b.gReg (bOf w)).toNat 64 := fault_eq_tableFault rfl rfl
theorem infuseLut_fault : (infuseLut d b s w).fault = tableFault (b.gReg (bOf w)).toNat 287496 := fault_eq_tableFault rfl rfl
theorem infuseCurve_fault : (infuseCurve d b s w).fault = tableFault (b.gReg (bOf w)).toNat 8192 := fault_eq_tableFault rfl rfl

end

/-! What the infuser makes of an instruction by its OP and FUNC (R142). -/

section
variable {d : Dev} {b : Brew} {s : Nat} {x : Infusion}

theorem infuse_sample2 (h : opOf x.word = 0x30) : infuse d b s x = infuseSample false d b (x.pre.getD 0) x.word := by simp only [infuse, h]
theorem infuse_sample3 (h : opOf x.word = 0x31) : infuse d b s x = infuseSample true d b (x.pre.getD 0) x.word := by simp only [infuse, h]
theorem infuse_matrix (h : opOf x.word = 0x32) (hf : funcOf x.word ≠ 0x10) : infuse d b s x = infuseMatrix d b s x.word := by
  simp only [infuse, h, if_neg hf]
theorem infuse_lut (h : opOf x.word = 0x32) (hf : funcOf x.word = 0x10) : infuse d b s x = infuseLut d b s x.word := by
  simp only [infuse, h, if_pos hf]
theorem infuse_curve (h : opOf x.word = 0x33) (hf : funcOf x.word = 0) : infuse d b s x = infuseCurve d b s x.word := by
  simp only [infuse, h, if_pos hf]
theorem infuse_dither (h : opOf x.word = 0x33) (hf : funcOf x.word ≠ 0) : infuse d b s x = infuseDither b x.word := by
  simp only [infuse, h, if_neg hf]

/-- R144. -/
theorem infuse_surfFault (hop : opOf x.word = 0x30 ∨ opOf x.word = 0x31) (h : descValid (surfDesc d (fld (x.pre.getD 0) 12 10)) = false) :
    (infuse d b s x).fault = some (0x20, w64 (fld (x.pre.getD 0) 12 10)) := by
  rcases hop with hop | hop
  · rw [infuse_sample2 hop, infuseSample_invalid false _ h]
  · rw [infuse_sample3 hop, infuseSample_invalid true _ h]

/-- R154. -/
theorem infuse_tableFault {n : Nat} (h : (opOf x.word = 0x32 ∧ funcOf x.word < 8 ∧ n = 64) ∨ (opOf x.word = 0x32 ∧ funcOf x.word = 0x10 ∧ n = 287496)
      ∨ (opOf x.word = 0x33 ∧ funcOf x.word = 0 ∧ n = 8192)) :
    (infuse d b s x).fault = tableFault (b.gReg (bOf x.word)).toNat n := by
  rcases h with ⟨hop, hf, rfl⟩ | ⟨hop, hf, rfl⟩ | ⟨hop, hf, rfl⟩
  · rw [infuse_matrix hop (by omega), infuseMatrix_fault]
  · rw [infuse_lut hop hf, infuseLut_fault]
  · rw [infuse_curve hop hf, infuseCurve_fault]

end

/-- Settles O30: a lemma for each outcome of the issue, of a freed place and of a result, then the faults by OP and FUNC. -/
theorem infuserCommands : Obligations.InfuserCommands := by
  refine ⟨fun i i' b s pre w e op c hc h => ?_, fun sw s x l₁ l₂ b => exec_infuserQueueAccept, fun sw s x l b hq hb => ?_,
    fun d b s x => ⟨infuse_surfFault, fun n => infuse_tableFault⟩⟩
  · rw [exec_sample hc]
    exact ⟨sample_illegal h, sample_queued h, sample_stalled h⟩
  · have hdev {e : Dev} (h : infuserResult sw s.dev = e) : exec (.infuserResult sw) s = nextDev s (settle s.clk e) :=
      congrArg (fun d => nextDev s (settle s.clk d)) h
    exact ⟨fun code addr hfault => hdev (infuserResult_fault hq hb rfl hfault),
      fun p hfault hread => hdev (infuserResult_uncorrectable hq hb rfl hfault hread),
      fun hfault hread => exec_infuserResult hq hb rfl hfault hread⟩

end Sys2Proof.Machine

/-!
DITHER (O32): what it writes (R143, R153), and its mean over the phases.
-/

namespace Sys2Proof.Machine

/-! Elements written one by one (R143). -/

theorem get_putElem_ne {m n : Nat} (e x : Nat) (v : Tab W512) (h : m ≠ n) : Tab.get 0 (putElem n e x v) m = Tab.get 0 v m := Tab.get_put_ne _ _ _ _ _ h

theorem elem_putElem {j : Nat} (n e x : Nat) (v : Tab W512) (hj : j < 32) :
    (elems 16 (Tab.get 0 (putElem n e x v) n)).getD j 0 = if e = j then x % 2 ^ 16 else (elems 16 (Tab.get 0 v n)).getD j 0 := by
  rw [putElem, Tab.get_put_same, elems_ofElems_getD _ hj, List.getD_eq_getElem?_getD, List.getElem?_set]
  by_cases h : e = j
  · subst h
    simp [hj]
  · rw [if_neg h, if_neg h, ← List.getD_eq_getElem?_getD]
    exact Nat.mod_eq_of_lt (elems_getD_lt 16 _ j)

/-- Writes to register n leave the others. -/
theorem get_putElems_ne {m n : Nat} (f : Nat → Nat) (l : List Nat) (v : Tab W512) (h : m ≠ n) :
    Tab.get 0 (l.foldl (fun v i => putElem n i (f i) v) v) m = Tab.get 0 v m := by
  induction l generalizing v with
  | nil => rfl
  | cons i l ih => rw [List.foldl_cons, ih, get_putElem_ne _ _ _ h]

/-- Writes of elements that depend on their numbers alone: each element written holds its value, each other one what it held. -/
theorem elem_putElems {j : Nat} (n : Nat) (f : Nat → Nat) (l : List Nat) (v : Tab W512) (hj : j < 32) :
    (elems 16 (Tab.get 0 (l.foldl (fun v i => putElem n i (f i) v) v) n)).getD j 0
      = if j ∈ l then f j % 2 ^ 16 else (elems 16 (Tab.get 0 v n)).getD j 0 := by
  induction l generalizing v with
  | nil => simp
  | cons i l ih =>
    rw [List.foldl_cons, ih, elem_putElem _ _ _ _ hj]
    by_cases hl : j ∈ l
    · simp [hl]
    · by_cases hi : i = j
      · simp [hi, hl]
      · simp [hi, hl, Ne.symm hi]

theorem mem_activeIdx {p : W32} {n i : Nat} : i ∈ activeIdx p n ↔ i < n ∧ bit p i = true := by
  rw [activeIdx, List.mem_filter, List.mem_range]

/-! The threshold (R153). -/

/-- The n lowest bits of a number, taken from the lowest on, spell their reverse. -/
theorem foldl_bits_eq_reverse (n x : Nat) :
    (List.range n).foldl (fun acc i => acc * 2 + x / 2 ^ i % 2) 0 = (BitVec.ofNat n x).reverse.toNat := by
  induction n with
  | zero => simp [BitVec.reverse, Nat.mod_one]
  | succ n ih =>
    have hmsb : (BitVec.ofNat (n + 1) x).msb = x.testBit n := by
      rw [BitVec.msb_eq_getLsbD_last, BitVec.getLsbD_ofNat]
      simp
    rw [List.range_succ, List.foldl_append, ih, BitVec.reverse, BitVec.toNat_concat, hmsb, Nat.toNat_testBit]
    simp

theorem bitrev16_eq (x : Nat) : bitrev16 x = (BitVec.ofNat 16 x).reverse.toNat := foldl_bits_eq_reverse 16 x

theorem bitrev16_lt (x : Nat) : bitrev16 x < 65536 := bitrev16_eq x ▸ BitVec.isLt _

theorem bitrev16_injOn {x y : Nat} (hx : x < 65536) (hy : y < 65536) (h : bitrev16 x = bitrev16 y) : x = y := by
  rw [bitrev16_eq, bitrev16_eq] at h
  have hrev := congrArg BitVec.reverse (BitVec.eq_of_toNat_eq h)
  rw [BitVec.reverse_reverse_eq, BitVec.reverse_reverse_eq] at hrev
  have hnat := congrArg BitVec.toNat hrev
  simp only [BitVec.toNat_ofNat] at hnat
  omega

/-- The threshold of element i at phase q. -/
def threshold (i q : Nat) : Nat := bitrev16 ((q + i * 0x9E37) % 65536)

theorem threshold_lt (i q : Nat) : threshold i q < 65536 := bitrev16_lt _

/-- Over 65,536 phases no threshold comes twice. -/
theorem threshold_injOn {i q r : Nat} (hq : q < 65536) (hr : r < 65536) (h : threshold i q = threshold i r) : q = r := by
  have hmod := bitrev16_injOn (Nat.mod_lt _ (by decide)) (Nat.mod_lt _ (by decide)) h
  omega

/-! The result (R153). -/

theorem unit16_le {a : Nat} (h : a < 2 ^ 16) : unit16 a ≤ 65536 := by
  unfold unit16
  omega

theorem dither_eq (q i a : Nat) : dither q i a = (unit16 a * 255 + threshold i q) / 65536 := rfl

theorem dither_le {a : Nat} (q i : Nat) (h : a < 2 ^ 16) : dither q i a ≤ 255 := by
  have hunit := unit16_le h
  have hlt := threshold_lt i q
  rw [dither_eq]
  omega

theorem dither_zero (q i : Nat) : dither q i 0 = 0 := by
  have hlt := threshold_lt i q
  have hunit : unit16 0 = 0 := rfl
  rw [dither_eq, hunit]
  omega

theorem dither_full (q i : Nat) : dither q i 0xFFFF = 255 := by
  have hlt := threshold_lt i q
  have hunit : unit16 0xFFFF = 65536 := rfl
  rw [dither_eq, hunit]
  omega

/-- The value of R153, with the phase kept to 16 bits as the register gives it. -/
theorem dither_phase (g i a : Nat) :
    dither (g % 65536) i a = ((a + a / 2 ^ 15) * 255 + (BitVec.ofNat 16 (g + i * 0x9E37)).reverse.toNat) / 2 ^ 16 := by
  have hword : BitVec.ofNat 16 ((g % 65536 + i * 0x9E37) % 65536) = BitVec.ofNat 16 (g + i * 0x9E37) := by
    apply BitVec.eq_of_toNat_eq
    simp only [BitVec.toNat_ofNat]
    omega
  rw [← hword, ← bitrev16_eq]
  rfl

/-- What DITHER leaves in its result register. -/
theorem infuseDither_elem {i : Nat} (b : Brew) (w : W32) (hi : i < 32) : (elems 16 (Tab.get 0 (infuseDither b w).v (dOf w))).getD i 0
    = if bit (b.pReg (pOf w)) i then dither ((b.gReg (bOf w)).toNat % 65536) i ((elems 16 (b.vReg (aOf w))).getD i 0)
      else (elems 16 (b.vReg (dOf w))).getD i 0 := by
  have hq : fld (b.gReg (bOf w)) 0 16 = (b.gReg (bOf w)).toNat % 65536 := by simp [fld]
  have hsmall := dither_le ((b.gReg (bOf w)).toNat % 65536) i (elems_getD_lt 16 (b.vReg (aOf w)) i)
  rw [infuseDither, elem_putElems _ _ _ _ hi, hq]
  simp only [mem_activeIdx, hi, true_and]
  rw [Nat.mod_eq_of_lt (hsmall.trans_lt (by decide))]
  rfl

/-! The mean (R153). -/

/-- Hermite's identity for one divisor: the quotients of N consecutive numbers from x on total x. -/
theorem sum_add_div {N : Nat} (hN : 0 < N) (x : Nat) : ∑ t ∈ Finset.range N, (x + t) / N = x := by
  induction x with
  | zero => exact Finset.sum_eq_zero fun t ht => by rw [Nat.zero_add, Nat.div_eq_of_lt (Finset.mem_range.mp ht)]
  | succ x ih =>
    have hfirst := Finset.sum_range_succ' (fun t => (x + t) / N) N
    have hlast := Finset.sum_range_succ (fun t => (x + t) / N) N
    have hshift : ∑ t ∈ Finset.range N, (x + 1 + t) / N = ∑ t ∈ Finset.range N, (x + (t + 1)) / N :=
      Finset.sum_congr rfl fun t _ => by rw [Nat.add_assoc, Nat.add_comm 1 t]
    rw [ih, Nat.add_div_right x hN] at hlast
    rw [hshift]
    simp only [Nat.add_zero] at hfirst
    omega

/-- A sum over the values of a function that permutes the numbers below N. -/
theorem sum_range_perm {N : Nat} {f : Nat → Nat} (g : Nat → Nat) (hlt : ∀ q < N, f q < N) (hinj : ∀ q < N, ∀ r < N, f q = f r → q = r) :
    ∑ q ∈ Finset.range N, g (f q) = ∑ t ∈ Finset.range N, g t := by
  have hmaps : Set.MapsTo f (Finset.range N) (Finset.range N) := fun q hq => by simpa using hlt q (by simpa using hq)
  have hinj' : Set.InjOn f (Finset.range N) := fun q hq r hr => hinj q (by simpa using hq) r (by simpa using hr)
  exact Finset.sum_nbij f hmaps hinj' (Finset.surjOn_of_injOn_of_card_le f hmaps hinj' le_rfl) fun _ _ => rfl

/-- The outputs of one element over N phases total x, if the thresholds of the phases are the numbers below N in some order. -/
theorem sum_phases {N : Nat} (hN : 0 < N) {f : Nat → Nat} (hlt : ∀ q < N, f q < N) (hinj : ∀ q < N, ∀ r < N, f q = f r → q = r) (x : Nat) :
    ((List.range N).map fun q => (x + f q) / N).sum = x :=
  calc ((List.range N).map fun q => (x + f q) / N).sum
      = ∑ q ∈ Finset.range N, (x + f q) / N := rfl
    _ = ∑ t ∈ Finset.range N, (x + t) / N := sum_range_perm (fun t => (x + t) / N) hlt hinj
    _ = x := sum_add_div hN x

theorem dither_mean (i a : Nat) : ((List.range 65536).map fun q => dither q i a).sum = (a + a / 2 ^ 15) * 255 :=
  sum_phases (by decide) (fun q _ => threshold_lt i q) (fun _ hq _ hr => threshold_injOn hq hr) (unit16 a * 255)

/-- Settles O32: the command completes by `exec_infuserResult`, the elements by `infuseDither_elem`, the mean by `dither_mean`. -/
theorem ditherRule : Obligations.DitherRule := by
  refine ⟨fun sw s x l b hq hb hop hf => ?_, fun i a _ => dither_mean i a, fun q i a => ⟨dither_zero q i, dither_full q i, dither_le q i⟩⟩
  obtain ⟨t, hexec, hclk, hmem, -, -, hbrew, -⟩ := exec_infuserResult hq hb (infuse_dither hop hf) rfl rfl
  refine ⟨t, (infuseDither b x.word).v, hexec, hclk, hmem, ?_, fun n hn => get_putElems_ne _ _ _ hn, fun i hi => ?_⟩
  · rw [hbrew]
    simp [Brew.infused, infuseDither]
  · rw [infuseDither_elem b x.word hi, dither_phase]

end Sys2Proof.Machine

/-!
The infuser's arithmetic (O31): edges and filters (R146, R147, R149), matrices (R150) and curves (R152).
-/

namespace Sys2Proof.Machine

/-! Edges (R147). -/

section
variable {i : Int} {n : Nat}

theorem edgeIdx_clamp (hn : 0 < n) : edgeIdx 0 i n = some (max 0 (min i (n - 1))).toNat := by
  refine congrArg some ?_
  split
  all_goals omega

theorem edgeIdx_border : edgeIdx 1 i n = if 0 ≤ i ∧ i < n then some i.toNat else none := by
  by_cases h : 0 ≤ i ∧ i < n
  · exact (if_neg (by omega)).trans (if_pos h).symm
  · exact (if_pos (by omega)).trans (if_neg h).symm

theorem edgeIdx_repeat (hn : 0 < n) : ∃ j, edgeIdx 2 i n = some j ∧ j < n ∧ (j : Int) % n = i % n := by
  have hlow : 0 ≤ i % n := Int.emod_nonneg i (by omega)
  have hhigh : i % n < n := Int.emod_lt_of_pos i (by omega)
  refine ⟨(i % n).toNat, rfl, by omega, ?_⟩
  rw [Int.toNat_of_nonneg hlow, Int.emod_emod]

theorem edgeIdx_mirror (hn : 0 < n) : ∃ j, edgeIdx 3 i n = some j ∧ j < n
    ∧ ((j : Int) % (2 * n) = i % (2 * n) ∨ (-1 - j : Int) % (2 * n) = i % (2 * n)) := by
  have hlow : 0 ≤ i % (2 * n) := Int.emod_nonneg i (by omega)
  have hhigh : i % (2 * n) < 2 * n := Int.emod_lt_of_pos i (by omega)
  generalize hm : i % (2 * n) = m at hlow hhigh
  have hidx : edgeIdx 3 i n = some (if m.toNat < n then m.toNat else 2 * n - 1 - m.toNat) := by rw [← hm]; rfl
  by_cases h : m.toNat < n
  · refine ⟨m.toNat, by rw [hidx, if_pos h], h, .inl ?_⟩
    rw [Int.toNat_of_nonneg hlow, Int.emod_eq_of_lt hlow hhigh]
  · refine ⟨2 * n - 1 - m.toNat, by rw [hidx, if_neg h], by omega, .inr ?_⟩
    have hmirror : (-1 - (2 * n - 1 - m.toNat : Nat) : Int) = m - 2 * n := by omega
    rw [hmirror, Int.sub_emod_right, Int.emod_eq_of_lt hlow hhigh]

/-- Every mode leaves an index on the axis. -/
theorem edgeIdx_inside (mode : Nat) {x : Nat} (hx : x < n) : edgeIdx mode x n = some x := by
  have hmod : ((x : Int) % n).toNat = x := by rw [Int.emod_eq_of_lt (by omega) (by omega)]; rfl
  have hmod2 : ((x : Int) % (2 * n)).toNat = x := by rw [Int.emod_eq_of_lt (by omega) (by omega)]; rfl
  match mode with
  | 0 =>
    rw [edgeIdx_clamp (by omega)]
    exact congrArg some (by omega)
  | 1 => rw [edgeIdx_border, if_pos (by omega)]; rfl
  | 2 => exact congrArg some hmod
  | _ + 3 => simp only [edgeIdx, hmod2, if_pos hx]

end

/-! Weights (R146, R149). -/

/-- The total of a list's weights. -/
def totalWeight {α : Type} (l : List (α × Nat)) : Nat := (l.map (·.2)).sum

theorem totalWeight_axisTaps (nearest : Bool) (mode : Nat) (u : Int) (n : Nat) : totalWeight (axisTaps nearest mode u n) = 4096 := by
  cases nearest with
  | true => rfl
  | false =>
    simp only [axisTaps, totalWeight, Bool.false_eq_true, if_false, List.map_cons, List.map_nil, List.sum_cons, List.sum_nil]
    omega

theorem totalWeight_map {α β : Type} {f : α × Nat → β × Nat} {k : Nat} (l : List (α × Nat)) (h : ∀ y, (f y).2 = y.2 * k) :
    totalWeight (l.map f) = totalWeight l * k := by
  simp only [totalWeight, List.map_map, ← List.sum_map_mul_right]
  exact congrArg List.sum (List.map_congr_left fun y _ => h y)

theorem totalWeight_flatMap {α β : Type} {f : α × Nat → List (β × Nat)} {k : Nat} (l : List (α × Nat)) (h : ∀ y, totalWeight (f y) = y.2 * k) :
    totalWeight (l.flatMap f) = totalWeight l * k := by
  induction l with
  | nil => simp [totalWeight]
  | cons y l ih =>
    have hsplit : totalWeight ((y :: l).flatMap f) = totalWeight (f y) + totalWeight (l.flatMap f) := by simp [totalWeight]
    rw [hsplit, h, ih, ← Nat.add_mul]
    simp [totalWeight]

theorem totalWeight_taps2 (s : List W32) (nearest : Bool) (mode : Nat) (u v : Int) (c : Nat) : totalWeight (taps2 s nearest mode u v c) = 2 ^ 24 := by
  refine (totalWeight_flatMap (k := 4096) _ fun y => ?_).trans (congrArg (· * 4096) (totalWeight_axisTaps ..))
  rw [totalWeight_map (k := y.2) _ fun x => rfl, totalWeight_axisTaps, Nat.mul_comm]

theorem totalWeight_taps3 (s : List W32) (nearest : Bool) (mode : Nat) (u v w : Int) : totalWeight (taps3 s nearest mode u v w) = 2 ^ 36 := by
  refine (totalWeight_flatMap (k := 4096 * 4096) _ fun z => ?_).trans (congrArg (· * (4096 * 4096)) (totalWeight_axisTaps ..))
  refine (totalWeight_flatMap (k := 4096 * z.2) _ fun y => ?_).trans (by rw [totalWeight_axisTaps, ← Nat.mul_assoc, Nat.mul_comm])
  rw [totalWeight_map (k := y.2 * z.2) _ fun x => Nat.mul_assoc .., totalWeight_axisTaps, Nat.mul_left_comm]

/-! Means (R146, R149). -/

section
variable (d : Dev) (s : List W32) (c : Nat)

/-- What a tap adds to the sum of its sample; one outside the surface adds nothing. -/
def tapShare (t : Option (Nat × Nat × Nat) × Nat) : Nat := (t.1.map fun p => t.2 * texel d s c p.1 p.2.1 p.2.2).getD 0

theorem tapShare_some (x y z w : Nat) : tapShare d s c (some (x, y, z), w) = w * texel d s c x y z := rfl

theorem tapShare_weightless (t : Option (Nat × Nat × Nat)) : tapShare d s c (t, 0) = 0 := by
  cases t with
  | none => rfl
  | some p => exact Nat.zero_mul _

theorem mixTaps_eq (bits : Nat) (taps : List (Option (Nat × Nat × Nat) × Nat)) :
    mixTaps d s c bits taps = ((taps.map (tapShare d s c)).sum + 2 ^ (bits - 1)) / 2 ^ bits := by
  rw [List.sum_eq_foldl, List.foldl_map, mixTaps]
  refine congrArg (fun f => (taps.foldl f 0 + 2 ^ (bits - 1)) / 2 ^ bits) ?_
  funext acc ⟨t, w⟩
  cases t with
  | none => rfl
  | some p => rfl

variable {d s c}

/-- A mean of texels is not above a bound of them. -/
theorem mixTaps_le {m bits : Nat} {taps : List (Option (Nat × Nat × Nat) × Nat)} (hm : ∀ x y z, texel d s c x y z ≤ m)
    (hw : totalWeight taps = 2 ^ bits) (hbits : 0 < bits) : mixTaps d s c bits taps ≤ m := by
  have hshare (t : Option (Nat × Nat × Nat) × Nat) : tapShare d s c t ≤ t.2 * m := by
    obtain ⟨t, w⟩ := t
    cases t with
    | none => exact Nat.zero_le _
    | some p => exact Nat.mul_le_mul_left w (hm ..)
  have hsum : (taps.map (tapShare d s c)).sum ≤ 2 ^ bits * m :=
    calc (taps.map (tapShare d s c)).sum
        ≤ (taps.map fun t => t.2 * m).sum := List.sum_le_sum fun t _ => hshare t
      _ = totalWeight taps * m := List.sum_map_mul_right ..
      _ = 2 ^ bits * m := by rw [hw]
  have hhalf : 2 ^ (bits - 1) < 2 ^ bits := Nat.pow_lt_pow_right (by decide) (by omega)
  rw [mixTaps_eq, ← Nat.lt_succ_iff, Nat.div_lt_iff_lt_mul (Nat.two_pow_pos bits), Nat.succ_mul, Nat.mul_comm m]
  omega

/-- At a texel's centre its own tap has the whole weight. -/
theorem axisTaps_centre (mode : Nat) {x n : Nat} (hx : x < n) :
    axisTaps false mode (x * 65536 + 0x8000) n = [(some x, 4096), (edgeIdx mode (x + 1) n, 0)] := by
  have hdiv : ((x : Int) * 65536 + 0x8000 - 0x8000) / 65536 = x := by omega
  have hmod : (((x : Int) * 65536 + 0x8000 - 0x8000) % 65536).toNat / 16 = 0 := by omega
  simp only [axisTaps, Bool.false_eq_true, if_false, hdiv, hmod, edgeIdx_inside mode hx, Nat.sub_zero]

/-- A sample at a texel's centre is that texel. -/
theorem sample2_centre (mode : Nat) {x y : Nat} (hfmt : fmtYcc (descFormat s) = false) (hx : x < descWidth s) (hy : y < descHeight s) :
    sample2 d s false mode (x * 65536 + 0x8000) (y * 65536 + 0x8000) c = texel d s c x y 0 := by
  obtain ⟨t₁, t₂, t₃, htaps⟩ : ∃ t₁ t₂ t₃, taps2 s false mode (x * 65536 + 0x8000) (y * 65536 + 0x8000) c
      = [(some (x, y, 0), 4096 * 4096), (t₁, 0), (t₂, 0), (t₃, 0)] := by
    simp only [taps2, planeCoord, planeDims, hfmt, Bool.false_and, Bool.false_eq_true, if_false, axisTaps_centre mode hx, axisTaps_centre mode hy,
      List.flatMap_cons, List.flatMap_nil, List.map_cons, List.map_nil, List.cons_append, List.nil_append, Option.bind_some, Option.map_some,
      Nat.mul_zero, Nat.zero_mul]
    exact ⟨_, _, _, rfl⟩
  rw [sample2, mixTaps_eq, htaps]
  simp only [List.map_cons, List.map_nil, List.sum_cons, List.sum_nil, tapShare_some, tapShare_weightless]
  omega

end

/-! Matrices (R150). -/

/-- A row is its exact sum, rounded with ties upward and clamped. -/
theorem matrixRow_rule (c0 c1 c2 ofs : Int) (i0 i1 i2 : Nat) :
    let sum := c0 * i0 + c1 * i1 + c2 * i2 + ofs * 2 ^ 16
    let r := matrixRow c0 c1 c2 ofs i0 i1 i2
    (sum + 2048 < 0 → r = (0, true)) ∧ (0x10000 * 4096 ≤ sum + 2048 → r = (0xFFFF, true)) ∧
    (0 ≤ sum + 2048 → sum + 2048 < 0x10000 * 4096 → r.2 = false ∧ (r.1 : Int) * 4096 ≤ sum + 2048 ∧ sum + 2048 < (r.1 + 1 : Int) * 4096) := by
  intro sum r
  have hr : r = if (sum + 2048) / 4096 < 0 then (0, true) else if 0xFFFF < (sum + 2048) / 4096 then (0xFFFF, true)
      else (((sum + 2048) / 4096).toNat, false) := rfl
  clear_value r sum
  refine ⟨fun h => ?_, fun h => ?_, fun hlow hhigh => ?_⟩
  · rw [hr, if_pos (by omega)]
  · rw [hr, if_neg (by omega), if_pos (by omega)]
  · rw [hr, if_neg (by omega), if_neg (by omega)]
    refine ⟨rfl, ?_, ?_⟩
    all_goals omega

/-! Curves (R152). -/

/-- A mean of two values with weights that total 4,096, rounded with ties upward, lies between them. -/
theorem mean_between {f : Nat} (p q : Nat) (hf : f ≤ 4096) :
    min p q ≤ (p * (4096 - f) + q * f + 2048) / 4096 ∧ (p * (4096 - f) + q * f + 2048) / 4096 ≤ max p q := by
  have hweights (m : Nat) : m * (4096 - f) + m * f = m * 4096 := by rw [← Nat.mul_add, Nat.sub_add_cancel hf]
  have hmin := hweights (min p q)
  have hmax := hweights (max p q)
  have hlow := Nat.add_le_add (Nat.mul_le_mul_right (4096 - f) (min_le_left p q)) (Nat.mul_le_mul_right f (min_le_right p q))
  have hhigh := Nat.add_le_add (Nat.mul_le_mul_right (4096 - f) (le_max_left p q)) (Nat.mul_le_mul_right f (le_max_right p q))
  omega

/-- A curve's node and weight lie on its axis. -/
theorem nodeOf_curve {a : Nat} (h : a < 2 ^ 16) : (nodeOf 4095 4094 a).1 < 4095 ∧ (nodeOf 4095 4094 a).2 ≤ 4096 := by
  have hunit := unit16_le h
  simp only [nodeOf]
  omega

theorem curve_zero (e : Nat → Nat) : curve e 0 = e 0 := by
  have hmean : curve e 0 = (e 0 * 4096 + e 1 * 0 + 2048) / 4096 := rfl
  omega

theorem curve_full (e : Nat → Nat) : curve e 0xFFFF = e 4095 := by
  have hmean : curve e 0xFFFF = (e 4094 * 0 + e 4095 * 4096 + 2048) / 4096 := rfl
  omega

/-- Settles O31: the edges by mode, the totals of the weights, and a lemma each for means, texel centres, matrix rows and curves. -/
theorem infuserArithmetic : Obligations.InfuserArithmetic := by
  refine ⟨fun i n hn => ⟨edgeIdx_clamp hn, edgeIdx_border, edgeIdx_repeat hn, edgeIdx_mirror hn⟩,
    fun mode u n => ⟨totalWeight_axisTaps false mode u n, totalWeight_axisTaps true mode u n⟩,
    fun d s nearest mode u v c m hm => ⟨mixTaps_le hm (totalWeight_taps2 ..) (by decide), fun z => mixTaps_le hm (totalWeight_taps3 ..) (by decide)⟩,
    fun d s mode x y c => sample2_centre mode, matrixRow_rule, fun e a ha => ⟨curve_zero e, curve_full e, ?_⟩⟩
  obtain ⟨hnode, hweight⟩ := nodeOf_curve ha
  exact ⟨_, hnode, mean_between _ _ hweight⟩

end Sys2Proof.Machine

/-!
What folds, events, performance monitors and the errors of words leave (R159, R308, R386).
-/

namespace Sys2Proof.Machine

/-! Folds. -/

/-- A fold keeps what its step keeps for each element of the list. -/
theorem forEach_keeps_of_mem {α β : Type} (p : Dev → β) {f : α → Dev → Dev} {l : List α} (h : ∀ x ∈ l, ∀ d, p (f x d) = p d) (d : Dev) :
    p (forEach l f d) = p d := by
  induction l generalizing d with
  | nil => rfl
  | cons x r ih => exact (ih (fun y hy => h y (List.mem_cons_of_mem x hy)) (f x d)).trans (h x (List.mem_cons_self ..) d)

/-- A fold over a list without repetition comes to each of its elements once. -/
theorem forEach_split {α : Type} {l : List α} (hl : l.Nodup) {x : α} (hx : x ∈ l) : ∃ l₁ l₂, x ∉ l₁ ∧ x ∉ l₂
    ∧ ∀ (f : α → Dev → Dev) d, forEach l f d = forEach l₂ f (f x (forEach l₁ f d)) := by
  obtain ⟨l₁, l₂, rfl⟩ := List.append_of_mem hx
  obtain ⟨h₁, h₂⟩ := List.nodup_cons.mp (List.nodup_middle.mp hl)
  rw [List.mem_append, not_or] at h₁
  exact ⟨l₁, l₂, h₁.1, h₁.2, fun f d => List.foldl_append ..⟩

/-! Events. -/

/-- An event raised is set. -/
theorem rb_raiseAt_bitIf {i : Nat} (n ev : Nat) (d : Dev) (hi : i < 32) : rb (raiseAt n ev (bitIf i true) d) ev i = true := by
  rw [rb, rd_raiseAt_same, bit_or, bit_bitIf]
  simp [hi]

/-- Raising an event clears none. -/
theorem rb_raiseAt_of {n ev a i : Nat} {mask : W32} {d : Dev} (h : rb d a i = true) : rb (raiseAt n ev mask d) a i = true := by
  by_cases ha : a = ev
  · subst ha
    rw [rb, rd_raiseAt_same, bit_or, ← rb, h, Bool.true_or]
  · rwa [rb, rd_raiseAt_ne _ _ ha]

/-! Performance monitors (R386). -/

/-- A monitor's event leaves every register below the monitors' counters. -/
theorem rd_pmon {a : Nat} (ha : a < 0x110000) (src n : Nat) (d : Dev) : rd (pmon src n d) a = rd d a := by
  have hplace (i : Nat) : a < Reg.PMON_CNT_LO i := by
    simp only [Reg.PMON_CNT_LO]
    omega
  exact when_keeps d (rd · a) _ _ fun d => forEach_keeps d (rd · a) _ (fun i d => when_keeps d (rd · a) _ _ fun d =>
    rd_wr64_ne _ d (hplace i).ne ((hplace i).trans (Nat.lt_add_of_pos_right (by decide))).ne) _

@[simp] theorem pmon_ecc (src n : Nat) (d : Dev) : (pmon src n d).ecc = d.ecc := by rw [(metersOnly_pmon src n d).1]

@[simp] theorem pmon_ket (src n : Nat) (d : Dev) : (pmon src n d).ket = d.ket := by rw [(metersOnly_pmon src n d).1]

/-! What the errors of words leave (R159). -/

theorem ErrorsOnly.ket {d e : Dev} (h : ErrorsOnly d e) : e.ket = d.ket := by rw [h]

theorem ErrorsOnly.bus {d e : Dev} (h : ErrorsOnly d e) : e.bus = d.bus := by rw [h]

/-! The errors of words (R159). -/

theorem errOf_congr {d e : Dev} (h : e.ecc = d.ecc) (w : Nat) : errOf e w = errOf d w := by rw [errOf, errOf, h]

theorem errOf_setErr (w x : Nat) (v : WordErr) (d : Dev) : errOf (setErr w v d) x = if x = w then v else errOf d x := Tab.get_put ..

/-- A corrected word has no error, and every other word keeps its own. -/
theorem errOf_noteSingle (w x : Nat) (d : Dev) : errOf (noteSingle w d) x = if x = w then .none else errOf d x := by
  have hecc : (noteSingle w d).ecc = (setErr w .none d).ecc := by
    simp only [noteSingle]
    split
    · rw [raiseKet, raiseAt_ecc, pmon_ecc, bumpSat, wr_ecc]
    · rfl
  rw [errOf_congr hecc, errOf_setErr]

/-- An uncorrectable word stays. -/
@[simp] theorem noteMulti_ecc (w : Nat) (d : Dev) : (noteMulti w d).ecc = d.ecc := by
  simp only [noteMulti]
  split
  · rw [raiseKet, raiseAt_ecc, bumpSat, wr_ecc]
    exact when_keeps d (·.ecc) _ _ fun d => wr_ecc d _ _
  · rfl

/-- A read of words without error does nothing more. -/
theorem forEach_touchRead_clean {l : List Nat} {d : Dev} (h : ∀ w ∈ l, errOf d w = .none) : forEach l touchRead d = d := by
  induction l with
  | nil => rfl
  | cons w r ih =>
    have hw : touchRead w d = d := by simp [touchRead, h w (List.mem_cons_self ..)]
    rw [forEach_cons, hw, ih fun x hx => h x (List.mem_cons_of_mem w hx)]

/-- A write of n bytes at a covers word w whole. -/
abbrev covers (a n w : Nat) : Prop := a ≤ w * 8 ∧ w * 8 + 8 ≤ a + n

/-- A word that a write touches: covered whole, or read without a correctable error, it has valid check bits; an uncorrectable word stays where a
part of it is written. -/
theorem errOf_touchWrite (a n w x : Nat) (d : Dev) : errOf (touchWrite a n w d) x =
    if x = w ∧ (covers a n w ∨ errOf d w ≠ .multi) then .none else errOf d x := by
  unfold touchWrite
  split
  · next h => by_cases hx : x = w <;> simp [hx, h]
  · next h =>
    split
    · simp [errOf_setErr, h]
    · simp [errOf_noteSingle, h]
  · next h =>
    split
    · next hc => exact (errOf_setErr ..).trans (if_congr (and_iff_left (.inl hc)).symm rfl rfl)
    · next hc =>
      have hstays : ¬(x = w ∧ (covers a n w ∨ errOf d w ≠ .multi)) := fun ⟨_, hx⟩ => hx.elim hc fun hne => hne h
      rw [if_neg hstays]
      split
      · exact errOf_congr ((raiseAt_ecc ..).trans (noteMulti_ecc ..)) x
      · rfl

/-- A part of an uncorrectable word of the Kettle cannot be merged (R162). -/
theorem rb_touchWrite_merge {a n w : Nat} {d : Dev} (hc : ¬covers a n w) (hw : errOf d w = .multi) (hket : inKet (w * 8) 8 = true) :
    rb (touchWrite a n w d) Reg.KET_EVENT 2 = true := by
  simp only [touchWrite, hw, hc, hket, if_true, if_false]
  exact rb_raiseAt_bitIf _ _ _ (by decide)

/-- A write that touches words clears no event. -/
theorem rb_touchWrite_of {a n w i : Nat} {d : Dev} (h : rb d Reg.KET_EVENT i = true) : rb (touchWrite a n w d) Reg.KET_EVENT i = true := by
  have hsingle : rb (noteSingle w d) Reg.KET_EVENT i = true := by
    simp only [noteSingle]
    split
    · refine rb_raiseAt_of ?_
      rwa [rb, rd_pmon (by decide), bumpSat, rd_wr_ne _ _ (by decide)]
    · exact h
  have hmulti : rb (noteMulti w d) Reg.KET_EVENT i = true := by
    simp only [noteMulti]
    split
    · refine rb_raiseAt_of ?_
      rw [rb, bumpSat, rd_wr_ne _ _ (by decide)]
      exact (congrArg (bit · i) (when_keeps d (rd · Reg.KET_EVENT) _ _ fun d => rd_wr_ne d _ (by decide))).trans h
    · exact h
  unfold touchWrite
  split
  · exact h
  · split
    · exact h
    · exact hsingle
  · split
    · exact h
    · split
      · exact rb_raiseAt_of hmulti
      · exact h

/-- The errors of words leave the registers from the raster heads' to below the performance monitors'. -/
theorem rd_touchWrite {b : Nat} (hb : 0x90000 ≤ b ∧ b < 0x110000) (a n w : Nat) (d : Dev) : rd (touchWrite a n w d) b = rd d b := by
  obtain ⟨hlo, hhi⟩ := hb
  have hne {c : Nat} (hc : c < 0x90000) : b ≠ c := (hc.trans_le hlo).ne'
  have hsingle : rd (noteSingle w d) b = rd d b := by
    simp only [noteSingle]
    split
    · rw [raiseKet, rd_raiseAt_ne _ _ (hne (by decide)), rd_pmon hhi, bumpSat, rd_wr_ne _ _ (hne (by decide))]
      rfl
    · rfl
  have hmulti : rd (noteMulti w d) b = rd d b := by
    simp only [noteMulti]
    split
    · rw [raiseKet, rd_raiseAt_ne _ _ (hne (by decide)), bumpSat, rd_wr_ne _ _ (hne (by decide))]
      exact when_keeps d (rd · b) _ _ fun d => rd_wr_ne d _ (hne (by decide))
    · rfl
  unfold touchWrite
  split
  · rfl
  · split
    · rfl
    · exact hsingle
  · split
    · rfl
    · split
      · exact (rd_raiseAt_ne _ _ (hne (by decide))).trans hmulti
      · rfl

end Sys2Proof.Machine

/-!
Tears (R185), and a write through the Kettle window (R159, R162).
-/

namespace Sys2Proof.Machine

theorem head_congr {d e : Dev} (h : e.ket = d.ket) (g : Nat) : head e g = head d g := by rw [head, head, h]

theorem splitOdd_congr {d e : Dev} (h : e.ket = d.ket) (g : Nat) : splitOdd e g = splitOdd d g := by rw [splitOdd, splitOdd, head_congr h]

/-! Tears (R185). -/

/-- A write of the ranges `rs` tears head h. -/
def tears (rs : List (Nat × Nat)) (d : Dev) (h : Nat) : Bool :=
  scanning (head d h) && !splitOdd d h && (head d h).active.elim false fun a => a.layers.any fun l => rs.any fun x => layerHit l x.1 x.2

/-- A tear of head h in its layer l. -/
def torn (h l : Nat) (d : Dev) : Dev :=
  raiseHead h 6 (pmonHead h 2 (bumpSat (Reg.RHEAD_TEAR_COUNT h) 1
    (when (!rb d (Reg.RHEAD_EVENT h) 6) (wr (Reg.RHEAD_TEAR_INFO h) (w32 (l * 2 ^ 16 + (head d h).line))) d)))

theorem any_of_firstIdx_some {α : Type} {p : α → Bool} {l : List α} {i z : Nat} (h : firstIdx p l i = some z) : l.any p = true := by
  induction l generalizing i with
  | nil => cases h
  | cons x r ih =>
    rw [firstIdx] at h
    split at h
    · next hx => exact List.any_eq_true.mpr ⟨x, List.mem_cons_self .., hx⟩
    · rw [List.any_cons, ih h, Bool.or_true]

theorem any_of_firstIdx_none {α : Type} {p : α → Bool} {l : List α} {i : Nat} (h : firstIdx p l i = none) : l.any p = false := by
  induction l generalizing i with
  | nil => rfl
  | cons x r ih =>
    rw [firstIdx] at h
    split at h
    · cases h
    · next hx => rw [List.any_cons, ih h, Bool.or_false, Bool.eq_false_iff.mpr hx]

/-- What a write can do to head h. -/
theorem tearHead_cases (rs : List (Nat × Nat)) (h : Nat) (d : Dev) :
    (tears rs d h = false ∧ tearHead rs h d = d) ∨ tears rs d h = true ∧ ∃ l, tearHead rs h d = torn h l d := by
  simp only [tearHead, tears]
  split
  · next hs =>
    refine .inl ⟨?_, rfl⟩
    cases hscan : scanning (head d h) <;> simp [hscan] at hs ⊢
    simp [hs]
  · next hs =>
    obtain ⟨hscan, hodd⟩ : scanning (head d h) = true ∧ splitOdd d h = false := by simpa using hs
    rw [hscan, hodd]
    cases hact : (head d h).active with
    | none => exact .inl ⟨rfl, rfl⟩
    | some a =>
      dsimp only
      split
      · next hl => exact .inl ⟨any_of_firstIdx_none hl, rfl⟩
      · next l hl => exact .inr ⟨any_of_firstIdx_some hl, l, rfl⟩

theorem tearHead_ecc (rs : List (Nat × Nat)) (h : Nat) (d : Dev) : (tearHead rs h d).ecc = d.ecc := by
  rcases tearHead_cases rs h d with ⟨-, e⟩ | ⟨-, l, e⟩
  · rw [e]
  · rw [e, torn, raiseHead, raiseAt_ecc, pmonHead, pmon_ecc, bumpSat, wr_ecc]
    exact when_keeps d (·.ecc) _ _ fun d => wr_ecc d _ _

theorem tearHead_ket (rs : List (Nat × Nat)) (h : Nat) (d : Dev) : (tearHead rs h d).ket = d.ket := by
  rcases tearHead_cases rs h d with ⟨-, e⟩ | ⟨-, l, e⟩
  · rw [e]
  · rw [e, torn, raiseHead, raiseAt_ket, pmonHead, pmon_ket, bumpSat, wr_ket]
    exact when_keeps d (·.ket) _ _ fun d => wr_ket d _ _

/-- A tear of head h leaves the registers below the performance monitors' but those of the tear. -/
theorem rd_tearHead {a h : Nat} (ha : a < 0x110000) (hev : a ≠ Reg.RHEAD_EVENT h) (hcount : a ≠ Reg.RHEAD_TEAR_COUNT h)
    (hinfo : a ≠ Reg.RHEAD_TEAR_INFO h) (rs : List (Nat × Nat)) (d : Dev) : rd (tearHead rs h d) a = rd d a := by
  rcases tearHead_cases rs h d with ⟨-, e⟩ | ⟨-, l, e⟩
  · rw [e]
  · rw [e, torn, raiseHead, rd_raiseAt_ne _ _ hev, pmonHead, rd_pmon ha, bumpSat, rd_wr_ne _ _ hcount]
    exact when_keeps d (rd · a) _ _ fun d => rd_wr_ne d _ hinfo

/-- The registers in which a tear of head h shows. -/
def tearRegs (h : Nat) (d : Dev) : W32 × W32 × W32 :=
  (rd d (Reg.RHEAD_EVENT h), rd d (Reg.RHEAD_TEAR_COUNT h), rd d (Reg.RHEAD_TEAR_INFO h))

theorem tearRegs_tearHead_ne {h g : Nat} (hh : h < 4) (hne : g ≠ h) (rs : List (Nat × Nat)) (d : Dev) :
    tearRegs h (tearHead rs g d) = tearRegs h d := by
  have hkeeps {a : Nat} (ha : a = Reg.RHEAD_EVENT h ∨ a = Reg.RHEAD_TEAR_COUNT h ∨ a = Reg.RHEAD_TEAR_INFO h) :
      rd (tearHead rs g d) a = rd d a := by
    have hplace : a < 0x110000 ∧ a ≠ Reg.RHEAD_EVENT g ∧ a ≠ Reg.RHEAD_TEAR_COUNT g ∧ a ≠ Reg.RHEAD_TEAR_INFO g := by
      simp only [Reg.RHEAD_EVENT, Reg.RHEAD_TEAR_COUNT, Reg.RHEAD_TEAR_INFO] at ha ⊢
      omega
    obtain ⟨hlow, hev, hcount, hinfo⟩ := hplace
    exact rd_tearHead hlow hev hcount hinfo rs d
  rw [tearRegs, tearRegs, hkeeps (.inl rfl), hkeeps (.inr (.inl rfl)), hkeeps (.inr (.inr rfl))]

@[simp] theorem tear_ecc (rs : List (Nat × Nat)) (d : Dev) : (tear rs d).ecc = d.ecc := forEach_keeps d (·.ecc) _ (tearHead_ecc rs) _

/-- One write tears head h at most once, whatever it does to the others. -/
theorem tearRegs_tear {h : Nat} (hh : h < 4) (rs : List (Nat × Nat)) (d : Dev) : ∃ e, e.ket = d.ket ∧ tearRegs h e = tearRegs h d
    ∧ tearRegs h (tear rs d) = tearRegs h (tearHead rs h e) := by
  obtain ⟨l₁, l₂, h₁, h₂, hsplit⟩ := forEach_split (List.nodup_range (n := 4)) (List.mem_range.mpr hh)
  have hothers {l : List Nat} (hl : h ∉ l) (d : Dev) : tearRegs h (forEach l (tearHead rs) d) = tearRegs h d :=
    forEach_keeps_of_mem (tearRegs h) (fun g hg d => tearRegs_tearHead_ne hh (ne_of_mem_of_not_mem hg hl) rs d) d
  refine ⟨forEach l₁ (tearHead rs) d, forEach_keeps d (·.ket) _ (tearHead_ket rs) l₁, hothers h₁ d, ?_⟩
  rw [tear, hsplit, hothers h₂]

/-- R185 for head h: a tear is counted and raised, and the first since its event was cleared leaves its line. -/
theorem tear_shows {h : Nat} (hh : h < 4) (rs : List (Nat × Nat)) (d : Dev) :
    rd (tear rs d) (Reg.RHEAD_TEAR_COUNT h) = (if tears rs d h then w32 (min (2 ^ 32 - 1) ((rd d (Reg.RHEAD_TEAR_COUNT h)).toNat + 1))
      else rd d (Reg.RHEAD_TEAR_COUNT h))
    ∧ (tears rs d h = true → rb (tear rs d) (Reg.RHEAD_EVENT h) 6 = true
      ∧ (rb d (Reg.RHEAD_EVENT h) 6 = false → (head d h).line < 2 ^ 14 → rf (tear rs d) (Reg.RHEAD_TEAR_INFO h) 0 14 = (head d h).line)) := by
  obtain ⟨e, hket, hregs, hlast⟩ := tearRegs_tear hh rs d
  simp only [tearRegs, Prod.mk.injEq] at hregs hlast
  obtain ⟨hev, hcount, hinfo⟩ := hregs
  obtain ⟨hev', hcount', hinfo'⟩ := hlast
  have htears : tears rs e h = tears rs d h := by rw [tears, tears, head_congr hket, splitOdd_congr hket]
  rw [hcount', rb, hev', rf, hinfo', ← hcount, ← htears, rb, ← hev, ← head_congr hket]
  rcases tearHead_cases rs h e with ⟨hno, he⟩ | ⟨hyes, l, he⟩
  · rw [he, hno]
    exact ⟨rfl, nofun⟩
  · have hce : Reg.RHEAD_TEAR_COUNT h ≠ Reg.RHEAD_EVENT h := by simp only [Reg.RHEAD_TEAR_COUNT, Reg.RHEAD_EVENT]; omega
    have hci : Reg.RHEAD_TEAR_COUNT h ≠ Reg.RHEAD_TEAR_INFO h := by simp only [Reg.RHEAD_TEAR_COUNT, Reg.RHEAD_TEAR_INFO]; omega
    have hie : Reg.RHEAD_TEAR_INFO h ≠ Reg.RHEAD_EVENT h := by simp only [Reg.RHEAD_TEAR_INFO, Reg.RHEAD_EVENT]; omega
    have hlow : Reg.RHEAD_TEAR_COUNT h < 0x110000 ∧ Reg.RHEAD_TEAR_INFO h < 0x110000 := by
      simp only [Reg.RHEAD_TEAR_COUNT, Reg.RHEAD_TEAR_INFO]; omega
    rw [he, hyes, if_pos rfl, torn]
    refine ⟨?_, fun _ => ⟨rb_raiseAt_bitIf _ _ _ (by decide), fun hclear hline => ?_⟩⟩
    · rw [raiseHead, rd_raiseAt_ne _ _ hce, pmonHead, rd_pmon hlow.1, bumpSat, rd_wr_same,
        when_keeps e (rd · (Reg.RHEAD_TEAR_COUNT h)) _ _ fun d => rd_wr_ne d _ hci]
    · have hclear' : rb e (Reg.RHEAD_EVENT h) 6 = false := hclear
      rw [raiseHead, rd_raiseAt_ne _ _ hie, pmonHead, rd_pmon hlow.2, bumpSat, rd_wr_ne _ _ hci.symm, hclear', Bool.not_false, when,
        if_pos rfl, rd_wr_same]
      simp only [fld, w32, BitVec.toNat_ofNat]
      omega

/-! Bytes put to memory, and the words that they touch. -/

theorem putBytes_only (a : Nat) (bs : List W8) (d : Dev) : putBytes a bs d = { d with mem := (putBytes a bs d).mem } := by
  induction bs generalizing a d with
  | nil => rfl
  | cons b r ih =>
    rw [putBytes, ih]

theorem mem_wordsOf {a n w : Nat} (hn : 0 < n) : w ∈ wordsOf a n ↔ a / 8 ≤ w ∧ w ≤ (a + n - 1) / 8 := by
  rw [wordsOf, if_neg hn.ne', List.mem_map]
  constructor
  · rintro ⟨i, hi, rfl⟩
    have hle : a / 8 ≤ (a + n - 1) / 8 := Nat.div_le_div_right (by omega)
    rw [List.mem_range] at hi
    omega
  · intro ⟨hlo, hhi⟩
    exact ⟨w - a / 8, List.mem_range.mpr (by omega), by omega⟩

theorem nodup_wordsOf (a n : Nat) : (wordsOf a n).Nodup := by
  rw [wordsOf]
  split
  · exact List.nodup_nil
  · exact List.nodup_range.map fun _ _ => Nat.add_left_cancel

/-- A word that a write in the Kettle touches lies in the Kettle. -/
theorem inKet_of_mem_wordsOf {a n w : Nat} (hlo : ketBase ≤ a) (hhi : a + n ≤ ketBase + ketSize) (hw : w ∈ wordsOf a n) :
    inKet (w * 8) 8 = true := by
  rcases Nat.eq_zero_or_pos n with rfl | hn
  · exact absurd hw List.not_mem_nil
  · rw [mem_wordsOf hn] at hw
    simp only [ketBase, ketSize] at hlo hhi
    rw [inKet, decide_eq_true_eq, ketBase, ketSize]
    omega

/-- The words touched by a write that stores n bytes at a. -/
abbrev touched (a n : Nat) (d : Dev) : Dev := forEach (wordsOf a n) (touchWrite a n) d

theorem errOf_touched_ne {a n w : Nat} (l : List Nat) (hw : w ∉ l) (d : Dev) : errOf (forEach l (touchWrite a n) d) w = errOf d w :=
  forEach_keeps_of_mem (errOf · w) (fun x hx d => by
    rw [errOf_touchWrite, if_neg fun h => ne_of_mem_of_not_mem hx hw h.1.symm]) d

/-- R159: of the words that a write touches those covered whole get valid check bits; an uncorrectable one covered in part stays. -/
theorem errOf_touched {a n w : Nat} (hw : w ∈ wordsOf a n) (d : Dev) :
    errOf (touched a n d) w = if covers a n w ∨ errOf d w ≠ .multi then .none else .multi := by
  obtain ⟨l₁, l₂, h₁, h₂, hsplit⟩ := forEach_split (nodup_wordsOf a n) hw
  rw [touched, hsplit, errOf_touched_ne _ h₂, errOf_touchWrite, errOf_touched_ne _ h₁]
  by_cases hc : covers a n w ∨ errOf d w ≠ .multi
  · rw [if_pos ⟨rfl, hc⟩, if_pos hc]
  · rw [if_neg fun h => hc h.2, if_neg hc]
    exact Classical.not_not.mp fun h => hc (.inr h)

/-- R162: such a word raises UE_MERGE. -/
theorem rb_touched_merge {a n w : Nat} {d : Dev} (hw : w ∈ wordsOf a n) (hc : ¬covers a n w) (he : errOf d w = .multi)
    (hket : inKet (w * 8) 8 = true) : rb (touched a n d) Reg.KET_EVENT 2 = true := by
  obtain ⟨l₁, l₂, h₁, -, hsplit⟩ := forEach_split (nodup_wordsOf a n) hw
  rw [touched, hsplit]
  exact forEach_inv _ (fun d => rb d Reg.KET_EVENT 2 = true) _ (fun _ _ => rb_touchWrite_of) l₂
    (rb_touchWrite_merge hc ((errOf_touched_ne l₁ h₁ d).trans he) hket)

theorem errorsOnly_touched (a n : Nat) (d : Dev) : ErrorsOnly d (touched a n d) := .forEach (errorsOnly_touchWrite a n) _ d

/-- A write to the Kettle: the words touched, the bytes, then the tears. -/
theorem store_ket {a : Nat} {bs : List W8} (h : inKet a bs.length = true) (d : Dev) :
    store a bs d = tear [(a - ketBase, bs.length)] (putBytes a bs (touched a bs.length d)) := by
  simp only [store, storeRanges, List.filterMap_cons, List.filterMap_nil, h, if_true]
  rfl

end Sys2Proof.Machine

/-!
Surface descriptors (R163 to R167).
-/

namespace Sys2Proof.Machine

/-! Where a descriptor's words stand (R163). -/

/-- The words of a table from `lo` on, written one after the other. -/
theorem get_foldl_put (lo n : Nat) (f : Nat → W32) (t : Tab W32) (i : Nat) :
    Tab.get 0 ((List.range n).foldl (fun t w => Tab.put 0 t (lo + w) (f w)) t) i
      = if lo ≤ i ∧ i < lo + n then f (i - lo) else Tab.get 0 t i := by
  induction n with
  | zero => simp
  | succ n ih =>
    rw [List.range_succ, List.foldl_append, List.foldl_cons, List.foldl_nil, Tab.get_put, ih]
    by_cases hi : i = lo + n
    · subst hi
      simp
    · rw [if_neg hi]
      exact if_congr (by omega) rfl rfl

theorem surfDesc_setSurfDesc_same (n : Nat) {ws : List W32} (h : ws.length = 8) (d : Dev) : surfDesc (setSurfDesc n ws d) n = ws := by
  refine List.ext_getElem (by simp [surfDesc, h]) fun w h₁ h₂ => ?_
  have hw : w < 8 := h ▸ h₂
  simp only [surfDesc, List.getElem_map, List.getElem_range, setSurfDesc, get_foldl_put]
  rw [if_pos (by omega), Nat.add_sub_cancel_left, List.getD_eq_getElem _ _ h₂]

theorem surfDesc_setSurfDesc_ne {n m : Nat} (ws : List W32) (h : m ≠ n) (d : Dev) : surfDesc (setSurfDesc n ws d) m = surfDesc d m := by
  refine List.map_congr_left fun w hw => ?_
  rw [List.mem_range] at hw
  rw [setSurfDesc]
  dsimp only
  rw [get_foldl_put, if_neg (by omega)]

/-! The checks (R167). -/

/-- The number of the first of seven checks that fails, or 0. -/
theorem firstCheck {p : Nat → Bool} {n : Nat} (h : (((List.range 7).map (· + 1)).find? p).getD 0 = n) :
    (n = 0 ∧ ∀ r, 1 ≤ r → r ≤ 7 → p r = false) ∨ (1 ≤ n ∧ n ≤ 7 ∧ p n = true ∧ ∀ q, 1 ≤ q → q < n → p q = false) := by
  rw [List.find?_map] at h
  cases hfind : (List.range 7).find? (p ∘ (· + 1)) with
  | none =>
    rw [hfind] at h
    rw [List.find?_range_eq_none] at hfind
    refine .inl ⟨h.symm, fun r hlo hhi => ?_⟩
    simpa [Nat.sub_add_cancel hlo] using hfind (r - 1) (by omega)
  | some i =>
    rw [hfind] at h
    rw [List.find?_range_eq_some] at hfind
    obtain ⟨hi, hmem, hbefore⟩ := hfind
    rw [List.mem_range] at hmem
    have hn : i + 1 = n := h
    subst hn
    refine .inr ⟨by omega, by omega, hi, fun q hlo hhi => ?_⟩
    simpa [Nat.sub_add_cancel hlo] using hbefore (q - 1) (by omega)

theorem descReason_of_invalid {ws : List W32} (h : descValid ws = false) : descReason ws = 0 := by simp [descReason, h]

/-- The REASON of valid words. -/
theorem descReason_of_valid {ws : List W32} (h : descValid ws = true) :
    (descReason ws = 0 ∧ ∀ r, 1 ≤ r → r ≤ 7 → descFails ws r = false)
      ∨ (1 ≤ descReason ws ∧ descReason ws ≤ 7 ∧ descFails ws (descReason ws) = true
        ∧ ∀ q, 1 ≤ q → q < descReason ws → descFails ws q = false) :=
  firstCheck (by rw [descReason, if_pos h])

/-- R167: the REASON is the first failing check. -/
theorem descReason_eq_iff {ws : List W32} (h : descValid ws = true) {r : Nat} (hlo : 1 ≤ r) (hhi : r ≤ 7) :
    descReason ws = r ↔ descFails ws r = true ∧ ∀ q, 1 ≤ q → q < r → descFails ws q = false := by
  rcases descReason_of_valid h with ⟨hzero, hnone⟩ | ⟨hpos, hle, hfails, hfirst⟩
  · rw [hzero, hnone r hlo hhi]
    exact ⟨fun e => absurd e (by omega), nofun⟩
  · refine ⟨fun e => e ▸ ⟨hfails, hfirst⟩, fun ⟨hr, hbefore⟩ => ?_⟩
    rcases Nat.lt_trichotomy (descReason ws) r with hlt | heq | hgt
    · exact absurd hfails (by simp [hbefore _ hpos hlt])
    · exact heq
    · exact absurd hr (by simp [hfirst r hlo hgt])

theorem descFails_of_reason_zero {ws : List W32} (h : descValid ws = true) (hz : descReason ws = 0) {r : Nat} (hlo : 1 ≤ r) (hhi : r ≤ 7) :
    descFails ws r = false := by
  rcases descReason_of_valid h with ⟨-, hnone⟩ | ⟨hpos, -⟩
  · exact hnone r hlo hhi
  · omega

/-- The words that a commit keeps: their fields alone (R6, R164). -/
abbrev descFields (ws : List W32) : List W32 := ws.zipIdx.map fun (x, w) => x &&& descMask w

theorem and_mask_of_no_reserved {x m : W32} (h : x &&& ~~~m = 0) : x &&& m = x := by
  have hsplit : x &&& m ||| x &&& ~~~m = x := by
    ext i hi
    simp only [BitVec.getElem_or, BitVec.getElem_and, BitVec.getElem_not]
    cases x[i] <;> cases m[i] <;> rfl
  simpa [h] using hsplit

/-- Words that pass check 1 hold nothing but their fields. -/
theorem descFields_of_check1 {ws : List W32} (hlen : ws.length = 8) (h : descFails ws 1 = false) : descFields ws = ws := by
  refine List.ext_getElem (by simp) fun w h₁ h₂ => ?_
  have hw : w < 8 := hlen ▸ h₂
  have hreserved : descWord ws w &&& ~~~descMask w = 0 := by
    simpa [descFails] using List.any_eq_false.mp h w (List.mem_range.mpr hw)
  rw [descWord, List.getD_eq_getElem _ _ h₂] at hreserved
  simpa using and_mask_of_no_reserved hreserved

/-! The rows of a surface (R165 to R167). -/

section
variable {ws : List W32}

theorem rowBytes_le_pitch (h : descFails ws 4 = false) {p : Nat} (hp : p < fmtPlanes (descFormat ws)) : descRowBytes ws p ≤ descPitch ws p := by
  simpa using List.any_eq_false.mp h p (List.mem_range.mpr hp)

theorem planeEnd_le (h : descFails ws 5 = false) {p : Nat} (hp : p < fmtPlanes (descFormat ws)) : descPlaneEnd ws p ≤ ketSize := by
  simpa using List.any_eq_false.mp h p (List.mem_range.mpr hp)

/-- A row of a slice ends before the slice's rows do. -/
theorem row_in_slice (h : descRowBytes ws 0 ≤ descPitch ws 0) {r : Nat} (hr : r < descHeight ws) :
    r * descPitch ws 0 + descRowBytes ws 0 ≤ descHeight ws * descPitch ws 0 :=
  calc r * descPitch ws 0 + descRowBytes ws 0 ≤ (r + 1) * descPitch ws 0 := by rw [Nat.succ_mul]; exact Nat.add_le_add_left h _
    _ ≤ descHeight ws * descPitch ws 0 := Nat.mul_le_mul_right _ hr

theorem fmtPlanes_pos (f : Nat) : 0 < fmtPlanes f := by
  simp only [fmtPlanes]
  split
  · omega
  · split <;> omega

theorem descRows_zero (ws : List W32) : descRows ws 0 = descHeight ws * descDepth ws := by
  rw [descRows, if_neg (fmtPlanes_pos _).not_ge, if_pos rfl]

/-- Every row of an accepted surface lies in the Kettle. -/
theorem row_in_kettle (h4 : descFails ws 4 = false) (h5 : descFails ws 5 = false) {p r : Nat} (hp : p < fmtPlanes (descFormat ws))
    (hr : r < descRows ws p) : descRowAt ws p r + descRowBytes ws p ≤ ketSize := by
  have hpitch := rowBytes_le_pitch h4 hp
  have hend := planeEnd_le h5 hp
  rcases Nat.eq_zero_or_pos p with rfl | hpos
  · rw [descRows_zero] at hr
    have hheight : 0 < descHeight ws := Nat.pos_of_mul_pos_right (Nat.zero_lt_of_lt hr)
    have hslice : r / descHeight ws ≤ descDepth ws - 1 := Nat.le_sub_one_of_lt (Nat.div_lt_of_lt_mul hr)
    have hrow := row_in_slice hpitch (Nat.mod_lt r hheight)
    have hslices := Nat.mul_le_mul_right (descSlice ws) hslice
    rw [descPlaneEnd, if_pos rfl] at hend
    rw [descRowAt, if_pos rfl]
    omega
  · have hlast : (r + 1) * descPitch ws p ≤ descRows ws p * descPitch ws p := Nat.mul_le_mul_right _ hr
    rw [Nat.succ_mul] at hlast
    rw [descPlaneEnd, if_neg hpos.ne'] at hend
    rw [descRowAt, if_neg hpos.ne']
    omega

/-- The rows of plane 0 of an accepted surface lie apart, each before the next. -/
theorem rows_apart (h3 : descFails ws 3 = false) (h4 : descFails ws 4 = false) (h6 : descFails ws 6 = false) {r q : Nat} (hrq : r < q)
    (hq : q < descRows ws 0) : descRowAt ws 0 r + descRowBytes ws 0 ≤ descRowAt ws 0 q := by
  have hpitch := rowBytes_le_pitch h4 (fmtPlanes_pos _)
  have hheight : 0 < descHeight ws := by
    simp [descFails] at h3
    omega
  rw [descRows_zero] at hq
  simp only [descRowAt, if_true]
  rcases (Nat.div_le_div_right (c := descHeight ws) hrq.le).lt_or_eq with hlt | heq
  · have hdepth : 1 < descDepth ws := Nat.lt_of_le_of_lt (Nat.zero_lt_of_lt hlt) (Nat.div_lt_of_lt_mul hq)
    have hslice : descHeight ws * descPitch ws 0 ≤ descSlice ws := by
      simp [descFails, hdepth] at h6
      omega
    have hrow := row_in_slice hpitch (Nat.mod_lt r hheight)
    have hslices := Nat.mul_le_mul_right (descSlice ws) hlt
    rw [Nat.succ_mul] at hslices
    omega
  · have hmod : r % descHeight ws < q % descHeight ws := by
      have hr := Nat.div_add_mod r (descHeight ws)
      have hq := Nat.div_add_mod q (descHeight ws)
      rw [heq] at hr
      omega
    have hrows := Nat.mul_le_mul_right (descPitch ws 0) hmod
    rw [Nat.succ_mul] at hrows
    rw [heq]
    omega

end

end Sys2Proof.Machine

/-!
O33: the Kettle's commands.
-/

namespace Sys2Proof.Machine

/-! Scrub (R159, R160). -/

theorem inKet_scrubWord {w : Nat} (hw : w < ketSize / 8) : inKet ((ketBase / 8 + w) * 8) 8 = true := by
  rw [inKet, decide_eq_true_eq]
  simp only [ketBase, ketSize] at hw ⊢
  omega

section
variable {w : Nat} {d : Dev}

theorem scrubRead_clean (he : errOf d (ketBase / 8 + w) = .none) : scrubRead w d = d := by
  simp [scrubRead, touchRead, when, he]

/-- R160: scrub corrects a single error and counts it, in all and for its row. -/
theorem scrubRead_single (hw : w < ketSize / 8) (he : errOf d (ketBase / 8 + w) = .single) : let t := scrubRead w d
    t.mem = d.mem ∧ (∀ x, errOf t x = if x = ketBase / 8 + w then .none else errOf d x) ∧ rb t Reg.KET_EVENT 0 = true
      ∧ t.ket = { d.ket with tally := t.ket.tally } ∧ Tab.get 0 t.ket.tally (ketRow (w * 8)) = Tab.get 0 d.ket.tally (ketRow (w * 8)) + 1
      ∧ (∀ r ≠ ketRow (w * 8), Tab.get 0 t.ket.tally r = Tab.get 0 d.ket.tally r)
      ∧ rd t Reg.KET_CE_COUNT = w32 (min (2 ^ 32 - 1) ((rd d Reg.KET_CE_COUNT).toNat + 1)) := by
  have hread : scrubRead w d = tallyRow w (noteSingle (ketBase / 8 + w) d) := by simp [scrubRead, touchRead, when, he]
  have hket := (errorsOnly_noteSingle (ketBase / 8 + w) d).ket
  have htally : (tallyRow w (noteSingle (ketBase / 8 + w) d)).ket
      = { d.ket with tally := Tab.put 0 d.ket.tally (ketRow (w * 8)) (Tab.get 0 d.ket.tally (ketRow (w * 8)) + 1) } := by
    simp only [tallyRow, hket]
  have hnote : noteSingle (ketBase / 8 + w) d
      = raiseKet 0 (pmon 0x202 1 (bumpSat Reg.KET_CE_COUNT 1 (setErr (ketBase / 8 + w) .none d))) := if_pos (inKet_scrubWord hw)
  rw [hread]
  refine ⟨noteSingle_mem d _, fun x => errOf_noteSingle _ x d, ?_, ?_, ?_, fun r hr => ?_, ?_⟩
  · change rb (noteSingle _ d) Reg.KET_EVENT 0 = true
    rw [hnote]
    exact rb_raiseAt_bitIf _ _ _ (by decide)
  · rw [htally]
  · rw [htally, Tab.get_put_same]
  · rw [htally, Tab.get_put_ne _ _ _ _ _ hr]
  · change rd (noteSingle _ d) Reg.KET_CE_COUNT = _
    rw [hnote, raiseKet, rd_raiseAt_ne _ _ (by decide), rd_pmon (by decide), bumpSat, rd_wr_same]
    rfl

/-- R160: scrub counts an uncorrectable word, captures its offset and leaves it. -/
theorem scrubRead_multi (hw : w < ketSize / 8) (he : errOf d (ketBase / 8 + w) = .multi) : let t := scrubRead w d
    t.ecc = d.ecc ∧ rb t Reg.KET_EVENT 1 = true ∧ rd t Reg.KET_UE_COUNT = w32 (min (2 ^ 32 - 1) ((rd d Reg.KET_UE_COUNT).toNat + 1))
      ∧ rd t Reg.KET_UE_ADDR = (if rb d Reg.KET_EVENT 1 then rd d Reg.KET_UE_ADDR else w32 (w * 8))
      ∧ onlyThese [Reg.KET_EVENT, Reg.KET_UE_COUNT, Reg.KET_UE_ADDR] d t := by
  have hoff : (ketBase / 8 + w) * 8 - ketBase = w * 8 := by
    simp only [ketBase]
    omega
  have hread : scrubRead w d = raiseKet 1 (bumpSat Reg.KET_UE_COUNT 1 (when (!rb d Reg.KET_EVENT 1) (wr Reg.KET_UE_ADDR (w32 (w * 8))) d)) := by
    simp [scrubRead, touchRead, when, he, noteMulti, inKet_scrubWord hw, hoff]
  rw [hread]
  refine ⟨?_, rb_raiseAt_bitIf _ _ _ (by decide), ?_, ?_, ?_⟩
  · rw [raiseKet, raiseAt_ecc, bumpSat, wr_ecc]
    exact when_keeps d (·.ecc) _ _ fun d => wr_ecc d _ _
  · rw [raiseKet, rd_raiseAt_ne _ _ (by decide), bumpSat, rd_wr_same,
      when_keeps d (rd · Reg.KET_UE_COUNT) _ _ fun d => rd_wr_ne d _ (by decide)]
  · rw [raiseKet, rd_raiseAt_ne _ _ (by decide), bumpSat, rd_wr_ne _ _ (by decide)]
    cases rb d Reg.KET_EVENT 1
    · exact rd_wr_same ..
    · rfl
  · exact (((onlyThese_when _ (onlyThese_wr ..)).trans (onlyThese_bumpSat ..)).trans (onlyThese_raiseAt ..)).mono (by decide)

end

theorem scrubStep_rests {k : Clk} {d : Dev} (h : rb d Reg.KET_CTL 0 = false ∨ scrubRests k d = true) : scrubStep k d = d := by
  rcases h with h | h <;> simp [scrubStep, h]

theorem exec_kettleScrub {s : State} (hen : rb s.dev Reg.KET_CTL 0 = true) (hgo : scrubRests s.clk s.dev = false) :
    exec .kettleScrub s = nextDev s (scrubRead s.dev.ket.scrub { s.dev with ket := scrubMove s.clk s.dev }) := by
  have hstep : scrubStep s.clk s.dev = scrubRead s.dev.ket.scrub { s.dev with ket := scrubMove s.clk s.dev } := by
    simp [scrubStep, hen, hgo]
  exact congrArg (nextDev s) hstep

/-! The window (R159, R162). -/

theorem ketWindowRead_shut {d : Dev} (off n : Nat) (h : d.ket.initDone = false) :
    ketWindowRead off n d = windowAnswer (List.replicate (ketClip off n) 0) false d := by
  simp [ketWindowRead, h]

theorem ketWindowRead_open {d : Dev} (off n : Nat) (h : d.ket.initDone = true) : ketWindowRead off n d
    = windowAnswer (getBytes d (ketBase + off) (ketClip off n)) (uncorrectable d (ketBase + off) (ketClip off n))
      (forEach (wordsOf (ketBase + off) (ketClip off n)) touchRead d) := by
  simp [ketWindowRead, h]

/-- What a read through the window answers, and that it changes nothing but what the errors of the words bring. -/
theorem ketWindowRead_eq (off n : Nat) (d : Dev) : let t := ketWindowRead off n d
    ErrorsOnly { d with bus := t.bus } t
      ∧ t.bus = { d.bus with win := if d.ket.initDone then getBytes d (ketBase + off) (ketClip off n) else List.replicate (ketClip off n) 0
                             poisoned := d.ket.initDone && uncorrectable d (ketBase + off) (ketClip off n) } := by
  cases hinit : d.ket.initDone with
  | false =>
    rw [ketWindowRead_shut _ _ hinit]
    exact ⟨rfl, rfl⟩
  | true =>
    have hreads : ErrorsOnly d (forEach (wordsOf (ketBase + off) (ketClip off n)) touchRead d) := .forEach errorsOnly_touchRead _ d
    rw [ketWindowRead_open _ _ hinit]
    refine ⟨?_, ?_⟩
    · simp only [windowAnswer, ErrorsOnly]
      rw [hreads]
    · simp only [windowAnswer, hreads.bus, if_true, Bool.true_and]

theorem ketWindowRead_quiet {off n : Nat} {d : Dev}
    (h : d.ket.initDone = false ∨ ∀ w ∈ wordsOf (ketBase + off) (ketClip off n), errOf d w = .none) :
    ketWindowRead off n d = { d with bus := (ketWindowRead off n d).bus } := by
  cases hinit : d.ket.initDone with
  | false =>
    rw [ketWindowRead_shut _ _ hinit]
    rfl
  | true =>
    rw [ketWindowRead_open _ _ hinit, forEach_touchRead_clean (h.resolve_left (by simp [hinit]))]
    rfl

/-- A write through the window once the Kettle is initialised. -/
theorem ketWindowWrite_open {off : Nat} {bs : List W8} {d : Dev} (hinit : d.ket.initDone = true) (hfits : off + bs.length ≤ ketSize) :
    ketWindowWrite off bs d = tear [(off, bs.length)] (putBytes (ketBase + off) bs (touched (ketBase + off) bs.length d)) := by
  have hclip : bs.take (ketClip off bs.length) = bs := List.take_of_length_le (by rw [ketClip]; omega)
  have hket : inKet (ketBase + off) bs.length = true := by
    rw [inKet, decide_eq_true_eq]
    omega
  rw [ketWindowWrite, if_pos hinit, hclip, store_ket hket, Nat.add_sub_cancel_left]

section
variable {off : Nat} {bs : List W8} {d : Dev}

/-- The device in which a write through the window is judged for tears. -/
abbrev windowStored (off : Nat) (bs : List W8) (d : Dev) : Dev := putBytes (ketBase + off) bs (touched (ketBase + off) bs.length d)

theorem windowStored_ket : (windowStored off bs d).ket = d.ket := by
  rw [windowStored, putBytes_only]
  exact (errorsOnly_touched ..).ket

theorem errOf_windowStored (w : Nat) : errOf (tear [(off, bs.length)] (windowStored off bs d)) w = errOf (touched (ketBase + off) bs.length d) w := by
  refine errOf_congr ?_ w
  rw [tear_ecc, windowStored, putBytes_only]

theorem getByte_windowStored (x : Nat) : getByte (tear [(off, bs.length)] (windowStored off bs d)) x
    = if ketBase + off ≤ x ∧ x < ketBase + off + bs.length then byteAt bs (x - (ketBase + off)) else getByte d x := by
  rw [getByte_congr (tear_mem ..), windowStored, getByte_putBytes, getByte_congr (errorsOnly_touched ..).mem]

/-- Tears leave the Kettle's events. -/
theorem rb_ketEvent_tear (rs : List (Nat × Nat)) (i : Nat) (e : Dev) : rb (tear rs e) Reg.KET_EVENT i = rb e Reg.KET_EVENT i := by
  refine congrArg (bit · i) (forEach_keeps e (rd · Reg.KET_EVENT) _ (fun h e => rd_tearHead (by decide) ?_ ?_ ?_ rs e) _)
  · simp only [Reg.KET_EVENT, Reg.RHEAD_EVENT]
    omega
  · simp only [Reg.KET_EVENT, Reg.RHEAD_TEAR_COUNT]
    omega
  · simp only [Reg.KET_EVENT, Reg.RHEAD_TEAR_INFO]
    omega

theorem rd_windowStored_eq (a : Nat) : rd (windowStored off bs d) a = rd (touched (ketBase + off) bs.length d) a := rd_congr (putBytes_regs ..) a

/-- The errors of words leave the raster heads' registers, before the write is judged for tears. -/
theorem rd_windowStored {a : Nat} (ha : 0x90000 ≤ a ∧ a < 0x110000) : rd (windowStored off bs d) a = rd d a := by
  rw [rd_windowStored_eq]
  exact forEach_keeps d (rd · a) _ (fun w d => rd_touchWrite ha _ _ w d) _

/-- R185 for a write through the window: the heads that it tears. -/
theorem tears_windowStored (h : Nat) : tears [(off, bs.length)] (windowStored off bs d) h
    = (scanning (head d h) && !splitOdd d h && (head d h).active.elim false fun a => a.layers.any fun l => layerHit l off bs.length) := by
  rw [tears, head_congr windowStored_ket, splitOdd_congr windowStored_ket]
  simp

/-- R159, R162: what a write through the window leaves of the errors of the words that it touches. -/
theorem windowStored_words (hfits : off + bs.length ≤ ketSize) {w : Nat} (hw : w ∈ wordsOf (ketBase + off) bs.length) :
    let t := tear [(off, bs.length)] (windowStored off bs d)
    (covers (ketBase + off) bs.length w → errOf t w = .none)
      ∧ (¬covers (ketBase + off) bs.length w → errOf d w = .multi → errOf t w = .multi ∧ rb t Reg.KET_EVENT 2 = true) := by
  refine ⟨fun hwhole => ?_, fun hpart he => ⟨?_, ?_⟩⟩
  · rw [errOf_windowStored, errOf_touched hw, if_pos (.inl hwhole)]
  · rw [errOf_windowStored, errOf_touched hw, if_neg fun hc => hc.elim hpart fun hne => hne he]
  · rw [rb_ketEvent_tear, rb, rd_windowStored_eq]
    exact rb_touched_merge hw hpart he (inKet_of_mem_wordsOf (Nat.le_add_right ..) (by omega) hw)

/-- R185 for a write through the window: what head h shows of its tear. -/
theorem windowStored_tears {h : Nat} (hh : h < 4) : let x := head d h
    let hit := scanning x && !splitOdd d h && x.active.elim false fun a => a.layers.any fun l => layerHit l off bs.length
    let t := tear [(off, bs.length)] (windowStored off bs d)
    rd t (Reg.RHEAD_TEAR_COUNT h) = (if hit then w32 (min (2 ^ 32 - 1) ((rd d (Reg.RHEAD_TEAR_COUNT h)).toNat + 1))
      else rd d (Reg.RHEAD_TEAR_COUNT h))
    ∧ (hit = true → rb t (Reg.RHEAD_EVENT h) 6 = true
      ∧ (rb d (Reg.RHEAD_EVENT h) 6 = false → x.line < 2 ^ 14 → rf t (Reg.RHEAD_TEAR_INFO h) 0 14 = x.line)) := by
  have hregs {a : Nat} (ha : a = Reg.RHEAD_EVENT h ∨ a = Reg.RHEAD_TEAR_COUNT h) : rd (windowStored off bs d) a = rd d a := by
    refine rd_windowStored ?_
    simp only [Reg.RHEAD_EVENT, Reg.RHEAD_TEAR_COUNT] at ha
    omega
  have hclear : rb (windowStored off bs d) (Reg.RHEAD_EVENT h) 6 = rb d (Reg.RHEAD_EVENT h) 6 := congrArg (bit · 6) (hregs (.inl rfl))
  have hshows := tear_shows hh [(off, bs.length)] (windowStored off bs d)
  rwa [tears_windowStored, head_congr windowStored_ket, hregs (.inr rfl), hclear] at hshows

end

/-! Descriptors (R163, R167). -/

/-- The words that a requester has staged for a descriptor, and the descriptor that it has named (R163). -/
abbrev stagedDesc (req : Req) (d : Dev) : List W32 := (List.range 8).map fun w => rd d (ownOf req (Reg.KET_SURF_DATA w))
abbrev namedDesc (req : Req) (d : Dev) : Nat := fld (rd d (ownOf req Reg.KET_SURF_IDX)) 0 10

theorem surfStatus_ne_surfIdx (req : Req) : ownOf req Reg.KET_SURF_IDX ≠ Reg.KET_SURF_STATUS := by cases req <;> decide

theorem surfWrite_accepted {req : Req} {d : Dev} (h : descReason (stagedDesc req d) = 0) :
    surfWrite req d = setSurfDesc (namedDesc req d) (descFields (stagedDesc req d)) (wr Reg.KET_SURF_STATUS 0 d) := by
  simp only [surfWrite, h, if_true, rd_wr_ne _ _ (surfStatus_ne_surfIdx req)]
  rfl

theorem surfWrite_rejected {req : Req} {d : Dev} (h : descReason (stagedDesc req d) ≠ 0) :
    surfWrite req d = raiseKet 3 (wr Reg.KET_SURF_STATUS (w32 (descReason (stagedDesc req d))) d) := by
  simp only [surfWrite, h, if_false]

theorem surfData_inj (req : Req) (v w : Nat) (h : ownOf req (Reg.KET_SURF_DATA v) = ownOf req (Reg.KET_SURF_DATA w)) : v = w := by
  have := ownOf_inj h
  simp only [Reg.KET_SURF_DATA] at this
  omega

/-- Settles O33: a lemma for each command; the words that a write touches, its bytes and its tears apart; and the checks of R167, of which those
that an accepted descriptor passes place its rows. -/
theorem kettleCommands : Obligations.KettleCommands := by
  unfold Obligations.KettleCommands
  refine ⟨fun s h => congrArg (nextDev s) (scrubStep_rests h), fun s hen hgo hw => ⟨rfl, fun he => ?_, fun he => ?_, fun he => ?_⟩,
    fun off len s => ?_, fun off data s hshut => ?_, fun off data s hinit hfits => ?_, fun req s hopen => ⟨fun hok => ?_, fun hbad => ?_, ?_⟩,
    fun ws => ⟨descReason_of_invalid, fun hv => ⟨fun r hlo hhi => descReason_eq_iff hv hlo hhi, fun hz => ⟨?_, ?_⟩⟩⟩⟩
  · rw [exec_kettleScrub hen hgo]
    exact congrArg (nextDev s) (scrubRead_clean he)
  · obtain ⟨hmem, herr, hrest⟩ := scrubRead_single (d := { s.dev with ket := scrubMove s.clk s.dev }) hw he
    exact ⟨_, exec_kettleScrub hen hgo, rfl, sameMemory_of_mem hmem, (herr _).trans (if_pos rfl), fun x hx => (herr x).trans (if_neg hx), hrest⟩
  · exact ⟨_, exec_kettleScrub hen hgo, rfl, scrubRead_multi (d := { s.dev with ket := scrubMove s.clk s.dev }) hw he⟩
  · obtain ⟨herrors, hbus⟩ := ketWindowRead_eq off.toNat len s.dev
    exact ⟨_, rfl, rfl, sameMemory_of_mem herrors.mem, herrors.ket, hbus, ketWindowRead_quiet⟩
  · have hwrite : ketWindowWrite off.toNat data s.dev = s.dev := by simp [ketWindowWrite, hshut]
    exact congrArg (nextDev s) hwrite
  · refine ⟨_, congrArg (nextDev s) (ketWindowWrite_open hinit hfits), rfl, (errorsOnly_tear ..).ket.trans windowStored_ket, ?_, ?_, ?_, ?_, ?_⟩
    · refine getBytes_eq_of_getByte fun j hj => ?_
      rw [getByte_windowStored, if_pos ⟨Nat.le_add_right .., Nat.add_lt_add_left hj _⟩, Nat.add_sub_cancel_left]
    · intro x hx
      rw [getByte_windowStored, if_neg (by omega)]
    · exact fun w hw => (errOf_windowStored w).trans (errOf_touched_ne _ hw s.dev)
    · exact fun w hw => windowStored_words hfits hw
    · exact fun h => windowStored_tears h.isLt
  · refine ⟨_, congrArg (nextDev s) ((access_open _ hopen).trans (surfWrite_accepted hok)), rfl, ?_, fun hv => ?_, fun m hm => ?_, ?_, rfl⟩
    · exact surfDesc_setSurfDesc_same _ (by simp) _
    · have hfields := descFields_of_check1 (by simp) (descFails_of_reason_zero hv hok (by decide) (by decide))
      exact (surfDesc_setSurfDesc_same _ (by simp) _).trans hfields
    · exact surfDesc_setSurfDesc_ne _ hm _
    · exact rd_wr_same s.dev Reg.KET_SURF_STATUS 0
  · refine ⟨_, congrArg (nextDev s) ((access_open _ hopen).trans (surfWrite_rejected hbad)), rfl, ?_, ?_, ?_⟩
    · rw [raiseKet, rd_raiseAt_ne _ _ (by decide), rd_wr_same]
    · exact rb_raiseAt_bitIf _ _ _ (by decide)
    · exact (onlyThese_wr ..).trans (onlyThese_raiseAt ..)
  · exact ⟨_, congrArg (nextDev s) (access_open _ hopen), rfl, rd_forEach_wr (surfData_inj req) _ 8 s.dev⟩
  · have hpass {r : Nat} := descFails_of_reason_zero (r := r) hv hz
    exact fun p hp r hr => row_in_kettle (hpass (by decide) (by decide)) (hpass (by decide) (by decide)) hp hr
  · have hpass {r : Nat} := descFails_of_reason_zero (r := r) hv hz
    exact fun r q hrq hq => rows_apart (hpass (by decide) (by decide)) (hpass (by decide) (by decide)) (hpass (by decide) (by decide)) hrq hq

end Sys2Proof.Machine

/-!
The raster heads' state, and what the start of a frame does to it (R172, R173, R182).
-/

namespace Sys2Proof.Machine

/-! Heads. -/

@[simp] theorem head_setHead_same (h : Nat) (x : Head) (d : Dev) : head (setHead h x d) h = x := Tab.get_put_same ..

theorem head_setHead_ne {g h : Nat} (x : Head) (d : Dev) (hne : g ≠ h) : head (setHead h x d) g = head d g := Tab.get_put_ne _ _ _ _ _ hne

@[simp] theorem rd_setHead (h : Nat) (x : Head) (d : Dev) (a : Nat) : rd (setHead h x d) a = rd d a := rfl

@[simp] theorem head_wr (a : Nat) (v : W32) (d : Dev) (g : Nat) : head (wr a v d) g = head d g := rfl

@[simp] theorem head_bumpSat (a n : Nat) (d : Dev) (g : Nat) : head (bumpSat a n d) g = head d g := rfl

@[simp] theorem head_raiseHead (h i : Nat) (d : Dev) (g : Nat) : head (raiseHead h i d) g = head d g := head_congr (raiseAt_ket ..) g

@[simp] theorem head_pmonHead (h e : Nat) (d : Dev) (g : Nat) : head (pmonHead h e d) g = head d g := head_congr (pmon_ket ..) g

/-! The registers of a head that its timing commands write. -/

/-- The registers that hold a head's control and its pixel rate (R192). -/
abbrev rasterHeld (a : Nat) : Prop := 0x90000 ≤ a ∧ a < 0xA0000 ∧ (a % 0x1000 = 0 ∨ a % 0x1000 = 0x38)

theorem rasterHeld_ctl {h : Nat} (hh : h < 16) : rasterHeld (Reg.RHEAD_CTL h) := by
  simp only [rasterHeld, Reg.RHEAD_CTL]
  omega

theorem rasterHeld_pclk {h : Nat} (hh : h < 15) : rasterHeld (Reg.RHEAD_PCLK h) := by
  simp only [rasterHeld, Reg.RHEAD_PCLK]
  omega

/-- The rate of a timing set reaches only the registers that show it. -/
theorem rd_setPclk {a h : Nat} (ha : a ≠ Reg.RHEAD_PCLK h) (ha' : a ≠ Reg.RHEAD_PCLK (h + 1)) (t : Timing) (d : Dev) :
    rd (setPclk h t d) a = rd d a :=
  (when_keeps _ (rd · a) _ _ fun d => rd_wr_ne d _ ha').trans (rd_wr_ne d _ ha)

theorem setPclk_only (h : Nat) (t : Timing) (d : Dev) : onlyRegs d (setPclk h t d) :=
  (onlyThese_wr ..).1.trans (onlyThese_when _ (onlyThese_wr ..)).1

theorem onlyRegs.ket {d e : Dev} (h : onlyRegs d e) : e.ket = d.ket := h.errorsOnly.ket

theorem onlyRegs.mem {d e : Dev} (h : onlyRegs d e) : e.mem = d.mem := h.errorsOnly.mem

/-- R171: both heads of a split pair show the rate. -/
theorem rd_setPclk_pclk (h : Nat) (t : Timing) (d : Dev) : let p := pixelRate (rateGrid d) t
    rd (setPclk h t d) (Reg.RHEAD_PCLK h) = w32 (p.1 / p.2)
      ∧ (t.split = true → rd (setPclk h t d) (Reg.RHEAD_PCLK (h + 1)) = w32 (p.1 / p.2)) := by
  have hne : Reg.RHEAD_PCLK h ≠ Reg.RHEAD_PCLK (h + 1) := by
    simp only [Reg.RHEAD_PCLK]
    omega
  refine ⟨(when_keeps _ (rd · (Reg.RHEAD_PCLK h)) _ _ fun d => rd_wr_ne d _ hne).trans (rd_wr_same ..), fun hs => ?_⟩
  rw [setPclk, hs, when, if_pos rfl, rd_wr_same]

/-! The start of a frame (R172, R173, R182). -/

/-- A head as it begins a frame. -/
def Head.begin (locked : Option W64) (k : Clk) (x : Head) : Head :=
  { x with
    timing := x.next <|> x.timing, next := none, wait := none, latched := false, locked := locked.isSome, free := locked.isNone
    number := locked.getD x.number, consumed := (locked.toList ++ x.consumed).take 4, vsync := now k, vsyncTick := k.ticks
    fresh := false, renewed := x.fresh, lateBlocks := [], crc := 0xFFFFFFFF
    line := (x.next <|> x.timing).elim 0 (fun t => t.vActive + t.vFp), pixels := [] }

/-- The timing set that takes effect sets its rate (R170, R171). -/
def takeRate (h : Nat) (d : Dev) : Dev := match (head d h).next with | some t => setPclk h t d | none => d

/-- The frame number of a set newly taken is shown (R182). -/
def showFrame (h : Nat) (x : Head) (locked : Option W64) (d : Dev) : Dev :=
  if x.fresh then wr64 (Reg.RHEAD_COMMIT_FRAME_LO h) (locked.getD x.number) d else d

/-- The odd head of a split pair begins its frame with the even one (R179). -/
def beginOdd (h : Nat) (d : Dev) : Dev :=
  if splitOdd d (h + 1) then setHead (h + 1) { head d (h + 1) with running := false, lateBlocks := [], pixels := [], crc := 0xFFFFFFFF } d
  else d

/-- The device as a frame of head h begins, before a free-running one is counted. -/
def frameBegun (h : Nat) (locked : Option W64) (k : Clk) (d : Dev) : Dev :=
  let e := setHead h ((head d h).begin locked k) (takeRate h d)
  beginOdd h (showFrame h (head d h) locked (when (splitOdd e (h + 1)) (pmonHead (h + 1) 0) (pmonHead h 0 e)))

theorem startFrame_eq (h : Nat) (locked : Option W64) (k : Clk) (d : Dev) : startFrame h locked k d =
    if locked.isNone && rb (frameBegun h locked k d) (Reg.RHEAD_CTL h) 1 then
      raiseHead h 2 (bumpSat (Reg.RHEAD_FREE_COUNT h) 1 (frameBegun h locked k d))
    else frameBegun h locked k d := rfl

section
variable {h : Nat} {locked : Option W64} {k : Clk} {d : Dev}

theorem takeRate_only (h : Nat) (d : Dev) : onlyRegs d (takeRate h d) := by
  unfold takeRate
  split
  · exact setPclk_only ..
  · exact .refl d

theorem rd_takeRate {a : Nat} (ha : (head d h).next = none ∨ a ≠ Reg.RHEAD_PCLK h ∧ a ≠ Reg.RHEAD_PCLK (h + 1)) : rd (takeRate h d) a = rd d a := by
  unfold takeRate
  split
  · next t ht =>
    obtain ⟨ha, ha'⟩ := ha.resolve_left (by simp [ht])
    exact rd_setPclk ha ha' t d
  · rfl

theorem beginOdd_keeps {β : Type} (f : Dev → β) (hodd : ∀ x d, f (setHead (h + 1) x d) = f d) (d : Dev) : f (beginOdd h d) = f d := by
  unfold beginOdd
  split
  · exact hodd ..
  · rfl

theorem showFrame_keeps {β : Type} (f : Dev → β) (hframe : ∀ v d, f (wr64 (Reg.RHEAD_COMMIT_FRAME_LO h) v d) = f d) (x : Head) (d : Dev) :
    f (showFrame h x locked d) = f d := by
  unfold showFrame
  split
  · exact hframe ..
  · rfl

/-- An observation that neither the odd head, nor the monitors, nor the frame number shown touch comes from the head's own beginning. -/
theorem frameBegun_keeps {β : Type} (f : Dev → β) (hodd : ∀ x d, f (setHead (h + 1) x d) = f d) (hpmon : ∀ src n d, f (pmon src n d) = f d)
    (hframe : ∀ v d, f (wr64 (Reg.RHEAD_COMMIT_FRAME_LO h) v d) = f d) :
    f (frameBegun h locked k d) = f (setHead h ((head d h).begin locked k) (takeRate h d)) := by
  rw [frameBegun, beginOdd_keeps f hodd, showFrame_keeps f hframe, when_keeps _ f _ (pmonHead (h + 1) 0) (hpmon _ _), pmonHead, hpmon]

theorem frameBegun_mem : (frameBegun h locked k d).mem = d.mem :=
  (frameBegun_keeps (·.mem) (fun _ _ => rfl) (fun _ _ d => pmon_mem d _ _) (fun _ _ => rfl)).trans (takeRate_only h d).mem

theorem head_frameBegun_same : head (frameBegun h locked k d) h = (head d h).begin locked k :=
  (frameBegun_keeps (head · h) (fun x d => head_setHead_ne x d (Nat.ne_of_lt h.lt_succ_self)) (fun _ _ _ => head_congr (pmon_ket ..) h)
    (fun _ _ => rfl)).trans (head_setHead_same ..)

theorem head_frameBegun_ne {g : Nat} (hg : g ≠ h) (hg' : g ≠ h + 1) : head (frameBegun h locked k d) g = head d g :=
  (frameBegun_keeps (head · g) (fun x d => head_setHead_ne x d hg') (fun _ _ _ => head_congr (pmon_ket ..) g) (fun _ _ => rfl)).trans
    ((head_setHead_ne _ _ hg).trans (head_congr (takeRate_only h d).ket g))

theorem rd_frameBegun {a : Nat} (hlow : a < 0x110000) (hlo : a ≠ Reg.RHEAD_COMMIT_FRAME_LO h) (hhi : a ≠ Reg.RHEAD_COMMIT_FRAME_LO h + 4)
    (hrate : (head d h).next = none ∨ a ≠ Reg.RHEAD_PCLK h ∧ a ≠ Reg.RHEAD_PCLK (h + 1)) : rd (frameBegun h locked k d) a = rd d a :=
  (frameBegun_keeps (rd · a) (fun _ _ => rfl) (fun src n d => rd_pmon hlow src n d) (fun v d => rd_wr64_ne v d hlo hhi)).trans (rd_takeRate hrate)

/-- R182: the frame number is shown of a set newly taken, else the last one stays. -/
theorem rd64_frameBegun (hh : h < 4) : rd64 (frameBegun h locked k d) (Reg.RHEAD_COMMIT_FRAME_LO h)
    = if (head d h).fresh then locked.getD (head d h).number else rd64 d (Reg.RHEAD_COMMIT_FRAME_LO h) := by
  rw [frameBegun, beginOdd_keeps (rd64 · _) (fun _ _ => rfl), showFrame]
  split
  · exact rd64_wr64_same ..
  · have hplace (a : Nat) (ha : a = Reg.RHEAD_COMMIT_FRAME_LO h ∨ a = Reg.RHEAD_COMMIT_FRAME_LO h + 4) :
        a < 0x110000 ∧ a ≠ Reg.RHEAD_PCLK h ∧ a ≠ Reg.RHEAD_PCLK (h + 1) := by
      simp only [Reg.RHEAD_COMMIT_FRAME_LO, Reg.RHEAD_PCLK] at ha ⊢
      omega
    have hkeeps (c : Bool) {a : Nat} (ha : a = Reg.RHEAD_COMMIT_FRAME_LO h ∨ a = Reg.RHEAD_COMMIT_FRAME_LO h + 4) :
        rd (when c (pmonHead (h + 1) 0) (pmonHead h 0 (setHead h ((head d h).begin locked k) (takeRate h d)))) a = rd d a := by
      rw [when_keeps _ (rd · a) _ (pmonHead (h + 1) 0) (rd_pmon (hplace a ha).1 _ _), pmonHead, rd_pmon (hplace a ha).1, rd_setHead,
        rd_takeRate (.inr (hplace a ha).2)]
    rw [rd64, rd64, hkeeps _ (.inl rfl), hkeeps _ (.inr rfl)]

end

/-- From d to e a frame of head h begins at this tick, locked to a boundary or free-running: R172, R173 and R182 for the head, what it shows of its
set, and its count of free-running frames. -/
def startsFrame (h : Nat) (locked : Option W64) (k : Clk) (d e : Dev) : Prop :=
  let x := head d h
  let y := head e h
  sameMemory d e ∧ y.locked = locked.isSome ∧ y.free = locked.isNone ∧ y.number = locked.getD x.number
    ∧ y.vsync = now k ∧ y.wait = none ∧ y.latched = false ∧ y.next = none ∧ y.timing = (x.next <|> x.timing)
    ∧ (∀ u, y.timing = some u → y.line = u.vActive + u.vFp) ∧ y.active = x.active ∧ y.pending = x.pending ∧ y.running = x.running
    ∧ (x.fresh = true → rd64 e (Reg.RHEAD_COMMIT_FRAME_LO h) = locked.getD x.number)
    ∧ (x.fresh = false → rd64 e (Reg.RHEAD_COMMIT_FRAME_LO h) = rd64 d (Reg.RHEAD_COMMIT_FRAME_LO h))
    ∧ (∀ g < 4, g ≠ h → g ≠ h + 1 → head e g = head d g)
    ∧ (locked = none → rb d (Reg.RHEAD_CTL h) 1 = true → rb e (Reg.RHEAD_EVENT h) 2 = true
        ∧ rd e (Reg.RHEAD_FREE_COUNT h) = w32 (min (2 ^ 32 - 1) ((rd d (Reg.RHEAD_FREE_COUNT h)).toNat + 1)))
    ∧ (locked ≠ none ∨ rb d (Reg.RHEAD_CTL h) 1 = false → rd e (Reg.RHEAD_FREE_COUNT h) = rd d (Reg.RHEAD_FREE_COUNT h))

/-- What a frame's beginning leaves of the registers is also what its start leaves, but for the count of free-running frames and the head's events. -/
theorem rd_startFrame {a h : Nat} (hfree : a ≠ Reg.RHEAD_FREE_COUNT h) (hev : a ≠ Reg.RHEAD_EVENT h) (locked : Option W64) (k : Clk) (d : Dev) :
    rd (startFrame h locked k d) a = rd (frameBegun h locked k d) a := by
  rw [startFrame_eq]
  split
  · rw [raiseHead, rd_raiseAt_ne _ _ hev, bumpSat, rd_wr_ne _ _ hfree]
  · rfl

@[simp] theorem head_startFrame (h : Nat) (locked : Option W64) (k : Clk) (d : Dev) (g : Nat) :
    head (startFrame h locked k d) g = head (frameBegun h locked k d) g := by
  rw [startFrame_eq]
  split
  · rw [head_raiseHead, head_bumpSat]
  · rfl

theorem startFrame_mem (h : Nat) (locked : Option W64) (k : Clk) (d : Dev) : (startFrame h locked k d).mem = d.mem := by
  rw [startFrame_eq]
  split
  · exact (raiseAt_mem ..).trans frameBegun_mem
  · exact frameBegun_mem

theorem startFrame_starts {h : Nat} (hh : h < 4) (locked : Option W64) (k : Clk) (d : Dev) : startsFrame h locked k d (startFrame h locked k d) := by
  have hhead : head (startFrame h locked k d) h = (head d h).begin locked k := (head_startFrame ..).trans head_frameBegun_same
  have hcommit : rd64 (startFrame h locked k d) (Reg.RHEAD_COMMIT_FRAME_LO h)
      = if (head d h).fresh then locked.getD (head d h).number else rd64 d (Reg.RHEAD_COMMIT_FRAME_LO h) := by
    have hlo : Reg.RHEAD_COMMIT_FRAME_LO h ≠ Reg.RHEAD_FREE_COUNT h ∧ Reg.RHEAD_COMMIT_FRAME_LO h ≠ Reg.RHEAD_EVENT h := by
      simp only [Reg.RHEAD_COMMIT_FRAME_LO, Reg.RHEAD_FREE_COUNT, Reg.RHEAD_EVENT]; omega
    have hhi : Reg.RHEAD_COMMIT_FRAME_LO h + 4 ≠ Reg.RHEAD_FREE_COUNT h ∧ Reg.RHEAD_COMMIT_FRAME_LO h + 4 ≠ Reg.RHEAD_EVENT h := by
      simp only [Reg.RHEAD_COMMIT_FRAME_LO, Reg.RHEAD_FREE_COUNT, Reg.RHEAD_EVENT]; omega
    rw [rd64, rd_startFrame hlo.1 hlo.2, rd_startFrame hhi.1 hhi.2, ← rd64, rd64_frameBegun hh]
  have hbegun {a : Nat} (ha : a = Reg.RHEAD_CTL h ∨ a = Reg.RHEAD_FREE_COUNT h) : rd (frameBegun h locked k d) a = rd d a := by
    have hplace : a < 0x110000 ∧ a ≠ Reg.RHEAD_COMMIT_FRAME_LO h ∧ a ≠ Reg.RHEAD_COMMIT_FRAME_LO h + 4 ∧ a ≠ Reg.RHEAD_PCLK h
        ∧ a ≠ Reg.RHEAD_PCLK (h + 1) := by
      simp only [Reg.RHEAD_CTL, Reg.RHEAD_FREE_COUNT, Reg.RHEAD_COMMIT_FRAME_LO, Reg.RHEAD_PCLK] at ha ⊢
      omega
    obtain ⟨hlow, hlo, hhi, hrate⟩ := hplace
    exact rd_frameBegun hlow hlo hhi (.inr hrate)
  have hctl : rb (frameBegun h locked k d) (Reg.RHEAD_CTL h) 1 = rb d (Reg.RHEAD_CTL h) 1 := congrArg (bit · 1) (hbegun (.inl rfl))
  have hfe : Reg.RHEAD_FREE_COUNT h ≠ Reg.RHEAD_EVENT h := by
    simp only [Reg.RHEAD_FREE_COUNT, Reg.RHEAD_EVENT]; omega
  simp only [startsFrame, hhead]
  refine ⟨sameMemory_of_mem (startFrame_mem ..), rfl, rfl, rfl, rfl, rfl, rfl, rfl, rfl, fun u hu => ?_, rfl, rfl, rfl, fun hf => ?_, fun hf => ?_,
    fun g _ hg hg' => (head_startFrame ..).trans (head_frameBegun_ne hg hg'), fun hl hlock => ?_, fun hno => ?_⟩
  · have hu' : ((head d h).next <|> (head d h).timing) = some u := hu
    simp only [Head.begin, hu', Option.elim]
  · rw [hcommit, hf, if_pos rfl]
  · rw [hcommit, hf, if_neg (by simp)]
  · rw [startFrame_eq, hctl, hl, hlock, Option.isNone_none, Bool.and_self, if_pos rfl, raiseHead, rd_raiseAt_ne _ _ hfe, bumpSat, rd_wr_same,
      ← hl, hbegun (.inr rfl)]
    exact ⟨rb_raiseAt_bitIf _ _ _ (by decide), rfl⟩
  · have hcount : (locked.isNone && rb d (Reg.RHEAD_CTL h) 1) = false := by
      rcases hno with hl | hc
      · cases locked with
        | none => exact absurd rfl hl
        | some j => rfl
      · rw [hc, Bool.and_false]
    rw [startFrame_eq, hctl, hcount, if_neg (by simp), hbegun (.inr rfl)]

end Sys2Proof.Machine

/-!
Vertical sync (R172): the end of the front porch, the candidates and the wait.
-/

namespace Sys2Proof.Machine

/-! The candidates that have passed (R172). -/

/-- Lock candidates that have passed are slipped. -/
def slip (h : Nat) (past : List (W64 × Time)) (d : Dev) : Dev :=
  if past.isEmpty then d else
    raiseHead h 3 (bumpSat (Reg.RHEAD_SLIP_COUNT h) past.length
      (setHead h { head d h with consumed := (past.map (·.1) ++ (head d h).consumed).take 4 } d))

/-- The candidates that head h has neither used nor slipped. -/
abbrev unusedCandidates (h offset : Nat) (k : Clk) (d : Dev) : List (W64 × Time) :=
  (candidates k d offset).filter fun c => unused (head d h) c.1

/-- The first of them from now on. -/
abbrev nextCandidate (k : Clk) (cs : List (W64 × Time)) : Option (W64 × Time) := cs.find? fun c => decide (now k ≤ c.2)

/-- Those that have passed. -/
abbrev pastCandidates (k : Clk) (cs : List (W64 × Time)) : List (W64 × Time) := cs.filter fun c => decide (c.2 < now k)

section
variable {h : Nat} {past : List (W64 × Time)} {d : Dev}

theorem head_slip_same (h : Nat) (past : List (W64 × Time)) (d : Dev) : ∃ consumed, head (slip h past d) h = { head d h with consumed } := by
  unfold slip
  split
  · exact ⟨_, rfl⟩
  · exact ⟨_, by rw [head_raiseHead, head_bumpSat, head_setHead_same]⟩

theorem head_slip_ne {g : Nat} (hne : g ≠ h) : head (slip h past d) g = head d g := by
  unfold slip
  split
  · rfl
  · rw [head_raiseHead, head_bumpSat, head_setHead_ne _ _ hne]

theorem rd_slip {a : Nat} (hcount : a ≠ Reg.RHEAD_SLIP_COUNT h) (hev : a ≠ Reg.RHEAD_EVENT h) : rd (slip h past d) a = rd d a := by
  unfold slip
  split
  · rfl
  · rw [raiseHead, rd_raiseAt_ne _ _ hev, bumpSat, rd_wr_ne _ _ hcount, rd_setHead]

theorem slip_mem : (slip h past d).mem = d.mem := by
  unfold slip
  split
  · rfl
  · exact raiseAt_mem ..

theorem slip_frm : (slip h past d).frm = d.frm := by
  unfold slip
  split
  · rfl
  · exact raiseAt_frm ..

theorem slipCount_ne_event (h g : Nat) : Reg.RHEAD_SLIP_COUNT h ≠ Reg.RHEAD_EVENT g := by
  simp only [Reg.RHEAD_SLIP_COUNT, Reg.RHEAD_EVENT]
  omega

/-- R172: each passed candidate is counted. -/
theorem rd_slip_count : rd (slip h past d) (Reg.RHEAD_SLIP_COUNT h) = if past = [] then rd d (Reg.RHEAD_SLIP_COUNT h)
    else w32 (min (2 ^ 32 - 1) ((rd d (Reg.RHEAD_SLIP_COUNT h)).toNat + past.length)) := by
  cases past with
  | nil => rfl
  | cons c r => exact (rd_raiseAt_ne _ _ (slipCount_ne_event h h)).trans (rd_wr_same ..)

theorem rb_slip_event (hp : past ≠ []) : rb (slip h past d) (Reg.RHEAD_EVENT h) 3 = true := by
  cases past with
  | nil => exact absurd rfl hp
  | cons c r => exact rb_raiseAt_bitIf _ _ _ (by decide)

/-- The rate that a grid in use or the registers give comes from the frame clock. -/
theorem rateGrid_congr {d e : Dev} (hfrm : e.frm = d.frm) (hregs : ∀ a < 0x20000, rd e a = rd d a) : rateGrid e = rateGrid d := by
  have hrf (a lo len : Nat) (ha : a < 0x20000) : rf e a lo len = rf d a lo len := by rw [rf, rf, hregs a ha]
  have hgrid : gridRegs e = gridRegs d := by
    simp only [gridRegs, rd64]
    rw [hregs _ (by decide), hregs _ (by decide), hregs _ (by decide), hrf _ _ _ (by decide), hrf _ _ _ (by decide)]
  rw [rateGrid, rateGrid, hfrm, hgrid]

theorem rateGrid_slip : rateGrid (slip h past d) = rateGrid d := by
  refine rateGrid_congr slip_frm fun a ha => rd_slip ?_ ?_
  · simp only [Reg.RHEAD_SLIP_COUNT]
    omega
  · simp only [Reg.RHEAD_EVENT]
    omega

/-- A frame that starts once its passed candidates are slipped starts. -/
theorem startsFrame_of_slip {locked : Option W64} {k : Clk} {e : Dev} (hstart : startsFrame h locked k (slip h past d) e) :
    startsFrame h locked k d e := by
  obtain ⟨consumed, hhead⟩ := head_slip_same h past d
  have hregs {a : Nat} (ha : a = Reg.RHEAD_CTL h ∨ a = Reg.RHEAD_FREE_COUNT h ∨ a = Reg.RHEAD_COMMIT_FRAME_LO h
      ∨ a = Reg.RHEAD_COMMIT_FRAME_LO h + 4) : rd (slip h past d) a = rd d a := by
    simp only [Reg.RHEAD_CTL, Reg.RHEAD_FREE_COUNT, Reg.RHEAD_COMMIT_FRAME_LO] at ha
    refine rd_slip ?_ ?_
    · simp only [Reg.RHEAD_SLIP_COUNT]
      omega
    · simp only [Reg.RHEAD_EVENT]
      omega
  simp only [startsFrame, hhead, rd64, rb, hregs (.inl rfl), hregs (.inr (.inl rfl)), hregs (.inr (.inr (.inl rfl))),
    hregs (.inr (.inr (.inr rfl)))] at hstart
  obtain ⟨hmem, hlocked, hfree, hnumber, hvsync, hwait, hlatched, hnext, htiming, hline, hactive, hpending, hrunning, hfresh, hstale, hothers,
    hcounted, hkept⟩ := hstart
  exact ⟨fun x => (hmem x).trans (getByte_congr slip_mem x), hlocked, hfree, hnumber, hvsync, hwait, hlatched, hnext, htiming, hline, hactive,
    hpending, hrunning, hfresh, hstale, fun g hg hne hne' => (hothers g hg hne hne').trans (head_slip_ne hne), hcounted, hkept⟩

end

/-! The end of the front porch (R172). -/

theorem porchEnd_eq (h offset : Nat) (k : Clk) (d : Dev) : porchEnd h offset k d =
    let cs := unusedCandidates h offset k d
    let e := slip h (pastCandidates k cs) d
    match nextCandidate k cs with
    | some (j, v) =>
      if now k + (rateGrid e).period ≤ v then startFrame h none k e
      else if v = now k then startFrame h (some j) k e
      else setHead h { head e h with wait := some { frame := j, v, tick := k.ticks } } e
    | none => startFrame h none k e := rfl

section
variable {h offset : Nat} {k : Clk} {d : Dev}

/-- The next candidate lies within a frame period. -/
abbrev nearCandidate (h offset : Nat) (k : Clk) (d : Dev) (j : W64) (v : Time) : Prop :=
  nextCandidate k (unusedCandidates h offset k d) = some (j, v) ∧ v < now k + (rateGrid d).period

/-- The device once the candidates that have passed are slipped. -/
abbrev porchSlipped (h offset : Nat) (k : Clk) (d : Dev) : Dev := slip h (pastCandidates k (unusedCandidates h offset k d)) d

theorem porchEnd_now {j : W64} (hnear : nearCandidate h offset k d j (now k)) : porchEnd h offset k d = startFrame h (some j) k (porchSlipped h offset k d) := by
  obtain ⟨hnext, hperiod⟩ := hnear
  rw [porchEnd_eq]
  simp only [hnext, rateGrid_slip, if_neg (not_le.mpr hperiod), if_true]

theorem porchEnd_later {j : W64} {v : Time} (hnear : nearCandidate h offset k d j v) (hv : now k < v) :
    let e := porchSlipped h offset k d
    porchEnd h offset k d = setHead h { head e h with wait := some { frame := j, v, tick := k.ticks } } e := by
  obtain ⟨hnext, hperiod⟩ := hnear
  rw [porchEnd_eq]
  simp only [hnext, rateGrid_slip, if_neg (not_le.mpr hperiod), if_neg hv.ne']

theorem porchEnd_far (hfar : ∀ j v, ¬nearCandidate h offset k d j v) : porchEnd h offset k d = startFrame h none k (porchSlipped h offset k d) := by
  rw [porchEnd_eq]
  cases hnext : nextCandidate k (unusedCandidates h offset k d) with
  | none => simp only [hnext]
  | some c =>
    have hperiod : now k + (rateGrid d).period ≤ c.2 := not_lt.mp fun hlt => hfar c.1 c.2 ⟨hnext, hlt⟩
    simp only [hnext, rateGrid_slip, if_pos hperiod]

/-- The candidate that a front porch's end finds next does not lie in the past. -/
theorem le_of_nextCandidate {cs : List (W64 × Time)} {j : W64} {v : Time} (hnext : nextCandidate k cs = some (j, v)) : now k ≤ v := by
  simpa using List.find?_some hnext

/-- What the end of the front porch can do. -/
theorem porchEnd_cases (h offset : Nat) (k : Clk) (d : Dev) : let e := porchSlipped h offset k d
    (∃ locked, porchEnd h offset k d = startFrame h locked k e)
      ∨ ∃ w, porchEnd h offset k d = setHead h { head e h with wait := some w } e := by
  by_cases hnear : ∃ j v, nearCandidate h offset k d j v
  · obtain ⟨j, v, hnear⟩ := hnear
    rcases (le_of_nextCandidate hnear.1).eq_or_lt with rfl | hv
    · exact .inl ⟨_, porchEnd_now hnear⟩
    · exact .inr ⟨_, porchEnd_later hnear hv⟩
  · exact .inl ⟨_, porchEnd_far fun j v hjv => hnear ⟨j, v, hjv⟩⟩

/-! What the end of the front porch shows of the candidates that have passed (R172). -/

/-- The start of a frame leaves the count of slipped candidates. -/
theorem rd_startFrame_slip (hh : h < 4) (locked : Option W64) : rd (startFrame h locked k d) (Reg.RHEAD_SLIP_COUNT h) = rd d (Reg.RHEAD_SLIP_COUNT h) := by
  have hplace : Reg.RHEAD_SLIP_COUNT h < 0x110000 ∧ Reg.RHEAD_SLIP_COUNT h ≠ Reg.RHEAD_FREE_COUNT h
      ∧ Reg.RHEAD_SLIP_COUNT h ≠ Reg.RHEAD_COMMIT_FRAME_LO h ∧ Reg.RHEAD_SLIP_COUNT h ≠ Reg.RHEAD_COMMIT_FRAME_LO h + 4
      ∧ Reg.RHEAD_SLIP_COUNT h ≠ Reg.RHEAD_PCLK h ∧ Reg.RHEAD_SLIP_COUNT h ≠ Reg.RHEAD_PCLK (h + 1) := by
    simp only [Reg.RHEAD_SLIP_COUNT, Reg.RHEAD_FREE_COUNT, Reg.RHEAD_COMMIT_FRAME_LO, Reg.RHEAD_PCLK]
    omega
  obtain ⟨hlow, hfree, hlo, hhi, hrate⟩ := hplace
  rw [rd_startFrame hfree (slipCount_ne_event h h), rd_frameBegun hlow hlo hhi (.inr hrate)]

/-- The start of a frame clears no event. -/
theorem rb_startFrame_of (hh : h < 4) {i : Nat} (hi : rb d (Reg.RHEAD_EVENT h) i = true) (locked : Option W64) :
    rb (startFrame h locked k d) (Reg.RHEAD_EVENT h) i = true := by
  have hplace : Reg.RHEAD_EVENT h < 0x110000 ∧ Reg.RHEAD_EVENT h ≠ Reg.RHEAD_FREE_COUNT h
      ∧ Reg.RHEAD_EVENT h ≠ Reg.RHEAD_COMMIT_FRAME_LO h ∧ Reg.RHEAD_EVENT h ≠ Reg.RHEAD_COMMIT_FRAME_LO h + 4
      ∧ Reg.RHEAD_EVENT h ≠ Reg.RHEAD_PCLK h ∧ Reg.RHEAD_EVENT h ≠ Reg.RHEAD_PCLK (h + 1) := by
    simp only [Reg.RHEAD_EVENT, Reg.RHEAD_FREE_COUNT, Reg.RHEAD_COMMIT_FRAME_LO, Reg.RHEAD_PCLK]
    omega
  obtain ⟨hlow, hfree, hlo, hhi, hrate⟩ := hplace
  have hbegun : rb (frameBegun h locked k d) (Reg.RHEAD_EVENT h) i = true := by rwa [rb, rd_frameBegun hlow hlo hhi (.inr hrate)]
  rw [startFrame_eq]
  split
  · refine rb_raiseAt_of ?_
    rwa [rb, bumpSat, rd_wr_ne _ _ hfree]
  · exact hbegun

theorem rd_porchEnd_slip (hh : h < 4) : rd (porchEnd h offset k d) (Reg.RHEAD_SLIP_COUNT h) = rd (porchSlipped h offset k d) (Reg.RHEAD_SLIP_COUNT h) := by
  rcases porchEnd_cases h offset k d with ⟨locked, e⟩ | ⟨w, e⟩
  · rw [e, rd_startFrame_slip hh]
  · rw [e, rd_setHead]

theorem rb_porchEnd_slip (hh : h < 4) (hpast : pastCandidates k (unusedCandidates h offset k d) ≠ []) :
    rb (porchEnd h offset k d) (Reg.RHEAD_EVENT h) 3 = true := by
  have hev := rb_slip_event (h := h) (d := d) hpast
  rcases porchEnd_cases h offset k d with ⟨locked, e⟩ | ⟨w, e⟩
  · rw [e]
    exact rb_startFrame_of hh hev locked
  · rw [e]
    exact hev

end

/-! VSYNC_START and ABANDONED_WAIT. -/

section
variable {h : Nat} {k : Clk} {d : Dev} {u : Timing}

/-- A head that runs at the end of its front porch. -/
structure AtPorchEnd (d : Dev) (h : Nat) (u : Timing) : Prop where
  timing : (head d h).timing = some u
  running : (head d h).running = true
  even : splitOdd d h = false
  line : (head d h).line = u.lastPorch

theorem vsyncStart_free (hat : AtPorchEnd d h u) (hfree : rb d (Reg.RHEAD_CTL h) 1 = false ∨ (head d h).forced = true) :
    vsyncStart h k d = startFrame h none k d := by
  rcases hfree with hlock | hforced
  · simp [vsyncStart, hat.timing, hat.running, hat.even, hat.line, hlock]
  · simp [vsyncStart, hat.timing, hat.running, hat.even, hat.line, hforced]

theorem vsyncStart_waiting {w : LockWait} (hat : AtPorchEnd d h u) (hlock : rb d (Reg.RHEAD_CTL h) 1 = true) (hforced : (head d h).forced = false)
    (hwait : (head d h).wait = some w) : vsyncStart h k d = if w.v ≤ now k then startFrame h (some w.frame) k d else d := by
  simp [vsyncStart, hat.timing, hat.running, hat.even, hat.line, hlock, hforced, hwait]

theorem vsyncStart_porch (hat : AtPorchEnd d h u) (hlock : rb d (Reg.RHEAD_CTL h) 1 = true) (hforced : (head d h).forced = false)
    (hwait : (head d h).wait = none) : vsyncStart h k d = porchEnd h u.offset k d := by
  simp [vsyncStart, hat.timing, hat.running, hat.even, hat.line, hlock, hforced, hwait]

/-- What a vertical sync can do. -/
theorem vsyncStart_cases (h : Nat) (k : Clk) (d : Dev) : vsyncStart h k d = d ∨ (∃ locked, vsyncStart h k d = startFrame h locked k d)
    ∨ ∃ offset, vsyncStart h k d = porchEnd h offset k d := by
  unfold vsyncStart
  dsimp only
  split
  · exact .inl rfl
  · split
    · exact .inl rfl
    · split
      · exact .inr (.inl ⟨_, rfl⟩)
      · split
        · split
          · exact .inr (.inl ⟨_, rfl⟩)
          · exact .inl rfl
        · exact .inr (.inr ⟨_, rfl⟩)

theorem abandonWait_none (hwait : (head d h).wait = none) : abandonWait h k d = d := by simp [abandonWait, hwait]

theorem abandonWait_waiting {w : LockWait} (hwait : (head d h).wait = some w) : abandonWait h k d =
    if now k < w.v ∧ (rateGrid d).den.toNat * 1250000000 ≤ since k w.tick * (rateGrid d).num.toNat then startFrame h none k d else d := by
  simp [abandonWait, hwait]

end

end Sys2Proof.Machine

/-!
Captures, retirement, and a head's enable and disable (R170, R181, R184).
-/

namespace Sys2Proof.Machine

/-! What posting a record to a queue leaves (R323). -/

/-- A push keeps what neither its refusal, nor a store, nor the queue's state shows. -/
theorem quePush_keeps {β : Type} (f : Dev → β) (q : Nat) (hrefuse : ∀ d, f (bumpSat (Reg.QUE_REFUSED q) 1 d) = f d)
    (hstore : ∀ a bs d, f (store a bs d) = f d) (hset : ∀ x d, f (setQueue q x d) = f d) (entry : List W8) (d : Dev) :
    f (quePush q entry d).2 = f d := by
  have hspill (d : Dev) : f (queSpill q d) = f d := by
    simp only [queSpill]
    split
    · exact (hstore ..).trans (hset ..)
    · rfl
  simp only [quePush]
  split
  · exact hrefuse d
  · refine (hset ..).trans ?_
    split
    · exact hspill d
    · rfl

theorem store_ket_same (a : Nat) (bs : List W8) (d : Dev) : (store a bs d).ket = d.ket :=
  store_keeps (·.ket) (fun _ _ h => h.ket) (fun _ _ => rfl) a bs d

theorem quePush_ket (q : Nat) (entry : List W8) (d : Dev) : (quePush q entry d).2.ket = d.ket :=
  quePush_keeps (·.ket) q (fun _ => rfl) store_ket_same (fun _ _ => rfl) entry d

section
variable {a : Nat}

/-- The registers of head h in which its work shows (R192). -/
def rasterShown (h : Nat) : List Nat :=
  [Reg.RHEAD_EVENT h, Reg.RHEAD_TEAR_COUNT h, Reg.RHEAD_TEAR_INFO h, Reg.RHEAD_RETIRE_COUNT h, Reg.RHEAD_LAYER_FAULT h,
    Reg.RHEAD_SLIP_COUNT h, Reg.RHEAD_FREE_COUNT h, Reg.RHEAD_COMMIT_FRAME_LO h, Reg.RHEAD_COMMIT_FRAME_LO h + 4]

theorem rasterHeld_ne (ha : rasterHeld a) (h : Nat) {b : Nat} (hb : b ∈ rasterShown h) : a ≠ b := by
  simp only [rasterShown, List.mem_cons, List.not_mem_nil, or_false, Reg.RHEAD_EVENT, Reg.RHEAD_TEAR_COUNT, Reg.RHEAD_TEAR_INFO, Reg.RHEAD_RETIRE_COUNT,
    Reg.RHEAD_LAYER_FAULT, Reg.RHEAD_SLIP_COUNT, Reg.RHEAD_FREE_COUNT, Reg.RHEAD_COMMIT_FRAME_LO] at hb
  omega

theorem rasterHeld_ne_event (ha : rasterHeld a) (h : Nat) : a ≠ Reg.RHEAD_EVENT h := rasterHeld_ne ha h (by simp [rasterShown])

/-- No store reaches a head's control. -/
theorem rd_store (ha : rasterHeld a) (b : Nat) (bs : List W8) (d : Dev) : rd (store b bs d) a = rd d a := by
  have hplace : 0x90000 ≤ a ∧ a < 0x110000 := by omega
  have htear (rs : List (Nat × Nat)) (d : Dev) : rd (tear rs d) a = rd d a :=
    forEach_keeps d (rd · a) _ (fun h d => rd_tearHead hplace.2 (rasterHeld_ne_event ha h) (rasterHeld_ne ha h (by simp [rasterShown]))
      (rasterHeld_ne ha h (by simp [rasterShown])) rs d) _
  have hrange (b : Nat) (bs : List W8) (d : Dev) : rd (storeRange b bs d) a = rd d a :=
    (rd_congr (putBytes_regs ..) a).trans (forEach_keeps d (rd · a) _ (fun w d => rd_touchWrite hplace _ _ w d) _)
  simp only [store, storeRanges, htear]
  exact hrange b bs d

theorem rd_quePush (ha : rasterHeld a) (q : Nat) (entry : List W8) (d : Dev) : rd (quePush q entry d).2 a = rd d a := by
  have hrefused : a ≠ Reg.QUE_REFUSED q := by
    simp only [Reg.QUE_REFUSED]
    omega
  exact quePush_keeps (rd · a) q (fun d => rd_wr_ne d _ hrefused) (rd_store ha) (fun _ _ => rfl) entry d

end

/-! Retirement (R184). -/

/-- A RETIRE record is offered to the head's queue where RHEAD_RETIRE_CTL enables one. -/
def retireOffer (h l surf : Nat) (frame time : W64) (d : Dev) : Bool × Dev :=
  let ctl := rd d (Reg.RHEAD_RETIRE_CTL h)
  if bit ctl 10 then quePush (fld ctl 0 10) (retireRecord h l surf frame time) d else (false, d)

theorem postRetire_eq (h l surf : Nat) (frame time : W64) (d : Dev) : postRetire h l surf frame time d =
    let r := retireOffer h l surf frame time d
    if r.1 then bumpFld (Reg.RHEAD_RETIRE_COUNT h) 0 16 1 r.2 else raiseHead h 1 (bumpFld (Reg.RHEAD_RETIRE_COUNT h) 16 16 1 r.2) := rfl

/-- A record posted, or lost, keeps what neither the push nor its count and event show. -/
theorem postRetire_keeps {β : Type} (f : Dev → β) (h : Nat) (hpush : ∀ q entry d, f (quePush q entry d).2 = f d)
    (hcount : ∀ v d, f (wr (Reg.RHEAD_RETIRE_COUNT h) v d) = f d) (hraise : ∀ d, f (raiseHead h 1 d) = f d) (l surf : Nat) (frame time : W64)
    (d : Dev) : f (postRetire h l surf frame time d) = f d := by
  have hoffer : f (retireOffer h l surf frame time d).2 = f d := by
    simp only [retireOffer]
    split
    · exact hpush ..
    · rfl
  rw [postRetire_eq]
  dsimp only
  split
  · exact (hcount ..).trans hoffer
  · exact (hraise _).trans ((hcount ..).trans hoffer)

theorem retireAll_keeps {β : Type} (f : Dev → β) (h : Nat) (hpost : ∀ l surf frame time d, f (postRetire h l surf frame time d) = f d)
    (old new : Option ActiveSet) (k : Clk) (d : Dev) : f (retireAll h old new k d) = f d := by
  refine forEach_keeps d f _ (fun l d => ?_) _
  split
  · split
    · rfl
    · exact hpost ..
  · rfl

theorem retireAll_ket (h : Nat) (old new : Option ActiveSet) (k : Clk) (d : Dev) : (retireAll h old new k d).ket = d.ket :=
  retireAll_keeps (·.ket) h (postRetire_keeps (·.ket) h quePush_ket (fun _ _ => rfl) fun _ => raiseAt_ket ..) old new k d

theorem rd_retireAll {a : Nat} (ha : rasterHeld a) (h : Nat) (old new : Option ActiveSet) (k : Clk) (d : Dev) :
    rd (retireAll h old new k d) a = rd d a :=
  retireAll_keeps (rd · a) h (postRetire_keeps (rd · a) h (rd_quePush ha)
    (fun v d => rd_wr_ne d v (rasterHeld_ne ha h (by simp [rasterShown]))) fun d => rd_raiseAt_ne d _ (rasterHeld_ne_event ha h)) old new k d

/-! The pending set is taken (R181). -/

theorem takeSet_of_none {h : Nat} {d : Dev} (k : Clk) (hp : (head d h).pending = none) : takeSet h k d = d := by simp [takeSet, hp]

/-- What taking the pending set does to the head. -/
theorem head_takeSet (h : Nat) (k : Clk) (d : Dev) : ∃ active fresh,
    head (takeSet h k d) h = { head d h with pending := none, active, fresh } ∧ ((head d h).pending = none → active = (head d h).active) := by
  cases hp : (head d h).pending with
  | none =>
    refine ⟨(head d h).active, (head d h).fresh, ?_, fun _ => rfl⟩
    rw [takeSet_of_none k hp, ← hp]
  | some set =>
    simp only [takeSet, hp]
    exact ⟨_, _, (head_congr (retireAll_ket ..) h).trans (by
      rw [head_pmonHead, head_raiseHead, head_congr (when_keeps _ (·.ket) _ (raiseHead h 5) (fun d => raiseAt_ket ..)), head_wr,
        head_setHead_same]), nofun⟩

theorem rd_takeSet {a : Nat} (ha : rasterHeld a) (h : Nat) (k : Clk) (d : Dev) : rd (takeSet h k d) a = rd d a := by
  have hev := rasterHeld_ne_event ha h
  have hlow : a < 0x110000 := by omega
  cases hp : (head d h).pending with
  | none => rw [takeSet_of_none k hp]
  | some set =>
    simp only [takeSet, hp]
    rw [rd_retireAll ha, pmonHead, rd_pmon hlow, raiseHead, rd_raiseAt_ne _ _ hev,
      when_keeps _ (rd · a) _ (raiseHead h 5) (fun d => rd_raiseAt_ne d _ hev), rd_wr_ne _ _ (rasterHeld_ne ha h (by simp [rasterShown])),
      rd_setHead]

/-! What a vertical sync leaves of a head without a timing set to take. -/

/-- From d to e head h keeps its timing, its state and its sets, and every head its control and rate. -/
structure ShowsOn (h : Nat) (d e : Dev) : Prop where
  timing : (head e h).timing = (head d h).timing
  running : (head e h).running = (head d h).running
  active : (head e h).active = (head d h).active
  pending : (head e h).pending = (head d h).pending
  regs : ∀ a, rasterHeld a → rd e a = rd d a

theorem ShowsOn.refl (h : Nat) (d : Dev) : ShowsOn h d d := ⟨rfl, rfl, rfl, rfl, fun _ _ => rfl⟩

theorem ShowsOn.trans {h : Nat} {d e f : Dev} (a : ShowsOn h d e) (b : ShowsOn h e f) : ShowsOn h d f :=
  ⟨b.timing.trans a.timing, b.running.trans a.running, b.active.trans a.active, b.pending.trans a.pending,
    fun p hp => (b.regs p hp).trans (a.regs p hp)⟩

theorem startFrame_showsOn {h : Nat} {d : Dev} (hnext : (head d h).next = none) (locked : Option W64) (k : Clk) :
    ShowsOn h d (startFrame h locked k d) := by
  have hhead : head (startFrame h locked k d) h = (head d h).begin locked k := (head_startFrame ..).trans head_frameBegun_same
  refine ⟨?_, (congrArg Head.running hhead).trans rfl, (congrArg Head.active hhead).trans rfl, (congrArg Head.pending hhead).trans rfl,
    fun a ha => ?_⟩
  · rw [hhead, Head.begin, hnext]
    rfl
  · rw [rd_startFrame (rasterHeld_ne ha h (by simp [rasterShown])) (rasterHeld_ne ha h (by simp [rasterShown])),
      rd_frameBegun (by omega) (rasterHeld_ne ha h (by simp [rasterShown])) (rasterHeld_ne ha h (by simp [rasterShown])) (.inl hnext)]

theorem slip_showsOn (h : Nat) (past : List (W64 × Time)) (d : Dev) : ShowsOn h d (slip h past d) ∧ (head (slip h past d) h).next = (head d h).next := by
  obtain ⟨consumed, hhead⟩ := head_slip_same h past d
  exact ⟨⟨(congrArg Head.timing hhead).trans rfl, (congrArg Head.running hhead).trans rfl, (congrArg Head.active hhead).trans rfl,
    (congrArg Head.pending hhead).trans rfl,
    fun a ha => rd_slip (rasterHeld_ne ha h (by simp [rasterShown])) (rasterHeld_ne ha h (by simp [rasterShown]))⟩,
    (congrArg Head.next hhead).trans rfl⟩

theorem vsyncStart_showsOn {h : Nat} {d : Dev} (hnext : (head d h).next = none) (k : Clk) : ShowsOn h d (vsyncStart h k d) := by
  rcases vsyncStart_cases h k d with e | ⟨locked, e⟩ | ⟨offset, e⟩
  · rw [e]
    exact .refl h d
  · rw [e]
    exact startFrame_showsOn hnext locked k
  · obtain ⟨hslip, hnext'⟩ := slip_showsOn h (pastCandidates k (unusedCandidates h offset k d)) d
    rw [e]
    rcases porchEnd_cases h offset k d with ⟨locked, e⟩ | ⟨w, e⟩
    · rw [e]
      exact hslip.trans (startFrame_showsOn (hnext'.trans hnext) locked k)
    · rw [e]
      refine hslip.trans ⟨?_, ?_, ?_, ?_, fun _ _ => rfl⟩ <;> rw [head_setHead_same]

/-! A capture (R170). -/

/-- A capture of head h accepts the timing that the registers hold. -/
abbrev captureOk (d : Dev) (h : Nat) : Prop :=
  let u := timingRegs d h
  timingOk (rateGrid d) u = true ∧ trazhOk d (rateGrid d) u u.trazh u.outCtl = true
    ∧ (u.split = true → trazhOk d (rateGrid d) u u.oddTrazh u.oddOut = true)

/-- A head as an accepted capture starts it. -/
def Head.started (t : Timing) (x : Head) : Head :=
  { x with forced := false, timing := some t, next := none, running := true, line := t.lastPorch }

section
variable {h : Nat} {d : Dev}

theorem captureTiming_ok (hok : captureOk d h) (enabling : Bool) : captureTiming h enabling d =
    if enabling then setPclk h (timingRegs d h) (setHead h ((head d h).started (timingRegs d h)) d)
    else setHead h { head d h with forced := false, next := some (timingRegs d h) } d := by
  obtain ⟨htiming, htrazh, hodd⟩ := hok
  have hsplit : (!(timingRegs d h).split || trazhOk d (rateGrid d) (timingRegs d h) (timingRegs d h).oddTrazh (timingRegs d h).oddOut) = true := by
    cases hs : (timingRegs d h).split with
    | false => rfl
    | true => exact hodd hs
  simp only [captureTiming, htiming, htrazh, hsplit, Bool.and_self, if_true]
  rfl

theorem captureTiming_rejected (hbad : ¬captureOk d h) (enabling : Bool) : captureTiming h enabling d = raiseHead h 4 d := by
  refine if_neg fun haccept => hbad ?_
  simp only [Bool.and_eq_true, Bool.or_eq_true, Bool.not_eq_true'] at haccept
  obtain ⟨⟨htiming, htrazh⟩, hodd⟩ := haccept
  exact ⟨htiming, htrazh, fun hs => hodd.resolve_left (by simp [hs])⟩

/-! Enable and disable (R170, R183). -/

/-- The device with RHEAD_CTL[h] written. -/
abbrev ctlWritten (h : Nat) (v : W32) (d : Dev) : Dev := wr (Reg.RHEAD_CTL h) (v &&& if h % 2 = 0 then 7 else 3) d

theorem rheadCtlWrite_again {v : W32} (k : Clk) (hv : bit v 0 = true) (hwas : rb d (Reg.RHEAD_CTL h) 0 = true) :
    rheadCtlWrite h v k d = ctlWritten h v d := by simp [rheadCtlWrite, hv, hwas, ctlWritten]

theorem rheadCtlWrite_start {v : W32} (k : Clk) (hv : bit v 0 = true) (hwas : rb d (Reg.RHEAD_CTL h) 0 = false) :
    rheadCtlWrite h v k d = rheadStart h k (ctlWritten h v d) := by simp [rheadCtlWrite, hv, hwas, ctlWritten]

theorem rheadCtlWrite_stop {v : W32} (k : Clk) (hv : bit v 0 = false) (hwas : rb d (Reg.RHEAD_CTL h) 0 = true) :
    rheadCtlWrite h v k d = rheadStop h k (ctlWritten h v d) := by simp [rheadCtlWrite, hv, hwas, ctlWritten]

theorem rheadStart_absent (k : Clk) (habsent : splitOdd d h = true ∨ kettleOut d = true ∨ unusable d (0x7020 + h) = true) :
    rheadStart h k d = d := by
  rcases habsent with e | e | e <;> simp [rheadStart, e]

theorem rheadStart_captures (k : Clk) (hodd : splitOdd d h = false) (hket : kettleOut d = false) (hpath : unusable d (0x7020 + h) = false) :
    rheadStart h k d = let e := captureTiming h true d
      if (head e h).running then vsyncStart h k (takeSet h k e) else e := by
  simp [rheadStart, hodd, hket, hpath]

theorem rheadStart_rejected (k : Clk) (hodd : splitOdd d h = false) (hket : kettleOut d = false) (hpath : unusable d (0x7020 + h) = false)
    (hbad : ¬captureOk d h) (hstopped : (head d h).running = false) : rheadStart h k d = raiseHead h 4 d := by
  rw [rheadStart_captures k hodd hket hpath, captureTiming_rejected hbad]
  dsimp only
  rw [head_raiseHead, hstopped, if_neg Bool.false_ne_true]

/-- R170, R183: a stopped head whose capture is accepted runs with the captured timing, its pending set taken. -/
theorem rheadStart_accepted (hh : h < 4) (k : Clk) (hodd : splitOdd d h = false) (hket : kettleOut d = false)
    (hpath : unusable d (0x7020 + h) = false) (hok : captureOk d h) : let t := rheadStart h k d
    let p := pixelRate (rateGrid d) (timingRegs d h)
    (head t h).running = true ∧ (head t h).timing = some (timingRegs d h) ∧ (head t h).pending = none
      ∧ ((head d h).pending = none → (head t h).active = (head d h).active) ∧ rd t (Reg.RHEAD_CTL h) = rd d (Reg.RHEAD_CTL h)
      ∧ rd t (Reg.RHEAD_PCLK h) = w32 (p.1 / p.2)
      ∧ ((timingRegs d h).split = true → rd t (Reg.RHEAD_PCLK (h + 1)) = w32 (p.1 / p.2)) := by
  let e := setPclk h (timingRegs d h) (setHead h ((head d h).started (timingRegs d h)) d)
  have hhead : head e h = (head d h).started (timingRegs d h) := (head_congr (setPclk_only ..).ket h).trans (head_setHead_same ..)
  obtain ⟨active, fresh, htaken, hactive⟩ := head_takeSet h k e
  rw [hhead] at htaken hactive
  have hstart : rheadStart h k d = vsyncStart h k (takeSet h k e) := by
    rw [rheadStart_captures k hodd hket hpath, captureTiming_ok hok]
    exact if_pos (congrArg Head.running hhead)
  have hshows := vsyncStart_showsOn (congrArg Head.next htaken) k
  have hregs {a : Nat} (ha : rasterHeld a) : rd (rheadStart h k d) a = rd e a := by rw [hstart, hshows.regs a ha, rd_takeSet ha]
  have hctl : Reg.RHEAD_CTL h ≠ Reg.RHEAD_PCLK h ∧ Reg.RHEAD_CTL h ≠ Reg.RHEAD_PCLK (h + 1) := by
    simp only [Reg.RHEAD_CTL, Reg.RHEAD_PCLK]
    omega
  obtain ⟨hpclk, hpair⟩ := rd_setPclk_pclk h (timingRegs d h) (setHead h ((head d h).started (timingRegs d h)) d)
  refine ⟨?_, ?_, ?_, fun hp => ?_, ?_, ?_, fun hs => ?_⟩
  · rw [hstart, hshows.running, htaken, Head.started]
  · rw [hstart, hshows.timing, htaken, Head.started]
  · rw [hstart, hshows.pending, htaken]
  · rw [hstart, hshows.active, htaken]
    exact hactive hp
  · rw [hregs (rasterHeld_ctl (by omega)), rd_setPclk hctl.1 hctl.2, rd_setHead]
  · exact (hregs (rasterHeld_pclk (by omega))).trans hpclk
  · exact (hregs (rasterHeld_pclk (by omega))).trans (hpair hs)

/-- A head as its disable stops it. -/
def Head.stopped (x : Head) : Head :=
  { x with
    running := false, next := none, wait := none, locked := false, free := false, line := 0, latched := false
    active := x.active.map ActiveSet.dark, pixels := [], lateBlocks := [] }

/-- The odd head of a split pair goes dark with the even one (R179). -/
def stopOdd (h : Nat) (d : Dev) : Dev :=
  if splitOdd d (h + 1) then setHead (h + 1) { head d (h + 1) with pixels := [], lateBlocks := [] } d else d

theorem rheadStop_running (k : Clk) (hrun : (head d h).running = true) : rheadStop h k d
    = retireAll h (head d h).active ((head d h).active.map ActiveSet.dark) k (setHead h (head d h).stopped (stopOdd h d)) := by
  simp only [rheadStop, hrun, if_true]
  rfl

theorem head_stopOdd_ne {g : Nat} (hg : g ≠ h + 1) : head (stopOdd h d) g = head d g := by
  unfold stopOdd
  split
  · exact head_setHead_ne _ _ hg
  · rfl

theorem rd_stopOdd (a : Nat) : rd (stopOdd h d) a = rd d a := by
  unfold stopOdd
  split <;> rfl

theorem head_rheadStop_same (k : Clk) (hrun : (head d h).running = true) : head (rheadStop h k d) h = (head d h).stopped := by
  rw [rheadStop_running k hrun, head_congr (retireAll_ket ..), head_setHead_same]

theorem head_rheadStop_ne (k : Clk) (hrun : (head d h).running = true) {g : Nat} (hg : g ≠ h) (hg' : g ≠ h + 1) :
    head (rheadStop h k d) g = head d g := by
  rw [rheadStop_running k hrun, head_congr (retireAll_ket ..), head_setHead_ne _ _ hg, head_stopOdd_ne hg']

theorem rd_rheadStop (k : Clk) (hrun : (head d h).running = true) {a : Nat} (ha : rasterHeld a) : rd (rheadStop h k d) a = rd d a := by
  rw [rheadStop_running k hrun, rd_retireAll ha, rd_setHead, rd_stopOdd]

/-- A set with every layer disabled has no surface in force. -/
theorem inForce_dark (a : Option ActiveSet) (l : Nat) : inForce (a.map ActiveSet.dark) l = none := by
  cases a with
  | none => rfl
  | some a =>
    simp only [inForce, Option.map, ActiveSet.dark, List.getElem?_map]
    cases a.layers[l]? with
    | none => rfl
    | some x => simp [ActiveLayer.shown]

theorem noteSeal_ket (a : Nat) (was d : Dev) : (noteSeal a was d).ket = d.ket := by
  obtain ⟨seen, h⟩ := noteSeal_only a was d
  rw [h]

theorem head_noteSeal (a : Nat) (was d : Dev) (g : Nat) : head (noteSeal a was d) g = head d g := head_congr (noteSeal_ket ..) g

theorem exec_rheadEnable {req : Req} {h : Fin 4} {v : W32} {s : State} (hopen : csrShut s.dev (Reg.RHEAD_CTL h) = false) (hv : bit v 0 = true) :
    exec (.rheadEnable req h v) s = nextDev s (noteSeal (Reg.RHEAD_CTL h) s.dev (rheadCtlWrite h v s.clk s.dev)) := by
  have hwrite : access (Reg.RHEAD_CTL h) (when (bit v 0) (rheadCtlWrite h v s.clk)) s.dev = rheadCtlWrite h v s.clk s.dev := by
    rw [access_open _ hopen, hv, when, if_pos rfl]
  exact congrArg (fun d => nextDev s (noteSeal (Reg.RHEAD_CTL h) s.dev d)) hwrite

theorem exec_rheadDisable {req : Req} {h : Fin 4} {v : W32} {s : State} (hopen : csrShut s.dev (Reg.RHEAD_CTL h) = false) (hv : bit v 0 = false) :
    exec (.rheadDisable req h v) s = nextDev s (noteSeal (Reg.RHEAD_CTL h) s.dev (rheadCtlWrite h v s.clk s.dev)) := by
  have hwrite : access (Reg.RHEAD_CTL h) (when (!bit v 0) (rheadCtlWrite h v s.clk)) s.dev = rheadCtlWrite h v s.clk s.dev := by
    rw [access_open _ hopen, hv, when, Bool.not_false, if_pos rfl]
  exact congrArg (fun d => nextDev s (noteSeal (Reg.RHEAD_CTL h) s.dev d)) hwrite

/-- A write that the seal pass may meet changes beside its effect only what the pass knows. -/
theorem onlyThese_noteSeal {l : List Nat} {a : Nat} {was d e : Dev} (h : onlyThese l d e) :
    onlyThese l (noted (noteSeal a was e) d) (noteSeal a was e) := by
  obtain ⟨seen, hseen⟩ := noteSeal_only a was e
  obtain ⟨honly, hregs⟩ := h
  refine ⟨?_, fun b hb => (rd_noteSeal a was e b).trans (hregs b hb)⟩
  rw [hseen, noted, onlyRegs, honly]

end

end Sys2Proof.Machine

/-!
Lines (R158, R159, R169): the line that begins, its reads and its pixels, and a read that came late.
-/

namespace Sys2Proof.Machine

/-! Slices that a scanning window ends (R345). -/

section
variable {β : Type} (f : Dev → β) (hwr : ∀ a v d, f (wr a v d) = f d) (hweevil : ∀ w d, f { d with weevil := w } = f d)
include hwr hweevil

theorem setRunner_keeps (r : Nat) (x : Option Slice) (d : Dev) : f (setRunner r x d) = f d := by
  unfold setRunner
  dsimp only
  split
  · exact (hwr ..).trans (hweevil ..)
  · exact (hwr ..).trans (hweevil ..)

variable (hraise : ∀ n ev m d, f (raiseAt n ev m d) = f d) (hpair : ∀ g d, f (onPair g d) = f d) (hpmon : ∀ src n d, f (pmon src n d) = f d)
include hraise hpair hpmon

theorem dropSlice_keeps (r : Nat) (s : Slice) (result : Nat) (k : Clk) (d : Dev) : f (dropSlice r s result k d) = f d := by
  have hreport (d : Dev) : f (adjReport s k d) = f d := by
    unfold adjReport
    split
    · split
      · exact cricketSend_keeps f hpair hpmon ..
      · rfl
    · rfl
  have hresult (d : Dev) : f (writeResult r s result 0 0 0 k d) = f d := by
    simp only [writeResult]
    exact (hraise ..).trans ((hwr ..).trans ((hwr ..).trans ((hwr ..).trans (forEach_keeps d f _ (fun _ d => hweevil ..) _))))
  exact (hreport _).trans ((hpair ..).trans ((hresult _).trans (setRunner_keeps f hwr hweevil ..)))

theorem abortKettleSlices_keeps (k : Clk) (d : Dev) : f (abortKettleSlices k d) = f d := by
  have hdrop := dropSlice_keeps f hwr hweevil hraise hpair hpmon
  have hwaiting (target : Nat) (d : Dev) : f (startWaiting target k d) = f d := by
    refine forEach_keeps d f _ (fun r d => ?_) _
    split
    · split
      · rfl
      · split
        · exact hdrop ..
        · split
          · rfl
          · exact setRunner_keeps f hwr hweevil ..
    · rfl
  refine forEach_keeps d f _ (fun r d => ?_) _
  split
  · unfold sliceAbort
    split
    · exact (hwaiting ..).trans (hdrop ..)
    · rfl
  · rfl

end

theorem abortKettleSlices_ket (k : Clk) (d : Dev) : (abortKettleSlices k d).ket = d.ket :=
  abortKettleSlices_keeps (·.ket) (fun _ _ _ => rfl) (fun _ _ => rfl) (fun _ _ _ _ => raiseAt_ket ..) (fun _ _ => rfl) (fun _ _ _ => pmon_ket ..) k d

theorem abortKettleSlices_mem (k : Clk) (d : Dev) : (abortKettleSlices k d).mem = d.mem :=
  abortKettleSlices_keeps (·.mem) (fun _ _ _ => rfl) (fun _ _ => rfl) (fun _ _ _ _ => raiseAt_mem ..) (fun _ _ => rfl) (fun _ _ d => pmon_mem d ..) k d

/-! The pixels of a line (R174 to R180). -/

/-- What a line shows rests on memory and the errors of its words. -/
theorem linePixels_congr {d e : Dev} (hmem : e.mem = d.mem) (hecc : e.ecc = d.ecc) (late : List Nat) (a : Option ActiveSet) (x0 w n y : Nat) :
    linePixels e late a x0 w n y = linePixels d late a x0 w n y := by
  have hbytes : getBytes e = getBytes d := funext fun a => funext fun n => getBytes_congr hmem a n
  have herr : errOf e = errOf d := funext (errOf_congr hecc)
  have hdark : blockDark e = blockDark d := by
    funext late o n
    simp only [blockDark, uncorrectable, herr]
  have htexel : scanTexel e = scanTexel d := by
    funext late s c x y
    simp only [scanTexel, texel, hdark, hbytes]
  have hscaled : scaled e = scaled d := by
    funext late l c j i
    rw [scaled, scaled, htexel]
  have hscaledDark : scaledDark e = scaledDark d := by
    funext late l c j i
    rw [scaledDark, scaledDark, hdark]
  have hlayer : layerPixel e = layerPixel d := by
    funext late csc idx l j i
    rw [layerPixel, layerPixel, hscaled, hscaledDark, htexel]
  have hcomposed : composed e = composed d := by
    funext late a x y
    rw [composed, composed, hlayer]
  rw [linePixels, linePixels, hcomposed]

/-- Showing a line changes nothing but the heads. -/
theorem showLine_only (h : Nat) (d : Dev) : showLine h d = { d with ket := (showLine h d).ket } := by
  unfold showLine
  dsimp only
  split
  · rfl
  · split <;> rfl

/-- What a line would show stays once it is shown. -/
theorem linePixels_showLine (g h : Nat) (d : Dev) (late : List Nat) (a : Option ActiveSet) (x0 w n y : Nat) :
    linePixels (showLine g d) late (litSet (showLine g d) h a) x0 w n y = linePixels d late (litSet d h a) x0 w n y := by
  have hmem : (showLine g d).mem = d.mem := by rw [showLine_only]
  have hecc : (showLine g d).ecc = d.ecc := by rw [showLine_only]
  have hweevil : (showLine g d).weevil = d.weevil := by rw [showLine_only]
  rw [linePixels_congr hmem hecc, litSet, litSet, unusable, unusable, hweevil]

/-- The pixels that head h sends in the line being output, by its timing set. -/
def headPixels (d : Dev) (h : Nat) (t : Timing) : List (Nat × Nat × Nat) :=
  let x := head d h
  linePixels d x.lateBlocks (litSet d h x.active) 0 (if x.running && decide (x.line < t.vActive) then t.outWidth else 0) (depthOf t.outCtl) x.line

theorem head_showLine_same {h : Nat} {d : Dev} {t : Timing} (ht : (head d h).timing = some t) :
    head (showLine h d) h = { head d h with pixels := headPixels d h t } := by
  simp only [showLine, ht]
  split
  · rw [head_setHead_ne _ _ (Nat.ne_of_lt h.lt_succ_self), head_setHead_same, headPixels]
  · rw [head_setHead_same, headPixels]

theorem head_showLine_ne {g h : Nat} (hg : g ≠ h) (hg' : g ≠ h + 1) (d : Dev) : head (showLine h d) g = head d g := by
  unfold showLine
  dsimp only
  split
  · rfl
  · split
    · rw [head_setHead_ne _ _ hg', head_setHead_ne _ _ hg]
    · rw [head_setHead_ne _ _ hg]

/-- Showing a line keeps what is late in it. -/
theorem lateBlocks_showLine (g h : Nat) (d : Dev) : (head (showLine g d) h).lateBlocks = (head d h).lateBlocks := by
  have hset (i : Nat) (x : Head) (e : Dev) (hx : x.lateBlocks = (head e i).lateBlocks) : (head (setHead i x e) h).lateBlocks = (head e h).lateBlocks := by
    by_cases hi : h = i
    · rw [hi, head_setHead_same, hx]
    · rw [head_setHead_ne _ _ hi]
  unfold showLine
  dsimp only
  split
  · rfl
  · split
    · exact (hset _ _ _ (by rw [head_setHead_ne _ _ (by omega)])).trans (hset _ _ _ rfl)
    · exact hset _ _ _ rfl

theorem errorsOnly_scanReads (h : Nat) (d : Dev) : ErrorsOnly d (scanReads h d) := by
  unfold scanReads
  split
  · split
    · exact .forEach errorsOnly_touchRead _ d
    · exact .refl d
  · exact .refl d

/-! A line begins (R169). -/

section
variable {h : Nat} {k : Clk} {d : Dev} {u : Timing}

theorem addDigest_ket (f : W64) (cls index : Nat) (digest : W32) (d : Dev) : (addDigest f cls index digest d).ket = d.ket := by
  unfold addDigest
  split <;> rfl

theorem addDigest_mem (f : W64) (cls index : Nat) (digest : W32) (d : Dev) : (addDigest f cls index digest d).mem = d.mem := by
  unfold addDigest
  split <;> rfl

/-- What a line sent does to its head: it enters the digest. -/
theorem head_digestLine_same (o n line vActive : Nat) (number : W64) (d : Dev) :
    ∃ crc, head (digestLine o n line vActive number d) o = { head d o with crc } := by
  simp only [digestLine]
  split
  · exact ⟨_, rfl⟩
  · exact ⟨_, (head_congr (when_keeps _ (·.ket) _ (addDigest _ _ _ _) fun _ => addDigest_ket ..) o).trans (head_setHead_same ..)⟩

theorem head_digestLine_ne {g o : Nat} (hg : g ≠ o) (n line vActive : Nat) (number : W64) (d : Dev) :
    head (digestLine o n line vActive number d) g = head d g := by
  simp only [digestLine]
  split
  · rfl
  · exact (head_congr (when_keeps _ (·.ket) _ (addDigest _ _ _ _) fun _ => addDigest_ket ..) g).trans (head_setHead_ne _ _ hg)

theorem digestLine_mem (o n line vActive : Nat) (number : W64) (d : Dev) : (digestLine o n line vActive number d).mem = d.mem := by
  simp only [digestLine]
  split
  · rfl
  · exact when_keeps _ (·.mem) _ (addDigest _ _ _ _) fun _ => addDigest_mem ..

/-- The line just sent by head h, and by the odd head of its pair, enters the digests (R287). -/
def lineSent (h : Nat) (t : Timing) (d : Dev) : Dev :=
  when t.split (digestLine (h + 1) (depthOf t.oddOut) (head d h).line t.vActive (head d h).number)
    (digestLine h (depthOf t.outCtl) (head d h).line t.vActive (head d h).number d)

/-- The next line of head h, before its reads. -/
def lineMoved (h : Nat) (t : Timing) (k : Clk) (d : Dev) : Dev :=
  let e := setHead h { head (lineSent h t d) h with line := ((head d h).line + 1) % t.vTotal } (lineSent h t d)
  if !scanning (head d h) && scanning (head e h) then abortKettleSlices k e else e

theorem head_lineSent_same : ∃ crc, head (lineSent h u d) h = { head d h with crc } := by
  obtain ⟨crc, hcrc⟩ := head_digestLine_same h (depthOf u.outCtl) (head d h).line u.vActive (head d h).number d
  exact ⟨crc, (when_keeps _ (head · h) _ (digestLine (h + 1) _ _ _ _) fun _ => head_digestLine_ne (Nat.ne_of_lt h.lt_succ_self) ..).trans hcrc⟩

theorem head_lineSent_ne {g : Nat} (hg : g ≠ h) (hg' : g ≠ h + 1) : head (lineSent h u d) g = head d g :=
  (when_keeps _ (head · g) _ (digestLine (h + 1) _ _ _ _) fun _ => head_digestLine_ne hg' ..).trans (head_digestLine_ne hg ..)

theorem lineSent_mem : (lineSent h u d).mem = d.mem :=
  (when_keeps _ (·.mem) _ (digestLine (h + 1) _ _ _ _) fun _ => digestLine_mem ..).trans (digestLine_mem ..)

/-- The head on its next line. -/
theorem head_lineMoved_same : ∃ crc, head (lineMoved h u k d) h = { head d h with line := ((head d h).line + 1) % u.vTotal, crc } := by
  obtain ⟨crc, hcrc⟩ := head_lineSent_same (h := h) (d := d) (u := u)
  refine ⟨crc, ?_⟩
  simp only [lineMoved]
  split
  · rw [head_congr (abortKettleSlices_ket ..), head_setHead_same, hcrc]
  · rw [head_setHead_same, hcrc]

theorem head_lineMoved_ne {g : Nat} (hg : g ≠ h) (hg' : g ≠ h + 1) : head (lineMoved h u k d) g = head d g := by
  simp only [lineMoved]
  split
  · rw [head_congr (abortKettleSlices_ket ..), head_setHead_ne _ _ hg, head_lineSent_ne hg hg']
  · rw [head_setHead_ne _ _ hg, head_lineSent_ne hg hg']

theorem lineMoved_mem : (lineMoved h u k d).mem = d.mem := by
  simp only [lineMoved]
  split
  · exact (abortKettleSlices_mem ..).trans lineSent_mem
  · exact lineSent_mem

theorem lineStart_moves (ht : (head d h).timing = some u) (hrun : (head d h).running = true) (heven : splitOdd d h = false)
    (hline : (head d h).line ≠ u.lastPorch) : lineStart h k d = showLine h (scanReads h (lineMoved h u k d)) := by
  have hline' : ((head d h).line == u.lastPorch) = false := beq_eq_false_iff_ne.mpr hline
  simp only [lineStart, ht, hrun, heven, hline', Bool.not_true, Bool.or_self, if_neg Bool.false_ne_true]
  rfl

theorem lineStart_porch (ht : (head d h).timing = some u) (hline : (head d h).line = u.lastPorch) : lineStart h k d = d := by
  simp [lineStart, ht, hline]

theorem lineStart_mem (ht : (head d h).timing = some u) (hrun : (head d h).running = true) (heven : splitOdd d h = false)
    (hline : (head d h).line ≠ u.lastPorch) : (lineStart h k d).mem = d.mem := by
  rw [lineStart_moves ht hrun heven hline, showLine_only]
  exact (errorsOnly_scanReads ..).mem.trans lineMoved_mem

/-- R169: the head on its next line, with the pixels of that line. -/
theorem head_lineStart_same (ht : (head d h).timing = some u) (hrun : (head d h).running = true) (heven : splitOdd d h = false)
    (hline : (head d h).line ≠ u.lastPorch) : let x := head d h
    let y := (x.line + 1) % u.vTotal
    let t := lineStart h k d
    ∃ crc pixels, head t h = { x with line := y, crc, pixels }
      ∧ pixels = if y < u.vActive then linePixels t x.lateBlocks (litSet t h x.active) 0 u.outWidth (depthOf u.outCtl) y else [] := by
  obtain ⟨crc, hmoved⟩ := head_lineMoved_same (h := h) (u := u) (k := k) (d := d)
  have hread : head (scanReads h (lineMoved h u k d)) h = head (lineMoved h u k d) h := head_congr (errorsOnly_scanReads ..).ket h
  rw [hmoved] at hread
  have hshow := head_showLine_same (d := scanReads h (lineMoved h u k d)) (h := h) (t := u) (by rw [hread]; exact ht)
  have hpixels : headPixels (scanReads h (lineMoved h u k d)) h u = if ((head d h).line + 1) % u.vTotal < u.vActive then
      linePixels (scanReads h (lineMoved h u k d)) (head d h).lateBlocks (litSet (scanReads h (lineMoved h u k d)) h (head d h).active) 0
        u.outWidth (depthOf u.outCtl) (((head d h).line + 1) % u.vTotal) else [] := by
    rw [headPixels, hread]
    simp only [hrun, Bool.true_and, decide_eq_true_eq]
    split <;> rfl
  rw [hread] at hshow
  simp only [lineStart_moves ht hrun heven hline]
  refine ⟨crc, _, hshow, hpixels.trans ?_⟩
  rw [linePixels_showLine]

theorem head_lineStart_ne (ht : (head d h).timing = some u) (hrun : (head d h).running = true) (heven : splitOdd d h = false)
    (hline : (head d h).line ≠ u.lastPorch) {g : Nat} (hg : g ≠ h) (hg' : g ≠ h + 1) : head (lineStart h k d) g = head d g := by
  rw [lineStart_moves ht hrun heven hline, head_showLine_ne hg hg', head_congr (errorsOnly_scanReads ..).ket, head_lineMoved_ne hg hg']

/-! A late read (R158). -/

/-- A block of what head h's set scans. -/
def scanHit (d : Dev) (h block : Nat) (a : ActiveSet) : Bool :=
  scanning (head d (governor d h)) && a.layers.any fun l => layerHit l (block * 64) 64

/-- A late read, counted and kept for the frame, before the line is shown again. -/
def lateRead (h block : Nat) (d : Dev) : Dev :=
  raiseHead h 7 (pmonHead h 3 (bumpSat (Reg.RHEAD_SCAN_LATE_COUNT h) 1
    (setHead h { head d h with lateBlocks := (head d h).lateBlocks ++ [block] } d)))

theorem scanLate_eq {block : Nat} {a : ActiveSet} (ha : (head d (governor d h)).active = some a) :
    scanLate h block d = if scanHit d h block a then showLine (governor d h) (lateRead h block d) else d := by
  simp only [scanLate, ha]
  rfl

theorem scanLate_hit (hh : h < 4) {block : Nat} {a : ActiveSet} (ha : (head d (governor d h)).active = some a) (hhit : scanHit d h block a = true) :
    let t := scanLate h block d
    t.mem = d.mem ∧ rb t (Reg.RHEAD_EVENT h) 7 = true
      ∧ rd t (Reg.RHEAD_SCAN_LATE_COUNT h) = w32 (min (2 ^ 32 - 1) ((rd d (Reg.RHEAD_SCAN_LATE_COUNT h)).toNat + 1))
      ∧ (head t h).lateBlocks = (head d h).lateBlocks ++ [block] := by
  have hplace : Reg.RHEAD_SCAN_LATE_COUNT h ≠ Reg.RHEAD_EVENT h := by
    simp only [Reg.RHEAD_SCAN_LATE_COUNT, Reg.RHEAD_EVENT]
    omega
  have hlow : Reg.RHEAD_SCAN_LATE_COUNT h < 0x110000 := by
    simp only [Reg.RHEAD_SCAN_LATE_COUNT]
    omega
  have hshow : scanLate h block d = showLine (governor d h) (lateRead h block d) := by rw [scanLate_eq ha, if_pos hhit]
  have hregs : (showLine (governor d h) (lateRead h block d)).regs = (lateRead h block d).regs := by rw [showLine_only]
  rw [hshow]
  refine ⟨?_, ?_, ?_, ?_⟩
  · rw [showLine_only]
    exact (raiseAt_mem ..).trans (pmon_mem ..)
  · rw [rb, rd_congr hregs]
    exact rb_raiseAt_bitIf _ _ _ (by decide)
  · rw [rd_congr hregs, lateRead, raiseHead, rd_raiseAt_ne _ _ hplace, pmonHead, rd_pmon hlow, bumpSat, rd_wr_same, rd_setHead]
  · rw [lateBlocks_showLine, lateRead, head_raiseHead, head_pmonHead, head_bumpSat, head_setHead_same]

/-- R158, R159: a block is dark where a read of it was late or a word of it is uncorrectable. -/
theorem blockDark_of_mem {late : List Nat} {o n b : Nat} (hb : b ∈ ketBlocks o n)
    (hdark : b ∈ late ∨ uncorrectable d (ketBase + b * 64) 64 = true) : blockDark d late o n = true :=
  List.any_eq_true.mpr ⟨b, hb, by simpa using hdark⟩

end

end Sys2Proof.Machine

/-!
O34: the timing commands of a raster head.
-/

namespace Sys2Proof.Machine

theorem exec_lineStart (h : Fin 4) (s : State) : exec (.lineStart h) s = nextDev s (lineStart h s.clk s.dev) := rfl

/-- R187: a hot plug is recorded, and trains the link where no lane loops and one is usable. -/
theorem hpd_trains (d : Dev) (h : Nat) (high trained : Bool) :
    (high && trained && !d.sys.tripped && !dpLooped d h && decide (0 < dpLanes d h)) = true
      ↔ high = true ∧ trained = true ∧ d.sys.tripped = false ∧ 0 < dpLanes d h ∧ ∀ l < 4, looped d (12 + 4 * h + l) = false := by
  simp only [dpLooped, Bool.and_eq_true, Bool.not_eq_true', List.any_eq_false, List.mem_range, decide_eq_true_eq, Bool.not_eq_true]
  tauto

/-- Settles O34: a lemma for each command. A frame's start is stated once, from the device in which it starts; passed candidates are slipped
before it. -/
theorem rasterTiming : Obligations.RasterTiming := by
  unfold Obligations.RasterTiming
  have start (h : Fin 4) (locked : Option W64) (s : State) := startFrame_starts h.isLt locked s.clk s.dev
  refine ⟨fun req h v s hopen hv => ⟨fun habsent => ?_, fun hwas hodd hket hpath => ⟨fun hok => ?_, fun hbad hstopped => ?_⟩⟩,
    fun req h v s hopen hv hwas hrun => ?_, fun req h s hshut => ?_, fun req h s hopen heven => ⟨fun hok => ?_, fun hbad => ?_⟩,
    fun h s u ht hrun heven hline => ?_, fun h s => ⟨fun hwait => ?_, fun w hwait => ⟨fun hstays => ?_, fun hv hlong => ?_⟩⟩,
    fun h s u ht hrun heven => ⟨fun hline => ?_, fun hline => ?_⟩, fun h block s a ha => ⟨fun hhit => ?_, fun hhit => ?_⟩,
    fun d late ws c x y hdark => if_pos hdark, fun d late o n b => blockDark_of_mem, fun h high trained s => ⟨_, rfl, rfl, hpd_trains ..⟩⟩
  · rw [exec_rheadEnable hopen hv]
    refine congrArg (fun d => nextDev s (noteSeal (Reg.RHEAD_CTL h) s.dev d)) ?_
    rcases hwas : rb s.dev (Reg.RHEAD_CTL h) 0 with _ | _
    · rw [rheadCtlWrite_start _ hv hwas]
      exact rheadStart_absent _ (habsent.resolve_left (by simp [hwas]))
    · exact rheadCtlWrite_again _ hv hwas
  · obtain ⟨hrunning, htiming, hpending, hactive, hctl, hpclk, hpair⟩ := rheadStart_accepted h.isLt s.clk hodd hket hpath hok
    rw [exec_rheadEnable hopen hv, rheadCtlWrite_start _ hv hwas]
    refine ⟨_, rfl, rfl, ?_⟩
    simp only [head_noteSeal, rd_noteSeal]
    exact ⟨hrunning, htiming, hpending, hactive, hctl, hpclk, hpair⟩
  · rw [exec_rheadEnable hopen hv, rheadCtlWrite_start _ hv hwas, rheadStart_rejected _ hodd hket hpath hbad hstopped]
    refine ⟨_, rfl, rfl, ?_, onlyThese_noteSeal (onlyThese_raiseAt ..)⟩
    rw [rb, rd_noteSeal]
    exact rb_raiseAt_bitIf _ _ _ (by decide)
  · have hrun' : (head (ctlWritten h v s.dev) h).running = true := hrun
    rw [exec_rheadDisable hopen hv, rheadCtlWrite_stop _ hv hwas]
    refine ⟨_, rfl, rfl, ?_⟩
    simp only [head_noteSeal, head_rheadStop_same s.clk hrun', rb, rd_noteSeal, rd_rheadStop s.clk hrun' (rasterHeld_ctl (h := h) (by omega))]
    refine ⟨rfl, ?_, rfl, rfl, fun l _ => inForce_dark _ l, fun g _ hg hg' => head_rheadStop_ne s.clk hrun' hg hg'⟩
    rw [rd_wr_same, bit, BitVec.getLsbD_and, ← bit, hv, Bool.false_and]
  · refine congrArg (nextDev s) ?_
    rcases hshut with hshut | hodd
    · exact access_shut _ hshut
    · simp [access, timingApply, hodd]
  · have happly : timingApply h s.dev = _ := (if_neg (by simp [heven])).trans (captureTiming_ok hok false)
    exact congrArg (nextDev s) ((access_open _ hopen).trans happly)
  · have happly : timingApply h s.dev = _ := (if_neg (by simp [heven])).trans (captureTiming_rejected hbad false)
    exact ⟨_, congrArg (nextDev s) ((access_open _ hopen).trans happly), rfl, rb_raiseAt_bitIf _ _ _ (by decide), onlyThese_raiseAt ..⟩
  · have hat : AtPorchEnd s.dev h u := ⟨ht, hrun, heven, hline⟩
    refine ⟨fun hfree => ⟨_, congrArg (nextDev s) (vsyncStart_free hat hfree), rfl, start h none s⟩, fun hlock hforced w hwait => ?_,
      fun hlock hforced hwait => ?_⟩
    · have hsync := vsyncStart_waiting (k := s.clk) hat hlock hforced hwait
      refine ⟨fun hv => ⟨_, congrArg (nextDev s) (hsync.trans (if_pos hv)), rfl, start h (some w.frame) s⟩, fun hv => ?_⟩
      exact congrArg (nextDev s) (hsync.trans (if_neg (not_le.mpr hv)))
    · refine ⟨_, congrArg (nextDev s) (vsyncStart_porch hat hlock hforced hwait), (rd_porchEnd_slip h.isLt).trans rd_slip_count,
        rb_porchEnd_slip h.isLt, fun j v hnear hv => ?_, fun j v hnear hv => ?_, fun hfar => ⟨rfl, ?_⟩⟩
      · subst hv
        exact ⟨rfl, porchEnd_now hnear ▸ startsFrame_of_slip (startFrame_starts h.isLt ..)⟩
      · obtain ⟨consumed, hslip⟩ := head_slip_same h (pastCandidates s.clk (unusedCandidates h u.offset s.clk s.dev)) s.dev
        simp only [porchEnd_later hnear hv, head_setHead_same, hslip]
        exact ⟨trivial, trivial, hrun, trivial⟩
      · exact porchEnd_far hfar ▸ startsFrame_of_slip (startFrame_starts h.isLt ..)
  · exact congrArg (nextDev s) (abandonWait_none hwait)
  · refine congrArg (nextDev s) ((abandonWait_waiting hwait).trans (if_neg fun ⟨hv, hlong⟩ => ?_))
    exact hstays.elim (not_le.mpr hv) (not_lt.mpr hlong)
  · exact ⟨_, congrArg (nextDev s) ((abandonWait_waiting hwait).trans (if_pos ⟨hv, hlong⟩)), rfl, start h none s⟩
  · exact congrArg (nextDev s) (lineStart_porch ht hline)
  · obtain ⟨crc, pixels, hhead, hpixels⟩ := head_lineStart_same (k := s.clk) ht hrun heven hline
    refine ⟨_, exec_lineStart h s, rfl, sameMemory_of_mem (lineStart_mem ht hrun heven hline), ?_⟩
    rw [hhead]
    exact ⟨rfl, rfl, rfl, ht, rfl, hpixels, fun g _ hg hg' => head_lineStart_ne ht hrun heven hline hg hg'⟩
  · exact congrArg (nextDev s) ((scanLate_eq ha).trans (if_neg (by simp [scanHit, hhit])))
  · obtain ⟨hmem, hev, hcount, hlate⟩ := scanLate_hit h.isLt ha hhit
    exact ⟨_, rfl, rfl, sameMemory_of_mem hmem, hev, hcount, hlate⟩

end Sys2Proof.Machine

/-!
O35: a commit to a head without its Kettle read path.
-/

namespace Sys2Proof.Machine

/-- A head without its Kettle read path takes no commit (R339). -/
theorem rheadCommit_of_unusable {d : Dev} {h : Nat} (hpath : unusable d (0x7020 + governor d h) = true) : rheadCommit h d = d := by
  simp [rheadCommit, hpath]

theorem exec_rheadCommit_of_unusable (req : Req) {h : Fin 4} {s : State} (hpath : unusable s.dev (0x7020 + governor s.dev h) = true) :
    exec (.rheadCommit req h) s = .next s := by
  have hdev : access (Reg.RHEAD_COMMIT h) (rheadCommit h) s.dev = s.dev := by
    simp [access, rheadCommit_of_unusable hpath]
  exact congrArg (nextDev s) hdev

/-- The state after reset, but that Weevil has marked the Kettle read path of head 0 UNUSABLE (R338). -/
def pathlessState : State :=
  { State.reset with dev := { Dev.reset with weevil := { marks := [(0x7020, { mark := 2 })] } } }

/-- Refutes O35: a commit to a head whose Kettle read path Weevil has marked UNUSABLE (target 0x7020 of head 0) leaves the pending set empty,
as R339 has it, where the first clause gives every open commit a pending set. -/
theorem not_rasterCommit : ¬ Obligations.RasterCommit := by
  unfold Obligations.RasterCommit
  rintro ⟨hcommit, -⟩
  obtain ⟨t, p, hexec, -, hhead, -⟩ := hcommit .host 0 pathlessState (by decide)
  rw [exec_rheadCommit_of_unusable .host (by decide)] at hexec
  cases hexec
  have hpending := congrArg Head.pending hhead
  have hempty : (head pathlessState.dev (governor pathlessState.dev 0)).pending = none := by decide
  exact absurd (hempty.symm.trans hpending) (by simp)

end Sys2Proof.Machine
